-- ==== Sys2Proof/Word.lean ====
section
/-! DEFINITION. The word types of the SL4916 and the plain number formats the manual names. -/
namespace Sys2Proof

/-- A byte of a register, a frame or a memory. -/
abbrev Byte := BitVec 8

/-- A 32-bit register word (R2). -/
abbrev Word := BitVec 32

/-- A venue-time instant or duration in units of 2^-16 ns: the 64-bit nanosecond count and its 16-bit fraction (R25). -/
abbrev Vt := BitVec 80

/-- One nanosecond in the units of `Vt`. -/
def nsUnit : Nat := 65536

end Sys2Proof
end

