-- ==== Sys2Proof/Syntax.lean ====
section
/-! DEFINITION. The commands of the block: one constructor for each row of the spec's opcode table, with the operands of the row.
`at_` is the instant of the event by Venue Time, in 2^-16 ns (log entry 11). -/
namespace Sys2Proof

/-- How a command of chapter 11 reaches the device. -/
inductive Via where
  /-- In the open session at this index: the frame field, NOREPLY and the when field of its packet. -/
  | session (index : Fin 32) (tag : Word) (noReply : Bool) (when_ : BitVec 64)
  /-- From the queue of the poll bus. -/
  | poll
  /-- Through the mailbox. -/
  | mbox
  deriving DecidableEq, Repr

/-- What Table 2.1 asks of the header of a received PTP message: over UDP/IPv4 or over Ethernet, unicast or multicast, its
domainNumber, and its logMessageInterval in two's complement. -/
structure PtpHead where
  udp : Bool
  unicast : Bool
  ptpDomain : BitVec 8
  logInterval : BitVec 8
  deriving DecidableEq, Repr

/-- R351: what the board does at the 32 PX pads: the level it puts there, and where it overdrives a driven pin. -/
structure PxBoard where
  level : Word
  forced : Word
  deriving DecidableEq, Repr

/-- The signal balls of Tables 20.13 and 20.14 that boundary scan reaches: all but COL, VPRE, IREF, the SerDes pairs, XI/XO and ALWI/ALWO
(R494), and but the five of the test access port itself. -/
inductive BsPin where
  | la (i : Fin 7) | len | lblk | lsdi | lsck | llat | ldis (i : Fin 4)
  | swA (u : Fin 8) | swB (u : Fin 8) | trip (i : Fin 8) | vlsr | vlsg | tha | thb
  | px (i : Fin 32)
  | mirD (i : Fin 24) | mirPclk | mirDe | mirHs | mirVs | mirTe | mirCs | mirWr
  | pbTx | pbRx | pbDe | svcSck | svcCs | svcIo (i : Fin 4) | svcIrq | qfSck | qfCs | qfIo (i : Fin 4)
  | ppsIn | ppsOut | genlockIn | bootsel (i : Fin 2) | resetN | wake
  deriving DecidableEq, Repr

/-- The commands. -/
inductive Instr where
  /-- R433: VDDAO rises through its POR release level and a boot begins. -/
  | powerOnReset (bootsel : BitVec 2) (rails : BitVec 5)
  /-- R433: RESET_N rises after a low time of at least 10 µs and a boot begins. -/
  | resetNRise (bootsel : BitVec 2)
  /-- R434: Boot ROM completes; firmware starts in LOADED, or RECOVERY is entered when both slots fail. -/
  | firmwareStart (at_ : Vt)
  /-- R450: At the first grid point at least 1 ms after the Seal was applied, outside BRACE, the device enters ARMED, creates Seal objects, copies the fallback, applies the pawn start mask, starts the scan engine and sends the final ARM OK. -/
  | armedEntry (at_ : Vt)
  /-- R229: The Rook finishes copying the fallback section into the fallback definitions and descriptors and sets MOTIF_FB_STAT.LOADED. -/
  | fallbackCopyDone
  /-- R451: At the grid point after DISARM the device returns to READY, the scan engine goes idle, groups go IDLE and locks are released. -/
  | disarmAtGridPoint (at_ : Vt)
  /-- R449: Once per second in STALEMATE firmware broadcasts EV_STALEMATE with the check code while a node address is set. -/
  | stalemateBeacon (at_ : Vt)
  /-- R454: New firmware writes SEAL_BOOT.CONFIRM; the boot record is written and EV_FW_SWAP raised. -/
  | fwConfirm
  /-- R454: No confirmation within 400 ms of a swap restart; the Rook restarts the core into the previous slot and raises EV_FW_SWAP with [1] 1. -/
  | fwConfirmTimeout (at_ : Vt)
  /-- R444: The boot-flash write of the armed Seal is verified and SEAL_WRITE replies. -/
  | sealWriteDone (at_ : Vt)
  /-- R304: The control core completes a restart; commands are served again, held subscription records and late timed commands are handled. -/
  | coreRestartDone (at_ : Vt)
  /-- R491: A write of 0x0000_5A5A to SYS_ROOK_KICK restarts the watchdog count. -/
  | watchdogKick (at_ : Vt) (w : Word)
  /-- R491: The watchdog period passes without a kick; the Rook frees held cells, applies WDOG_ACTION, restarts the control core or begins a full boot at the restart limit, and raises EV_WDOG. -/
  | watchdogExpiry (at_ : Vt) (bootsel : BitVec 2)
  /-- R20: No complete frame presented for STREAM_LOSS_TIMEOUT; the fallback look is started at the next grid point with EV_STREAM_LOST and EV_FALLBACK_ON. -/
  | streamLossTimeout (at_ : Vt)
  /-- R13: A switched power domain is lost unexpectedly; EV_DOMAIN_FAULT is raised and the floor, moves and outputs follow the loss rules. -/
  | domainFault (at_ : Vt) (d : Fin 6) (bootsel : BitVec 2)
  /-- R463: A rail stays below its warning level for 0.5 µs; the device enters or extends BRACE and raises EV_BROWN_C or EV_BROWN_A. -/
  | railWarning (at_ : Vt) (rail : Fin 5)
  /-- R466: Every rail meets its recovery condition; EV_BROWN_CLEAR is raised and withheld storage writes and display resume. -/
  | braceEnd (at_ : Vt)
  /-- R467: A rail crosses its reset level; the Rook takes the dark-safe state and holds the fed domains in reset until recovery starts a boot. -/
  | railReset (at_ : Vt) (rail : Fin 5)
  /-- R461: VDDC or VDDS crosses the 0.830 V guard level and is handled as a reset-level crossing with GUARD recorded. -/
  | railGuard (at_ : Vt) (rail : Fin 2)
  /-- R467: A rail that reached its reset level meets its recovery condition and the boot begins. -/
  | supplyRecovered (at_ : Vt) (rails : BitVec 5) (bootsel : BitVec 2)
  /-- R468: A write to PWR_DOMAIN.EN switches the named domains off or on in the set order. -/
  | domainSwitch (at_ : Vt) (w : Word)
  /-- R469: Firmware restores a switched-on domain's Seal registers and memory contents within 20 ms. -/
  | domainRestore (at_ : Vt) (d : Fin 6)
  /-- R473: The ALW clock monitor detects loss of REF; dark-safe state, EV_GCK_UNLOCK with bit 31, CLK_STAT.REF_LOST. -/
  | refLost (at_ : Vt)
  /-- R473: REF has run again for 1 ms and the boot begins. -/
  | refRestored (at_ : Vt) (bootsel : BitVec 2)
  /-- R474: ALW stops; CLK_STAT.ALW_LOST is set and the alarm and Rook timers run from REF. -/
  | alwLost (at_ : Vt)
  /-- R475: After a SENTRY reply the device closes sessions, idles outputs, retains the Seal, switches domains off and disarms supervisors. -/
  | sentryEntry (at_ : Vt) (pin : Bool) (energy : BitVec 6) (bootsel : BitVec 2)
  /-- R478: The WAKE pin is held active for 100 µs in Sentry; EV_WAKE and a boot follow. -/
  | wakePin (at_ : Vt) (bootsel : BitVec 2)
  /-- R478: Signal energy on the wake port for 20 µs wakes the device from Sentry. -/
  | linkEnergy (at_ : Vt) (port : Fin 6) (bootsel : BitVec 2)
  /-- R478: PWR_ALARM.DELAY_S seconds pass in Sentry on ALW and the device wakes. -/
  | alarm (at_ : Vt) (bootsel : BitVec 2)
  /-- R185: The die reaches 115 °C; SINK_DIE.WARN is set and EV_TJ_WARN raised. -/
  | dieTempWarn (at_ : Vt)
  /-- R185: The die reaches 135 °C; the Rook enters the dark-safe state and raises EV_TJ_SHUT. -/
  | dieTempShutdown (at_ : Vt)
  /-- R185: After 10 s below 105 °C the Rook leaves the dark-safe state and the display resumes. -/
  | dieCoolResume (at_ : Vt)
  /-- R159: The IREF current leaves 80 µA to 120 µA (or returns); sinks are held off and IREF_FAULT set, resuming at the next frame start. -/
  | irefFault (microamps : Nat)
  /-- R488: A read finds a single-bit error (corrected) or a double-bit error (recorded and handled per Table 18.2). -/
  | eccError (at_ : Vt) (memory : Fin 5) (word : BitVec 24) (double : Bool) (frame : Nat) (bootsel : BitVec 2)
  /-- R489: The scrubber reads every word of the protected memories once per SCRUB_PERIOD. -/
  | scrubPass (at_ : Vt) (found : List (Nat × Nat × Bool))
  /-- R490: Firmware rewrites reported uncorrectable words from the armed Seal and re-checks calibration. -/
  | eccRewrite (at_ : Vt)
  /-- R36: A valid Sync from the chosen port yields an offset measurement that steers or steps VT and moves the servo state. -/
  | ptpSync (at_ : Vt) (port : Fin 6) (head : PtpHead) (ingress origin : Vt) (corr : BitVec 64) (followUp : Option (BitVec 64))
  /-- R33: An Announce message updates the best-master choice of the Sync port. -/
  | ptpAnnounce (at_ : Vt) (port : Fin 6) (head : PtpHead) (dataset : List Nat) (steps : Nat)
  /-- R34: The device sends Delay_Req or runs a peer-delay exchange on each qualifying port at its interval. -/
  | delayMeasurement (at_ : Vt) (port : Fin 6) (delay : BitVec 48) (logInterval : BitVec 8)
  /-- R35: LOSS_N measurement intervals pass without a valid measurement; the device changes port or enters HOLDOVER. -/
  | syncLoss (others : BitVec 6)
  /-- R44: As grandmaster the device sends Announce and one-step Sync on GM_PORTS at its intervals. -/
  | gmSyncAnnounce (at_ : Vt)
  /-- R46: A PPS_IN edge is accepted as a measurement or rejected outside IN_WINDOW. -/
  | ppsInEdge (at_ : Vt)
  /-- R46: No accepted PPS_IN edge for 2 s; PPS_IN_OK clears and EV_PPS_MISSING is raised under GM_PPS. -/
  | ppsMissing (at_ : Vt)
  /-- R47: PPS_OUT rises at each VT whole second and falls after OUT_WIDTH. -/
  | ppsOut (at_ : Vt)
  /-- R48: A GENLOCK_IN edge is accepted as a grid point measurement (first one sets the epoch) or rejected. -/
  | genlockInEdge (at_ : Vt) (falling : Bool)
  /-- R48: Three predicted GENLOCK_IN edges pass without acceptance and count as LOSS_N intervals. -/
  | genlockLoss
  /-- R43: A write to TIME_CFG that changes SRC or DOMAIN puts the servo in FREE. -/
  | timeCfgWrite (w : Word)
  /-- R501: A read of TIME_VT at 0x0004_0008 latches NS_HI and FRAC. -/
  | timeVtRead (at_ : Vt)
  /-- R50: At the first GCLK edge at or after a grid point (or permitted READY start) the planes flip or a plane repeats, a dark frame or fallback change applies, and mirror requests and pawn frame ticks are set. -/
  | frameStart (at_ : Vt)
  /-- R54: In READY no new frame starts by previous start plus FRAME_MAX; the shown frame repeats with EV_FRAME_REPEAT. -/
  | frameMaxRepeat (at_ : Vt)
  /-- R134: A line slot runs its segment, pieces, probes, census and headroom samples, turn-off, discharge, pre-charge and line selection. -/
  | lineSlot (fetched : Bool) (vcol : List (Nat × Nat))
  /-- R129: A closed subframe's headroom and census record is processed from the record queue. -/
  | subframeRecord
  /-- R195: Observations are applied to run, age and map state, group states change, and census events and sweep ends follow. -/
  | censusObservationApply (n : Nat)
  /-- R146: One line slot before the castling point pending groups are captured and value and fit checks evaluated. -/
  | castleSetup (at_ : Vt)
  /-- R186: Captured groups are copied, T_B sampled, FF, thermal matrix and loop set-points formed, and device-own changes applied. -/
  | castlingPoint (at_ : Vt)
  /-- R81: Composition of the selected board begins at the latest of deadline, castling point and READY instant. -/
  | compositionStart (at_ : Vt)
  /-- R84: A frame not READY at its deadline is discarded (SKIP) or composed with patched slots (PATCH). -/
  | frameDeadline (at_ : Vt)
  /-- R82: Composition finishes writing the inactive grey plane. -/
  | compositionDone (at_ : Vt)
  /-- R154: GCK loses lock without a commit; sinks turn off and EV_GCK_UNLOCK is raised. -/
  | gckUnlock (at_ : Vt)
  /-- R153: GCK locks after a class C change or unlock, and the display resumes at the first fitting frame start. -/
  | gckRelock (at_ : Vt)
  /-- R153: GCK has not locked 5 ms after a class C castling point; EV_GCK_UNLOCK is raised. -/
  | gckLockTimeout (at_ : Vt)
  /-- R145: A write to SYS_CASTLE sets pending groups, late or applied at once when the scan engine is idle. -/
  | castleCommit (mask : BitVec 9)
  /-- R178: Every 1 ms the board temperature is sampled, interpolated and filtered, and sensor faults are tested. -/
  | tbSample
  /-- R180: No valid pawn temperature word for STALE × 100 ms; the input is faulty and T_B is taken from DIE. -/
  | tbPawnStale (at_ : Vt)
  /-- R175: The SAR ADC completes a conversion of one channel into ADC_DATA_c. -/
  | adcConversion (c : Fin 6) (code : BitVec 12)
  /-- R170: A loop samples its rail at an SPWM boundary and writes a new duty, handling limit and overvoltage. -/
  | loopSample (i : Fin 2) (code : BitVec 12)
  /-- R79: A checked PIXEL packet is accepted or refused, placed on a board and its slots covered. -/
  | pixelPacket (at_ : Vt) (when_ : BitVec 64) (frame : Word) (payload : List Byte)
  /-- R314: A TIME packet carrying a FOLLOW announcement is used or counted as rejected. -/
  | timePacket (verMaj : BitVec 8) (session : Word) (payload : List Byte)
  /-- R300: A HELLO request opens a session with version, index, credits and caps, or is refused. -/
  | hello (at_ : Vt) (src : BitVec 12) (mac : BitVec 48) (udp : Option (Nat × Nat)) (tag : Word) (payload : List Byte)
  /-- R240: At a received frame's 64th byte the forwarding core classifies it and starts cut-through forwarding. -/
  | frameClassify (at_ : Vt) (port : Fin 6) (head : List Byte)
  /-- R247: A frame ends: FCS is checked, stomping or discard applied, duplicate windows tested and local delivery made. -/
  | frameReceived (at_ : Vt) (port : Fin 6) (frame : List Byte)
  /-- R263: A port's pause time runs out and transmission resumes. -/
  | pauseExpiry (at_ : Vt) (port : Fin 6)
  /-- R250: An egress port begins sending the next queued frame in strict priority. -/
  | txQueueStart (at_ : Vt) (port : Fin 6)
  /-- R259: An egress port ends transmission of a frame and its cells are freed when unused. -/
  | txFrameDone (at_ : Vt) (port : Fin 6)
  /-- R259: A local consumer releases LOCKED cells, which return to FREE. -/
  | cellRelease (core : Bool)
  /-- R261: While free cells stay below XON, each SEND port sends its PAUSE again after half the pause time. -/
  | flowControlPauseResend (port : Fin 6)
  /-- R253: A duplicate window unused for FWD_DUP.AGE ms is freed. -/
  | dupWindowAge (at_ : Vt)
  /-- R255: A trunk receives no qualifying frame within FWD_RING.TMO and the ring state changes. -/
  | ringDeliveryTimeout (at_ : Vt)
  /-- R238: A port's PCS holds lock for 1 ms with negotiation done and no fault; EV_LINK_UP. -/
  | linkUp (port : Fin 6) (fec : Bool) (refused : Bool)
  /-- R238: A port's PCS lock is lost or a fault signalled for longer than DOWN_HOLD; EV_LINK_DOWN. -/
  | linkDown (port : Fin 6) (fault : Fin 3)
  /-- R239: A write to LINK_MODE takes the link down and discards or stomps its frames. -/
  | linkModeWrite (port : Fin 6) (w : Word)
  /-- R267: A transmitter enters LPI when its queues are empty inside the LPI window with no scheduled frame due. -/
  | lpiEnter (at_ : Vt) (port : Fin 6) (due : Bool)
  /-- R267: A transmitter leaves LPI TW µs before the window ends or a scheduled frame is due. -/
  | lpiExit (at_ : Vt) (port : Fin 6) (due : Bool)
  /-- R268: A frame for a port in LPI wakes the transmitter and waits TW µs, counted in LPI_LATE. -/
  | lpiWakeFrame (at_ : Vt) (port : Fin 6)
  /-- R261: A write to FWD_CFG.RESERVE or FWD_XOFF that breaks the order is ignored with CFG_REJ. -/
  | fwdFlowCfgWrite (xoff : Bool) (w : Word)
  /-- R257: A write of 1 to FWD_LEDGER.SNAP captures the three cell counts in one NET cycle. -/
  | ledgerSnapshot
  /-- R274: A POLL addressed to the device is answered with a REPLY, EVENT or STATUS frame, or a retry answer. -/
  | poll (at_ : Vt) (addr : BitVec 16) (seq : BitVec 8)
  /-- R275: A poll-bus COMMAND frame is queued for execution or discarded on overrun or repeat. -/
  | pollBusCommand (at_ : Vt) (addr : BitVec 16) (seq : BitVec 8) (payload : List Byte)
  /-- R276: A TOKEN lets the device send one pending EVENT frame within the hold time. -/
  | token (at_ : Vt) (addr : BitVec 16) (seq : BitVec 8) (hold : BitVec 16)
  /-- R276: The token hold time ends. -/
  | tokenLapse (at_ : Vt)
  /-- R278: A DISCOVER whose prefix matches the identifier is answered with IDENT in the computed slot. -/
  | discover (at_ : Vt) (seq : BitVec 8) (len : BitVec 8) (pre : BitVec 64)
  /-- R278: An ASSIGN with a matching identifier writes FWD_ADDR.NODE and is answered with IDENT. -/
  | assign (at_ : Vt) (seq : BitVec 8) (ident : BitVec 64) (node : BitVec 16)
  /-- R273: A poll-bus frame with a bad crc, length, gap or type is discarded and counted. -/
  | pollBusFrameError (crc : Bool)
  /-- R279: A sent character mismatches the echo; the frame is abandoned, PB_DE released and EV_POLLBUS raised. -/
  | collision (at_ : Vt)
  /-- R340: A SENTRY or DOMAIN reply not fetched on the poll bus within 10 ms lapses and the change takes effect. -/
  | pollReplyLapse (at_ : Vt)
  /-- R307: A pending timed command reaches its instant, is tested again and executed, and its second REPLY sent. -/
  | timedCommandDue (at_ : Vt)
  /-- R309: Transmission of a command's first REPLY starts and its credit returns. -/
  | replySent (at_ : Vt)
  /-- R315: Queued event records of a subscription are sent within 1 ms in EVENT packets. -/
  | eventDelivery (at_ : Vt) (sub : Fin 128)
  /-- R215: Firmware sends MAP or CHANGES CENSUS packets to subscribed sessions. -/
  | censusReport (at_ : Vt)
  /-- R303: No COMMAND or HELLO for SES_TMO seconds closes the session. -/
  | sessionIdleTimeout (at_ : Vt) (n : Fin 32)
  /-- R343: HELLO opcode 0x0001 on a local transport answers OK with the local context handle and caps. -/
  | helloOpcode (via : Via) (params : List Byte)
  /-- R327: BYE closes the session after its reply has started. -/
  | bye (via : Via) (params : List Byte)
  /-- R327: CAPS returns version, caps, credits and free indexes. -/
  | caps (via : Via) (params : List Byte)
  /-- R327: CREDIT changes the session grant, answering PARTIAL when the pool is short. -/
  | credit (via : Via) (params : List Byte)
  /-- R327: AUTH draws a new session nonce in a keyed session. -/
  | auth (via : Via) (params : List Byte)
  /-- R328: REG_RD reads count consecutive register words. -/
  | regRd (via : Via) (params : List Byte)
  /-- R329: REG_WR writes count words after checking locks and domains. -/
  | regWr (via : Via) (params : List Byte)
  /-- R330: REG_RMW atomically reads and writes masked bits of one register. -/
  | regRmw (via : Via) (params : List Byte)
  /-- R332: CREATE makes a map, motif definition, group, CVU context or subscription and returns its handle. -/
  | create (via : Via) (params : List Byte)
  /-- R334: DESTROY removes an object and advances its generation, or is refused. -/
  | destroy (via : Via) (params : List Byte)
  /-- R331: QUERY returns an object's descriptor and status words. -/
  | query (via : Via) (params : List Byte)
  /-- R331: LIST returns up to 64 handles of existing objects of a class. -/
  | list (via : Via) (params : List Byte)
  /-- R334: RESTORE writes a CVU context back into a disabled unit. -/
  | restore (via : Via) (params : List Byte)
  /-- R335: GRID_SET writes the grid epoch and period shadows and optionally commits GRID. -/
  | gridSet (via : Via) (params : List Byte)
  /-- R335: MOVE_ADD adds a move, runs it at once, drops it late or refuses a full table. -/
  | moveAdd (via : Via) (params : List Byte)
  /-- R68: MOVE_CANCEL frees a waiting move's entry. -/
  | moveCancel (via : Via) (params : List Byte)
  /-- R45: TOD_SET sets the time of day and TIME_STAT.TOD_VALID. -/
  | todSet (via : Via) (params : List Byte)
  /-- R337: STAGE writes bytes into the Seal staging buffer and marks granules. -/
  | stage (via : Via) (params : List Byte)
  /-- R447: CHECK evaluates the staged Seal and returns the check code. -/
  | check (via : Via) (params : List Byte)
  /-- R450: ARM checks and applies the Seal, entering READY or STALEMATE and answering DONE_LATER. -/
  | arm (via : Via) (params : List Byte)
  /-- R451: DISARM requests a return to READY at the next grid point. -/
  | disarm (via : Via) (params : List Byte)
  /-- R444: SEAL_WRITE starts storing the armed Seal into the older flash copy. -/
  | sealWrite (via : Via) (params : List Byte)
  /-- R337: SEAL_READ returns bytes of the armed Seal with key bytes zeroed. -/
  | sealRead (via : Via) (params : List Byte)
  /-- R214: SWEEP command starts or restarts a census sweep. -/
  | sweep (via : Via) (params : List Byte)
  /-- R338: CENSUS_SUB replaces the session's census report subscription. -/
  | censusSub (via : Via) (params : List Byte)
  /-- R338: MAP_READ returns census map words. -/
  | mapRead (via : Via) (params : List Byte)
  /-- R338: GROUP_MEMBERS writes member-list entries of an IDLE group. -/
  | groupMembers (via : Via) (params : List Byte)
  /-- R205: GROUP_ARM arms an IDLE group into PROVING or ARMED, or refuses it. -/
  | groupArm (via : Via) (params : List Byte)
  /-- R212: GROUP_DISARM puts a group in IDLE. -/
  | groupDisarm (via : Via) (params : List Byte)
  /-- R211: GROUP_ACK moves a TRIPPED or BLIND group to PROVING or ARMED. -/
  | groupAck (via : Via) (params : List Byte)
  /-- R339: PROG_LOAD writes pawn store words as a program object. -/
  | progLoad (via : Via) (params : List Byte)
  /-- R363: GO acts as a write of its mask to PAWN_GO. -/
  | go (via : Via) (params : List Byte)
  /-- R365: STOP stops the masked pawns. -/
  | stop (via : Via) (params : List Byte)
  /-- R339: PUSH puts words into a pawn TX FIFO while it has room. -/
  | push (via : Via) (params : List Byte)
  /-- R339: PULL returns words from a pawn RX FIFO. -/
  | pull (via : Via) (params : List Byte)
  /-- R340: SENTRY command schedules Sentry entry after its reply. -/
  | sentry (via : Via) (params : List Byte)
  /-- R340: WAKE_CFG sets the wake sources, port and alarm delay. -/
  | wakeCfg (via : Via) (params : List Byte)
  /-- R340: DOMAIN switches the masked power domains after its reply. -/
  | domain (via : Via) (params : List Byte)
  /-- R341: FW_WRITE writes bytes into the idle firmware slot. -/
  | fwWrite (via : Via) (params : List Byte)
  /-- R454: FW_SWAP verifies a slot and restarts the control core into it while the display continues. -/
  | fwSwap (via : Via) (params : List Byte)
  /-- R341: FW_INFO returns the state and version of both slots. -/
  | fwInfo (via : Via) (params : List Byte)
  /-- R231: FB_ON starts the fallback look with cause 2. -/
  | fbOn (via : Via) (params : List Byte)
  /-- R232: FB_OFF ends a cause-2 fallback look at the next grid point. -/
  | fbOff (via : Via) (params : List Byte)
  /-- R225: MOTIF_STEP command adds a step to each masked enabled engine. -/
  | motifStep (via : Via) (params : List Byte)
  /-- R342: FB_STATUS returns MOTIF_FB_STAT. -/
  | fbStatus (via : Via) (params : List Byte)
  /-- R345: Service SPI transaction 0xA1 reads register words from an address. -/
  | svcRegisterRead (at_ : Vt) (addr : Word) (count : BitVec 16) (late : List Nat)
  /-- R345: Service SPI transaction 0xA2 writes register words, each when its last bit arrives. -/
  | svcRegisterWrite (at_ : Vt) (addr : Word) (words : List Word)
  /-- R345: Service SPI transaction 0xA5 writes bytes into the inbound mailbox buffer. -/
  | mailboxWrite (at_ : Vt) (offset : Word) (bytes : List Byte)
  /-- R345: Service SPI transaction 0xA6 reads bytes of the outbound mailbox buffer. -/
  | mailboxRead (at_ : Vt) (offset : Word) (count : BitVec 16)
  /-- R346: SVC_CS ends a word early; the word is discarded and FRAME_ERR set. -/
  | svcFrameError (opcode : BitVec 8)
  /-- R347: A write of 1 to SVC_MBOX.SEND executes the inbound command and posts its reply. -/
  | mailboxSend (at_ : Vt) (len : BitVec 11)
  /-- R347: A write of 1 to SVC_MBOX.ACK clears RDY and lets a second reply post. -/
  | mailboxAck (at_ : Vt)
  /-- R65: A write of 1 to MOVE_NEW.ADD adds the staged move and sets STATUS, HANDLE and DONE. -/
  | moveNewAdd
  /-- R68: A write of 1 to MOVE_NEW.CANCEL cancels the move whose handle is in ARG. -/
  | moveNewCancel
  /-- R65: A waiting move reaches its instant (or is re-examined after a step) and runs or is dropped. -/
  | moveDue (at_ : Vt)
  /-- R88: A write of 1 to PIPE_CTRL.FLUSH empties boards that are neither SHOWING nor being composed. -/
  | pipeFlush
  /-- R98: A write of 1 to PIPE_CAL_CHK.START begins a CRC-32C check of the selected calibration bank. -/
  | calCheckStart (bank : Fin 2)
  /-- R98: The calibration bank check finishes and sets or clears PASS_b. -/
  | calCheckDone
  /-- R106: A register write into the FCM window stores a word, ignored for grey planes, census map and guarded lists. -/
  | fcmWindowWrite (word : Fin 393216) (w : Word)
  /-- R214: A write of 1 to CENSUS_CTRL.SWEEP starts or restarts a sweep. -/
  | censusSweepStart
  /-- R213: A write of 1 to CENSUS_CTRL.CLEAR makes every emitter UNSEEN and re-proves armed groups. -/
  | censusClear
  /-- R205: A write of 1 to CENSUS_GRP_g.ARM arms an IDLE group or sets ARM_REJ. -/
  | groupArmWrite (g : Fin 64)
  /-- R212: A write of 0 to CENSUS_GRP_g.ARM puts the group in IDLE. -/
  | groupDisarmWrite (g : Fin 64)
  /-- R211: A write of 1 to CENSUS_GRP_g.ACK acknowledges a latched group or sets ACK_REJ. -/
  | groupAckWrite (g : Fin 64)
  /-- R212: A write to a group's POLICY, BASE or COUNT applies only while IDLE, else sets CFG_REJ. -/
  | groupConfigWrite (g : Fin 64) (range : Bool) (w : Word)
  /-- R225: A write of MOTIF_CTRL.STEP bits adds a step to each enabled engine named. -/
  | motifStepWrite (mask : BitVec 8)
  /-- R231: A write of 1 to MOTIF_CTRL.FB_ON starts the fallback look with cause 2. -/
  | fbOnWrite
  /-- R232: A write of 1 to MOTIF_CTRL.FB_OFF ends a cause-2 look, ignored otherwise. -/
  | fbOffWrite
  /-- R363: A write of a mask to PAWN_GO clears rate accumulators, starts stopped pawns and sets SYNC on running ones. -/
  | pawnGo (mask : BitVec 8)
  /-- R365: A write of 1 to a PAWN_CTRL.STOP bit stops the pawn at the next SYS cycle. -/
  | pawnStop (mask : BitVec 8)
  /-- R366: A write of 1 to a PAWN_CTRL.FLUSH bit empties both FIFOs of a stopped pawn. -/
  | pawnFlush (mask : BitVec 8)
  /-- R368: A write to a store word is applied or refused when a running pawn's range covers it. -/
  | pawnStoreWrite (w : Fin 48) (v : Word)
  /-- R369: A write to PAWN_n_CFG, PINS or PROG is ignored while running; a PROG write sets the PC to ENTRY. -/
  | pawnConfigWrite (n : Fin 8) (r : Fin 3) (v : Word)
  /-- R371: A write to PAWN_TXn pushes a word or sets TX_OVF. -/
  | pawnTxWrite (n : Fin 8) (v : Word)
  /-- R371: A read of PAWN_RXn pops the oldest word or returns 0 with RX_UNF. -/
  | pawnRxRead (n : Fin 8)
  /-- R356: DRIVE sets window pin levels, directions or both. -/
  | drive (at_ : Vt) (n : Fin 8) (upset : Bool)
  /-- R357: EMIT shifts n bits of the EMR onto window pins. -/
  | emit (at_ : Vt) (n : Fin 8) (upset : Bool)
  /-- R357: SAMPLE shifts window pin levels into the SMR. -/
  | sample (at_ : Vt) (n : Fin 8) (upset : Bool) (px : PxBoard)
  /-- R358: LOAD takes a TX word into the EMR once the TX FIFO holds one. -/
  | load (at_ : Vt) (n : Fin 8) (upset : Bool)
  /-- R358: STORE puts the SMR into the RX FIFO once it has room. -/
  | store (at_ : Vt) (n : Fin 8) (upset : Bool)
  /-- R358: AWAIT completes when its pin, tick or flag condition holds, clearing the tick or flag. -/
  | await (at_ : Vt) (n : Fin 8) (upset : Bool) (px : PxBoard) (rose fell : Word)
  /-- R356: BRANCH jumps to TARGET when its condition holds. -/
  | branch (at_ : Vt) (n : Fin 8) (upset : Bool) (px : PxBoard)
  /-- R356: LOOP decrements a counter and jumps while it is not 0. -/
  | loop (at_ : Vt) (n : Fin 8) (upset : Bool)
  /-- R356: COUNT loads a counter from an immediate or the EMR. -/
  | count (at_ : Vt) (n : Fin 8) (upset : Bool)
  /-- R362: SIGNAL sets or clears a shared flag or raises EV_PAWN_FLAG. -/
  | signal (at_ : Vt) (n : Fin 8) (upset : Bool)
  /-- R370: A LOAD or STORE wait lasts STALL_LIM ms and EV_PAWN_STALL is raised. -/
  | pawnStall (at_ : Vt) (n : Fin 8)
  /-- R380: At a unit's boundary on-times and carries are computed, transfers and re-arms applied and pulses started. -/
  | spwmBoundary (at_ : Vt) (n : Fin 8)
  /-- R377: At a unit's midpoint MIDPOINT transfers apply and centre-aligned on-times are recomputed. -/
  | spwmMidpoint (at_ : Vt) (n : Fin 8)
  /-- R383: A write to SPWM_n_DUTY arms a transfer, or is ignored for a loop-owned unit. -/
  | spwmDutyWrite (n : Fin 8) (w : Word)
  /-- R387: A write to SPWM_n_CTRL enables or disables the unit; other fields change only while disabled. -/
  | spwmCtrlWrite (n : Fin 8) (w : Word)
  /-- R387: The SPW clock locks and each enabled unit starts at a boundary. -/
  | spwLock (at_ : Vt)
  /-- R395: The clock monitor detects an SPW stop; non-pinned units go SAFE and EV_SPWM_TRIP cause 2 is raised. -/
  | spwClockStop (at_ : Vt)
  /-- R389: A mapped TRIP input asserts and the unit's outputs go SAFE within 15 ns, setting TRIPPED. -/
  | tripAssert (at_ : Vt) (k : Fin 8)
  /-- R392: A mapped TRIP input deasserts, allowing CYCLE clearing or AUTO_REARM at the next boundary. -/
  | tripDeassert (at_ : Vt) (k : Fin 8)
  /-- R390: A write of 1 to SPWM_n_TRIP.CLR clears TRIPPED when no mapped input is asserted. -/
  | tripClr (n : Fin 8)
  /-- R397: A write to SPWM_PIN_LOCK advances or cancels the two-write pinning sequence. -/
  | pinLockWrite (w : Word)
  /-- R397: 64 SYS cycles pass after the first pin-lock write; the sequence is cancelled with LOCK_FAIL. -/
  | pinLockLapse (at_ : Vt)
  /-- R412: A write setting CVU_n_CTRL.EN enables the unit or is refused with CFG_REJ. -/
  | cvuEnable (n : Fin 8)
  /-- R411: A write clearing CVU_n_CTRL.EN disables the unit and abandons any open window. -/
  | cvuDisable (n : Fin 8)
  /-- R408: A write of 1 to CVU_n_CTRL.CLOSE closes the open RUN window. -/
  | cvuClose (n : Fin 8)
  /-- R413: A write to CVU configuration or VALUE takes effect only while EN is 0. -/
  | cvuConfigWrite (n : Fin 8) (r : Fin 9) (w : Word)
  /-- R410: A read of CVU_n_RESULT latches CVU_n_RINFO. -/
  | cvuResultRead (n : Fin 8)
  /-- R425: A mirror frame starts at a line boundary with a request set after MIN lines, applying MIR castles. -/
  | mirrorFrameStart (at_ : Vt)
  /-- R425: MAX lines pass after t3 with no request and a mirror frame starts by itself. -/
  | mirrorSelfStart (at_ : Vt)
  /-- R427: A MIR_TE rising edge releases an armed COMMAND-mode frame write. -/
  | mirTe (at_ : Vt)
  /-- R428: A request waits through three LED frame starts without MIR_TE; EV_MIR_TE_MISSING. -/
  | mirTeMissing
  /-- R420: A write to MIR_CTRL.EN starts or idles the mirror port. -/
  | mirEnable (w : Word)
  /-- R430: A write to MIR timing or mode registers while running holds output until the next mirror frame. -/
  | mirTimingWrite (r : Fin 5) (w : Word)
  /-- R430: The MIR clock relocks after a MIR_CLK change and PCLK resumes. -/
  | mirClockLock (at_ : Vt)
  /-- R486: A W1C write to EVT_RAW clears event bits unless raised in the same cycle. -/
  | evtRawClear (at_ : Vt) (w : Fin 2) (mask : Word)
  /-- R495: A DEBUG halt request halts the control core, holds the watchdog and freezes blocks per Table 18.3. -/
  | debugHalt (at_ : Vt)
  /-- R495: A DEBUG release ends the halt and held work resumes. -/
  | debugRelease (at_ : Vt)
  /-- R504: JTAG IDCODE returns SYS_ID. -/
  | idcode
  /-- R494: JTAG BYPASS selects the bypass register. -/
  | bypass
  /-- R494: JTAG SAMPLE/PRELOAD captures and loads the boundary scan. -/
  | samplePreload (cells : List (BsPin × Bool))
  /-- R494: JTAG EXTEST puts the device in the dark-safe state and drives the boundary scan. -/
  | extest
  /-- R494: TRST_N resets the JTAG port and ends the EXTEST dark-safe state. -/
  | trstN
  /-- R3: A write to a register with no row of its own updates fields by access type, shadow and precedence rules. -/
  | registerWrite (at_ : Vt) (addr : Word) (w : Word)
  /-- R185: The die falls below 110 °C; SINK_DIE.WARN clears and EV_TJ_WARN re-arms. -/
  | dieTempWarnClear
  /-- R12: VDDAO falls below its POR level and the whole device, AON included, is reset. -/
  | vddaoBelowPor
  /-- R433: RESET_N falls and holds the device in reset until it rises again. -/
  | resetNAssert
  /-- R265: The link partner enters or leaves LPI; LINK_STAT.LPI_RX follows and the port's receive SerDes clock is gated during it. -/
  | partnerLpi (port : Fin 6) (enter : Bool)
  /-- R462: The AON supervisor ADC samples the five switched rails once per microsecond and updates PWR_BROWN.MIN_RAIL and MIN_MV during an episode. -/
  | supervisorAdcSample (vddc : BitVec 11) (vdds : BitVec 11) (vddh : BitVec 11) (vddio : BitVec 11) (vdda : BitVec 11)
  /-- R465: One rail meets its recovery condition while another still holds BRACE, clearing its BELOW bit but not ending BRACE. -/
  | railRecovery (at_ : Vt) (rail : Fin 5)
  /-- R472: SPW stops 10 µs after the last SPWM unit is disabled, without a clock-stop event. -/
  | spwClockIdleStop
  /-- R424: A mirror line boundary passes: HS, DE and the active line are driven from the source, vertical blanking begins at t3, and RETIME holds take effect. -/
  | mirrorLine (at_ : Vt)
  /-- R427: The last WR cycle of a COMMAND-mode frame ends and MIR_CS rises one MIR clock later. -/
  | mirCommandWriteDone (at_ : Vt)
  /-- R447: A running CHECK or ARM evaluation of the Seal ends within 50 ms and SEAL_STAT.BUSY clears. -/
  | sealCheckDone (at_ : Vt)
  /-- R492: A counted control-core restart becomes older than 60 s and leaves SYS_ROOK_STAT.WDOG_CNT. -/
  | wdogRestartAgeOut (at_ : Vt)
  /-- R495: A JTAG DEBUG access that is neither a halt nor a release, raising EV_DEBUG with data 2 when it is the first after a boot. -/
  | debugAccess
  deriving DecidableEq, Repr

end Sys2Proof
end

