-- ==== Sys2Proof/Decode.lean ====
section
/-! DEFINITION. The opcode table gives no row bits: a command is an event, not a word, so no word spells one. -/
namespace Sys2Proof

/-- The command that a word of the opcode table spells: none, since no row has bits. -/
def decodeTableWord (_nbits _w : Nat) : Option Instr := none

end Sys2Proof
end

