-- ==== Sys2Proof/Machine/RegMap.lean ====
section
/-! DEFINITION. The register map of chapters 02 to 19: where every register stands (R503, Tables 19.2
to 19.17), its reset value, the access classes of its fields (R3) as bit masks, its castle group, and
every field of the field tables by name. -/
namespace Sys2Proof.Machine

/-- A field of a register: the word's address, the field's least significant bit and its width (REGISTER.FIELD of Table 0.3). -/
structure Fld where
  addr : Nat
  lo : Nat
  len : Nat
  deriving DecidableEq, Repr

/-- The castle groups of Table 5.9. -/
inductive CastleGroup where
  | scan | grey | sink | loop | pipe | census | grid | mir | spwm
  deriving DecidableEq, Repr

/-- One row of the register index (Tables 19.2 to 19.17): `count` registers from `base`, `stride` bytes apart,
their reset value and the masks of their RW, RWC and W1C fields. Every other bit is read-only, write-only or reserved. -/
structure RegDef where
  base : Nat
  count : Nat
  stride : Nat
  reset : Nat
  rw : Nat
  rwc : Nat
  w1c : Nat
  group : Option CastleGroup
  deriving DecidableEq, Repr

/-- The blocks of Table 19.1. -/
inductive Block where
  | sys | pwr | clk | evt | time | link | pb | fwd | pipe | grey | scan | sink | census | motif | pawn | spwm
  | cvu | mir | seal | fcm
  deriving DecidableEq, Repr

/-- The registers of SYS (Table 19.2): base, count, stride, reset, RW mask, RWC mask, W1C mask, castle group. -/
def regDefs_sys : List RegDef := [
  ⟨0x0, 1, 0x4, 0x2491656B, 0x0, 0x0, 0x0, none⟩,  -- SYS_ID
  ⟨0x4, 1, 0x4, 0x1, 0x0, 0x0, 0x0, none⟩,  -- SYS_STATE
  ⟨0x8, 1, 0x4, 0x0, 0x0, 0x0, 0x0, none⟩,  -- SYS_UID_W0
  ⟨0xC, 1, 0x4, 0x0, 0x0, 0x0, 0x0, none⟩,  -- SYS_UID_W1
  ⟨0x10, 1, 0x4, 0x0, 0x0, 0x0, 0x0, none⟩,  -- SYS_CASTLE
  ⟨0x14, 1, 0x4, 0x0, 0x0, 0x0, 0x600, none⟩,  -- SYS_CASTLE_STAT
  ⟨0x20, 1, 0x4, 0x41400, 0xFF0FFF01, 0x0, 0x0, none⟩,  -- SYS_ROOK_CFG
  ⟨0x24, 1, 0x4, 0x0, 0x0, 0x0, 0x0, none⟩,  -- SYS_ROOK_KICK
  ⟨0x28, 1, 0x4, 0x0, 0x0, 0x0, 0x10, none⟩,  -- SYS_ROOK_STAT
  ⟨0x2C, 1, 0x4, 0x0, 0x1, 0x0, 0x0, none⟩,  -- SYS_DBG
  ⟨0x100, 1, 0x4, 0x20, 0xFF, 0x0, 0x0, none⟩,  -- SVC_CFG
  ⟨0x104, 1, 0x4, 0x0, 0x7FF, 0x0, 0x4000000, none⟩,  -- SVC_MBOX
  ⟨0x108, 1, 0x4, 0x0, 0x0, 0x0, 0x70000, none⟩  -- SVC_STAT
]

/-- The registers of PWR (Table 19.3): base, count, stride, reset, RW mask, RWC mask, W1C mask, castle group. -/
def regDefs_pwr : List RegDef := [
  ⟨0x10000, 1, 0x4, 0x3F3F, 0x3F, 0x0, 0x3F0000, none⟩,  -- PWR_DOMAIN
  ⟨0x10004, 1, 0x4, 0x3, 0xF, 0x0, 0x0, none⟩,  -- PWR_SUPV_CFG
  ⟨0x10008, 1, 0x4, 0x0, 0x0, 0x0, 0x1F00, none⟩,  -- PWR_SUPV_STAT
  ⟨0x1000C, 1, 0x4, 0x0, 0x0, 0x0, 0x0, none⟩,  -- PWR_BROWN
  ⟨0x10010, 1, 0x4, 0x1, 0x7F, 0x0, 0x0, none⟩,  -- PWR_WAKE
  ⟨0x10014, 1, 0x4, 0x0, 0xFFFFFFFF, 0x0, 0x0, none⟩  -- PWR_ALARM
]

/-- The registers of CLK (Table 19.3): base, count, stride, reset, RW mask, RWC mask, W1C mask, castle group. -/
def regDefs_clk : List RegDef := [
  ⟨0x20000, 1, 0x4, 0x493E0, 0x0, 0x7FFFF, 0x0, some .scan⟩,  -- CLK_GCK_CFG
  ⟨0x20004, 1, 0x4, 0x0, 0x0, 0x0, 0x1800, none⟩  -- CLK_STAT
]

/-- The registers of EVT (Table 19.3): base, count, stride, reset, RW mask, RWC mask, W1C mask, castle group. -/
def regDefs_evt : List RegDef := [
  ⟨0x30000, 2, 0x4, 0x0, 0x0, 0x0, 0xFFFFFFFF, none⟩,  -- EVT_RAW
  ⟨0x30008, 2, 0x4, 0x0, 0xFFFFFFFF, 0x0, 0x0, none⟩,  -- EVT_MASK
  ⟨0x30010, 2, 0x4, 0x0, 0x0, 0x0, 0x0, none⟩,  -- EVT_PEND
  ⟨0x30020, 1, 0x4, 0xA01, 0xFF01, 0x0, 0x0, none⟩,  -- EVT_ECC_CFG
  ⟨0x30024, 1, 0x4, 0x0, 0x0, 0x0, 0x0, none⟩,  -- EVT_ECC_STAT
  ⟨0x30028, 1, 0x4, 0x0, 0xFFFFFF, 0x0, 0x0, none⟩,  -- EVT_ECC_CNT
  ⟨0x30100, 64, 0x4, 0x0, 0x0, 0x0, 0x0, none⟩  -- EVT_DATA
]

/-- The registers of TIME and MOVE (Table 19.4): base, count, stride, reset, RW mask, RWC mask, W1C mask, castle group. -/
def regDefs_time : List RegDef := [
  ⟨0x40000, 1, 0x4, 0xA240010, 0xFF7F7F1F, 0x0, 0x0, none⟩,  -- TIME_CFG
  ⟨0x40004, 1, 0x4, 0x70, 0x0, 0x0, 0x0, none⟩,  -- TIME_STAT
  ⟨0x40008, 1, 0x4, 0x0, 0x0, 0x0, 0x0, none⟩,  -- TIME_VT_W0
  ⟨0x4000C, 1, 0x4, 0x0, 0x0, 0x0, 0x0, none⟩,  -- TIME_VT_W1
  ⟨0x40010, 1, 0x4, 0x0, 0x0, 0x0, 0x0, none⟩,  -- TIME_VT_W2
  ⟨0x40014, 1, 0x4, 0x0, 0x0, 0x0, 0x0, none⟩,  -- TIME_OFFSET
  ⟨0x40018, 1, 0x4, 0x0, 0x0, 0x0, 0x0, none⟩,  -- TIME_PATH_DELAY
  ⟨0x4001C, 1, 0x4, 0x0, 0xFFFFFFFF, 0x0, 0x0, none⟩,  -- TIME_CNT
  ⟨0x40020, 1, 0x4, 0x0, 0x0, 0xFFFFFFFF, 0x0, some .grid⟩,  -- TIME_GRID_EPOCH_W0
  ⟨0x40024, 1, 0x4, 0x0, 0x0, 0xFFFFFFFF, 0x0, some .grid⟩,  -- TIME_GRID_EPOCH_W1
  ⟨0x40028, 1, 0x4, 0x7F2815, 0x0, 0xFFFFFFFF, 0x0, some .grid⟩,  -- TIME_GRID_PERIOD_W0
  ⟨0x4002C, 1, 0x4, 0x5555, 0x0, 0xFFFF, 0x0, some .grid⟩,  -- TIME_GRID_PERIOD_W1
  ⟨0x40030, 1, 0x4, 0x0, 0x0, 0xFFFF, 0x0, some .grid⟩,  -- TIME_GRID_EPOCH_FRAC
  ⟨0x40040, 6, 0x4, 0x0, 0xFFFFFFFF, 0x0, 0x0, none⟩,  -- TIME_ASYM
  ⟨0x40058, 1, 0x4, 0xA186A0, 0xFFFFFFF, 0x0, 0x0, none⟩,  -- TIME_PPS
  ⟨0x4005C, 1, 0x4, 0x0, 0xFFFFFF, 0x0, 0x0, none⟩,  -- TIME_GENLOCK
  ⟨0x40060, 1, 0x4, 0x38080, 0x3FFFFF, 0x0, 0x0, none⟩,  -- TIME_GM
  ⟨0x40100, 1, 0x4, 0x3E8, 0xFFFFF, 0x0, 0x0, none⟩,  -- MOVE_CFG
  ⟨0x40104, 1, 0x4, 0x0, 0x0, 0x0, 0x0, none⟩,  -- MOVE_STAT
  ⟨0x40108, 1, 0x4, 0x0, 0xFFFFFFFF, 0x0, 0x0, none⟩,  -- MOVE_CNT
  ⟨0x40110, 1, 0x4, 0x0, 0xFFFFFFFF, 0x0, 0x0, none⟩,  -- MOVE_NEW_W0
  ⟨0x40114, 1, 0x4, 0x0, 0xFFFFFFFF, 0x0, 0x0, none⟩,  -- MOVE_NEW_W1
  ⟨0x40118, 1, 0x4, 0x0, 0xFF, 0x0, 0x0, none⟩,  -- MOVE_NEW_W2
  ⟨0x4011C, 1, 0x4, 0x0, 0xFFFFFFFF, 0x0, 0x0, none⟩,  -- MOVE_NEW_W3
  ⟨0x40120, 1, 0x4, 0x0, 0x0, 0x0, 0x0, none⟩,  -- MOVE_NEW_W4
  ⟨0x40124, 1, 0x4, 0x0, 0x0, 0x0, 0x0, none⟩,  -- MOVE_NEW_W5
  ⟨0x40128, 1, 0x4, 0x0, 0x0, 0x0, 0x0, none⟩  -- MOVE_NEW_W6
]

/-- The registers of LINK (Table 19.5): base, count, stride, reset, RW mask, RWC mask, W1C mask, castle group. -/
def regDefs_link : List RegDef := [
  ⟨0x50000, 6, 0x1000, 0x8, 0xFF7F, 0x0, 0x0, none⟩,  -- LINK_MODE
  ⟨0x50004, 6, 0x1000, 0x0, 0x0, 0x0, 0x3000, none⟩,  -- LINK_STAT
  ⟨0x50008, 6, 0x1000, 0x1000, 0xFFFF, 0x0, 0x0, none⟩,  -- LINK_EEE
  ⟨0x5000C, 6, 0x1000, 0x0, 0xFFFFFFFF, 0x0, 0x0, none⟩,  -- LINK_EEE_WIN
  ⟨0x50010, 2, 0x1000, 0x0, 0x3, 0x0, 0x0, none⟩,  -- LINK_PAUSE
  ⟨0x52010, 4, 0x1000, 0x3, 0x3, 0x0, 0x0, none⟩,  -- LINK_PAUSE
  ⟨0x50020, 6, 0x1000, 0x0, 0xFFFFFFFF, 0x0, 0x0, none⟩,  -- LINK_CNT0
  ⟨0x50024, 6, 0x1000, 0x0, 0xFFFFFFFF, 0x0, 0x0, none⟩  -- LINK_CNT1
]

/-- The registers of the poll bus (Table 19.5): base, count, stride, reset, RW mask, RWC mask, W1C mask, castle group. -/
def regDefs_pb : List RegDef := [
  ⟨0x56000, 1, 0x4, 0x19487D1, 0xFFFFFFF, 0x0, 0x0, none⟩,  -- PB_CFG
  ⟨0x56004, 1, 0x4, 0x0, 0x0, 0x0, 0x0, none⟩,  -- PB_STAT
  ⟨0x56008, 1, 0x4, 0x0, 0xFFFFFFFF, 0x0, 0x0, none⟩,  -- PB_CNT0
  ⟨0x5600C, 1, 0x4, 0x0, 0xFF, 0x0, 0x0, none⟩,  -- PB_CNT1
  ⟨0x56010, 1, 0x4, 0x0, 0xFFFFFFFF, 0x0, 0x0, none⟩,  -- PB_EV_MASK0
  ⟨0x56014, 1, 0x4, 0x8000000, 0xFFFFFFFF, 0x0, 0x0, none⟩  -- PB_EV_MASK1
]

/-- The registers of FWD (Table 19.6): base, count, stride, reset, RW mask, RWC mask, W1C mask, castle group. -/
def regDefs_fwd : List RegDef := [
  ⟨0x60000, 1, 0x4, 0x2000002, 0xFFFFF7F, 0x0, 0x0, none⟩,  -- FWD_CFG
  ⟨0x60004, 1, 0x4, 0x0, 0xFFF, 0x0, 0x0, none⟩,  -- FWD_ADDR
  ⟨0x60008, 1, 0x4, 0x20005EE, 0xFFF3FFF, 0x0, 0x0, none⟩,  -- FWD_MTU
  ⟨0x6000C, 1, 0x4, 0x200100, 0xFFFFFF, 0x0, 0x0, none⟩,  -- FWD_XOFF
  ⟨0x60010, 1, 0x4, 0xFFFF, 0xFFFF, 0x0, 0x0, none⟩,  -- FWD_QUANTA
  ⟨0x60014, 1, 0x4, 0x0, 0x0, 0x0, 0x0, none⟩,  -- FWD_LEDGER_W0
  ⟨0x60018, 1, 0x4, 0x0, 0x0, 0x0, 0x0, none⟩,  -- FWD_LEDGER_W1
  ⟨0x6001C, 1, 0x4, 0x0, 0x0, 0x0, 0x0, none⟩,  -- FWD_LEDGER_W2
  ⟨0x60020, 1, 0x4, 0x800, 0x0, 0x0, 0x0, none⟩,  -- FWD_FREE
  ⟨0x60024, 1, 0x4, 0x0, 0x0, 0x0, 0x0, none⟩,  -- FWD_QUEUED
  ⟨0x60028, 1, 0x4, 0x0, 0x0, 0x0, 0x0, none⟩,  -- FWD_LOCKED
  ⟨0x6002C, 1, 0x4, 0x0, 0x0, 0x0, 0x1, none⟩,  -- FWD_STAT
  ⟨0x60030, 1, 0x4, 0x1F4, 0xFFFF, 0x0, 0x0, none⟩,  -- FWD_RING
  ⟨0x60034, 1, 0x4, 0x2710, 0xFFFF, 0x0, 0x0, none⟩,  -- FWD_DUP
  ⟨0x60040, 4, 0x4, 0xFFF0017, 0xFFFFFF7, 0x0, 0x0, none⟩,  -- FWD_BRANCH
  ⟨0x60050, 1, 0x4, 0x0, 0xFFFFFFFF, 0x0, 0x0, none⟩,  -- FWD_CNT0
  ⟨0x60054, 1, 0x4, 0x0, 0xFFFF, 0x0, 0x0, none⟩,  -- FWD_CNT1
  ⟨0x60058, 1, 0x4, 0x0, 0xFFFFFFFF, 0x0, 0x0, none⟩,  -- FWD_DUP_CNT
  ⟨0x60060, 1, 0x4, 0x0, 0xFFFFFFFF, 0x0, 0x0, none⟩,  -- FWD_MAC_W0
  ⟨0x60064, 1, 0x4, 0x0, 0xFFFF, 0x0, 0x0, none⟩,  -- FWD_MAC_W1
  ⟨0x60080, 8, 0x4, 0x0, 0xFFFFFFFF, 0x0, 0x0, none⟩,  -- FWD_GROUP
  ⟨0x60100, 1, 0x4, 0xBE5088B5, 0xFFFFFFFF, 0x0, 0x0, none⟩,  -- FWD_KLP_TYPE
  ⟨0x60104, 1, 0x4, 0x1E03, 0xFF07, 0x0, 0x0, none⟩,  -- FWD_KLP_CFG
  ⟨0x60108, 1, 0x4, 0x0, 0xFFFFFFFF, 0x0, 0x0, none⟩,  -- FWD_IP
  ⟨0x6010C, 1, 0x4, 0x0, 0x0, 0x0, 0x0, none⟩,  -- FWD_KLP_STAT
  ⟨0x60110, 1, 0x4, 0x0, 0xFFFFFFFF, 0x0, 0x0, none⟩,  -- FWD_KLP_CNT0
  ⟨0x60114, 1, 0x4, 0x0, 0xFFFFFFFF, 0x0, 0x0, none⟩,  -- FWD_KLP_CNT1
  ⟨0x60200, 32, 0x10, 0x0, 0x0, 0x0, 0x0, none⟩,  -- FWD_SES_W0
  ⟨0x60204, 32, 0x10, 0x0, 0x0, 0x0, 0x0, none⟩,  -- FWD_SES_W1
  ⟨0x60208, 32, 0x10, 0x0, 0x0, 0x0, 0x0, none⟩,  -- FWD_SES_W2
  ⟨0x6020C, 32, 0x10, 0x0, 0x0, 0x0, 0x0, none⟩  -- FWD_SES_W3
]

/-- The registers of PIPE (Table 19.7): base, count, stride, reset, RW mask, RWC mask, W1C mask, castle group. -/
def regDefs_pipe : List RegDef := [
  ⟨0x70000, 1, 0x4, 0x0, 0x0, 0xFFFFFF, 0x0, some .pipe⟩,  -- PIPE_CFG
  ⟨0x70004, 1, 0x4, 0x0, 0x0, 0x0, 0x0, none⟩,  -- PIPE_CTRL
  ⟨0x70008, 1, 0x4, 0x600, 0x0, 0x0, 0x0, none⟩,  -- PIPE_STAT
  ⟨0x7000C, 3, 0x4, 0x0, 0x0, 0x0, 0x0, none⟩,  -- PIPE_BOARD_FRAME
  ⟨0x70018, 1, 0x4, 0x0, 0x0, 0x1, 0x0, some .pipe⟩,  -- PIPE_LATE_POLICY
  ⟨0x7001C, 1, 0x4, 0x96, 0x0, 0xFFF, 0x0, some .pipe⟩,  -- PIPE_TIMING
  ⟨0x70020, 1, 0x4, 0xFFFF, 0x0, 0xFFFF, 0x0, some .pipe⟩,  -- PIPE_BRIGHT
  ⟨0x70024, 1, 0x4, 0x8000, 0x0, 0x0, 0x0, none⟩,  -- PIPE_ABL
  ⟨0x70028, 1, 0x4, 0x0, 0x0, 0x0, 0x0, none⟩,  -- PIPE_ABL_PRED
  ⟨0x70030, 1, 0x4, 0x0, 0x0, 0x3, 0x0, some .pipe⟩,  -- PIPE_CAL_CFG
  ⟨0x70034, 1, 0x4, 0x0, 0x2, 0x0, 0x0, none⟩,  -- PIPE_CAL_CHK
  ⟨0x70038, 2, 0x4, 0x0, 0xFFFFFFFF, 0x0, 0x0, none⟩,  -- PIPE_CAL_CRC
  ⟨0x70040, 1, 0x4, 0x0, 0x0, 0x1, 0x0, some .pipe⟩,  -- PIPE_THERM_CFG
  ⟨0x70044, 1, 0x4, 0x281400D8, 0x0, 0xFFFFFFFF, 0x0, some .pipe⟩,  -- PIPE_THERM_BP0
  ⟨0x70048, 1, 0x4, 0x7864503C, 0x0, 0xFFFFFFFF, 0x0, some .pipe⟩,  -- PIPE_THERM_BP1
  ⟨0x7004C, 1, 0x4, 0x0, 0x0, 0x0, 0x80000, none⟩,  -- PIPE_THERM_STAT
  ⟨0x70050, 1, 0x4, 0x0, 0xFFFFFFFF, 0x0, 0x0, none⟩,  -- PIPE_CNT0
  ⟨0x70054, 1, 0x4, 0x0, 0xFFFFFFFF, 0x0, 0x0, none⟩,  -- PIPE_CNT1
  ⟨0x70100, 8, 0x20, 0x4000, 0x0, 0xFFFFFFFF, 0x0, some .pipe⟩,  -- PIPE_THERM_COEF0
  ⟨0x70104, 8, 0x20, 0x0, 0x0, 0xFFFFFFFF, 0x0, some .pipe⟩,  -- PIPE_THERM_COEF1
  ⟨0x70108, 8, 0x20, 0x4000, 0x0, 0xFFFFFFFF, 0x0, some .pipe⟩,  -- PIPE_THERM_COEF2
  ⟨0x7010C, 8, 0x20, 0x0, 0x0, 0xFFFFFFFF, 0x0, some .pipe⟩,  -- PIPE_THERM_COEF3
  ⟨0x70110, 8, 0x20, 0x4000, 0x0, 0xFFFF, 0x0, some .pipe⟩,  -- PIPE_THERM_COEF4
  ⟨0x71000, 64, 0x20, 0x0, 0x0, 0x3FFFF, 0x0, some .pipe⟩,  -- PIPE_MAP_W0
  ⟨0x71004, 64, 0x20, 0x0, 0x0, 0xFFFFFFFF, 0x0, some .pipe⟩,  -- PIPE_MAP_W1
  ⟨0x71008, 64, 0x20, 0x0, 0x0, 0xFFFFFFFF, 0x0, some .pipe⟩,  -- PIPE_MAP_W2
  ⟨0x7100C, 64, 0x20, 0x0, 0x0, 0xFFFFFFFF, 0x0, some .pipe⟩,  -- PIPE_MAP_W3
  ⟨0x71010, 64, 0x20, 0x0, 0x0, 0xFFFF, 0x0, some .pipe⟩,  -- PIPE_MAP_W4
  ⟨0x71014, 64, 0x20, 0x0, 0x0, 0x0, 0x0, none⟩  -- PIPE_MAP_W5
]

/-- The registers of GREY (Table 19.8): base, count, stride, reset, RW mask, RWC mask, W1C mask, castle group. -/
def regDefs_grey : List RegDef := [
  ⟨0x80000, 1, 0x4, 0x6, 0x0, 0xF, 0x0, some .grey⟩,  -- GREY_SEG
  ⟨0x80004, 1, 0x4, 0x4, 0x0, 0x3F, 0x0, some .grey⟩,  -- GREY_MINPULSE
  ⟨0x80008, 1, 0x4, 0x0, 0x0, 0xFF03, 0x0, some .grey⟩,  -- GREY_ASSIST
  ⟨0x8000C, 1, 0x4, 0x1, 0x0, 0xF1, 0x0, some .grey⟩,  -- GREY_DITHER
  ⟨0x80010, 1, 0x4, 0x2C688, 0x0, 0x3FFFF, 0x0, some .grey⟩,  -- GREY_STAGGER
  ⟨0x80014, 1, 0x4, 0x244000, 0x0, 0x0, 0x400000, none⟩,  -- GREY_STAT
  ⟨0x80018, 1, 0x4, 0x0, 0xFF00, 0x0, 0x0, none⟩  -- GREY_PERF
]

/-- The registers of SCAN (Table 19.9): base, count, stride, reset, RW mask, RWC mask, W1C mask, castle group. -/
def regDefs_scan : List RegDef := [
  ⟨0x90000, 1, 0x4, 0x2080, 0x0, 0x3FFFFFFF, 0x0, some .scan⟩,  -- SCAN_GEOM
  ⟨0x90004, 1, 0x4, 0x40, 0x0, 0xFF01FF, 0x0, some .scan⟩,  -- SCAN_LINEIF
  ⟨0x90008, 1, 0x4, 0x0, 0x0, 0xFFFF0003, 0x0, some .scan⟩,  -- SCAN_MODE
  ⟨0x9000C, 1, 0x4, 0x82351047, 0x0, 0xFFFFFFFF, 0x0, some .scan⟩,  -- SCAN_FRAME_LIM
  ⟨0x90010, 1, 0x4, 0x3F40C0C2, 0x0, 0x7FFFFFFF, 0x0, some .scan⟩,  -- SCAN_PRECHG
  ⟨0x90014, 1, 0x4, 0x78, 0x0, 0x3FFF, 0x0, some .scan⟩,  -- SCAN_VBLANK
  ⟨0x90018, 1, 0x4, 0x0, 0x0, 0x0, 0x70000, none⟩,  -- SCAN_STAT
  ⟨0x9001C, 1, 0x4, 0x0, 0xFFFFFF, 0x0, 0x0, none⟩,  -- SCAN_CNT
  ⟨0x90020, 1, 0x4, 0x0, 0x0, 0x0, 0x0, none⟩,  -- SCAN_POS
  ⟨0x90100, 32, 0x4, 0x0, 0x0, 0x7F7F7F7F, 0x0, some .scan⟩  -- SCAN_ORDER
]

/-- The registers of SINK (Table 19.10): base, count, stride, reset, RW mask, RWC mask, W1C mask, castle group. -/
def regDefs_sink : List RegDef := [
  ⟨0xA0000, 1, 0x4, 0x0, 0x0, 0x3F, 0x0, some .sink⟩,  -- SINK_CTRL
  ⟨0xA0004, 1, 0x4, 0x1770, 0x0, 0x1FFF, 0x0, some .sink⟩,  -- SINK_BUDGET
  ⟨0xA0008, 1, 0x4, 0x0, 0x0, 0x0, 0x2, none⟩,  -- SINK_STAT
  ⟨0xA0010, 6, 0x4, 0x7F, 0x0, 0xFF, 0x0, some .sink⟩,  -- SINK_BANK_GCS
  ⟨0xA0100, 96, 0x4, 0xFFFFFFFF, 0x0, 0xFFFFFFFF, 0x0, some .sink⟩,  -- SINK_CG
  ⟨0xA0280, 12, 0x4, 0x0, 0x0, 0xFFFFFFFF, 0x0, some .sink⟩,  -- SINK_RAIL
  ⟨0xA0300, 1, 0x4, 0x232330, 0x0, 0xFFFFFF, 0x0, some .sink⟩,  -- SINK_HR_CFG
  ⟨0xA0310, 6, 0x4, 0x0, 0x0, 0x0, 0x0, none⟩,  -- SINK_HR_STAT
  ⟨0xA0330, 1, 0x4, 0x96005F4B, 0x0, 0xBFFFFFFF, 0x0, some .sink⟩,  -- SINK_FOLD
  ⟨0xA0334, 1, 0x4, 0x400, 0x0, 0x0, 0x0, none⟩,  -- SINK_FOLD_STAT
  ⟨0xA0338, 1, 0x4, 0x141400, 0xFF3F3F, 0x0, 0x0, none⟩,  -- SINK_TB_CFG
  ⟨0xA033C, 1, 0x4, 0x0, 0x0, 0x0, 0x0, none⟩,  -- SINK_TB_STAT
  ⟨0xA0340, 8, 0x4, 0x0, 0xFFFFFFFF, 0x0, 0x0, none⟩,  -- SINK_NTC_A
  ⟨0xA0360, 1, 0x4, 0x0, 0xFFFF, 0x0, 0x0, none⟩,  -- SINK_NTC_A, word 8
  ⟨0xA0370, 1, 0x4, 0x0, 0x0, 0x0, 0x0, none⟩,  -- SINK_DIE
  ⟨0xA0380, 8, 0x4, 0x0, 0xFFFFFFFF, 0x0, 0x0, none⟩,  -- SINK_NTC_B
  ⟨0xA03A0, 1, 0x4, 0x0, 0xFFFF, 0x0, 0x0, none⟩  -- SINK_NTC_B, word 8
]

/-- The registers of CENSUS (Table 19.11): base, count, stride, reset, RW mask, RWC mask, W1C mask, castle group. -/
def regDefs_census : List RegDef := [
  ⟨0xB0000, 1, 0x4, 0x1083304, 0x0, 0x7FFFFF7, 0x0, some .census⟩,  -- CENSUS_CFG
  ⟨0xB0004, 1, 0x4, 0xF0F0F0F, 0x0, 0x3F3F3F3F, 0x0, some .census⟩,  -- CENSUS_VSHORT0
  ⟨0xB0008, 1, 0x4, 0xF0F, 0x0, 0x3F3F, 0x0, some .census⟩,  -- CENSUS_VSHORT1
  ⟨0xB000C, 1, 0x4, 0x0, 0x0, 0x0, 0x0, none⟩,  -- CENSUS_CTRL
  ⟨0xB0010, 1, 0x4, 0x0, 0x0, 0x0, 0x6, none⟩,  -- CENSUS_STAT
  ⟨0xB0014, 1, 0x4, 0x0, 0x0, 0x0, 0x0, none⟩,  -- CENSUS_COUNT0
  ⟨0xB0018, 1, 0x4, 0xC000, 0x0, 0x0, 0x0, none⟩,  -- CENSUS_COUNT1
  ⟨0xB001C, 1, 0x4, 0x0, 0xFFFFFFFF, 0x0, 0x0, none⟩,  -- CENSUS_CNT
  ⟨0xB1000, 64, 0x20, 0x0, 0x3, 0x0, 0x0, none⟩,  -- CENSUS_GRP_W0
  ⟨0xB1004, 64, 0x20, 0x0, 0x3FFF3FFF, 0x0, 0x0, none⟩,  -- CENSUS_GRP_W1
  ⟨0xB1008, 64, 0x20, 0x0, 0x0, 0x0, 0xE0, none⟩,  -- CENSUS_GRP_W2
  ⟨0xB100C, 64, 0x20, 0x0, 0x0, 0x0, 0x0, none⟩,  -- CENSUS_GRP_W3
  ⟨0xB1010, 64, 0x20, 0x0, 0x0, 0x0, 0x0, none⟩  -- CENSUS_GRP_W4
]

/-- The registers of MOTIF (Table 19.12): base, count, stride, reset, RW mask, RWC mask, W1C mask, castle group. -/
def regDefs_motif : List RegDef := [
  ⟨0xC0000, 8, 0x20, 0x0, 0x0, 0xFF7F, 0x0, some .pipe⟩,  -- MOTIF_ENG_W0
  ⟨0xC0004, 8, 0x20, 0x0, 0x0, 0xFFFFFFFF, 0x0, some .pipe⟩,  -- MOTIF_ENG_W1
  ⟨0xC0008, 8, 0x20, 0x0, 0x0, 0xFFFFFFFF, 0x0, some .pipe⟩,  -- MOTIF_ENG_W2
  ⟨0xC000C, 8, 0x20, 0x0, 0x0, 0xFFFFFFFF, 0x0, some .pipe⟩,  -- MOTIF_ENG_W3
  ⟨0xC0010, 8, 0x20, 0x0, 0x0, 0x0, 0x0, none⟩,  -- MOTIF_ENG_W4
  ⟨0xC0100, 1, 0x4, 0x0, 0x0, 0x0, 0x0, none⟩,  -- MOTIF_CTRL
  ⟨0xC0104, 1, 0x4, 0x7D0, 0xFFFF, 0x0, 0x0, none⟩,  -- MOTIF_FB_CFG
  ⟨0xC0108, 1, 0x4, 0x0, 0x0, 0x0, 0x0, none⟩,  -- MOTIF_FB_STAT
  ⟨0xC0200, 64, 0x4, 0x0, 0x0, 0x0, 0x0, none⟩  -- MOTIF_DEF_HANDLE
]

/-- The registers of PAWN (Table 19.13): base, count, stride, reset, RW mask, RWC mask, W1C mask, castle group. -/
def regDefs_pawn : List RegDef := [
  ⟨0xD0000, 1, 0x4, 0x0, 0xFF00, 0x0, 0x0, none⟩,  -- PAWN_CTRL
  ⟨0xD0004, 1, 0x4, 0x0, 0x0, 0x0, 0x0, none⟩,  -- PAWN_GO
  ⟨0xD0008, 1, 0x4, 0x0, 0x0, 0x0, 0x8100, none⟩,  -- PAWN_STAT
  ⟨0xD000C, 1, 0x4, 0x0, 0xFF, 0x0, 0x0, none⟩,  -- PAWN_FLAGS
  ⟨0xD0010, 1, 0x4, 0x0, 0xFFFFFFFF, 0x0, 0x0, none⟩,  -- PAWN_PX_OUT
  ⟨0xD0014, 1, 0x4, 0x0, 0xFFFFFFFF, 0x0, 0x0, none⟩,  -- PAWN_PX_OE
  ⟨0xD0018, 1, 0x4, 0x0, 0x0, 0x0, 0x0, none⟩,  -- PAWN_PX_IN
  ⟨0xD001C, 1, 0x4, 0x0, 0xFFFFFFFF, 0x0, 0x0, none⟩,  -- PAWN_PX_SAFE_OUT
  ⟨0xD0020, 1, 0x4, 0x0, 0xFFFFFFFF, 0x0, 0x0, none⟩,  -- PAWN_PX_SAFE_OE
  ⟨0xD0100, 8, 0x40, 0x0, 0xFFFFFFFF, 0x0, 0x0, none⟩,  -- PAWN_CFG
  ⟨0xD0104, 8, 0x40, 0x100, 0xF1F, 0x0, 0x0, none⟩,  -- PAWN_PINS
  ⟨0xD0108, 8, 0x40, 0x0, 0x3F3F3F, 0x0, 0x0, none⟩,  -- PAWN_PROG
  ⟨0xD010C, 8, 0x40, 0x0, 0x0, 0x0, 0x0, none⟩,  -- PAWN_STATE
  ⟨0xD0110, 8, 0x40, 0x0, 0x0, 0x0, 0x0, none⟩,  -- PAWN_TX
  ⟨0xD0114, 8, 0x40, 0x0, 0x0, 0x0, 0x0, none⟩,  -- PAWN_RX
  ⟨0xD0118, 8, 0x40, 0x0, 0x0, 0x0, 0x0, none⟩,  -- PAWN_EMR
  ⟨0xD011C, 8, 0x40, 0x0, 0x0, 0x0, 0x0, none⟩,  -- PAWN_SMR
  ⟨0xD0120, 8, 0x40, 0x0, 0x0, 0x0, 0x0, none⟩,  -- PAWN_CNTA
  ⟨0xD0124, 8, 0x40, 0x0, 0x0, 0x0, 0x0, none⟩,  -- PAWN_CNTB
  ⟨0xD0128, 8, 0x40, 0x0, 0x0, 0x0, 0xB0000, none⟩,  -- PAWN_ERR
  ⟨0xD0400, 48, 0x4, 0x0, 0xFFFFF, 0x0, 0x0, none⟩  -- PAWN_STORE
]

/-- The registers of SPWM, LOOP and ADC (Table 19.14): base, count, stride, reset, RW mask, RWC mask, W1C mask, castle group. -/
def regDefs_spwm : List RegDef := [
  ⟨0xE0000, 8, 0x40, 0x0, 0x3FFF, 0x0, 0x0, none⟩,  -- SPWM_CTRL
  ⟨0xE0004, 8, 0x40, 0x280, 0xFFFF, 0x0, 0x0, none⟩,  -- SPWM_PERIOD
  ⟨0xE0008, 8, 0x40, 0x0, 0xFFFFF, 0x0, 0x0, none⟩,  -- SPWM_DUTY
  ⟨0xE000C, 8, 0x40, 0x0, 0xFFFFFFFF, 0x0, 0x0, none⟩,  -- SPWM_DUTY_B
  ⟨0xE0010, 8, 0x40, 0x1010, 0xFFFF, 0x0, 0x0, none⟩,  -- SPWM_DT
  ⟨0xE0014, 8, 0x40, 0x101010, 0xFFFFFFFF, 0x0, 0x0, none⟩,  -- SPWM_LIMITS
  ⟨0xE0018, 8, 0x40, 0x0, 0xFF, 0x0, 0x0, none⟩,  -- SPWM_TRIP
  ⟨0xE001C, 8, 0x40, 0x0, 0x0, 0x0, 0x60, none⟩,  -- SPWM_STAT
  ⟨0xE0020, 8, 0x40, 0x0, 0xFFFFFF, 0x0, 0x0, none⟩,  -- SPWM_CNT
  ⟨0xE0024, 8, 0x40, 0x0, 0x0, 0x0, 0x0, none⟩,  -- SPWM_ACT
  ⟨0xE0400, 1, 0x4, 0x0, 0xFF, 0x0, 0x0, none⟩,  -- SPWM_TRIP_POL
  ⟨0xE0404, 1, 0x4, 0x0, 0x0, 0x0, 0x0, none⟩,  -- SPWM_PIN_LOCK
  ⟨0xE0408, 1, 0x4, 0x0, 0x0, 0x0, 0xA, none⟩,  -- SPWM_GSTAT
  ⟨0xE0410, 2, 0x10, 0x0, 0x0, 0x0, 0x0, none⟩,  -- SPWM_STRAP_W0
  ⟨0xE0414, 2, 0x10, 0x0, 0x0, 0x0, 0x0, none⟩,  -- SPWM_STRAP_W1
  ⟨0xE0418, 2, 0x10, 0x0, 0x0, 0x0, 0x0, none⟩,  -- SPWM_STRAP_W2
  ⟨0xE0800, 2, 0x40, 0x400C00, 0x0, 0xFF1FF1, 0x0, some .loop⟩,  -- LOOP_W0
  ⟨0xE0804, 2, 0x40, 0x100100, 0x0, 0xFFFFFFFF, 0x0, some .loop⟩,  -- LOOP_W1
  ⟨0xE0808, 2, 0x40, 0x138809C4, 0x0, 0xFFFFFFFF, 0x0, some .loop⟩,  -- LOOP_W2
  ⟨0xE080C, 2, 0x40, 0x40564, 0x0, 0x3FFFFFF, 0x0, some .loop⟩,  -- LOOP_W3
  ⟨0xE0810, 2, 0x40, 0x16A81194, 0x0, 0xFFFFFFFF, 0x0, some .loop⟩,  -- LOOP_W4
  ⟨0xE0814, 2, 0x40, 0x500, 0x0, 0xFFFF, 0x0, some .loop⟩,  -- LOOP_W5
  ⟨0xE0818, 2, 0x40, 0x0, 0x0, 0x0, 0x80000, none⟩,  -- LOOP_W6
  ⟨0xE081C, 2, 0x40, 0x0, 0x0, 0x0, 0x0, none⟩,  -- LOOP_W7
  ⟨0xE0900, 6, 0x4, 0x0, 0x0, 0x0, 0x0, none⟩  -- ADC_DATA
]

/-- The registers of CVU (Table 19.15): base, count, stride, reset, RW mask, RWC mask, W1C mask, castle group. -/
def regDefs_cvu : List RegDef := [
  ⟨0xF0000, 8, 0x40, 0x0, 0x3FFFFFB, 0x0, 0x0, none⟩,  -- CVU_CTRL
  ⟨0xF0004, 8, 0x40, 0x0, 0x3FF037F, 0x0, 0x0, none⟩,  -- CVU_TAP
  ⟨0xF0008, 8, 0x40, 0x0, 0xFFFFFFFF, 0x0, 0x0, none⟩,  -- CVU_POLY
  ⟨0xF000C, 8, 0x40, 0x0, 0xFFFFFFFF, 0x0, 0x0, none⟩,  -- CVU_INIT
  ⟨0xF0010, 8, 0x40, 0x0, 0xFFFFFFFF, 0x0, 0x0, none⟩,  -- CVU_XOROUT
  ⟨0xF0014, 8, 0x40, 0x0, 0x1FFFFF, 0x0, 0x0, none⟩,  -- CVU_WIN_START
  ⟨0xF0018, 8, 0x40, 0x0, 0x1FFFFF, 0x0, 0x0, none⟩,  -- CVU_WIN_LEN
  ⟨0xF001C, 8, 0x40, 0x0, 0xFFFFFFFF, 0x0, 0x0, none⟩,  -- CVU_TAG_LO
  ⟨0xF0020, 8, 0x40, 0x0, 0xFFFFFFFF, 0x0, 0x0, none⟩,  -- CVU_TAG_HI
  ⟨0xF0024, 8, 0x40, 0x0, 0xFFFFFFFF, 0x0, 0x0, none⟩,  -- CVU_EXPECT
  ⟨0xF0028, 8, 0x40, 0x0, 0xFFFFFFFF, 0x0, 0x0, none⟩,  -- CVU_VALUE
  ⟨0xF002C, 8, 0x40, 0x0, 0x0, 0x0, 0x0, none⟩,  -- CVU_RESULT
  ⟨0xF0030, 8, 0x40, 0x0, 0x0, 0x0, 0x0, none⟩,  -- CVU_RINFO
  ⟨0xF0034, 8, 0x40, 0x0, 0x0, 0x0, 0x0, none⟩,  -- CVU_SNAP
  ⟨0xF0038, 8, 0x40, 0x0, 0x0, 0x0, 0x78, none⟩,  -- CVU_STAT
  ⟨0xF003C, 8, 0x40, 0x0, 0xFFFFFFFF, 0x0, 0x0, none⟩  -- CVU_CNT
]

/-- The registers of MIR (Table 19.16): base, count, stride, reset, RW mask, RWC mask, W1C mask, castle group. -/
def regDefs_mir : List RegDef := [
  ⟨0x100000, 1, 0x4, 0x8, 0xFF, 0x0, 0x0, none⟩,  -- MIR_CTRL
  ⟨0x100004, 1, 0x4, 0x14, 0xFFFF, 0x0, 0x0, none⟩,  -- MIR_CLK
  ⟨0x100008, 1, 0x4, 0x201808, 0xFFFFFF, 0x0, 0x0, none⟩,  -- MIR_HTIM
  ⟨0x10000C, 1, 0x4, 0x802, 0xFFFF, 0x0, 0x0, none⟩,  -- MIR_VTIM
  ⟨0x100010, 1, 0x4, 0x3E80004, 0xFFF0FFF, 0x0, 0x0, none⟩,  -- MIR_VBLANK
  ⟨0x100014, 1, 0x4, 0x0, 0x0, 0x3FF, 0x0, some .mir⟩,  -- MIR_SRC
  ⟨0x100018, 1, 0x4, 0x0, 0x0, 0xFFFFFFFF, 0x0, some .mir⟩,  -- MIR_WIN_POS
  ⟨0x10001C, 1, 0x4, 0x0, 0x0, 0xFFFFFFFF, 0x0, some .mir⟩,  -- MIR_WIN_SIZE
  ⟨0x100020, 1, 0x4, 0x1111, 0x1FF7, 0x0, 0x0, none⟩,  -- MIR_CMD
  ⟨0x100024, 1, 0x4, 0x2C, 0xFFFFFFFF, 0x0, 0x0, none⟩,  -- MIR_CMD_BYTES
  ⟨0x100028, 1, 0x4, 0x0, 0x0, 0x0, 0x44, none⟩,  -- MIR_STAT
  ⟨0x10002C, 1, 0x4, 0x0, 0xFFFFFFFF, 0x0, 0x0, none⟩  -- MIR_CNT
]

/-- The registers of SEAL (Table 19.17): base, count, stride, reset, RW mask, RWC mask, W1C mask, castle group. -/
def regDefs_seal : List RegDef := [
  ⟨0x110000, 1, 0x4, 0x0, 0x0, 0x0, 0x0, none⟩,  -- SEAL_STAT
  ⟨0x110004, 1, 0x4, 0x0, 0x0, 0x0, 0x0, none⟩,  -- SEAL_CHECK_CODE
  ⟨0x110008, 1, 0x4, 0x0, 0x0, 0x0, 0x0, none⟩,  -- SEAL_BOOT
  ⟨0x11000C, 1, 0x4, 0x0, 0x0, 0x0, 0x0, none⟩,  -- SEAL_OTP_BOOT
  ⟨0x110010, 1, 0x4, 0x0, 0x0, 0x0, 0x0, none⟩  -- SEAL_MIN_VERSION
]

/-- The registers of a block. -/
def regDefsOf : Block → List RegDef
  | .sys => regDefs_sys
  | .pwr => regDefs_pwr
  | .clk => regDefs_clk
  | .evt => regDefs_evt
  | .time => regDefs_time
  | .link => regDefs_link
  | .pb => regDefs_pb
  | .fwd => regDefs_fwd
  | .pipe => regDefs_pipe
  | .grey => regDefs_grey
  | .scan => regDefs_scan
  | .sink => regDefs_sink
  | .census => regDefs_census
  | .motif => regDefs_motif
  | .pawn => regDefs_pawn
  | .spwm => regDefs_spwm
  | .cvu => regDefs_cvu
  | .mir => regDefs_mir
  | .seal => regDefs_seal
  | .fcm => []

/-- R498, Table 19.1: the block an address lies in, if any. -/
def blockOf (a : Nat) : Option Block :=
  if a < 0x00120000 then
    match a / 0x10000 with
    | 0 => some .sys | 1 => some .pwr | 2 => some .clk | 3 => some .evt | 4 => some .time
    | 5 => if a < 0x00056000 then some .link else some .pb
    | 6 => some .fwd | 7 => some .pipe | 8 => some .grey | 9 => some .scan | 10 => some .sink
    | 11 => some .census | 12 => some .motif | 13 => some .pawn | 14 => some .spwm | 15 => some .cvu
    | 16 => some .mir | _ => some .seal
  else if 0x01000000 ≤ a ∧ a < 0x01180000 then some .fcm
  else none

/-- Whether an address is one of a row's registers. -/
def RegDef.covers (d : RegDef) (a : Nat) : Bool :=
  d.base ≤ a && (a - d.base) % d.stride == 0 && (a - d.base) / d.stride < d.count

/-- The row of the register index that holds an address; none for an offset no register occupies (R5). -/
def regDefAt (a : Nat) : Option RegDef :=
  match blockOf a with
  | none => none
  | some b => (regDefsOf b).find? (fun d => d.covers a)

/-- The reset value of the register at an address (R6). SCAN_ORDER entry i reads i after reset; LIMIT_BOOT,
the boot ROM's and the OTP's values are written at boot over the zeros given here. -/
def regReset (a : Nat) : BitVec 32 :=
  if 0x00090100 ≤ a ∧ a < 0x00090180 then
    let i := a - 0x00090100
    BitVec.ofNat 32 (i + (i + 1) * 0x100 + (i + 2) * 0x10000 + (i + 3) * 0x1000000)
  else
    match regDefAt a with
    | some d => BitVec.ofNat 32 d.reset
    | none => 0

namespace Reg
/-! SYS_ID (chapter 19). -/
def SYS_ID_ONE : Fld := ⟨0x0, 0, 1⟩
def SYS_ID_MFR : Fld := ⟨0x0, 1, 11⟩
def SYS_ID_PART : Fld := ⟨0x0, 12, 16⟩
def SYS_ID_STEPPING : Fld := ⟨0x0, 28, 4⟩
/-! SYS_STATE (chapter 19). -/
def SYS_STATE_STATE : Fld := ⟨0x4, 0, 4⟩
def SYS_STATE_BRACE : Fld := ⟨0x4, 4, 1⟩
def SYS_STATE_DARK_SAFE : Fld := ⟨0x4, 5, 1⟩
def SYS_STATE_FLOOR : Fld := ⟨0x4, 8, 2⟩
def SYS_STATE_CORE_DOWN : Fld := ⟨0x4, 16, 1⟩
/-! SYS_UID (chapter 19). -/
def SYS_UID_UID_LO : Fld := ⟨0x8, 0, 32⟩
def SYS_UID_UID_HI : Fld := ⟨0xC, 0, 32⟩
/-! SYS_CASTLE (chapter 05). -/
def SYS_CASTLE_COMMIT : Fld := ⟨0x10, 0, 9⟩
/-! SYS_CASTLE_STAT (chapter 05). -/
def SYS_CASTLE_STAT_PENDING : Fld := ⟨0x14, 0, 9⟩
def SYS_CASTLE_STAT_LATE : Fld := ⟨0x14, 9, 1⟩
def SYS_CASTLE_STAT_FIT_REJ : Fld := ⟨0x14, 10, 1⟩
def SYS_CASTLE_STAT_IMMEDIATE : Fld := ⟨0x14, 11, 1⟩
def SYS_CASTLE_STAT_COUNT : Fld := ⟨0x14, 16, 8⟩
/-! SYS_ROOK_CFG (chapter 18). -/
def SYS_ROOK_CFG_WDOG_ACTION : Fld := ⟨0x20, 0, 1⟩
def SYS_ROOK_CFG_PERIOD : Fld := ⟨0x20, 8, 8⟩
def SYS_ROOK_CFG_LIMIT : Fld := ⟨0x20, 16, 4⟩
def SYS_ROOK_CFG_SUP_CRIT : Fld := ⟨0x20, 24, 8⟩
/-! SYS_ROOK_KICK (chapter 18). -/
def SYS_ROOK_KICK_KICK : Fld := ⟨0x24, 0, 32⟩
/-! SYS_ROOK_STAT (chapter 18). -/
def SYS_ROOK_STAT_WDOG_CNT : Fld := ⟨0x28, 0, 4⟩
def SYS_ROOK_STAT_LIMIT_BOOT : Fld := ⟨0x28, 4, 1⟩
def SYS_ROOK_STAT_RESTARTS : Fld := ⟨0x28, 8, 8⟩
/-! SYS_DBG (chapter 18). -/
def SYS_DBG_PAWN_FRZ : Fld := ⟨0x2C, 0, 1⟩
def SYS_DBG_HALTED : Fld := ⟨0x2C, 1, 1⟩
/-! SVC_CFG (chapter 11). -/
def SVC_CFG_QUAD : Fld := ⟨0x100, 0, 1⟩
def SVC_CFG_RDY_IE : Fld := ⟨0x100, 1, 1⟩
def SVC_CFG_DUMMY : Fld := ⟨0x100, 2, 6⟩
/-! SVC_MBOX (chapter 11). -/
def SVC_MBOX_LEN : Fld := ⟨0x104, 0, 11⟩
def SVC_MBOX_SEND : Fld := ⟨0x104, 16, 1⟩
def SVC_MBOX_ACK : Fld := ⟨0x104, 17, 1⟩
def SVC_MBOX_BUSY : Fld := ⟨0x104, 24, 1⟩
def SVC_MBOX_RDY : Fld := ⟨0x104, 25, 1⟩
def SVC_MBOX_OVERRUN : Fld := ⟨0x104, 26, 1⟩
/-! SVC_STAT (chapter 11). -/
def SVC_STAT_RLEN : Fld := ⟨0x108, 0, 11⟩
def SVC_STAT_FRAME_ERR : Fld := ⟨0x108, 16, 1⟩
def SVC_STAT_OFF_ERR : Fld := ⟨0x108, 17, 1⟩
def SVC_STAT_LATE_RD : Fld := ⟨0x108, 18, 1⟩
/-! PWR_DOMAIN (chapter 17). -/
def PWR_DOMAIN_EN : Fld := ⟨0x10000, 0, 6⟩
def PWR_DOMAIN_STAT : Fld := ⟨0x10000, 8, 6⟩
def PWR_DOMAIN_FAULT : Fld := ⟨0x10000, 16, 6⟩
/-! PWR_SUPV_CFG (chapter 17). -/
def PWR_SUPV_CFG_WARN_C : Fld := ⟨0x10004, 0, 4⟩
/-! PWR_SUPV_STAT (chapter 17). -/
def PWR_SUPV_STAT_BELOW : Fld := ⟨0x10008, 0, 5⟩
def PWR_SUPV_STAT_BRACE : Fld := ⟨0x10008, 5, 1⟩
def PWR_SUPV_STAT_BLANKED : Fld := ⟨0x10008, 6, 1⟩
def PWR_SUPV_STAT_SEEN : Fld := ⟨0x10008, 8, 5⟩
def PWR_SUPV_STAT_RESET_RAIL : Fld := ⟨0x10008, 16, 3⟩
def PWR_SUPV_STAT_GUARD : Fld := ⟨0x10008, 19, 1⟩
/-! PWR_BROWN (chapter 17). -/
def PWR_BROWN_MIN_RAIL : Fld := ⟨0x1000C, 0, 3⟩
def PWR_BROWN_MIN_MV : Fld := ⟨0x1000C, 16, 16⟩
/-! PWR_WAKE (chapter 17). -/
def PWR_WAKE_PIN_EN : Fld := ⟨0x10010, 0, 1⟩
def PWR_WAKE_LINK_EN : Fld := ⟨0x10010, 1, 1⟩
def PWR_WAKE_ALARM_EN : Fld := ⟨0x10010, 2, 1⟩
def PWR_WAKE_PIN_POL : Fld := ⟨0x10010, 3, 1⟩
def PWR_WAKE_PORT : Fld := ⟨0x10010, 4, 3⟩
def PWR_WAKE_CAUSE : Fld := ⟨0x10010, 8, 3⟩
def PWR_WAKE_WARM : Fld := ⟨0x10010, 11, 1⟩
/-! PWR_ALARM (chapter 17). -/
def PWR_ALARM_DELAY_S : Fld := ⟨0x10014, 0, 32⟩
/-! CLK_GCK_CFG (chapter 17). -/
def CLK_GCK_CFG_FREQ_KHZ : Fld := ⟨0x20000, 0, 19⟩
/-! CLK_STAT (chapter 17). -/
def CLK_STAT_SYS_LOCK : Fld := ⟨0x20004, 0, 1⟩
def CLK_STAT_GCK_LOCK : Fld := ⟨0x20004, 1, 1⟩
def CLK_STAT_SPW_RUN : Fld := ⟨0x20004, 2, 1⟩
def CLK_STAT_MIR_RUN : Fld := ⟨0x20004, 3, 1⟩
def CLK_STAT_NET_LOCK : Fld := ⟨0x20004, 4, 6⟩
def CLK_STAT_CORE_SLEEP : Fld := ⟨0x20004, 10, 1⟩
def CLK_STAT_REF_LOST : Fld := ⟨0x20004, 11, 1⟩
def CLK_STAT_ALW_LOST : Fld := ⟨0x20004, 12, 1⟩
/-! EVT_RAW (chapter 18). -/
def EVT_RAW_RAW (w : Nat) : Fld := ⟨0x30000 + 4 * w, 0, 32⟩
/-! EVT_MASK (chapter 18). -/
def EVT_MASK_MASK (w : Nat) : Fld := ⟨0x30008 + 4 * w, 0, 32⟩
/-! EVT_PEND (chapter 18). -/
def EVT_PEND_PEND (w : Nat) : Fld := ⟨0x30010 + 4 * w, 0, 32⟩
/-! EVT_ECC_CFG (chapter 18). -/
def EVT_ECC_CFG_SCRUB_EN : Fld := ⟨0x30020, 0, 1⟩
def EVT_ECC_CFG_SCRUB_PERIOD : Fld := ⟨0x30020, 8, 8⟩
/-! EVT_ECC_STAT (chapter 18). -/
def EVT_ECC_STAT_MEM : Fld := ⟨0x30024, 0, 4⟩
def EVT_ECC_STAT_WORD : Fld := ⟨0x30024, 8, 24⟩
/-! EVT_ECC_CNT (chapter 18). -/
def EVT_ECC_CNT_CORR : Fld := ⟨0x30028, 0, 16⟩
def EVT_ECC_CNT_UNCORR : Fld := ⟨0x30028, 16, 8⟩
/-! EVT_DATA (chapter 18). -/
def EVT_DATA_DATA (n : Nat) : Fld := ⟨0x30100 + 4 * n, 0, 32⟩
/-! TIME_CFG (chapter 02). -/
def TIME_CFG_SRC : Fld := ⟨0x40000, 0, 2⟩
def TIME_CFG_DELAY_MECH : Fld := ⟨0x40000, 2, 1⟩
def TIME_CFG_TRANSPORT : Fld := ⟨0x40000, 3, 2⟩
def TIME_CFG_DOMAIN : Fld := ⟨0x40000, 8, 7⟩
def TIME_CFG_LOSS_N : Fld := ⟨0x40000, 16, 4⟩
def TIME_CFG_PPS_OUT_EN : Fld := ⟨0x40000, 20, 1⟩
def TIME_CFG_PPS_GATE : Fld := ⟨0x40000, 21, 1⟩
def TIME_CFG_GENLOCK_EDGE : Fld := ⟨0x40000, 22, 1⟩
def TIME_CFG_STEP_LIMIT : Fld := ⟨0x40000, 24, 8⟩
/-! TIME_STAT (chapter 02). -/
def TIME_STAT_SERVO : Fld := ⟨0x40004, 0, 3⟩
def TIME_STAT_PORT : Fld := ⟨0x40004, 4, 3⟩
def TIME_STAT_PPS_IN_OK : Fld := ⟨0x40004, 7, 1⟩
def TIME_STAT_TOD_VALID : Fld := ⟨0x40004, 8, 1⟩
def TIME_STAT_HOLD_S : Fld := ⟨0x40004, 16, 16⟩
/-! TIME_VT (chapter 02). -/
def TIME_VT_NS_LO : Fld := ⟨0x40008, 0, 32⟩
def TIME_VT_NS_HI : Fld := ⟨0x4000C, 0, 32⟩
def TIME_VT_FRAC : Fld := ⟨0x40010, 0, 16⟩
/-! TIME_OFFSET (chapter 02). -/
def TIME_OFFSET_OFFSET : Fld := ⟨0x40014, 0, 32⟩
/-! TIME_PATH_DELAY (chapter 02). -/
def TIME_PATH_DELAY_FRAC : Fld := ⟨0x40018, 0, 8⟩
def TIME_PATH_DELAY_NS : Fld := ⟨0x40018, 8, 24⟩
/-! TIME_CNT (chapter 02). -/
def TIME_CNT_STEP_CNT : Fld := ⟨0x4001C, 0, 8⟩
def TIME_CNT_PPS_REJ : Fld := ⟨0x4001C, 8, 8⟩
def TIME_CNT_GENLOCK_REJ : Fld := ⟨0x4001C, 16, 8⟩
def TIME_CNT_FOLLOW_REJ : Fld := ⟨0x4001C, 24, 8⟩
/-! TIME_GRID_EPOCH (chapter 02). -/
def TIME_GRID_EPOCH_EPOCH_LO : Fld := ⟨0x40020, 0, 32⟩
def TIME_GRID_EPOCH_EPOCH_HI : Fld := ⟨0x40024, 0, 32⟩
/-! TIME_GRID_PERIOD (chapter 02). -/
def TIME_GRID_PERIOD_NS : Fld := ⟨0x40028, 0, 32⟩
def TIME_GRID_PERIOD_FRAC : Fld := ⟨0x4002C, 0, 16⟩
/-! TIME_GRID_EPOCH_FRAC (chapter 02). -/
def TIME_GRID_EPOCH_FRAC_FRAC : Fld := ⟨0x40030, 0, 16⟩
/-! TIME_ASYM (chapter 02). -/
def TIME_ASYM_ASYM (p : Nat) : Fld := ⟨0x40040 + 4 * p, 0, 32⟩
/-! TIME_PPS (chapter 02). -/
def TIME_PPS_OUT_WIDTH : Fld := ⟨0x40058, 0, 20⟩
def TIME_PPS_IN_WINDOW : Fld := ⟨0x40058, 20, 8⟩
/-! TIME_GENLOCK (chapter 02). -/
def TIME_GENLOCK_OFFSET : Fld := ⟨0x4005C, 0, 24⟩
/-! TIME_GM (chapter 02). -/
def TIME_GM_PRIO1 : Fld := ⟨0x40060, 0, 8⟩
def TIME_GM_PRIO2 : Fld := ⟨0x40060, 8, 8⟩
def TIME_GM_GM_PORTS : Fld := ⟨0x40060, 16, 6⟩
/-! MOVE_CFG (chapter 02). -/
def MOVE_CFG_LATE_LIMIT : Fld := ⟨0x40100, 0, 20⟩
/-! MOVE_STAT (chapter 02). -/
def MOVE_STAT_USED : Fld := ⟨0x40104, 0, 9⟩
def MOVE_STAT_FULL : Fld := ⟨0x40104, 9, 1⟩
/-! MOVE_CNT (chapter 02). -/
def MOVE_CNT_LATE_CNT : Fld := ⟨0x40108, 0, 8⟩
def MOVE_CNT_DROP_CNT : Fld := ⟨0x40108, 8, 8⟩
def MOVE_CNT_FULL_CNT : Fld := ⟨0x40108, 16, 8⟩
def MOVE_CNT_PIN_CONFLICT : Fld := ⟨0x40108, 24, 8⟩
/-! MOVE_NEW (chapter 02). -/
def MOVE_NEW_VT_LO : Fld := ⟨0x40110, 0, 32⟩
def MOVE_NEW_VT_HI : Fld := ⟨0x40114, 0, 32⟩
def MOVE_NEW_ACTION : Fld := ⟨0x40118, 0, 8⟩
def MOVE_NEW_ARG : Fld := ⟨0x4011C, 0, 32⟩
def MOVE_NEW_ADD : Fld := ⟨0x40120, 0, 1⟩
def MOVE_NEW_CANCEL : Fld := ⟨0x40120, 1, 1⟩
def MOVE_NEW_STATUS : Fld := ⟨0x40124, 0, 16⟩
def MOVE_NEW_DONE : Fld := ⟨0x40124, 16, 1⟩
def MOVE_NEW_HANDLE : Fld := ⟨0x40128, 0, 32⟩
/-! LINK_MODE (chapter 09). -/
def LINK_MODE_MODE (p : Nat) : Fld := ⟨0x50000 + 0x1000 * p, 0, 3⟩
def LINK_MODE_AN_EN (p : Nat) : Fld := ⟨0x50000 + 0x1000 * p, 3, 1⟩
def LINK_MODE_FEC_EN (p : Nat) : Fld := ⟨0x50000 + 0x1000 * p, 4, 1⟩
def LINK_MODE_TX_INV (p : Nat) : Fld := ⟨0x50000 + 0x1000 * p, 5, 1⟩
def LINK_MODE_RX_INV (p : Nat) : Fld := ⟨0x50000 + 0x1000 * p, 6, 1⟩
def LINK_MODE_DOWN_HOLD (p : Nat) : Fld := ⟨0x50000 + 0x1000 * p, 8, 8⟩
/-! LINK_STAT (chapter 09). -/
def LINK_STAT_UP (p : Nat) : Fld := ⟨0x50004 + 0x1000 * p, 0, 1⟩
def LINK_STAT_SPEED (p : Nat) : Fld := ⟨0x50004 + 0x1000 * p, 1, 2⟩
def LINK_STAT_AN_DONE (p : Nat) : Fld := ⟨0x50004 + 0x1000 * p, 3, 1⟩
def LINK_STAT_FEC_ACT (p : Nat) : Fld := ⟨0x50004 + 0x1000 * p, 4, 1⟩
def LINK_STAT_EEE_ACT (p : Nat) : Fld := ⟨0x50004 + 0x1000 * p, 5, 1⟩
def LINK_STAT_LPI_TX (p : Nat) : Fld := ⟨0x50004 + 0x1000 * p, 6, 1⟩
def LINK_STAT_LPI_RX (p : Nat) : Fld := ⟨0x50004 + 0x1000 * p, 7, 1⟩
def LINK_STAT_PAUSED (p : Nat) : Fld := ⟨0x50004 + 0x1000 * p, 8, 1⟩
def LINK_STAT_FAULT (p : Nat) : Fld := ⟨0x50004 + 0x1000 * p, 9, 2⟩
def LINK_STAT_DELIVER (p : Nat) : Fld := ⟨0x50004 + 0x1000 * p, 11, 1⟩
def LINK_STAT_MODE_REJ (p : Nat) : Fld := ⟨0x50004 + 0x1000 * p, 12, 1⟩
def LINK_STAT_SPEED_REJ (p : Nat) : Fld := ⟨0x50004 + 0x1000 * p, 13, 1⟩
/-! LINK_EEE (chapter 09). -/
def LINK_EEE_EN (p : Nat) : Fld := ⟨0x50008 + 0x1000 * p, 0, 1⟩
def LINK_EEE_TW (p : Nat) : Fld := ⟨0x50008 + 0x1000 * p, 1, 10⟩
def LINK_EEE_GUARD (p : Nat) : Fld := ⟨0x50008 + 0x1000 * p, 11, 5⟩
/-! LINK_EEE_WIN (chapter 09). -/
def LINK_EEE_WIN_WIN_START (p : Nat) : Fld := ⟨0x5000C + 0x1000 * p, 0, 16⟩
def LINK_EEE_WIN_WIN_LEN (p : Nat) : Fld := ⟨0x5000C + 0x1000 * p, 16, 16⟩
/-! LINK_PAUSE (chapter 09). -/
def LINK_PAUSE_RX (p : Nat) : Fld := ⟨0x50010 + 0x1000 * p, 0, 1⟩
def LINK_PAUSE_TX (p : Nat) : Fld := ⟨0x50010 + 0x1000 * p, 1, 1⟩
def LINK_PAUSE_REMAIN (p : Nat) : Fld := ⟨0x50010 + 0x1000 * p, 16, 16⟩
/-! LINK_CNT0 (chapter 09). -/
def LINK_CNT0_RUNT (p : Nat) : Fld := ⟨0x50020 + 0x1000 * p, 0, 8⟩
def LINK_CNT0_OVERSIZE (p : Nat) : Fld := ⟨0x50020 + 0x1000 * p, 8, 8⟩
def LINK_CNT0_FCS_ERR (p : Nat) : Fld := ⟨0x50020 + 0x1000 * p, 16, 8⟩
def LINK_CNT0_STOMP_RX (p : Nat) : Fld := ⟨0x50020 + 0x1000 * p, 24, 8⟩
/-! LINK_CNT1 (chapter 09). -/
def LINK_CNT1_PAUSE_RX (p : Nat) : Fld := ⟨0x50024 + 0x1000 * p, 0, 8⟩
def LINK_CNT1_MACCTL_OTHER (p : Nat) : Fld := ⟨0x50024 + 0x1000 * p, 8, 8⟩
def LINK_CNT1_LPI_LATE (p : Nat) : Fld := ⟨0x50024 + 0x1000 * p, 16, 8⟩
def LINK_CNT1_NOCELL (p : Nat) : Fld := ⟨0x50024 + 0x1000 * p, 24, 8⟩
/-! PB_CFG (chapter 09). -/
def PB_CFG_EN : Fld := ⟨0x56000, 0, 1⟩
def PB_CFG_RATE : Fld := ⟨0x56000, 1, 14⟩
def PB_CFG_EV_EN : Fld := ⟨0x56000, 15, 1⟩
def PB_CFG_TURN_MIN : Fld := ⟨0x56000, 16, 4⟩
def PB_CFG_SLOT : Fld := ⟨0x56000, 20, 8⟩
/-! PB_STAT (chapter 09). -/
def PB_STAT_TOKEN : Fld := ⟨0x56004, 0, 1⟩
def PB_STAT_CMD_Q : Fld := ⟨0x56004, 1, 3⟩
def PB_STAT_REPLY_Q : Fld := ⟨0x56004, 4, 3⟩
def PB_STAT_EV_Q : Fld := ⟨0x56004, 7, 5⟩
/-! PB_CNT0 (chapter 09). -/
def PB_CNT0_CRC_ERR : Fld := ⟨0x56008, 0, 8⟩
def PB_CNT0_FRAMING : Fld := ⟨0x56008, 8, 8⟩
def PB_CNT0_COLLISION : Fld := ⟨0x56008, 16, 8⟩
def PB_CNT0_OVERRUN : Fld := ⟨0x56008, 24, 8⟩
/-! PB_CNT1 (chapter 09). -/
def PB_CNT1_EV_LOST : Fld := ⟨0x5600C, 0, 8⟩
/-! PB_EV_MASK0 (chapter 09). -/
def PB_EV_MASK0_MASK : Fld := ⟨0x56010, 0, 32⟩
/-! PB_EV_MASK1 (chapter 09). -/
def PB_EV_MASK1_MASK : Fld := ⟨0x56014, 0, 32⟩
/-! FWD_CFG (chapter 09). -/
def FWD_CFG_TOPO : Fld := ⟨0x60000, 0, 1⟩
def FWD_CFG_DEDUP : Fld := ⟨0x60000, 1, 1⟩
def FWD_CFG_OTHER : Fld := ⟨0x60000, 2, 1⟩
def FWD_CFG_TAG_EN : Fld := ⟨0x60000, 3, 1⟩
def FWD_CFG_PCP : Fld := ⟨0x60000, 4, 3⟩
def FWD_CFG_VID : Fld := ⟨0x60000, 8, 12⟩
def FWD_CFG_RESERVE : Fld := ⟨0x60000, 20, 8⟩
/-! FWD_ADDR (chapter 09). -/
def FWD_ADDR_NODE : Fld := ⟨0x60004, 0, 12⟩
/-! FWD_MTU (chapter 09). -/
def FWD_MTU_MTU : Fld := ⟨0x60008, 0, 14⟩
def FWD_MTU_QCAP : Fld := ⟨0x60008, 16, 12⟩
/-! FWD_XOFF (chapter 09). -/
def FWD_XOFF_XOFF : Fld := ⟨0x6000C, 0, 12⟩
def FWD_XOFF_XON : Fld := ⟨0x6000C, 12, 12⟩
/-! FWD_QUANTA (chapter 09). -/
def FWD_QUANTA_QUANTA : Fld := ⟨0x60010, 0, 16⟩
/-! FWD_LEDGER (chapter 09). -/
def FWD_LEDGER_SNAP : Fld := ⟨0x60014, 0, 1⟩
def FWD_LEDGER_FREE : Fld := ⟨0x60018, 0, 12⟩
def FWD_LEDGER_QUEUED : Fld := ⟨0x60018, 16, 12⟩
def FWD_LEDGER_LOCKED : Fld := ⟨0x6001C, 0, 12⟩
def FWD_LEDGER_COUNT : Fld := ⟨0x6001C, 16, 8⟩
/-! FWD_FREE (chapter 09). -/
def FWD_FREE_CELLS : Fld := ⟨0x60020, 0, 12⟩
/-! FWD_QUEUED (chapter 09). -/
def FWD_QUEUED_CELLS : Fld := ⟨0x60024, 0, 12⟩
/-! FWD_LOCKED (chapter 09). -/
def FWD_LOCKED_CELLS : Fld := ⟨0x60028, 0, 12⟩
/-! FWD_STAT (chapter 09). -/
def FWD_STAT_CFG_REJ : Fld := ⟨0x6002C, 0, 1⟩
/-! FWD_RING (chapter 09). -/
def FWD_RING_TMO : Fld := ⟨0x60030, 0, 16⟩
def FWD_RING_STATE : Fld := ⟨0x60030, 16, 2⟩
def FWD_RING_SILENT : Fld := ⟨0x60030, 18, 1⟩
/-! FWD_DUP (chapter 09). -/
def FWD_DUP_AGE : Fld := ⟨0x60034, 0, 16⟩
def FWD_DUP_IN_USE : Fld := ⟨0x60034, 16, 11⟩
/-! FWD_BRANCH (chapter 09). -/
def FWD_BRANCH_EN (b : Nat) : Fld := ⟨0x60040 + 4 * b, 0, 1⟩
def FWD_BRANCH_BCAST (b : Nat) : Fld := ⟨0x60040 + 4 * b, 1, 1⟩
def FWD_BRANCH_GRP_ALL (b : Nat) : Fld := ⟨0x60040 + 4 * b, 2, 1⟩
def FWD_BRANCH_LO (b : Nat) : Fld := ⟨0x60040 + 4 * b, 4, 12⟩
def FWD_BRANCH_HI (b : Nat) : Fld := ⟨0x60040 + 4 * b, 16, 12⟩
/-! FWD_CNT0 (chapter 09). -/
def FWD_CNT0_STOMP : Fld := ⟨0x60050, 0, 8⟩
def FWD_CNT0_NOCELL : Fld := ⟨0x60050, 8, 8⟩
def FWD_CNT0_OLD : Fld := ⟨0x60050, 16, 8⟩
def FWD_CNT0_RESTART : Fld := ⟨0x60050, 24, 8⟩
/-! FWD_CNT1 (chapter 09). -/
def FWD_CNT1_WIN_EVICT : Fld := ⟨0x60054, 0, 8⟩
def FWD_CNT1_LOOP : Fld := ⟨0x60054, 8, 8⟩
/-! FWD_DUP_CNT (chapter 09). -/
def FWD_DUP_CNT_DUP : Fld := ⟨0x60058, 0, 32⟩
/-! FWD_MAC (chapter 09). -/
def FWD_MAC_MAC_LO : Fld := ⟨0x60060, 0, 32⟩
def FWD_MAC_MAC_HI : Fld := ⟨0x60064, 0, 16⟩
/-! FWD_GROUP (chapter 09). -/
def FWD_GROUP_MEMBER (n : Nat) : Fld := ⟨0x60080 + 4 * n, 0, 32⟩
/-! FWD_KLP_TYPE (chapter 10). -/
def FWD_KLP_TYPE_ETHERTYPE : Fld := ⟨0x60100, 0, 16⟩
def FWD_KLP_TYPE_UDP_PORT : Fld := ⟨0x60100, 16, 16⟩
/-! FWD_KLP_CFG (chapter 10). -/
def FWD_KLP_CFG_ETH_EN : Fld := ⟨0x60104, 0, 1⟩
def FWD_KLP_CFG_UDP_EN : Fld := ⟨0x60104, 1, 1⟩
def FWD_KLP_CFG_AUTH_REQ : Fld := ⟨0x60104, 2, 1⟩
def FWD_KLP_CFG_SES_TMO : Fld := ⟨0x60104, 8, 8⟩
/-! FWD_IP (chapter 10). -/
def FWD_IP_ADDR : Fld := ⟨0x60108, 0, 32⟩
/-! FWD_KLP_STAT (chapter 10). -/
def FWD_KLP_STAT_OPEN : Fld := ⟨0x6010C, 0, 6⟩
def FWD_KLP_STAT_GRANTED : Fld := ⟨0x6010C, 8, 8⟩
def FWD_KLP_STAT_TIMED : Fld := ⟨0x6010C, 16, 7⟩
/-! FWD_KLP_CNT0 (chapter 10). -/
def FWD_KLP_CNT0_HCHECK : Fld := ⟨0x60110, 0, 8⟩
def FWD_KLP_CNT0_PCHECK : Fld := ⟨0x60110, 8, 8⟩
def FWD_KLP_CNT0_VERSION : Fld := ⟨0x60110, 16, 8⟩
def FWD_KLP_CNT0_FORMAT : Fld := ⟨0x60110, 24, 8⟩
/-! FWD_KLP_CNT1 (chapter 10). -/
def FWD_KLP_CNT1_ADDR : Fld := ⟨0x60114, 0, 8⟩
def FWD_KLP_CNT1_AUTH : Fld := ⟨0x60114, 8, 8⟩
def FWD_KLP_CNT1_REPLAY : Fld := ⟨0x60114, 16, 8⟩
def FWD_KLP_CNT1_CREDIT : Fld := ⟨0x60114, 24, 8⟩
/-! FWD_SES (chapter 10). -/
def FWD_SES_HANDLE (s : Nat) : Fld := ⟨0x60200 + 0x10 * s, 0, 32⟩
def FWD_SES_STATE (s : Nat) : Fld := ⟨0x60204 + 0x10 * s, 0, 2⟩
def FWD_SES_UDP (s : Nat) : Fld := ⟨0x60204 + 0x10 * s, 2, 1⟩
def FWD_SES_VER_MAJ (s : Nat) : Fld := ⟨0x60204 + 0x10 * s, 4, 4⟩
def FWD_SES_VER_MIN (s : Nat) : Fld := ⟨0x60204 + 0x10 * s, 8, 4⟩
def FWD_SES_PARTNER (s : Nat) : Fld := ⟨0x60204 + 0x10 * s, 16, 12⟩
def FWD_SES_GRANT (s : Nat) : Fld := ⟨0x60208 + 0x10 * s, 0, 6⟩
def FWD_SES_AVAIL (s : Nat) : Fld := ⟨0x60208 + 0x10 * s, 8, 6⟩
def FWD_SES_OUTST (s : Nat) : Fld := ⟨0x60208 + 0x10 * s, 16, 6⟩
def FWD_SES_IDLE_S (s : Nat) : Fld := ⟨0x6020C + 0x10 * s, 0, 16⟩
/-! PIPE_CFG (chapter 03). -/
def PIPE_CFG_LAYOUT : Fld := ⟨0x70000, 0, 1⟩
def PIPE_CFG_PRIM : Fld := ⟨0x70000, 1, 2⟩
def PIPE_CFG_TILE_W : Fld := ⟨0x70000, 3, 10⟩
def PIPE_CFG_TILE_H : Fld := ⟨0x70000, 13, 11⟩
/-! PIPE_CTRL (chapter 03). -/
def PIPE_CTRL_FLUSH : Fld := ⟨0x70004, 0, 1⟩
/-! PIPE_STAT (chapter 03). -/
def PIPE_STAT_BOARD_A : Fld := ⟨0x70008, 0, 2⟩
def PIPE_STAT_BOARD_B : Fld := ⟨0x70008, 2, 2⟩
def PIPE_STAT_BOARD_C : Fld := ⟨0x70008, 4, 2⟩
def PIPE_STAT_HELD : Fld := ⟨0x70008, 6, 3⟩
def PIPE_STAT_COMPOSING : Fld := ⟨0x70008, 9, 2⟩
/-! PIPE_BOARD_FRAME (chapter 03). -/
def PIPE_BOARD_FRAME_FRAME (b : Nat) : Fld := ⟨0x7000C + 4 * b, 0, 32⟩
/-! PIPE_LATE_POLICY (chapter 03). -/
def PIPE_LATE_POLICY_POLICY : Fld := ⟨0x70018, 0, 1⟩
/-! PIPE_TIMING (chapter 03). -/
def PIPE_TIMING_GREY_LEAD : Fld := ⟨0x7001C, 0, 12⟩
/-! PIPE_BRIGHT (chapter 03). -/
def PIPE_BRIGHT_LEVEL : Fld := ⟨0x70020, 0, 16⟩
/-! PIPE_ABL (chapter 03). -/
def PIPE_ABL_FACTOR : Fld := ⟨0x70024, 0, 16⟩
def PIPE_ABL_ACTIVE : Fld := ⟨0x70024, 16, 1⟩
/-! PIPE_ABL_PRED (chapter 03). -/
def PIPE_ABL_PRED_PRED_MA : Fld := ⟨0x70028, 0, 16⟩
/-! PIPE_CAL_CFG (chapter 03). -/
def PIPE_CAL_CFG_EN : Fld := ⟨0x70030, 0, 1⟩
def PIPE_CAL_CFG_BANK : Fld := ⟨0x70030, 1, 1⟩
/-! PIPE_CAL_CHK (chapter 03). -/
def PIPE_CAL_CHK_START : Fld := ⟨0x70034, 0, 1⟩
def PIPE_CAL_CHK_SEL : Fld := ⟨0x70034, 1, 1⟩
def PIPE_CAL_CHK_BUSY : Fld := ⟨0x70034, 2, 1⟩
def PIPE_CAL_CHK_PASS0 : Fld := ⟨0x70034, 3, 1⟩
def PIPE_CAL_CHK_PASS1 : Fld := ⟨0x70034, 4, 1⟩
/-! PIPE_CAL_CRC (chapter 03). -/
def PIPE_CAL_CRC_CRC (b : Nat) : Fld := ⟨0x70038 + 4 * b, 0, 32⟩
/-! PIPE_THERM_CFG (chapter 03). -/
def PIPE_THERM_CFG_EN : Fld := ⟨0x70040, 0, 1⟩
/-! PIPE_THERM_BP0 (chapter 03). -/
def PIPE_THERM_BP0_T0 : Fld := ⟨0x70044, 0, 8⟩
def PIPE_THERM_BP0_T1 : Fld := ⟨0x70044, 8, 8⟩
def PIPE_THERM_BP0_T2 : Fld := ⟨0x70044, 16, 8⟩
def PIPE_THERM_BP0_T3 : Fld := ⟨0x70044, 24, 8⟩
/-! PIPE_THERM_BP1 (chapter 03). -/
def PIPE_THERM_BP1_T4 : Fld := ⟨0x70048, 0, 8⟩
def PIPE_THERM_BP1_T5 : Fld := ⟨0x70048, 8, 8⟩
def PIPE_THERM_BP1_T6 : Fld := ⟨0x70048, 16, 8⟩
def PIPE_THERM_BP1_T7 : Fld := ⟨0x70048, 24, 8⟩
/-! PIPE_THERM_STAT (chapter 03). -/
def PIPE_THERM_STAT_TB : Fld := ⟨0x7004C, 0, 16⟩
def PIPE_THERM_STAT_SEG : Fld := ⟨0x7004C, 16, 3⟩
def PIPE_THERM_STAT_BP_REJ : Fld := ⟨0x7004C, 19, 1⟩
/-! PIPE_CNT0 (chapter 03). -/
def PIPE_CNT0_LATE_PKT : Fld := ⟨0x70050, 0, 8⟩
def PIPE_CNT0_STALE : Fld := ⟨0x70050, 8, 8⟩
def PIPE_CNT0_NO_BOARD : Fld := ⟨0x70050, 16, 8⟩
def PIPE_CNT0_EVICTED : Fld := ⟨0x70050, 24, 8⟩
/-! PIPE_CNT1 (chapter 03). -/
def PIPE_CNT1_REJECT : Fld := ⟨0x70054, 0, 8⟩
def PIPE_CNT1_REPEAT : Fld := ⟨0x70054, 8, 8⟩
def PIPE_CNT1_SUPERSEDED : Fld := ⟨0x70054, 16, 8⟩
def PIPE_CNT1_LATE_FRAME : Fld := ⟨0x70054, 24, 8⟩
/-! PIPE_THERM_COEF0 (chapter 03). -/
def PIPE_THERM_COEF0_M00 (b : Nat) : Fld := ⟨0x70100 + 0x20 * b, 0, 16⟩
def PIPE_THERM_COEF0_M01 (b : Nat) : Fld := ⟨0x70100 + 0x20 * b, 16, 16⟩
/-! PIPE_THERM_COEF1 (chapter 03). -/
def PIPE_THERM_COEF1_M02 (b : Nat) : Fld := ⟨0x70104 + 0x20 * b, 0, 16⟩
def PIPE_THERM_COEF1_M10 (b : Nat) : Fld := ⟨0x70104 + 0x20 * b, 16, 16⟩
/-! PIPE_THERM_COEF2 (chapter 03). -/
def PIPE_THERM_COEF2_M11 (b : Nat) : Fld := ⟨0x70108 + 0x20 * b, 0, 16⟩
def PIPE_THERM_COEF2_M12 (b : Nat) : Fld := ⟨0x70108 + 0x20 * b, 16, 16⟩
/-! PIPE_THERM_COEF3 (chapter 03). -/
def PIPE_THERM_COEF3_M20 (b : Nat) : Fld := ⟨0x7010C + 0x20 * b, 0, 16⟩
def PIPE_THERM_COEF3_M21 (b : Nat) : Fld := ⟨0x7010C + 0x20 * b, 16, 16⟩
/-! PIPE_THERM_COEF4 (chapter 03). -/
def PIPE_THERM_COEF4_M22 (b : Nat) : Fld := ⟨0x70110 + 0x20 * b, 0, 16⟩
/-! PIPE_MAP (chapter 03). -/
def PIPE_MAP_EN (m : Nat) : Fld := ⟨0x71000 + 0x20 * m, 0, 1⟩
def PIPE_MAP_EXPECT (m : Nat) : Fld := ⟨0x71000 + 0x20 * m, 1, 1⟩
def PIPE_MAP_PRIO (m : Nat) : Fld := ⟨0x71000 + 0x20 * m, 2, 2⟩
def PIPE_MAP_PATTERN (m : Nat) : Fld := ⟨0x71000 + 0x20 * m, 4, 2⟩
def PIPE_MAP_FORMAT (m : Nat) : Fld := ⟨0x71000 + 0x20 * m, 6, 3⟩
def PIPE_MAP_ROT (m : Nat) : Fld := ⟨0x71000 + 0x20 * m, 9, 2⟩
def PIPE_MAP_MIRROR (m : Nat) : Fld := ⟨0x71000 + 0x20 * m, 11, 1⟩
def PIPE_MAP_WSUB (m : Nat) : Fld := ⟨0x71000 + 0x20 * m, 12, 1⟩
def PIPE_MAP_XFER (m : Nat) : Fld := ⟨0x71000 + 0x20 * m, 13, 4⟩
def PIPE_MAP_XFER_BYPASS (m : Nat) : Fld := ⟨0x71000 + 0x20 * m, 17, 1⟩
def PIPE_MAP_X0 (m : Nat) : Fld := ⟨0x71004 + 0x20 * m, 0, 16⟩
def PIPE_MAP_Y0 (m : Nat) : Fld := ⟨0x71004 + 0x20 * m, 16, 16⟩
def PIPE_MAP_W (m : Nat) : Fld := ⟨0x71008 + 0x20 * m, 0, 16⟩
def PIPE_MAP_H (m : Nat) : Fld := ⟨0x71008 + 0x20 * m, 16, 16⟩
def PIPE_MAP_TX (m : Nat) : Fld := ⟨0x7100C + 0x20 * m, 0, 16⟩
def PIPE_MAP_TY (m : Nat) : Fld := ⟨0x7100C + 0x20 * m, 16, 16⟩
def PIPE_MAP_BOARD_BASE (m : Nat) : Fld := ⟨0x71010 + 0x20 * m, 0, 16⟩
def PIPE_MAP_HANDLE (m : Nat) : Fld := ⟨0x71014 + 0x20 * m, 0, 32⟩
/-! GREY_SEG (chapter 04). -/
def GREY_SEG_NSUB : Fld := ⟨0x80000, 0, 2⟩
def GREY_SEG_SSEG : Fld := ⟨0x80000, 2, 2⟩
/-! GREY_MINPULSE (chapter 04). -/
def GREY_MINPULSE_MIN_PULSE : Fld := ⟨0x80004, 0, 6⟩
/-! GREY_ASSIST (chapter 04). -/
def GREY_ASSIST_EN : Fld := ⟨0x80008, 0, 1⟩
def GREY_ASSIST_FACTOR : Fld := ⟨0x80008, 1, 1⟩
def GREY_ASSIST_LIMIT : Fld := ⟨0x80008, 8, 8⟩
/-! GREY_DITHER (chapter 04). -/
def GREY_DITHER_EN : Fld := ⟨0x8000C, 0, 1⟩
def GREY_DITHER_SEED : Fld := ⟨0x8000C, 4, 4⟩
/-! GREY_STAGGER (chapter 04). -/
def GREY_STAGGER_S0 : Fld := ⟨0x80010, 0, 3⟩
def GREY_STAGGER_S1 : Fld := ⟨0x80010, 3, 3⟩
def GREY_STAGGER_S2 : Fld := ⟨0x80010, 6, 3⟩
def GREY_STAGGER_S3 : Fld := ⟨0x80010, 9, 3⟩
def GREY_STAGGER_S4 : Fld := ⟨0x80010, 12, 3⟩
def GREY_STAGGER_S5 : Fld := ⟨0x80010, 15, 3⟩
/-! GREY_STAT (chapter 04). -/
def GREY_STAT_CAP : Fld := ⟨0x80014, 0, 17⟩
def GREY_STAT_RES : Fld := ⟨0x80014, 17, 5⟩
def GREY_STAT_SEG_REJ : Fld := ⟨0x80014, 22, 1⟩
def GREY_STAT_PLANE : Fld := ⟨0x80014, 23, 1⟩
def GREY_STAT_FIDX : Fld := ⟨0x80014, 24, 4⟩
/-! GREY_PERF (chapter 04). -/
def GREY_PERF_LAST : Fld := ⟨0x80018, 0, 8⟩
def GREY_PERF_MAX : Fld := ⟨0x80018, 8, 8⟩
/-! SCAN_GEOM (chapter 05). -/
def SCAN_GEOM_LINES : Fld := ⟨0x90000, 0, 8⟩
def SCAN_GEOM_T_BLANK : Fld := ⟨0x90000, 8, 8⟩
def SCAN_GEOM_ORDER : Fld := ⟨0x90000, 16, 2⟩
def SCAN_GEOM_SUB_PAD : Fld := ⟨0x90000, 18, 12⟩
/-! SCAN_LINEIF (chapter 05). -/
def SCAN_LINEIF_MODE : Fld := ⟨0x90004, 0, 2⟩
def SCAN_LINEIF_LEN_POL : Fld := ⟨0x90004, 2, 1⟩
def SCAN_LINEIF_LBLK_POL : Fld := ⟨0x90004, 3, 1⟩
def SCAN_LINEIF_LDIS_POL : Fld := ⟨0x90004, 4, 1⟩
def SCAN_LINEIF_DIS_MAP : Fld := ⟨0x90004, 5, 1⟩
def SCAN_LINEIF_SHIFT_W : Fld := ⟨0x90004, 6, 3⟩
def SCAN_LINEIF_PAWN_MASK : Fld := ⟨0x90004, 16, 8⟩
/-! SCAN_MODE (chapter 02). -/
def SCAN_MODE_MODE : Fld := ⟨0x90008, 0, 2⟩
def SCAN_MODE_FOLLOW_SESSION : Fld := ⟨0x90008, 16, 16⟩
/-! SCAN_FRAME_LIM (chapter 02). -/
def SCAN_FRAME_LIM_FRAME_MIN : Fld := ⟨0x9000C, 0, 16⟩
def SCAN_FRAME_LIM_FRAME_MAX : Fld := ⟨0x9000C, 16, 16⟩
/-! SCAN_PRECHG (chapter 05). -/
def SCAN_PRECHG_T_LOFF : Fld := ⟨0x90010, 0, 4⟩
def SCAN_PRECHG_T_DIS : Fld := ⟨0x90010, 4, 8⟩
def SCAN_PRECHG_T_PRE : Fld := ⟨0x90010, 12, 8⟩
def SCAN_PRECHG_T_DEAD : Fld := ⟨0x90010, 20, 4⟩
def SCAN_PRECHG_BANK_EN : Fld := ⟨0x90010, 24, 6⟩
def SCAN_PRECHG_PRE_SEL : Fld := ⟨0x90010, 30, 1⟩
/-! SCAN_VBLANK (chapter 05). -/
def SCAN_VBLANK_VB_MIN : Fld := ⟨0x90014, 0, 14⟩
/-! SCAN_STAT (chapter 05). -/
def SCAN_STAT_VB_LAST : Fld := ⟨0x90018, 0, 16⟩
def SCAN_STAT_GEOM_REJ : Fld := ⟨0x90018, 16, 1⟩
def SCAN_STAT_PHASE_REJ : Fld := ⟨0x90018, 17, 1⟩
def SCAN_STAT_ORDER_REJ : Fld := ⟨0x90018, 18, 1⟩
def SCAN_STAT_STATE : Fld := ⟨0x90018, 19, 2⟩
def SCAN_STAT_PROBE : Fld := ⟨0x90018, 21, 1⟩
/-! SCAN_CNT (chapter 05). -/
def SCAN_CNT_STALL : Fld := ⟨0x9001C, 0, 8⟩
def SCAN_CNT_DARK_FRAMES : Fld := ⟨0x9001C, 8, 8⟩
def SCAN_CNT_RELOCK : Fld := ⟨0x9001C, 16, 8⟩
/-! SCAN_POS (chapter 05). -/
def SCAN_POS_SLOT : Fld := ⟨0x90020, 0, 13⟩
def SCAN_POS_SUB : Fld := ⟨0x90020, 13, 8⟩
def SCAN_POS_VBLANK : Fld := ⟨0x90020, 21, 1⟩
/-! SCAN_ORDER (chapter 05). -/
def SCAN_ORDER_E0 (n : Nat) : Fld := ⟨0x90100 + 4 * n, 0, 7⟩
def SCAN_ORDER_E1 (n : Nat) : Fld := ⟨0x90100 + 4 * n, 8, 7⟩
def SCAN_ORDER_E2 (n : Nat) : Fld := ⟨0x90100 + 4 * n, 16, 7⟩
def SCAN_ORDER_E3 (n : Nat) : Fld := ⟨0x90100 + 4 * n, 24, 7⟩
/-! SINK_CTRL (chapter 06). -/
def SINK_CTRL_BANK_EN : Fld := ⟨0xA0000, 0, 6⟩
/-! SINK_BUDGET (chapter 06). -/
def SINK_BUDGET_BUDGET_MA : Fld := ⟨0xA0004, 0, 13⟩
/-! SINK_STAT (chapter 06). -/
def SINK_STAT_IREF_FAULT : Fld := ⟨0xA0008, 0, 1⟩
def SINK_STAT_FOLD_REJ : Fld := ⟨0xA0008, 1, 1⟩
/-! SINK_BANK_GCS (chapter 06). -/
def SINK_BANK_GCS_GCS (b : Nat) : Fld := ⟨0xA0010 + 4 * b, 0, 7⟩
def SINK_BANK_GCS_RANGE (b : Nat) : Fld := ⟨0xA0010 + 4 * b, 7, 1⟩
/-! SINK_CG (chapter 06). -/
def SINK_CG_C0 (n : Nat) : Fld := ⟨0xA0100 + 4 * n, 0, 8⟩
def SINK_CG_C1 (n : Nat) : Fld := ⟨0xA0100 + 4 * n, 8, 8⟩
def SINK_CG_C2 (n : Nat) : Fld := ⟨0xA0100 + 4 * n, 16, 8⟩
def SINK_CG_C3 (n : Nat) : Fld := ⟨0xA0100 + 4 * n, 24, 8⟩
/-! SINK_RAIL (chapter 06). -/
def SINK_RAIL_RAIL (n : Nat) : Fld := ⟨0xA0280 + 4 * n, 0, 32⟩
/-! SINK_HR_CFG (chapter 06). -/
def SINK_HR_CFG_DELAY : Fld := ⟨0xA0300, 0, 8⟩
def SINK_HR_CFG_TARGET_R : Fld := ⟨0xA0300, 8, 8⟩
def SINK_HR_CFG_TARGET_GB : Fld := ⟨0xA0300, 16, 8⟩
/-! SINK_HR_STAT (chapter 06). -/
def SINK_HR_STAT_FRAC_R (b : Nat) : Fld := ⟨0xA0310 + 4 * b, 0, 11⟩
def SINK_HR_STAT_FRAC_GB (b : Nat) : Fld := ⟨0xA0310 + 4 * b, 16, 11⟩
def SINK_HR_STAT_VALID_R (b : Nat) : Fld := ⟨0xA0310 + 4 * b, 27, 1⟩
def SINK_HR_STAT_VALID_GB (b : Nat) : Fld := ⟨0xA0310 + 4 * b, 28, 1⟩
/-! SINK_FOLD (chapter 06). -/
def SINK_FOLD_T_FOLD : Fld := ⟨0xA0330, 0, 8⟩
def SINK_FOLD_T_CUT : Fld := ⟨0xA0330, 8, 8⟩
def SINK_FOLD_FLOOR : Fld := ⟨0xA0330, 16, 10⟩
def SINK_FOLD_HYST : Fld := ⟨0xA0330, 26, 4⟩
def SINK_FOLD_EN : Fld := ⟨0xA0330, 31, 1⟩
/-! SINK_FOLD_STAT (chapter 06). -/
def SINK_FOLD_STAT_FF : Fld := ⟨0xA0334, 0, 11⟩
def SINK_FOLD_STAT_STATE : Fld := ⟨0xA0334, 11, 2⟩
/-! SINK_TB_CFG (chapter 06). -/
def SINK_TB_CFG_SRC : Fld := ⟨0xA0338, 0, 3⟩
def SINK_TB_CFG_PAWN : Fld := ⟨0xA0338, 3, 3⟩
def SINK_TB_CFG_DIE_OFFSET : Fld := ⟨0xA0338, 8, 6⟩
def SINK_TB_CFG_STALE : Fld := ⟨0xA0338, 16, 8⟩
/-! SINK_TB_STAT (chapter 06). -/
def SINK_TB_STAT_TB : Fld := ⟨0xA033C, 0, 16⟩
def SINK_TB_STAT_USED : Fld := ⟨0xA033C, 16, 3⟩
def SINK_TB_STAT_FAULT_A : Fld := ⟨0xA033C, 19, 1⟩
def SINK_TB_STAT_FAULT_B : Fld := ⟨0xA033C, 20, 1⟩
def SINK_TB_STAT_FAULT_P : Fld := ⟨0xA033C, 21, 1⟩
/-! SINK_NTC_A (chapter 06). -/
def SINK_NTC_A_ENTRY_LO (k : Nat) : Fld := ⟨0xA0340 + 4 * k, 0, 16⟩
def SINK_NTC_A_ENTRY_HI (k : Nat) : Fld := ⟨0xA0340 + 4 * k, 16, 16⟩
/-! SINK_DIE (chapter 06). -/
def SINK_DIE_TJ : Fld := ⟨0xA0370, 0, 16⟩
def SINK_DIE_WARN : Fld := ⟨0xA0370, 16, 1⟩
/-! SINK_NTC_B (chapter 06). -/
def SINK_NTC_B_ENTRY_LO (k : Nat) : Fld := ⟨0xA0380 + 4 * k, 0, 16⟩
def SINK_NTC_B_ENTRY_HI (k : Nat) : Fld := ⟨0xA0380 + 4 * k, 16, 16⟩
/-! CENSUS_CFG (chapter 07). -/
def CENSUS_CFG_EN : Fld := ⟨0xB0000, 0, 1⟩
def CENSUS_CFG_PROBE_SLOT : Fld := ⟨0xB0000, 1, 1⟩
def CENSUS_CFG_PROBE_BLACK : Fld := ⟨0xB0000, 2, 1⟩
def CENSUS_CFG_MEAS_DELAY : Fld := ⟨0xB0000, 4, 8⟩
def CENSUS_CFG_CONFIRM_N : Fld := ⟨0xB0000, 12, 4⟩
def CENSUS_CFG_PROBE_AFTER : Fld := ⟨0xB0000, 16, 8⟩
def CENSUS_CFG_IPROBE : Fld := ⟨0xB0000, 24, 3⟩
/-! CENSUS_VSHORT0 (chapter 07). -/
def CENSUS_VSHORT0_V0 : Fld := ⟨0xB0004, 0, 6⟩
def CENSUS_VSHORT0_V1 : Fld := ⟨0xB0004, 8, 6⟩
def CENSUS_VSHORT0_V2 : Fld := ⟨0xB0004, 16, 6⟩
def CENSUS_VSHORT0_V3 : Fld := ⟨0xB0004, 24, 6⟩
/-! CENSUS_VSHORT1 (chapter 07). -/
def CENSUS_VSHORT1_V4 : Fld := ⟨0xB0008, 0, 6⟩
def CENSUS_VSHORT1_V5 : Fld := ⟨0xB0008, 8, 6⟩
/-! CENSUS_CTRL (chapter 07). -/
def CENSUS_CTRL_SWEEP : Fld := ⟨0xB000C, 0, 1⟩
def CENSUS_CTRL_CLEAR : Fld := ⟨0xB000C, 1, 1⟩
/-! CENSUS_STAT (chapter 07). -/
def CENSUS_STAT_SWEEP_BUSY : Fld := ⟨0xB0010, 0, 1⟩
def CENSUS_STAT_SLOT_REJ : Fld := ⟨0xB0010, 1, 1⟩
def CENSUS_STAT_LIST_REJ : Fld := ⟨0xB0010, 2, 1⟩
def CENSUS_STAT_SWEEP_MISSED : Fld := ⟨0xB0010, 16, 16⟩
/-! CENSUS_COUNT0 (chapter 07). -/
def CENSUS_COUNT0_OPEN : Fld := ⟨0xB0014, 0, 16⟩
def CENSUS_COUNT0_SHORT : Fld := ⟨0xB0014, 16, 16⟩
/-! CENSUS_COUNT1 (chapter 07). -/
def CENSUS_COUNT1_UNSEEN : Fld := ⟨0xB0018, 0, 16⟩
def CENSUS_COUNT1_PROBED : Fld := ⟨0xB0018, 16, 16⟩
/-! CENSUS_CNT (chapter 07). -/
def CENSUS_CNT_NEW_FAULT : Fld := ⟨0xB001C, 0, 8⟩
def CENSUS_CNT_RECOVER : Fld := ⟨0xB001C, 8, 8⟩
def CENSUS_CNT_TRIPS : Fld := ⟨0xB001C, 16, 8⟩
def CENSUS_CNT_BLINDS : Fld := ⟨0xB001C, 24, 8⟩
/-! CENSUS_GRP (chapter 07). -/
def CENSUS_GRP_ARM (g : Nat) : Fld := ⟨0xB1000 + 0x20 * g, 0, 1⟩
def CENSUS_GRP_POLICY (g : Nat) : Fld := ⟨0xB1000 + 0x20 * g, 1, 1⟩
def CENSUS_GRP_BASE (g : Nat) : Fld := ⟨0xB1004 + 0x20 * g, 0, 14⟩
def CENSUS_GRP_COUNT (g : Nat) : Fld := ⟨0xB1004 + 0x20 * g, 16, 14⟩
def CENSUS_GRP_STATE (g : Nat) : Fld := ⟨0xB1008 + 0x20 * g, 0, 3⟩
def CENSUS_GRP_DARK (g : Nat) : Fld := ⟨0xB1008 + 0x20 * g, 3, 1⟩
def CENSUS_GRP_ACK (g : Nat) : Fld := ⟨0xB1008 + 0x20 * g, 4, 1⟩
def CENSUS_GRP_ARM_REJ (g : Nat) : Fld := ⟨0xB1008 + 0x20 * g, 5, 1⟩
def CENSUS_GRP_CFG_REJ (g : Nat) : Fld := ⟨0xB1008 + 0x20 * g, 6, 1⟩
def CENSUS_GRP_ACK_REJ (g : Nat) : Fld := ⟨0xB1008 + 0x20 * g, 7, 1⟩
def CENSUS_GRP_EMITTER (g : Nat) : Fld := ⟨0xB100C + 0x20 * g, 0, 16⟩
def CENSUS_GRP_CAUSE (g : Nat) : Fld := ⟨0xB100C + 0x20 * g, 16, 2⟩
def CENSUS_GRP_HANDLE (g : Nat) : Fld := ⟨0xB1010 + 0x20 * g, 0, 32⟩
/-! MOTIF_ENG (chapter 08). -/
def MOTIF_ENG_EN (i : Nat) : Fld := ⟨0xC0000 + 0x20 * i, 0, 1⟩
def MOTIF_ENG_DEF (i : Nat) : Fld := ⟨0xC0000 + 0x20 * i, 1, 6⟩
def MOTIF_ENG_OPACITY (i : Nat) : Fld := ⟨0xC0000 + 0x20 * i, 8, 8⟩
def MOTIF_ENG_X0 (i : Nat) : Fld := ⟨0xC0004 + 0x20 * i, 0, 16⟩
def MOTIF_ENG_Y0 (i : Nat) : Fld := ⟨0xC0004 + 0x20 * i, 16, 16⟩
def MOTIF_ENG_W (i : Nat) : Fld := ⟨0xC0008 + 0x20 * i, 0, 16⟩
def MOTIF_ENG_H (i : Nat) : Fld := ⟨0xC0008 + 0x20 * i, 16, 16⟩
def MOTIF_ENG_CX (i : Nat) : Fld := ⟨0xC000C + 0x20 * i, 0, 16⟩
def MOTIF_ENG_CY (i : Nat) : Fld := ⟨0xC000C + 0x20 * i, 16, 16⟩
def MOTIF_ENG_STATE (i : Nat) : Fld := ⟨0xC0010 + 0x20 * i, 0, 2⟩
def MOTIF_ENG_STEP (i : Nat) : Fld := ⟨0xC0010 + 0x20 * i, 8, 8⟩
def MOTIF_ENG_PEND (i : Nat) : Fld := ⟨0xC0010 + 0x20 * i, 16, 8⟩
/-! MOTIF_CTRL (chapter 08). -/
def MOTIF_CTRL_STEP : Fld := ⟨0xC0100, 0, 8⟩
def MOTIF_CTRL_FB_ON : Fld := ⟨0xC0100, 8, 1⟩
def MOTIF_CTRL_FB_OFF : Fld := ⟨0xC0100, 9, 1⟩
/-! MOTIF_FB_CFG (chapter 08). -/
def MOTIF_FB_CFG_TIMEOUT : Fld := ⟨0xC0104, 0, 16⟩
/-! MOTIF_FB_STAT (chapter 08). -/
def MOTIF_FB_STAT_ACTIVE : Fld := ⟨0xC0108, 0, 1⟩
def MOTIF_FB_STAT_CAUSE : Fld := ⟨0xC0108, 1, 2⟩
def MOTIF_FB_STAT_LOADED : Fld := ⟨0xC0108, 3, 1⟩
/-! MOTIF_DEF_HANDLE (chapter 08). -/
def MOTIF_DEF_HANDLE_HANDLE (d : Nat) : Fld := ⟨0xC0200 + 4 * d, 0, 32⟩
/-! PAWN_CTRL (chapter 12). -/
def PAWN_CTRL_STOP : Fld := ⟨0xD0000, 0, 8⟩
def PAWN_CTRL_CLR : Fld := ⟨0xD0000, 8, 8⟩
def PAWN_CTRL_FLUSH : Fld := ⟨0xD0000, 16, 8⟩
/-! PAWN_GO (chapter 12). -/
def PAWN_GO_GO : Fld := ⟨0xD0004, 0, 8⟩
/-! PAWN_STAT (chapter 12). -/
def PAWN_STAT_RUNNING : Fld := ⟨0xD0008, 0, 8⟩
def PAWN_STAT_STORE_REFUSED : Fld := ⟨0xD0008, 8, 1⟩
def PAWN_STAT_REFUSED_WORD : Fld := ⟨0xD0008, 9, 6⟩
def PAWN_STAT_CFG_REFUSED : Fld := ⟨0xD0008, 15, 1⟩
def PAWN_STAT_OVERLAP : Fld := ⟨0xD0008, 16, 1⟩
/-! PAWN_FLAGS (chapter 12). -/
def PAWN_FLAGS_FLAG : Fld := ⟨0xD000C, 0, 8⟩
/-! PAWN_PX_OUT (chapter 12). -/
def PAWN_PX_OUT_LEVEL : Fld := ⟨0xD0010, 0, 32⟩
/-! PAWN_PX_OE (chapter 12). -/
def PAWN_PX_OE_OE : Fld := ⟨0xD0014, 0, 32⟩
/-! PAWN_PX_IN (chapter 12). -/
def PAWN_PX_IN_IN : Fld := ⟨0xD0018, 0, 32⟩
/-! PAWN_PX_SAFE_OUT (chapter 12). -/
def PAWN_PX_SAFE_OUT_SAFE : Fld := ⟨0xD001C, 0, 32⟩
/-! PAWN_PX_SAFE_OE (chapter 12). -/
def PAWN_PX_SAFE_OE_SAFE : Fld := ⟨0xD0020, 0, 32⟩
/-! PAWN_CFG (chapter 12). -/
def PAWN_CFG_RATE (n : Nat) : Fld := ⟨0xD0100 + 0x40 * n, 0, 24⟩
def PAWN_CFG_STALL_LIM (n : Nat) : Fld := ⟨0xD0100 + 0x40 * n, 24, 8⟩
/-! PAWN_PINS (chapter 12). -/
def PAWN_PINS_BASE (n : Nat) : Fld := ⟨0xD0104 + 0x40 * n, 0, 5⟩
def PAWN_PINS_WIDTH (n : Nat) : Fld := ⟨0xD0104 + 0x40 * n, 8, 4⟩
/-! PAWN_PROG (chapter 12). -/
def PAWN_PROG_START (n : Nat) : Fld := ⟨0xD0108 + 0x40 * n, 0, 6⟩
def PAWN_PROG_END (n : Nat) : Fld := ⟨0xD0108 + 0x40 * n, 8, 6⟩
def PAWN_PROG_ENTRY (n : Nat) : Fld := ⟨0xD0108 + 0x40 * n, 16, 6⟩
/-! PAWN_STATE (chapter 12). -/
def PAWN_STATE_PC (n : Nat) : Fld := ⟨0xD010C + 0x40 * n, 0, 6⟩
def PAWN_STATE_RUN (n : Nat) : Fld := ⟨0xD010C + 0x40 * n, 6, 1⟩
def PAWN_STATE_WAIT (n : Nat) : Fld := ⟨0xD010C + 0x40 * n, 7, 3⟩
def PAWN_STATE_TX_LVL (n : Nat) : Fld := ⟨0xD010C + 0x40 * n, 10, 3⟩
def PAWN_STATE_RX_LVL (n : Nat) : Fld := ⟨0xD010C + 0x40 * n, 13, 3⟩
def PAWN_STATE_EFILL (n : Nat) : Fld := ⟨0xD010C + 0x40 * n, 16, 6⟩
def PAWN_STATE_SFILL (n : Nat) : Fld := ⟨0xD010C + 0x40 * n, 22, 6⟩
/-! PAWN_TX (chapter 12). -/
def PAWN_TX_DATA (n : Nat) : Fld := ⟨0xD0110 + 0x40 * n, 0, 32⟩
/-! PAWN_RX (chapter 12). -/
def PAWN_RX_DATA (n : Nat) : Fld := ⟨0xD0114 + 0x40 * n, 0, 32⟩
/-! PAWN_EMR (chapter 12). -/
def PAWN_EMR_VALUE (n : Nat) : Fld := ⟨0xD0118 + 0x40 * n, 0, 32⟩
/-! PAWN_SMR (chapter 12). -/
def PAWN_SMR_VALUE (n : Nat) : Fld := ⟨0xD011C + 0x40 * n, 0, 32⟩
/-! PAWN_CNTA (chapter 12). -/
def PAWN_CNTA_VALUE (n : Nat) : Fld := ⟨0xD0120 + 0x40 * n, 0, 32⟩
/-! PAWN_CNTB (chapter 12). -/
def PAWN_CNTB_VALUE (n : Nat) : Fld := ⟨0xD0124 + 0x40 * n, 0, 32⟩
/-! PAWN_ERR (chapter 12). -/
def PAWN_ERR_CAUSE (n : Nat) : Fld := ⟨0xD0128 + 0x40 * n, 0, 3⟩
def PAWN_ERR_FAULT_PC (n : Nat) : Fld := ⟨0xD0128 + 0x40 * n, 8, 6⟩
def PAWN_ERR_TX_OVF (n : Nat) : Fld := ⟨0xD0128 + 0x40 * n, 16, 1⟩
def PAWN_ERR_RX_UNF (n : Nat) : Fld := ⟨0xD0128 + 0x40 * n, 17, 1⟩
def PAWN_ERR_STALL_LONG (n : Nat) : Fld := ⟨0xD0128 + 0x40 * n, 18, 1⟩
def PAWN_ERR_TICK_LOST (n : Nat) : Fld := ⟨0xD0128 + 0x40 * n, 19, 1⟩
/-! PAWN_STORE (chapter 12). -/
def PAWN_STORE_WORD (w : Nat) : Fld := ⟨0xD0400 + 4 * w, 0, 20⟩
/-! SPWM_CTRL (chapter 13). -/
def SPWM_CTRL_EN (n : Nat) : Fld := ⟨0xE0000 + 0x40 * n, 0, 1⟩
def SPWM_CTRL_ALIGN (n : Nat) : Fld := ⟨0xE0000 + 0x40 * n, 1, 1⟩
def SPWM_CTRL_PAIR (n : Nat) : Fld := ⟨0xE0000 + 0x40 * n, 2, 2⟩
def SPWM_CTRL_UPD (n : Nat) : Fld := ⟨0xE0000 + 0x40 * n, 4, 3⟩
def SPWM_CTRL_RESYNC (n : Nat) : Fld := ⟨0xE0000 + 0x40 * n, 7, 1⟩
def SPWM_CTRL_POL_A (n : Nat) : Fld := ⟨0xE0000 + 0x40 * n, 8, 1⟩
def SPWM_CTRL_POL_B (n : Nat) : Fld := ⟨0xE0000 + 0x40 * n, 9, 1⟩
def SPWM_CTRL_SAFE_A (n : Nat) : Fld := ⟨0xE0000 + 0x40 * n, 10, 1⟩
def SPWM_CTRL_SAFE_B (n : Nat) : Fld := ⟨0xE0000 + 0x40 * n, 11, 1⟩
def SPWM_CTRL_AUTO_REARM (n : Nat) : Fld := ⟨0xE0000 + 0x40 * n, 12, 1⟩
def SPWM_CTRL_TRIP_MODE (n : Nat) : Fld := ⟨0xE0000 + 0x40 * n, 13, 1⟩
/-! SPWM_PERIOD (chapter 13). -/
def SPWM_PERIOD_P (n : Nat) : Fld := ⟨0xE0004 + 0x40 * n, 0, 16⟩
/-! SPWM_DUTY (chapter 13). -/
def SPWM_DUTY_D (n : Nat) : Fld := ⟨0xE0008 + 0x40 * n, 0, 16⟩
def SPWM_DUTY_FRAC (n : Nat) : Fld := ⟨0xE0008 + 0x40 * n, 16, 4⟩
/-! SPWM_DUTY_B (chapter 13). -/
def SPWM_DUTY_B_DUTY_B (n : Nat) : Fld := ⟨0xE000C + 0x40 * n, 0, 16⟩
def SPWM_DUTY_B_OFS_B (n : Nat) : Fld := ⟨0xE000C + 0x40 * n, 16, 16⟩
/-! SPWM_DT (chapter 13). -/
def SPWM_DT_DT_R (n : Nat) : Fld := ⟨0xE0010 + 0x40 * n, 0, 8⟩
def SPWM_DT_DT_F (n : Nat) : Fld := ⟨0xE0010 + 0x40 * n, 8, 8⟩
/-! SPWM_LIMITS (chapter 13). -/
def SPWM_LIMITS_MIN_PULSE_A (n : Nat) : Fld := ⟨0xE0014 + 0x40 * n, 0, 8⟩
def SPWM_LIMITS_MIN_PULSE_B (n : Nat) : Fld := ⟨0xE0014 + 0x40 * n, 8, 8⟩
def SPWM_LIMITS_MIN_OFF (n : Nat) : Fld := ⟨0xE0014 + 0x40 * n, 16, 8⟩
def SPWM_LIMITS_LEB (n : Nat) : Fld := ⟨0xE0014 + 0x40 * n, 24, 8⟩
/-! SPWM_TRIP (chapter 13). -/
def SPWM_TRIP_MAP (n : Nat) : Fld := ⟨0xE0018 + 0x40 * n, 0, 8⟩
def SPWM_TRIP_CLR (n : Nat) : Fld := ⟨0xE0018 + 0x40 * n, 8, 1⟩
/-! SPWM_STAT (chapter 13). -/
def SPWM_STAT_RUN (n : Nat) : Fld := ⟨0xE001C + 0x40 * n, 0, 1⟩
def SPWM_STAT_TRIP_ACTIVE (n : Nat) : Fld := ⟨0xE001C + 0x40 * n, 1, 1⟩
def SPWM_STAT_TRIPPED (n : Nat) : Fld := ⟨0xE001C + 0x40 * n, 2, 1⟩
def SPWM_STAT_PENDING (n : Nat) : Fld := ⟨0xE001C + 0x40 * n, 3, 1⟩
def SPWM_STAT_CLAMP (n : Nat) : Fld := ⟨0xE001C + 0x40 * n, 4, 1⟩
def SPWM_STAT_SET_REJ (n : Nat) : Fld := ⟨0xE001C + 0x40 * n, 5, 1⟩
def SPWM_STAT_CFG_REJ (n : Nat) : Fld := ⟨0xE001C + 0x40 * n, 6, 1⟩
def SPWM_STAT_LOOP_OWNED (n : Nat) : Fld := ⟨0xE001C + 0x40 * n, 7, 1⟩
def SPWM_STAT_PINNED (n : Nat) : Fld := ⟨0xE001C + 0x40 * n, 8, 1⟩
def SPWM_STAT_STRAP (n : Nat) : Fld := ⟨0xE001C + 0x40 * n, 9, 1⟩
/-! SPWM_CNT (chapter 13). -/
def SPWM_CNT_SKIP (n : Nat) : Fld := ⟨0xE0020 + 0x40 * n, 0, 16⟩
def SPWM_CNT_TRIPS (n : Nat) : Fld := ⟨0xE0020 + 0x40 * n, 16, 8⟩
/-! SPWM_ACT (chapter 13). -/
def SPWM_ACT_P (n : Nat) : Fld := ⟨0xE0024 + 0x40 * n, 0, 16⟩
def SPWM_ACT_ONA (n : Nat) : Fld := ⟨0xE0024 + 0x40 * n, 16, 16⟩
/-! SPWM_TRIP_POL (chapter 13). -/
def SPWM_TRIP_POL_POL : Fld := ⟨0xE0400, 0, 8⟩
def SPWM_TRIP_POL_LEVEL : Fld := ⟨0xE0400, 8, 8⟩
/-! SPWM_PIN_LOCK (chapter 13). -/
def SPWM_PIN_LOCK_PIN : Fld := ⟨0xE0404, 0, 2⟩
def SPWM_PIN_LOCK_STEP1 : Fld := ⟨0xE0404, 8, 1⟩
/-! SPWM_GSTAT (chapter 13). -/
def SPWM_GSTAT_CLK_RUN : Fld := ⟨0xE0408, 0, 1⟩
def SPWM_GSTAT_CLK_LOST : Fld := ⟨0xE0408, 1, 1⟩
def SPWM_GSTAT_DBG_HALT : Fld := ⟨0xE0408, 2, 1⟩
def SPWM_GSTAT_LOCK_FAIL : Fld := ⟨0xE0408, 3, 1⟩
/-! SPWM_STRAP (chapter 13). -/
def SPWM_STRAP_EN (u : Nat) : Fld := ⟨0xE0410 + 0x10 * u, 0, 1⟩
def SPWM_STRAP_ALIGN (u : Nat) : Fld := ⟨0xE0410 + 0x10 * u, 1, 1⟩
def SPWM_STRAP_PAIR (u : Nat) : Fld := ⟨0xE0410 + 0x10 * u, 2, 2⟩
def SPWM_STRAP_PIN (u : Nat) : Fld := ⟨0xE0410 + 0x10 * u, 4, 1⟩
def SPWM_STRAP_TRIP_MODE (u : Nat) : Fld := ⟨0xE0410 + 0x10 * u, 5, 1⟩
def SPWM_STRAP_POL_A (u : Nat) : Fld := ⟨0xE0410 + 0x10 * u, 6, 1⟩
def SPWM_STRAP_POL_B (u : Nat) : Fld := ⟨0xE0410 + 0x10 * u, 7, 1⟩
def SPWM_STRAP_MAP (u : Nat) : Fld := ⟨0xE0410 + 0x10 * u, 8, 8⟩
def SPWM_STRAP_P (u : Nat) : Fld := ⟨0xE0410 + 0x10 * u, 16, 16⟩
def SPWM_STRAP_D (u : Nat) : Fld := ⟨0xE0414 + 0x10 * u, 0, 16⟩
def SPWM_STRAP_DT_R (u : Nat) : Fld := ⟨0xE0414 + 0x10 * u, 16, 8⟩
def SPWM_STRAP_DT_F (u : Nat) : Fld := ⟨0xE0414 + 0x10 * u, 24, 8⟩
def SPWM_STRAP_MIN_PULSE (u : Nat) : Fld := ⟨0xE0418 + 0x10 * u, 0, 8⟩
def SPWM_STRAP_MIN_OFF (u : Nat) : Fld := ⟨0xE0418 + 0x10 * u, 8, 8⟩
def SPWM_STRAP_LEB (u : Nat) : Fld := ⟨0xE0418 + 0x10 * u, 16, 8⟩
def SPWM_STRAP_SS (u : Nat) : Fld := ⟨0xE0418 + 0x10 * u, 24, 4⟩
def SPWM_STRAP_SAFE_A (u : Nat) : Fld := ⟨0xE0418 + 0x10 * u, 28, 1⟩
def SPWM_STRAP_SAFE_B (u : Nat) : Fld := ⟨0xE0418 + 0x10 * u, 29, 1⟩
def SPWM_STRAP_PAR (u : Nat) : Fld := ⟨0xE0418 + 0x10 * u, 31, 1⟩
/-! LOOP (chapter 06). -/
def LOOP_EN (i : Nat) : Fld := ⟨0xE0800 + 0x40 * i, 0, 1⟩
def LOOP_DIV (i : Nat) : Fld := ⟨0xE0800 + 0x40 * i, 4, 4⟩
def LOOP_SHIFT (i : Nat) : Fld := ⟨0xE0800 + 0x40 * i, 8, 5⟩
def LOOP_LIM_N (i : Nat) : Fld := ⟨0xE0800 + 0x40 * i, 16, 8⟩
def LOOP_KP (i : Nat) : Fld := ⟨0xE0804 + 0x40 * i, 0, 16⟩
def LOOP_KI (i : Nat) : Fld := ⟨0xE0804 + 0x40 * i, 16, 16⟩
def LOOP_V_MIN (i : Nat) : Fld := ⟨0xE0808 + 0x40 * i, 0, 16⟩
def LOOP_V_MAX (i : Nat) : Fld := ⟨0xE0808 + 0x40 * i, 16, 16⟩
def LOOP_STEP_UP (i : Nat) : Fld := ⟨0xE080C + 0x40 * i, 0, 8⟩
def LOOP_STEP_DN (i : Nat) : Fld := ⟨0xE080C + 0x40 * i, 8, 8⟩
def LOOP_RAISE_FRAC (i : Nat) : Fld := ⟨0xE080C + 0x40 * i, 16, 10⟩
def LOOP_V_START (i : Nat) : Fld := ⟨0xE0810 + 0x40 * i, 0, 16⟩
def LOOP_V_OV (i : Nat) : Fld := ⟨0xE0810 + 0x40 * i, 16, 16⟩
def LOOP_RATIO (i : Nat) : Fld := ⟨0xE0814 + 0x40 * i, 0, 16⟩
def LOOP_V_SET (i : Nat) : Fld := ⟨0xE0818 + 0x40 * i, 0, 16⟩
def LOOP_LIMIT (i : Nat) : Fld := ⟨0xE0818 + 0x40 * i, 16, 1⟩
def LOOP_OV (i : Nat) : Fld := ⟨0xE0818 + 0x40 * i, 17, 1⟩
def LOOP_AT_MAX (i : Nat) : Fld := ⟨0xE0818 + 0x40 * i, 18, 1⟩
def LOOP_CFG_REJ (i : Nat) : Fld := ⟨0xE0818 + 0x40 * i, 19, 1⟩
def LOOP_V_MEAS (i : Nat) : Fld := ⟨0xE081C + 0x40 * i, 0, 16⟩
def LOOP_DUTY (i : Nat) : Fld := ⟨0xE081C + 0x40 * i, 16, 16⟩
/-! ADC_DATA (chapter 06). -/
def ADC_DATA_CODE (c : Nat) : Fld := ⟨0xE0900 + 4 * c, 0, 12⟩
def ADC_DATA_VALID (c : Nat) : Fld := ⟨0xE0900 + 4 * c, 16, 1⟩
/-! CVU_CTRL (chapter 14). -/
def CVU_CTRL_EN (n : Nat) : Fld := ⟨0xF0000 + 0x40 * n, 0, 1⟩
def CVU_CTRL_RESUME (n : Nat) : Fld := ⟨0xF0000 + 0x40 * n, 1, 1⟩
def CVU_CTRL_CLOSE (n : Nat) : Fld := ⟨0xF0000 + 0x40 * n, 2, 1⟩
def CVU_CTRL_PRESET (n : Nat) : Fld := ⟨0xF0000 + 0x40 * n, 3, 4⟩
def CVU_CTRL_WIDTH (n : Nat) : Fld := ⟨0xF0000 + 0x40 * n, 7, 6⟩
def CVU_CTRL_REFIN (n : Nat) : Fld := ⟨0xF0000 + 0x40 * n, 13, 1⟩
def CVU_CTRL_REFOUT (n : Nat) : Fld := ⟨0xF0000 + 0x40 * n, 14, 1⟩
def CVU_CTRL_MODE (n : Nat) : Fld := ⟨0xF0000 + 0x40 * n, 15, 2⟩
def CVU_CTRL_REPEAT (n : Nat) : Fld := ⟨0xF0000 + 0x40 * n, 17, 1⟩
def CVU_CTRL_CMP_EN (n : Nat) : Fld := ⟨0xF0000 + 0x40 * n, 18, 1⟩
def CVU_CTRL_CMP_SRC (n : Nat) : Fld := ⟨0xF0000 + 0x40 * n, 19, 1⟩
def CVU_CTRL_TAG_LEN (n : Nat) : Fld := ⟨0xF0000 + 0x40 * n, 20, 4⟩
def CVU_CTRL_TAG_KLP (n : Nat) : Fld := ⟨0xF0000 + 0x40 * n, 24, 1⟩
def CVU_CTRL_DONE_IE (n : Nat) : Fld := ⟨0xF0000 + 0x40 * n, 25, 1⟩
/-! CVU_TAP (chapter 14). -/
def CVU_TAP_SRC (n : Nat) : Fld := ⟨0xF0004 + 0x40 * n, 0, 4⟩
def CVU_TAP_SEL (n : Nat) : Fld := ⟨0xF0004 + 0x40 * n, 4, 3⟩
def CVU_TAP_FILTER (n : Nat) : Fld := ⟨0xF0004 + 0x40 * n, 8, 2⟩
def CVU_TAP_CLASS (n : Nat) : Fld := ⟨0xF0004 + 0x40 * n, 16, 8⟩
def CVU_TAP_BASE (n : Nat) : Fld := ⟨0xF0004 + 0x40 * n, 24, 2⟩
/-! CVU_POLY (chapter 14). -/
def CVU_POLY_VALUE (n : Nat) : Fld := ⟨0xF0008 + 0x40 * n, 0, 32⟩
/-! CVU_INIT (chapter 14). -/
def CVU_INIT_VALUE (n : Nat) : Fld := ⟨0xF000C + 0x40 * n, 0, 32⟩
/-! CVU_XOROUT (chapter 14). -/
def CVU_XOROUT_VALUE (n : Nat) : Fld := ⟨0xF0010 + 0x40 * n, 0, 32⟩
/-! CVU_WIN_START (chapter 14). -/
def CVU_WIN_START_BYTES (n : Nat) : Fld := ⟨0xF0014 + 0x40 * n, 0, 21⟩
/-! CVU_WIN_LEN (chapter 14). -/
def CVU_WIN_LEN_BYTES (n : Nat) : Fld := ⟨0xF0018 + 0x40 * n, 0, 21⟩
/-! CVU_TAG_LO (chapter 14). -/
def CVU_TAG_LO_TAG (n : Nat) : Fld := ⟨0xF001C + 0x40 * n, 0, 32⟩
/-! CVU_TAG_HI (chapter 14). -/
def CVU_TAG_HI_TAG (n : Nat) : Fld := ⟨0xF0020 + 0x40 * n, 0, 32⟩
/-! CVU_EXPECT (chapter 14). -/
def CVU_EXPECT_EXPECT (n : Nat) : Fld := ⟨0xF0024 + 0x40 * n, 0, 32⟩
/-! CVU_VALUE (chapter 14). -/
def CVU_VALUE_VALUE (n : Nat) : Fld := ⟨0xF0028 + 0x40 * n, 0, 32⟩
/-! CVU_RESULT (chapter 14). -/
def CVU_RESULT_RESULT (n : Nat) : Fld := ⟨0xF002C + 0x40 * n, 0, 32⟩
/-! CVU_RINFO (chapter 14). -/
def CVU_RINFO_WINDOW (n : Nat) : Fld := ⟨0xF0030 + 0x40 * n, 0, 8⟩
def CVU_RINFO_SHORT (n : Nat) : Fld := ⟨0xF0030 + 0x40 * n, 8, 1⟩
def CVU_RINFO_MISMATCH (n : Nat) : Fld := ⟨0xF0030 + 0x40 * n, 9, 1⟩
/-! CVU_SNAP (chapter 14). -/
def CVU_SNAP_SNAP (n : Nat) : Fld := ⟨0xF0034 + 0x40 * n, 0, 32⟩
/-! CVU_STAT (chapter 14). -/
def CVU_STAT_OPEN (n : Nat) : Fld := ⟨0xF0038 + 0x40 * n, 0, 1⟩
def CVU_STAT_PART (n : Nat) : Fld := ⟨0xF0038 + 0x40 * n, 1, 2⟩
def CVU_STAT_MISMATCH (n : Nat) : Fld := ⟨0xF0038 + 0x40 * n, 3, 1⟩
def CVU_STAT_SNAPPED (n : Nat) : Fld := ⟨0xF0038 + 0x40 * n, 4, 1⟩
def CVU_STAT_TAP_LOST (n : Nat) : Fld := ⟨0xF0038 + 0x40 * n, 5, 1⟩
def CVU_STAT_CFG_REJ (n : Nat) : Fld := ⟨0xF0038 + 0x40 * n, 6, 1⟩
/-! CVU_CNT (chapter 14). -/
def CVU_CNT_WINDOWS (n : Nat) : Fld := ⟨0xF003C + 0x40 * n, 0, 16⟩
def CVU_CNT_MISMATCH (n : Nat) : Fld := ⟨0xF003C + 0x40 * n, 16, 8⟩
def CVU_CNT_ABANDONED (n : Nat) : Fld := ⟨0xF003C + 0x40 * n, 24, 8⟩
/-! MIR_CTRL (chapter 15). -/
def MIR_CTRL_EN : Fld := ⟨0x100000, 0, 1⟩
def MIR_CTRL_MODE : Fld := ⟨0x100000, 1, 1⟩
def MIR_CTRL_BUS : Fld := ⟨0x100000, 2, 2⟩
def MIR_CTRL_HS_POL : Fld := ⟨0x100000, 4, 1⟩
def MIR_CTRL_VS_POL : Fld := ⟨0x100000, 5, 1⟩
def MIR_CTRL_DE_POL : Fld := ⟨0x100000, 6, 1⟩
def MIR_CTRL_PCLK_EDGE : Fld := ⟨0x100000, 7, 1⟩
/-! MIR_CLK (chapter 15). -/
def MIR_CLK_DIV_INT : Fld := ⟨0x100004, 0, 8⟩
def MIR_CLK_DIV_FRAC : Fld := ⟨0x100004, 8, 8⟩
/-! MIR_HTIM (chapter 15). -/
def MIR_HTIM_HSW : Fld := ⟨0x100008, 0, 8⟩
def MIR_HTIM_HBP : Fld := ⟨0x100008, 8, 8⟩
def MIR_HTIM_HFP : Fld := ⟨0x100008, 16, 8⟩
/-! MIR_VTIM (chapter 15). -/
def MIR_VTIM_VSW : Fld := ⟨0x10000C, 0, 8⟩
def MIR_VTIM_VBP : Fld := ⟨0x10000C, 8, 8⟩
/-! MIR_VBLANK (chapter 15). -/
def MIR_VBLANK_MIN : Fld := ⟨0x100010, 0, 12⟩
def MIR_VBLANK_MAX : Fld := ⟨0x100010, 16, 12⟩
/-! MIR_SRC (chapter 15). -/
def MIR_SRC_SRC : Fld := ⟨0x100014, 0, 2⟩
def MIR_SRC_MAP : Fld := ⟨0x100014, 2, 6⟩
def MIR_SRC_SCALE : Fld := ⟨0x100014, 8, 2⟩
/-! MIR_WIN_POS (chapter 15). -/
def MIR_WIN_POS_X0 : Fld := ⟨0x100018, 0, 16⟩
def MIR_WIN_POS_Y0 : Fld := ⟨0x100018, 16, 16⟩
/-! MIR_WIN_SIZE (chapter 15). -/
def MIR_WIN_SIZE_W : Fld := ⟨0x10001C, 0, 16⟩
def MIR_WIN_SIZE_H : Fld := ⟨0x10001C, 16, 16⟩
/-! MIR_CMD (chapter 15). -/
def MIR_CMD_PREFIX_N : Fld := ⟨0x100020, 0, 3⟩
def MIR_CMD_WR_LO : Fld := ⟨0x100020, 4, 4⟩
def MIR_CMD_WR_HI : Fld := ⟨0x100020, 8, 4⟩
def MIR_CMD_TE_EN : Fld := ⟨0x100020, 12, 1⟩
/-! MIR_CMD_BYTES (chapter 15). -/
def MIR_CMD_BYTES_B0 : Fld := ⟨0x100024, 0, 8⟩
def MIR_CMD_BYTES_B1 : Fld := ⟨0x100024, 8, 8⟩
def MIR_CMD_BYTES_B2 : Fld := ⟨0x100024, 16, 8⟩
def MIR_CMD_BYTES_B3 : Fld := ⟨0x100024, 24, 8⟩
/-! MIR_STAT (chapter 15). -/
def MIR_STAT_STATE : Fld := ⟨0x100028, 0, 2⟩
def MIR_STAT_TEAR : Fld := ⟨0x100028, 2, 1⟩
def MIR_STAT_RETIME : Fld := ⟨0x100028, 3, 1⟩
def MIR_STAT_SRC_LOST : Fld := ⟨0x100028, 4, 1⟩
def MIR_STAT_TE_MISSING : Fld := ⟨0x100028, 5, 1⟩
def MIR_STAT_WIN_REJ : Fld := ⟨0x100028, 6, 1⟩
def MIR_STAT_LINE : Fld := ⟨0x100028, 16, 12⟩
/-! MIR_CNT (chapter 15). -/
def MIR_CNT_FRAMES : Fld := ⟨0x10002C, 0, 16⟩
def MIR_CNT_SKIP : Fld := ⟨0x10002C, 16, 8⟩
def MIR_CNT_SELF : Fld := ⟨0x10002C, 24, 8⟩
/-! SEAL_STAT (chapter 16). -/
def SEAL_STAT_BUSY : Fld := ⟨0x110000, 0, 1⟩
def SEAL_STAT_STAGED : Fld := ⟨0x110000, 1, 1⟩
def SEAL_STAT_ARMED_VALID : Fld := ⟨0x110000, 2, 1⟩
def SEAL_STAT_SIGNED : Fld := ⟨0x110000, 3, 1⟩
def SEAL_STAT_AUTO_ARM : Fld := ⟨0x110000, 4, 1⟩
def SEAL_STAT_FLASH_BUSY : Fld := ⟨0x110000, 5, 1⟩
def SEAL_STAT_COPY : Fld := ⟨0x110000, 6, 1⟩
/-! SEAL_CHECK_CODE (chapter 16). -/
def SEAL_CHECK_CODE_CODE : Fld := ⟨0x110004, 0, 16⟩
def SEAL_CHECK_CODE_OFFSET : Fld := ⟨0x110004, 16, 16⟩
/-! SEAL_BOOT (chapter 16). -/
def SEAL_BOOT_SLOT : Fld := ⟨0x110008, 0, 1⟩
def SEAL_BOOT_ROLLBACK : Fld := ⟨0x110008, 1, 1⟩
def SEAL_BOOT_BOOTSEL : Fld := ⟨0x110008, 2, 2⟩
def SEAL_BOOT_TRIAL : Fld := ⟨0x110008, 4, 1⟩
def SEAL_BOOT_CONFIRM : Fld := ⟨0x110008, 5, 1⟩
def SEAL_BOOT_FAIL_A : Fld := ⟨0x110008, 8, 8⟩
def SEAL_BOOT_FAIL_B : Fld := ⟨0x110008, 16, 8⟩
/-! SEAL_OTP_BOOT (chapter 16). -/
def SEAL_OTP_BOOT_LINK : Fld := ⟨0x11000C, 0, 18⟩
def SEAL_OTP_BOOT_NODE : Fld := ⟨0x11000C, 18, 12⟩
def SEAL_OTP_BOOT_SIG_REQ : Fld := ⟨0x11000C, 30, 1⟩
def SEAL_OTP_BOOT_PAR_OK : Fld := ⟨0x11000C, 31, 1⟩
/-! SEAL_MIN_VERSION (chapter 16). -/
def SEAL_MIN_VERSION_VERSION : Fld := ⟨0x110010, 0, 32⟩
end Reg

end Sys2Proof.Machine
end

