-- ==== Sys2Proof/Machine/SMap.lean ====
section
/-! DEFINITION. Sparse memories: a list of (address, value) pairs, addresses strictly rising, no entry equal to what an
unlisted address reads as. Register files, the FCM, coverage bits, boot flash and OTP are all kept this way. -/
namespace Sys2Proof.Machine

/-- Read an address: the listed value, or `d a` where nothing is listed. -/
def SMap.get {α : Type} (d : Nat → α) : List (Nat × α) → Nat → α
  | [], a => d a
  | (k, v) :: t, a => if a < k then d a else if a = k then v else SMap.get d t a

/-- The entries above an address. -/
def SMap.above {α : Type} (a : Nat) : List (Nat × α) → List (Nat × α)
  | [] => []
  | (k, v) :: t => if k ≤ a then SMap.above a t else (k, v) :: t

/-- Write an address, keeping the canonical form: writing the unlisted value removes the entry. -/
def SMap.set {α : Type} [DecidableEq α] (d : Nat → α) : List (Nat × α) → Nat → α → List (Nat × α)
  | [], a, v => if v = d a then [] else [(a, v)]
  | (k, w) :: t, a, v =>
    if a < k then (if v = d a then (k, w) :: t else (a, v) :: (k, w) :: t)
    else if a = k then (if v = d a then SMap.above a t else (a, v) :: SMap.above a t)
    else (k, w) :: SMap.set d t a v

/-- The first `n` values of a block of addresses from `lo`, as canonical entries. -/
def SMap.cells {α : Type} [DecidableEq α] (d : Nat → α) (f : Nat → α) : Nat → Nat → List (Nat × α)
  | _, 0 => []
  | lo, n + 1 =>
    if f lo = d lo then SMap.cells d f (lo + 1) n else (lo, f lo) :: SMap.cells d f (lo + 1) n

/-- Put a block of entries in front of the entries from `hi` on, after those below `lo`. -/
def SMap.splice {α : Type} (lo hi : Nat) (blk : List (Nat × α)) : List (Nat × α) → List (Nat × α)
  | [] => blk
  | (k, v) :: t => if k < lo then (k, v) :: SMap.splice lo hi blk t
      else blk ++ ((k, v) :: t).filter (fun e => hi ≤ e.1)

/-- Write the whole range of `n` addresses from `lo` with `f`. -/
def SMap.setRange {α : Type} [DecidableEq α] (d : Nat → α) (m : List (Nat × α)) (lo n : Nat) (f : Nat → α) :
    List (Nat × α) :=
  SMap.splice lo (lo + n) (SMap.cells d f lo n) m

/-- Copy into `m` every address listed in `src` or in `m` that satisfies `p`, with the value it has in `src`. -/
def SMap.copySel {α : Type} [DecidableEq α] (d : Nat → α) (p : Nat → Bool) (src m : List (Nat × α)) :
    List (Nat × α) :=
  ((src ++ m).filter (fun e => p e.1)).foldl (fun acc e => SMap.set d acc e.1 (SMap.get d src e.1)) m

/-- The canonical form: addresses strictly rising, no entry equal to the unlisted value. -/
def SMap.wf {α : Type} [DecidableEq α] (d : Nat → α) : List (Nat × α) → Bool
  | [] => true
  | [(a, v)] => v ≠ d a
  | (a, v) :: (b, w) :: t => v ≠ d a && a < b && SMap.wf d ((b, w) :: t)

end Sys2Proof.Machine
end

