-- ==== Sys2Proof/Config.lean ====
section
/-! DEFINITION. What the manual leaves open: the free values. Each is a constant without a body, so no
proof can rest on a value of it. -/
namespace Sys2Proof.Config

/-- A value the manual does not state, drawn fresh for each number of draws (log entry 10). -/
opaque freeValue : Nat → Nat

/-- The 64-bit nonce of a session (R311), by the number of draws (log entry 10). -/
opaque nonce : Nat → BitVec 64

/-- The u16 code of each status: the manual names the statuses and gives no numbers (log entry 10). -/
opaque statusCode : Nat → BitVec 16

end Sys2Proof.Config
end

