-- ==== Sys2Proof/Machine/State.lean ====
section
/-! DEFINITION. The state of the SL4916 as plain data, the reasons a step can stop, and the state after reset.
Registers are kept in three sparse files keyed by address (`regs`, `shadow`, and the castle capture in `scan`);
what no register holds stands in the structures of each chapter. Instants and durations are counted in 2^-16 ns. -/
namespace Sys2Proof.Machine

/-! ## Venue time and moves (chapter 02) -/

/-- What a port has heard of a grandmaster: the data set in comparison order, stepsRemoved, whether it came over UDP/IPv4, and
the local instant at which it lapses (R33; log entry 119). -/
structure Announce where
  dataset : List Nat
  steps : Nat
  udp : Bool
  until_ : Nat
  deriving DecidableEq, Repr

/-- The Venue Time core and port stage. Instants and durations are in 2^-16 ns. -/
structure TimeSt where
  /-- The VT counter with its fraction (R25). -/
  vt : Vt
  /-- Local time since reset, which no VT step moves: rate limits, HOLD_S, IDLE_S and ages count in it. -/
  uptime : Nat
  /-- The last frequency estimate, in 2^-16 ppm of REF; 0 is the nominal rate (R41, R43). -/
  freq : Int
  /-- Consecutive measurements within 100 ns in ACQUIRE (Table 2.2). -/
  lockRun : Nat
  /-- Consecutive measurements beyond 1 µs in LOCKED (Table 2.2). -/
  lostRun : Nat
  /-- Measurement intervals without a valid measurement (LOSS_N). -/
  missed : Nat
  /-- A VT step that waits for the next castling point that applies groups (R38). -/
  stepDue : Option Int
  /-- A genlock epoch that waits for the castling point (R48). -/
  epochDue : Option Nat
  /-- A FOLLOW announcement (grid point, period) that waits for the castling point (R56). -/
  followDue : Option (Nat × Nat)
  /-- The full handle the session of FOLLOW_SESSION held when the field was last applied; 0 when none was open (R59, R314). -/
  followHandle : Nat
  /-- FOLLOW_SESSION has been written since a setup instant last captured SCAN_MODE, and its capture waits to be applied (R59). -/
  followWritten : Bool
  followTaken : Bool
  /-- The first accepted GENLOCK_IN edge of this ACQUIRE has been taken (R48). -/
  genTaken : Bool
  /-- Local instant from which the 2 s of R46 count: the last accepted PPS_IN edge, the selection of GM_PPS, or the boot. -/
  ppsFrom : Nat
  /-- EV_PPS_MISSING has been raised for the absence in progress (R46). -/
  ppsAbsent : Bool
  /-- TOD_SET's seconds value, carried by the next PPS_IN edge under GM_PPS (R45). -/
  todDue : Option Nat
  /-- The whole second that TOD_SET gave an accepted PPS_IN edge, and that edge's local instant: later edges count from it (R45). -/
  todRef : Option (Nat × Nat)
  /-- Local instant at which HOLDOVER was entered (TIME_STAT.HOLD_S). -/
  holdFrom : Nat
  /-- HOLDOVER was entered after lock with TOD_VALID = 1 (clockClass 7, R44). -/
  heldGood : Bool
  /-- What each port last announced (R33). -/
  announce : List (Nat × Announce)
  /-- The current delay measurement of each port, in 2^-16 ns (R34). -/
  delay : List (Nat × Nat)
  /-- The local instant before which each port sends no further delay request (R34). -/
  delayNext : List (Nat × Nat)
  /-- Ports that the device has left for want of Sync and that have delivered none since (R35). -/
  syncDead : List Nat
  /-- The local instant at which the PPS_OUT pulse in progress ends (R47). -/
  ppsLowAt : Nat
  /-- The next sequenceId of the PTP messages the device originates, by 16 × port + messageType (log entry 120). -/
  ptpSeq : List (Nat × Nat)
  /-- The floor that R19 has let SYS_STATE.FLOOR rise to; it reads the lower of this and the floor whose units work. -/
  floor : Nat
  deriving DecidableEq, Repr

/-- A waiting entry of the move table: its instant in whole ns, action code and argument (Table 2.5). -/
structure Move where
  inst : Nat
  action : Byte
  arg : Word
  /-- A VT step has passed over its instant: it is examined under R65 with its new lateness (R69). -/
  passed : Bool
  deriving DecidableEq, Repr

/-! ## Frame boards and the pixel pipeline (chapter 03) -/

/-- A frame board (R76). `frame = none` is EMPTY. -/
structure Board where
  frame : Option Word
  ready : Bool
  showing : Bool
  held : Bool
  /-- Target in 2^-16 ns; none for a held frame without a FLIP (R77). -/
  target : Option Nat
  /-- Deadline in 2^-16 ns (R78). -/
  deadline : Option Nat
  /-- The presentation time that the target maps, in whole ns (R51, R53); none for when = 0, a held frame and a FLIP. -/
  pres : Option Nat
  /-- Made composable by PATCH: not a complete frame (R85). -/
  patched : Bool
  /-- READY at its deadline, which has passed (R84). -/
  met : Bool
  /-- Coverage bits by sample slot; an unlisted slot is uncovered (R75). -/
  cov : List (Nat × Bool)
  deriving DecidableEq, Repr

/-- What the first accepted packet of a frame, or a FLIP, has fixed (R77, R78): its target (none while it is held), the
presentation time that gave it, and whether its first packet held it. -/
structure Known where
  target : Option Nat
  pres : Option Nat
  held : Bool
  deriving DecidableEq, Repr

/-- A composition in progress or finished and waiting for its frame start (R81). -/
structure Comp where
  /-- The board composed; none composes every slot as 0 (R86). -/
  board : Option Nat
  /-- The frame start it is for, in 2^-16 ns. -/
  start : Nat
  /-- Composition has ended (R82). -/
  done : Bool
  /-- The composed board is not the one SHOWING. -/
  isNew : Bool
  /-- The new board held a complete frame (R20, R22). -/
  complete : Bool
  /-- Composed as the fallback look (R230). -/
  fb : Bool
  /-- When it began, in 2^-16 ns of local time (GREY_PERF). -/
  began : Nat
  /-- Made with every density accumulator cleared since the last castle that calls for it (R116). -/
  clears : Bool
  /-- The FLIP moves whose frames it was chosen among: the frame and its frame start (R62). -/
  flips : List (Word × Nat)
  deriving DecidableEq, Repr

/-- Pipeline state that no register holds. -/
structure PipeSt where
  /-- Boards A, B, C at indices 0, 1, 2. -/
  boards : List (Nat × Board)
  comp : Option Comp
  /-- Frame start for which a composition has been made since the last frame start. -/
  composedFor : Option Nat
  /-- The SHOWING frame's target, in 2^-16 ns (R79). -/
  shownTarget : Nat
  /-- What the first accepted packets have fixed, by frame number (log entry 69). -/
  known : List (Word × Known)
  /-- FLIP moves that ran and wait: frame numbers, each with the frame start it selected (R78). -/
  flips : List (Word × Nat)
  /-- Thermal colour matrix formed at the last castling point, row by row, Q2.14 (R100). -/
  matrix : List Int
  /-- k of the previous composed frame was 32,768 or there was none (R103). -/
  ablIdle : Bool
  /-- The first EXPECT-complete frame shown since boot or loss of PIX has occurred. -/
  shownOnce : Bool
  /-- Local instant of the last presentation of a complete frame (R20). -/
  lastShown : Nat
  deriving DecidableEq, Repr

/-! ## Grey planes, line scan and castling (chapters 04 and 05) -/

/-- The line-interface outputs of the scan engine, as active (true) or inactive before polarity (R139, R142). -/
structure LinePins where
  len : Bool
  lblk : Bool
  /-- LDIS3 to LDIS0. -/
  ldis : BitVec 4
  /-- LA6 to LA0. -/
  la : BitVec 7
  lsdi : Bool
  lsck : Bool
  llat : Bool
  /-- Channels whose columns are connected to their bank's VPRE. -/
  vpre : BitVec 384
  deriving DecidableEq, Repr

/-- A pulse driven in a line slot: channel, start offset from the segment start and length in GCLK, the grey word's MODE
(0 NORMAL, 1 ASSIST_4, 2 ASSIST_16, 3 DENSITY; 4 a whisper probe), and the current in units of 0.125 mA / 2^26 (R115, R120, R158, R198). -/
structure Pulse where
  channel : Nat
  start : Nat
  length : Nat
  mode : Nat
  current : Nat
  deriving DecidableEq, Repr

/-- What the next frame start does beyond flipping. -/
inductive FrameKind where
  /-- A lit frame. -/
  | lit
  /-- A dark frame after a class B castle (R152). -/
  | darkB
  /-- The first frame start after the scan engine leaves idle (R525). -/
  | resume
  deriving DecidableEq, Repr

/-- Scan-engine state that no register holds. Instants are in 2^-16 ns. -/
structure ScanSt where
  /-- The last frame start; a load of VT in the frame may put it before VT 0. -/
  frameStart : Int
  /-- The castling point of the current frame has passed. -/
  inBlank : Bool
  /-- The instant of the last castling point. -/
  blankFrom : Int
  /-- BRACE has been in force since the last castling point that applied groups: no composition, no flip (R463, R466). -/
  braceHold : Bool
  /-- Sinks blanked under R464 until the first frame start after BRACE. -/
  braceDark : Bool
  /-- The setup instant of the coming castling point has passed (R146). -/
  setupDone : Bool
  /-- Groups captured at the setup instant, one bit per group of R145. -/
  capturedMask : BitVec 9
  /-- The captured groups that no check has refused. -/
  taken : BitVec 9
  /-- The captured values of the castled registers (R146). -/
  captured : List (Nat × Word)
  /-- The next frame start lies at or after this instant (R40, R53). -/
  notBefore : Nat
  /-- Frame starts before this instant were brought back by a backward step (R40). -/
  replayTo : Nat
  nextKind : FrameKind
  /-- The frame being scanned drives no sink. -/
  dark : Bool
  /-- N_SUB and S_SEG under which each grey plane was composed: (plane 0, plane 1) (R524). -/
  planeGeom0 : Nat × Nat
  planeGeom1 : Nat × Nat
  /-- Emitters whose code G was above 0 in each plane's composition (R197). -/
  gPos0 : List (Nat × Bool)
  gPos1 : List (Nat × Bool)
  /-- Density accumulators are cleared in every composition until one flips (R116). -/
  accClear : Bool
  /-- Density accumulators are cleared in the next composition: it follows a dark frame (R116). -/
  accClearOnce : Bool
  /-- f of the READY mode: frame starts that flipped the planes (R110). -/
  flips : Nat
  /-- Class C relock in progress since this local instant; EV_GCK_UNLOCK not yet raised for it (R153). -/
  relockFrom : Option Nat
  pins : LinePins
  /-- The line-interface levels of the last slot's phases, by offset in GCLK from the slot start (Table 5.2). -/
  phases : List (Nat × LinePins)
  /-- Pulses driven in the last line slot. -/
  pulses : List Pulse
  deriving DecidableEq, Repr

/-! ## Sinks, supply loops and thermal control (chapter 06) -/

/-- A supply loop's state beyond its registers. -/
structure LoopSt where
  /-- The integrator: 40-bit, saturating (R170). -/
  acc : Int
  /-- Boundaries counted toward the next sample (DIV). -/
  count : Nat
  /-- Consecutive samples clamped with |e| above 32 codes (R171). -/
  clampRun : Nat
  /-- Consecutive samples above V_OV (R172). -/
  ovRun : Nat
  deriving DecidableEq, Repr

/-- Sink-array and thermal state that no register holds. -/
structure SinkSt where
  /-- The sinks are off until the next frame start after IREF returned (R159). -/
  irefOff : Bool
  /-- FF has been 0 and the latch of R182 holds. -/
  cut : Bool
  /-- FF of the frame being scanned: the one of its preceding castling point (R186 step 7). -/
  ffScan : Nat
  /-- Headroom samples and low samples by 2 × bank + rail since the last castling point (R167). -/
  hr : List (Nat × (Nat × Nat))
  /-- T_B in 1/256 °C, once a valid sample has been taken (R178). -/
  tb : Option Int
  /-- Last converted samples of THA and THB in 1/256 °C. -/
  tA : Option Int
  tB : Option Int
  /-- Last valid word of the PAWN source, in 1/256 °C. -/
  tP : Option Int
  /-- Local instant of the last valid PAWN word, or of the selection of that source. -/
  pawnAt : Nat
  /-- VDDA has warned in the BRACE in progress: loops, T_B and the ADC hold (R464, R465). -/
  hold : Bool
  /-- Loops 0 and 1. -/
  loops : List (Nat × LoopSt)
  deriving DecidableEq, Repr

/-! ## Lamp census and function groups (chapter 07) -/

/-- What the census RAM holds for an emitter: the kind of its last observation (1 OK, 2 OPEN, 3 SHORT; 0 before the first),
the run and the age (R193). The map state lies in the FCM. -/
structure CensusRec where
  last : Nat
  run : Nat
  age : Nat
  deriving DecidableEq, Repr

/-- One observation: emitter, kind, the count of the frame it was made in, the frame number then shown, a serial
number in the order of making, and whether a whisper probe gave it. -/
structure CensusObs where
  emitter : Nat
  kind : Nat
  frame : Nat
  shown : Nat
  serial : Nat
  probe : Bool
  deriving DecidableEq, Repr

/-- A change of the census map to report: emitter, old and new state, the count of the frame whose change it is, and the frame
number shown in it (R215, R316). -/
structure MapChange where
  emitter : Nat
  old : Nat
  new : Nat
  frame : Nat
  shown : Nat
  deriving DecidableEq, Repr

/-- What a subframe's record holds: headroom samples (channel, low) and census observations (R129). -/
structure SubRec where
  headroom : List (Nat × Bool)
  observed : List CensusObs
  deriving DecidableEq, Repr

/-- A function group beyond its registers. -/
structure GroupSt where
  /-- The first frame whose observations count toward its proof and trips (R205). -/
  armed : Nat
  /-- The serial number from which observations count toward its proof: those made since it entered its state (R207). -/
  since : Nat
  /-- The frame in which it entered its state: later counted frames count toward the group age (R210). -/
  entered : Nat
  /-- By member, the run of OK observations and the group age. -/
  okRun : List (Nat × Nat)
  age : List (Nat × Nat)
  deriving DecidableEq, Repr

/-- Census state that no register holds. -/
structure CensusSt where
  recs : List (Nat × CensusRec)
  /-- Frames started, counted or not. -/
  frameNo : Nat
  /-- The frame number shown in the frame in progress. -/
  shown : Nat
  /-- The frame in progress meets R192 so far. -/
  counted : Bool
  /-- Bracing has blanked a slot of the frame in progress (R192). -/
  blanked : Bool
  /-- Emitters observed in the frame in progress. -/
  seen : List (Nat × Bool)
  /-- Emitters probed in the frame in progress. -/
  probed : Nat
  /-- The record of the subframe in progress. -/
  subRec : SubRec
  /-- Closed records that wait to be processed, oldest first (R129). -/
  queue : List SubRec
  /-- Observations that wait to be applied (R195). -/
  toApply : List CensusObs
  /-- The observations that changed an emitter to OPEN or SHORT and whose frame's events have not been raised (R196). -/
  newFaults : List CensusObs
  /-- State changes to report (R215). -/
  changes : List MapChange
  groups : List (Nat × GroupSt)
  /-- The serial number of the next slot's observations: 384 for each slot that has run. -/
  made : Nat
  /-- The emitters that the dark groups of the last counted frame start suppress (R202, R212). -/
  dark : List Nat
  /-- A sweep waits for the next counted frame (R214). -/
  sweepDue : Bool
  /-- Counted frames since the sweep started, and emitters observed in it. -/
  sweepFrames : Nat
  sweepSeen : List (Nat × Bool)
  /-- A sweep has ended and its whole map has not been reported (R215). -/
  sweepReport : Bool
  /-- The frame number at which the last sweep ended (Table 10.10). -/
  sweepFrame : Nat
  deriving DecidableEq, Repr

/-! ## Motif engines and the fallback look (chapter 08) -/

/-- What a motif engine holds beyond its registers. -/
structure MotifEng where
  /-- The step count of R225 (MOTIF_ENG_i.STEP reports it, saturating). -/
  steps : Nat
  /-- EV_MOTIF_END has been raised for the motif of the last composition. -/
  ended : Bool
  /-- That motif: the definition's index and handle. -/
  motif : Option (Nat × Nat)
  deriving DecidableEq, Repr

/-- The fallback look's request logic. -/
structure FallbackSt where
  /-- A cause that starts the look at the next grid point: 0 none, 1 stream loss, 2 command, 3 watchdog (R231). -/
  startDue : Nat
  /-- A fallback-off that ends the look at the next grid point (R232). -/
  endDue : Bool
  /-- Local instant from which the stream-loss timer counts (R233). -/
  timerFrom : Nat
  /-- VT instant at which the control-core restart of a watchdog expiry completed; none while it runs (R232). -/
  restartDone : Option Nat
  deriving DecidableEq, Repr

/-! ## Link ports, forwarding and the poll bus (chapter 09) -/

/-- A frame in the packet buffer (R256). Bytes run from the destination address to the FCS. -/
structure Pkt where
  id : Nat
  bytes : List Byte
  /-- The frame's last byte has been received; a frame of the device's own is whole from the start. -/
  whole : Bool
  /-- The ingress port and the ingress instant in 2^-16 ns of VT, of a PTP event message its timestamp; none for a frame the device
  originates. -/
  ingress : Option (Nat × Nat)
  /-- The priority class of R250. -/
  prio : Nat
  /-- Egress ports that have still to start it, and those that are sending it. -/
  egress : List Nat
  sending : List Nat
  /-- Local user that holds it: 0 none, 1 the pixel parser, 2 the control core; 3 when its local user has released it while ports
  still use it (R256). -/
  holder : Nat
  deriving DecidableEq, Repr

/-- A transmission in progress: a frame of the buffer, or a PAUSE frame with its quanta (R264). -/
structure TxSt where
  pkt : Option Nat
  quanta : Nat
  /-- Start instant in 2^-16 ns of VT; of a PTP event message its egress timestamp. -/
  start : Nat
  /-- The frame was stopped for want of room in the port's queue: the bytes with the stomped FCS that end it (R260). -/
  cut : Option (List Byte)
  deriving DecidableEq, Repr

/-- A reception in progress, after its 64th byte (R240). -/
structure RxSt where
  start : Nat
  /-- The stored frame; none when it was not stored or goes nowhere. -/
  pkt : Option Nat
  /-- It was refused for lack of cells (R260). -/
  noCell : Bool
  deriving DecidableEq, Repr

/-- One link port beyond its registers. Instants are local, in 2^-16 ns. -/
structure PortSt where
  rx : Option RxSt
  tx : Option TxSt
  /-- The device's own PAUSE frames that wait to be sent, by quanta (R261, R264). -/
  ownPause : List Nat
  /-- A pause honoured: quanta, and the instant it counts from; none while the frame in transmission ends (R263). -/
  pause : Option (Nat × Option Nat)
  /-- Until this instant a transmitter woken from LPI may not send (R268). -/
  wakeAt : Nat
  /-- Last frame of R255 received; none since the link came up. -/
  lastGood : Option Nat
  /-- Last EV_RX_DISCARD of the port (R248). -/
  lastDiscard : Option Nat
  /-- The instant of the last write to LINK_MODE: the SerDes PLL locks 100 µs later (Table 17.4). -/
  modeAt : Nat
  deriving DecidableEq, Repr

/-- A duplicate window (R252). -/
structure DupWin where
  src : Nat
  cls : Nat
  session : Nat
  top : Word
  bits : BitVec 64
  /-- Consecutive OLD discards (R254). -/
  old : Nat
  /-- Local instant of its last use (R253). -/
  last : Nat
  deriving DecidableEq, Repr

/-- Link and forwarding state that no register holds. -/
structure NetSt where
  ports : List (Nat × PortSt)
  /-- Frames in the packet buffer, in arrival order. -/
  pkb : List Pkt
  nextId : Nat
  /-- Duplicate windows, least recently used first. -/
  wins : List DupWin
  /-- Flow control is in force between XOFF and XON (R261). -/
  flow : Bool
  deriving DecidableEq, Repr

/-- An event record (Table 10.9). -/
structure EvRec where
  event : Nat
  move : Bool
  loss : Bool
  number : Nat
  data : Nat
  /-- VT at raising, whole ns. -/
  vt : Nat
  deriving DecidableEq, Repr

/-- What follows once a reply has been sent or fetched. -/
inductive After where
  | nothing
  /-- BYE closes its session, named by its full handle (R327). -/
  | close (session : Nat)
  /-- AUTH's nonce comes in force (R327). -/
  | nonce (session : Nat) (value : BitVec 64)
  /-- Sentry may be entered (R340). -/
  | sentry
  /-- DOMAIN switches the masked domains (R340). -/
  | domains (mask value : Nat)
  /-- FW_SWAP in RECOVERY boots the slot (R341). -/
  | boot (slot : Nat)
  deriving DecidableEq, Repr

/-! ## Kystan Link Protocol (chapter 10) -/

/-- Where an answer goes: the carriage and the addresses of the packet it answers (R284). -/
structure ReplyTo where
  node : Nat
  mac : Nat
  /-- UDP over IPv4: source address and port. -/
  udp : Option (Nat × Nat)
  deriving DecidableEq, Repr

/-- An open session (R300). -/
structure Session where
  partner : Nat
  verMaj : Nat
  verMin : Nat
  key : Option Nat
  nonce : BitVec 64
  caps : Nat
  peer : ReplyTo
  grant : Nat
  avail : Nat
  outst : Nat
  /-- Local instant of the partner's last COMMAND or HELLO (R303). -/
  heard : Nat
  /-- seq of the last command accepted (R312). -/
  lastSeq : Option Word
  /-- Next seq of the REPLY, EVENT and CENSUS streams; the HELLO answer that opened it was seq 0 of its own (R290). -/
  seqReply : Nat
  seqEvent : Nat
  seqCensus : Nat
  /-- CENSUS_SUB: [0] MAP, [1] CHANGES (R338). -/
  census : Nat
  deriving DecidableEq, Repr

/-- An event subscription (R315, R320). -/
structure Sub where
  /-- The full handle of its session. -/
  session : Nat
  mask : Nat
  next : Nat
  lost : Bool
  queue : List EvRec
  deriving DecidableEq, Repr

/-- The statuses a command is answered with (R322). The manual gives no numbers for them. -/
inductive Status where
  | ok | doneLater | partially | eCheck | eVersion | eHandle | eAuth | eCredit | eBusy | eOpcode | eState | eParam
  | eNoSpace | eLate | eLocked | eRunning | eSeal
  deriving DecidableEq, Repr

/-- A REPLY or HELLO answer that waits for transmission. -/
structure OutMsg where
  /-- The full handle of the session whose stream numbers it; none for an answer outside any session. -/
  session : Option Nat
  /-- Version of the packet. -/
  verMaj : Nat
  verMin : Nat
  cls : Nat
  /-- The session field, the frame field, and VT in whole ns for the when field. -/
  handle : Nat
  tag : Nat
  when_ : Nat
  status : Status
  payload : List Byte
  peer : ReplyTo
  /-- It returns a credit when its transmission starts (R309). -/
  credit : Bool
  after : After
  deriving DecidableEq, Repr

/-- How a command came, for its replies (R305, R343). A KLP session is named by its full handle. `owed`: the command's first
reply is still to come; over KLP it returns the credit (R309), in the mailbox it ends BUSY (R347). -/
inductive Origin where
  | klp (session : Nat) (tag : Nat) (noReply owed : Bool) (peer : ReplyTo)
  | poll (broadcast : Bool)
  | mbox (owed : Bool)
  deriving DecidableEq, Repr

/-- A pending timed command (R307). -/
structure Timed where
  origin : Origin
  opcode : Nat
  params : List Byte
  /-- Its instant, VT ns. -/
  inst : Nat
  /-- Its instant passed while the control core was down. -/
  held : Bool
  deriving DecidableEq, Repr

/-- KLP state that no register holds. -/
structure KlpSt where
  /-- The session table, which the Rook holds (R304). -/
  sessions : List (Nat × Session)
  subs : List (Nat × Sub)
  /-- Replies and HELLO answers that wait for transmission, oldest first. -/
  out : List OutMsg
  timed : List Timed
  /-- Local instant of the last EV_CHECK_MISMATCH (R295). -/
  lastMis : Option Nat
  /-- Records and seq of the STALEMATE broadcast (R449). -/
  beacons : Nat
  /-- The streams of answers outside open sessions, by source node, class and session field: the next seq (R290). -/
  streams : List ((Nat × Nat × Nat) × Nat)
  deriving DecidableEq, Repr

/-- A reply ready on the poll bus (R275). -/
structure PollReply where
  status : Status
  payload : List Byte
  after : After
  /-- Local instant at which it became ready (R340). -/
  ready : Nat
  deriving DecidableEq, Repr

/-- Poll-bus state that no register holds. -/
structure PollSt where
  /-- COMMAND payloads queued, with the broadcast flag (R275). -/
  cmds : List (List Byte × Bool)
  replies : List PollReply
  /-- Pending events, the number of the next one, and a loss since the last queued one (R277, R315). -/
  events : List EvRec
  evNumber : Nat
  evLost : Bool
  /-- seq of the previous POLL and of the previous COMMAND. -/
  lastPoll : Option Nat
  lastCmd : Option Nat
  /-- The frame that answered the previous POLL (R274). -/
  answer : Option (List Byte)
  /-- The frame being or last sent on PB_TX. -/
  sent : List Byte
  /-- DISCOVER slot of the last IDENT answer (R278). -/
  slot : Nat
  /-- PB_DE is high: a frame is being sent. -/
  driving : Bool
  /-- PB_DE is driven for an IDENT. -/
  identing : Bool
  /-- The abandoned frames, each of which is sent again at a next POLL, in this order (R279). -/
  abandoned : List (List Byte)
  /-- The last frame received had no error (R279). -/
  clean : Bool
  /-- Local instant at which the hold time of the last TOKEN ends (R276). -/
  tokenEnd : Nat
  /-- The node address that IOX answers to while NET is off (R280). -/
  node : Nat
  /-- An ASSIGN has named the node address since the boot (R278). -/
  assigned : Bool
  deriving DecidableEq, Repr

/-! ## Objects and the mailbox (chapter 11) -/

/-- A saved CVU context: its nine configuration words and VALUE (R332). -/
structure CvuCtx where
  unit : Nat
  config : List Word
  value : Word
  deriving DecidableEq, Repr

/-- A command that waits for an earlier one of its session to complete (R306). -/
structure Parked where
  origin : Origin
  opcode : Nat
  /-- plen equals the payload size minus 4 (R305). -/
  plenOk : Bool
  params : List Byte
  deriving DecidableEq, Repr

/-- Objects and mailbox state that no register holds. -/
structure CmdSt where
  /-- Map indexes whose cleared EN has not yet applied (R333), each with whether a castling point has captured it. -/
  mapDying : List (Nat × Bool)
  /-- The descriptors of maps, motif definitions and function groups as created, by class × 65,536 + index (R331). -/
  descs : List (Nat × List Byte)
  /-- Commands accepted that wait for their turn, in order of acceptance (R306). -/
  parked : List Parked
  /-- Pawn programs: base and length (R339). -/
  progs : List (Nat × (Nat × Nat))
  /-- CVU contexts. -/
  ctxs : List (Nat × CvuCtx)
  /-- The mailbox buffers, by offset; an unlisted byte is 0 (R347). -/
  mboxIn : List (Nat × Byte)
  mboxOut : List (Nat × Byte)
  /-- The status of the reply in the outbound buffer. -/
  mboxStatus : Status
  /-- Second replies that wait for the ACK of the one in the outbound buffer. -/
  mboxNext : List (Status × List Byte)
  /-- A SEND that waits for execution (R347). -/
  mboxDue : Bool
  /-- The data that the last read of a register or of the outbound buffer returned (R345, R410, R501). -/
  readOut : List Byte
  deriving DecidableEq, Repr

/-! ## Pawn engines (chapter 12) -/

/-- One pawn (Table 12.1). -/
structure PawnSt where
  run : Bool
  pc : Nat
  /-- The next start begins at ENTRY (R363). -/
  fromEntry : Bool
  /-- 0 none, 1 LOAD, 2 STORE, 3 AWAIT, 4 delay (PAWN_n_STATE.WAIT). -/
  wait : Nat
  emr : Word
  smr : Word
  eFill : Nat
  sFill : Nat
  cntA : Word
  cntB : Word
  tx : List Word
  rx : List Word
  /-- The 24-bit rate accumulator (R354). -/
  acc : Nat
  /-- Pending SYNC, LINE and FRAME ticks. -/
  sync : Bool
  line : Bool
  frame : Bool
  /-- Level and direction latches of the window pins (R351). -/
  level : BitVec 8
  dir : BitVec 8
  /-- PX levels when the AWAIT in progress last looked; none before it began to wait (R360). -/
  awaitPx : Option Word
  /-- The local instant at which the wait in progress in LOAD or STORE began, and whether EV_PAWN_STALL has been raised for it
  (R370). -/
  waitAt : Nat
  stalled : Bool
  deriving DecidableEq, Repr

/-! ## Switch PWM units (chapter 13) -/

/-- The edges of a period in ticks after its boundary (Table 13.1); an output whose edges coincide stays inactive. SWnB may also be active
at the start of the period, from `leadRise` to `leadFall`: by a window that began in the period before, or that wraps. -/
structure SwEdges where
  riseA : Nat
  fallA : Nat
  riseB : Nat
  fallB : Nat
  leadRise : Nat
  leadFall : Nat
  deriving DecidableEq, Repr

/-- What an SPWM unit holds beyond its registers. On-times and carries are in ticks. -/
structure SpwmSt where
  /-- cA and cB of R380, and what they were before the period in progress was computed. -/
  carryA : Nat
  carryB : Nat
  inA : Nat
  inB : Nat
  /-- onA of the current period. -/
  onA : Nat
  edges : SwEdges
  /-- Boundaries since the enable, modulo 16 (R378). -/
  periods : Nat
  /-- Local instant of the last boundary; none while the counter stands, or waits for its first boundary. -/
  boundaryAt : Option Nat
  /-- The midpoint of the current period has passed. -/
  midDone : Bool
  /-- The transfer was armed by the unit's loop: BOUNDARY, whatever UPD says (R386). -/
  loopArmed : Bool
  /-- A PERIOD transferred at a midpoint or by a move, which waits for the next boundary (R383, R384). -/
  periodDue : Option Nat
  /-- PERIOD, DUTY, DUTY_B and DT captured by a castle that has applied (R385). -/
  castleDue : Option (List Word)
  /-- DUTY has been written since the last capture of the SPWM group: the transfer of that capture leaves PENDING (R148, R385). -/
  armedLate : Bool
  /-- The last capture of the SPWM group took the unit's shadows, with a transfer armed and UPD = CASTLE (R383, R385). -/
  captured : Bool
  /-- The next boundary applies the transfer that was armed when a debug halt ended (R394). -/
  applyAny : Bool
  /-- The outputs stay SAFE until the next boundary: not yet started, re-arming or restarting. -/
  waiting : Bool
  /-- The levels a pinned unit holds since the SPW clock stopped (R395). -/
  heldLevels : Option (Bool × Bool)
  /-- The trip that set TRIPPED found both outputs inactive: they keep those levels; else they are SAFE (R389, R391). -/
  tripQuiet : Bool
  /-- Local instant of the last rise of SWnA before the current period, or before the trip that holds (R390). -/
  roseAt : Option Nat
  /-- Local instants of the last EV_SPWM_SKIP and of the last EV_SPWM_TRIP under CYCLE (R382, R393). -/
  lastSkip : Option Nat
  lastTrip : Option Nat
  /-- Soft start: target duty, SS and periods since the last tick (R399). -/
  soft : Option (Nat × (Nat × Nat))
  deriving DecidableEq, Repr

/-! ## Check-value units (chapter 14) -/

/-- What a check-value unit holds beyond its registers. -/
structure CvuSt where
  /-- Bytes of a partial ADD32 or Fletcher word (R406). -/
  part : List Byte
  /-- Bytes skipped before the window, and bytes processed in it (RUN). -/
  skipped : Nat
  done : Nat
  /-- A closed RUN window whose trailer bytes are still to come: its result and the bytes so far (R410). -/
  trailer : Option (Nat × List Byte)
  /-- The first window after an enable with RESUME = 1 continues from VALUE (R413). -/
  resumed : Bool
  /-- A RUN window has closed and none may open again (REPEAT = 0). -/
  finished : Bool
  /-- The bytes of its window processed so far of the frame that passes on the unit's link tap; none between frames, and for a frame
  whose start the unit has not seen. -/
  link : Option Nat
  /-- The number of the last closed window, and its SHORT and MISMATCH, before a read latches them (R410). -/
  winNo : Nat
  short : Bool
  mismatch : Bool
  /-- A read of RESULT has latched CVU_n_RINFO: it holds until the next such read (R410). -/
  infoHeld : Bool
  /-- Windows closed since the last EV_CVU_DONE, and local instants of the last two kinds of event (R417). -/
  closed : Nat
  lastDone : Option Nat
  lastMis : Option Nat
  deriving DecidableEq, Repr

/-! ## Mirror port (chapter 15) -/

/-- Levels of the mirror port's pads: MIR_HS, MIR_VS, MIR_DE, MIR_PCLK, MIR_CS, MIR_WR and MIR_D; none where the manual gives a pad no
level. MIR_D stands for the pins below `used`, which the pixel format uses; the others drive 0 (R423). -/
structure MirPads where
  hs : Option Bool
  vs : Option Bool
  de : Option Bool
  pclk : Option Bool
  cs : Option Bool
  wr : Option Bool
  d : Option Nat
  used : Nat
  deriving DecidableEq, Repr

/-- Mirror-port state that no register holds. -/
structure MirSt where
  /-- A start request is set (R425). -/
  request : Bool
  /-- LED frame starts since the request that waits for MIR_TE (R428). -/
  waited : Nat
  /-- Line within the mirror frame. -/
  line : Nat
  /-- Lines passed since t3; none from t0 to t3 (R425). -/
  porch : Option Nat
  /-- The board or plane read when the frame started (R426). -/
  source : Option Nat
  /-- A timing change waits for the next line boundary (R430). -/
  retimeDue : Bool
  /-- PCLK is held low until the MIR clock has relocked (R430). -/
  clockHeld : Bool
  /-- A COMMAND frame is being written: MIR_CS is low. -/
  writing : Bool
  /-- VIDEO: the values of MIR_D in the active pixels of the last line, empty when DE stays inactive. -/
  videoOut : List Nat
  /-- COMMAND: the bytes of the frame being or last written whose lines have begun, with the data/command line (R427). -/
  cmdOut : List (Bool × Byte)
  /-- Local instant of the last line boundary, or of the start of a COMMAND frame; none where no line is under way. -/
  lineAt : Option Nat
  /-- What the frame reads has been another board or plane since its t0 (R426). -/
  torn : Bool
  /-- The INPUT map has been destroyed since the window was applied (R431). -/
  mapGone : Bool
  /-- The pads at the last line boundary. -/
  pads : MirPads
  deriving DecidableEq, Repr

/-! ## Boot, firmware slots and the Seal (chapter 16) -/

/-- The Seal evaluation that runs: a CHECK or an ARM (R447). -/
structure SealRun where
  arm : Bool
  origin : Origin
  deriving DecidableEq, Repr

/-- A Seal applied and waiting for the grid point of R450: the local instant at which its application completed, and the commands
that get the final OK (none under AUTO_ARM). -/
structure ArmDue where
  from_ : Nat
  origins : List Origin
  deriving DecidableEq, Repr

/-- Seal store, boot flash and OTP. -/
structure SealSt where
  /-- The staging buffer by offset; an unlisted byte is 0 (R442). -/
  staged : List (Nat × Byte)
  /-- Granules marked as staged. -/
  marks : List (Nat × Bool)
  /-- Granules have been staged since the last ARM or boot (SEAL_STAT.STAGED). -/
  touched : Bool
  /-- The armed buffer (R442). -/
  armed : Option (List Byte)
  /-- The Seal applied and not yet armed is the armed buffer's; its REGS entries with LOCK = 1 (R446). -/
  locks : List Nat
  /-- The CHECK or ARM that runs, then those that wait for it (R306). -/
  run : List SealRun
  armDue : Option ArmDue
  /-- A DISARM waits for its grid point (R451). -/
  disarmDue : Bool
  /-- The SEAL_WRITE in progress (R444): the command it answers. -/
  write : Option Origin
  /-- An FW_SWAP that waits for a CHECK or an ARM to complete: slot and origin (R452). -/
  swapDue : Option (Nat × Origin)
  /-- A boot-record write withheld in BRACE: the slot (R454). -/
  recordDue : Option Nat
  /-- The slot before the swap on trial (R454). -/
  trialFrom : Nat
  /-- The control core has restarted into the trial slot at this local instant. -/
  trialAt : Nat
  /-- The fallback section is being copied by the Rook (R229). -/
  copying : Bool
  /-- VT ns at which EV_STALEMATE was raised (R449). -/
  staleVt : Nat
  /-- The boot ROM has chosen a slot (step 3 of Table 16.2). -/
  slotOk : Bool
  /-- The BOOTSEL pins, as the last boot sampled them. -/
  bootsel : BitVec 2
  /-- Boot flash by offset; an unlisted byte is erased, 0xFF (log entry 1). -/
  flash : List (Nat × Byte)
  /-- OTP words by number: 0 to 7 KEY_HASH, 8 MIN_VERSION, 9 and 10 UID, 11 and 12 MAC, 13 BOOT, 14 to 16 STRAP6, 17 to 19 STRAP7;
  an unlisted word is 0 (log entry 1). -/
  otp : List (Nat × Word)
  /-- OTP words that fail parity. -/
  otpBad : List Nat
  deriving DecidableEq, Repr

/-! ## Supplies, domains and Sentry (chapter 17) -/

/-- Supply state that no register holds. Rails: 0 VDDC, 1 VDDS, 2 VDDH, 3 VDDIO, 4 VDDA. -/
structure PwrSt where
  /-- Rails that have crossed warning in the episode (R462). -/
  crossed : BitVec 5
  /-- The lowest sample of each rail of the episode, in mV. -/
  lowest : List (Nat × Nat)
  /-- Rails that have crossed warning and not yet met their recovery condition (R465). -/
  unrecovered : BitVec 5
  /-- A rail that reached its reset or guard level, and GUARD; the boot follows its recovery (R467). -/
  resetRail : Option (Nat × Bool)
  /-- Rails at or below their reset or guard level that have not yet met their recovery condition (R461, R467). -/
  down : BitVec 5
  /-- The rails did not come in the order of R457: the switched domains are held until all are in their windows (R459). -/
  orderHold : Bool
  /-- VDDAO is below POR (R12). -/
  aoDown : Bool
  /-- RESET_N is low (R433). -/
  resetN : Bool
  /-- REF has stopped (R473). -/
  refLost : Bool
  /-- A SENTRY command: 0 none, 2 it has been answered and entry may begin (R475). -/
  sentry : Nat
  /-- TOD_VALID, the local instant and VT at Sentry entry (R478, R481). -/
  todKept : Bool
  sentryAt : Nat
  sentryVt : Nat
  /-- ALW has stopped at this local instant (R474). -/
  alwLost : Option Nat
  /-- The AON retention copy of the armed Seal, with its CRC-32C (R475). -/
  retained : Option (List Byte × Nat)
  /-- The boot in progress began with a wake (R480). -/
  waking : Bool
  /-- Domains switched on whose contents firmware has still to restore (R469). -/
  restoreDue : BitVec 6
  /-- The function groups that stood when DRV was lost: index, policy, BASE, COUNT, and whether the group was not IDLE; and the cause of
  the look shown when PIX was lost (R213, R469). -/
  groupsLost : List (Nat × Nat × Nat × Nat × Bool)
  fbLost : Nat
  /-- A wake source that became active while a SENTRY command waited: 0 none, 1 WAKE pin, 2 link energy (R479). -/
  wakeSeen : Nat
  /-- The levels of the TRIP pins. -/
  tripPins : BitVec 8
  /-- Units 6 and 7 pinned (R397), and started from their straps (R400): kept until the next full boot. -/
  pinned : BitVec 2
  strapped : BitVec 2
  /-- Local instant of the first write of a pin-lock sequence in progress (R397). -/
  pinStepAt : Nat
  deriving DecidableEq, Repr

/-! ## The Rook, ECC, debug and JTAG (chapter 18) -/

/-- The JTAG instruction in force (R494). -/
inductive Jtag where
  | reset | bypass | idcode | sample | extest | debug
  deriving DecidableEq, Repr

/-- Supervision state that no register holds. Instants are local, in 2^-16 ns. -/
structure RookSt where
  /-- Causes of the dark-safe state (R493): bit 0 die temperature, 1 rail, 2 REF, 3 EXTEST, 4 loss of PIX or DRV, 5 loss of SUP. -/
  dark : BitVec 6
  /-- The instant from which the watchdog counts, and its count while it is held (R491). -/
  kickAt : Nat
  wdogHeld : Option Nat
  /-- Instants of the restarts counted in WDOG_CNT, oldest first (R492). -/
  counted : List Nat
  /-- A control-core restart is in progress. -/
  restarting : Bool
  /-- The control core has been down, restarting or halted, since this local instant. -/
  downAt : Option Nat
  /-- A DEBUG access has been made since the boot (R495). -/
  debugSeen : Bool
  /-- Local instants of the last EV_ECC_CORR and EV_ECC_UNCORR (R488). -/
  lastCorr : Option Nat
  lastUncorr : Option Nat
  jtag : Jtag
  /-- The boundary-scan register by pin: the levels last captured, and those last loaded, which EXTEST drives (R494). -/
  captured : List (BsPin × Bool)
  boundary : List (BsPin × Bool)
  /-- Words the scrubber or a read reported and firmware has still to rewrite (R490): (memory, word index). -/
  rewrite : List (Nat × Nat)
  /-- Words that the scrubber found uncorrectable and reported, to be handled at their next use (R489): (memory, word index). -/
  scrubbed : List (Nat × Nat)
  /-- A calibration check runs on this bank (R98). -/
  calCheck : Option Nat
  /-- Words of the pawn store whose parity is wrong (R356). -/
  storeBad : List Nat
  deriving DecidableEq, Repr

/-- Everything the block holds but the queue of commands and what it keeps of the SYS cycle in progress. -/
structure Chip where
  /-- Values in force of all registers, by address; an unlisted address has its reset value (chapter 19). -/
  regs : List (Nat × Word)
  /-- Shadows of the RWC registers and of the SPWM timing registers, by address (R3, R383). -/
  shadow : List (Nat × Word)
  /-- Frame and Calibration Memory, by offset in the window; an unlisted byte reads 0 (Table 3.9; log entry 2). -/
  fcm : List Host.Cell
  /-- The model's own: how many free values have been drawn (log entry 10). -/
  free : Nat
  /-- Venue time (chapter 02). -/
  time : TimeSt
  /-- The move table, by entry index (chapter 02). -/
  moves : List (Nat × Move)
  /-- Handle generations, by class × 65,536 + index; an unlisted one is 1 (R319). -/
  gens : List (Nat × Byte)
  /-- The pixel pipeline (chapter 03). -/
  pipe : PipeSt
  /-- The scan engine and castling (chapter 05). -/
  scan : ScanSt
  /-- Motif engines, by number; an unlisted one has taken no step (chapter 08). -/
  motif : List (Nat × MotifEng)
  /-- The fallback look (chapter 08). -/
  fallback : FallbackSt
  /-- Uncorrectable memory words met and not yet rewritten: (memory code of R488, word index). -/
  badWords : List (Nat × Nat)
  /-- The sink array, the loops and thermal control (chapter 06). -/
  sink : SinkSt
  /-- The lamp census and the function groups (chapter 07). -/
  census : CensusSt
  /-- Check-value units, by number (chapter 14). -/
  cvu : List (Nat × CvuSt)
  /-- The pawns, by number (chapter 12). -/
  pawns : List (Nat × PawnSt)
  /-- The SPWM units, by number (chapter 13). -/
  spwm : List (Nat × SpwmSt)
  /-- The mirror port (chapter 15). -/
  mir : MirSt
  /-- Link ports and the forwarding core (chapter 09). -/
  net : NetSt
  /-- The poll bus (chapter 09). -/
  poll : PollSt
  /-- Sessions, subscriptions, replies and timed commands (chapter 10). -/
  klp : KlpSt
  /-- Objects and the mailbox (chapter 11). -/
  cmd : CmdSt
  /-- Seal store, boot flash and OTP (chapter 16). -/
  store : SealSt
  /-- Supplies, domains and Sentry (chapter 17). -/
  pwr : PwrSt
  /-- The Rook, debug and JTAG (chapter 18). -/
  rook : RookSt
  deriving DecidableEq, Repr

/-- What the device drives at the 32 PX pads (R351): the pins it drives, and their levels. -/
structure PxPads where
  drive : Word
  level : Word
  deriving DecidableEq, Repr

/-- A check-value window that a CLOSE has closed in the SYS cycle in progress (R416): its running value before the close, and
STAT.MISMATCH and CNT.MISMATCH before its result was compared. -/
structure CloseSt where
  value : Nat
  part : List Byte
  stat : Bool
  count : Nat
  deriving DecidableEq, Repr

/-- What the rules on one SYS cycle (R64, R362, R416, R486, R500) need of the cycle in progress. -/
structure CycleSt where
  /-- The block at the start of the cycle; a counter that software has written in it stands at the value written, and a word that a
  read has latched (R501) as latched. -/
  start : Chip
  /-- W1C bits that the hardware has set in the cycle: address and bit (R486, R500). -/
  sets : List (Nat × Nat)
  /-- What the counters have counted in the cycle, those at their largest value too: address, lowest bit and number (R500). -/
  counts : List (Nat × Nat × Nat)
  /-- PX pins that a PIN_CLEAR move has driven low in the cycle (R64). -/
  pinsClr : Word
  /-- Shared flags that a SIGNAL CLEAR, or an AWAIT with CLR, has cleared in the cycle (R362). -/
  flagsClr : BitVec 8
  /-- Registers that software has written in the cycle: its write prevails over the hardware's (R500). -/
  written : List Nat
  /-- Check-value units whose window has closed, and that a CVU_SNAP has snapped, in the cycle (R416). -/
  cvuClosed : BitVec 8
  cvuSnapped : BitVec 8
  /-- A write of 0x0000_5A5A to SYS_ROOK_KICK, or an expiry, has restarted the watchdog's count in the cycle (R491). -/
  kicked : Bool
  /-- Pawn-store words written in the cycle: the word, what it held before, and whether that had lost its parity (R368). -/
  stored : List (Nat × Word × Bool)
  /-- Windows of check-value units that a CLOSE has closed in the cycle (R416). -/
  closing : List (Nat × CloseSt)
  /-- What the PX pads drove at the start of the SYS cycle before this one, and of the one before that, whose levels the synchroniser gives
  now (R351, R360). -/
  pads1 : PxPads
  pads2 : PxPads
  deriving DecidableEq, Repr

/-- The state of the block. -/
structure State extends Chip where
  /-- The commands that are waiting, first in, first out. -/
  pending : List Instr
  /-- The SYS cycle in progress. -/
  cycle : CycleSt
  deriving DecidableEq, Repr

/-- Why a step stops: nothing in this model faults. The one reason is for an access to an address outside
every range of the register space by a path for which the manual states no answer; no meaning raises it today (safe). -/
inductive Fault where
  | noSuchAddress (addr : Nat)
  deriving DecidableEq, Repr

/-- Why a command is refused. -/
inductive Refusal where
  /-- Raised by the dispatcher for a command that has no meaning yet (safe: the model stops). -/
  | notModelled (mnemonic : String)
  deriving DecidableEq, Repr

/-- The block right after reset (power-on, before the boot ROM's first step): every register at its reset value
(the register files list only departures from it), memories empty. Values the manual does not state are those of log entry 1. -/
def Chip.reset : Chip where
  regs := []
  shadow := []
  fcm := []
  free := 0
  time := ⟨0, 0, 0, 0, 0, 0, none, none, none, 0, false, false, false, 0, false, none, none, 0, false, [], [], [], [], 0, [], 0⟩
  moves := []
  gens := []
  pipe := ⟨[], none, none, 0, [], [], [16384, 0, 0, 0, 16384, 0, 0, 0, 16384], true, false, 0⟩
  scan := ⟨0, false, 0, false, false, false, 0, 0, [], 0, 0, .resume, false, (64, 256), (64, 256), [], [], true, false, 0, none, ⟨false, true, 0, 0, false, false, false, 0⟩, [], []⟩
  motif := []
  fallback := ⟨0, false, 0, some 0⟩
  badWords := []
  sink := ⟨false, false, 1024, [], none, none, none, none, 0, false, []⟩
  census := ⟨[], 0, 0, false, false, [], 0, ⟨[], []⟩, [], [], [], [], [], 0, [], false, 0, [], false, 0⟩
  cvu := []
  pawns := []
  spwm := []
  mir := ⟨false, 0, 0, some 0, none, false, false, false, [], [], none, false, false,
    ⟨some true, some true, some false, some false, some true, some true, some 0, 16⟩⟩
  net := ⟨[], [], 0, [], false⟩
  poll := ⟨[], [], [], 0, false, none, none, none, [], 0, false, false, [], false, 0, 0, false⟩
  klp := ⟨[], [], [], [], none, 0, []⟩
  cmd := ⟨[], [], [], [], [], [], [], .ok, [], false, []⟩
  store := ⟨[], [], false, none, [], [], none, false, none, none, none, 0, 0, false, 0, false, 0, [], [], []⟩
  pwr := ⟨0, [], 0, none, 0, false, false, false, false, 0, false, 0, 0, none, none, false, 0, [], 0, 0, 0, 0, 0, 0⟩
  rook := ⟨0, 0, none, [], false, none, false, none, none, .reset, [], [], [], [], none, []⟩

/-- The machine right after reset, at the start of a SYS cycle, with an empty queue. -/
def State.reset : State where
  toChip := Chip.reset
  pending := []
  cycle := ⟨Chip.reset, [], [], 0, 0, [], 0, 0, false, [], [], ⟨0, 0⟩, ⟨0, 0⟩⟩

end Sys2Proof.Machine
end

