-- ==== Sys2Proof/Machine/Ops.lean ====
section
/-! DEFINITION. The named operations over registers, their fields, their shadows and the FCM: every meaning reads and
writes State through these. -/
namespace Sys2Proof.Machine

/-- Bits [lo+len-1:lo] of a word. -/
def bitsOf (w : Word) (lo len : Nat) : Nat := w.toNat / 2 ^ lo % 2 ^ len

/-- A word with bits [lo+len-1:lo] replaced by the low bits of `v`. -/
def withBits (w : Word) (lo len v : Nat) : Word :=
  BitVec.ofNat 32 (w.toNat / 2 ^ (lo + len) * 2 ^ (lo + len) + v % 2 ^ len * 2 ^ lo + w.toNat % 2 ^ lo)

/-- The value in force of the register at an address. -/
def State.reg (s : State) (a : Nat) : Word := SMap.get regReset s.regs a

/-- Set the value in force of the register at an address. -/
def State.setReg (s : State) (a : Nat) (w : Word) : State := { s with regs := SMap.set regReset s.regs a w }

/-- The shadow of the register at an address (R3). -/
def State.shReg (s : State) (a : Nat) : Word := SMap.get regReset s.shadow a

/-- Set the shadow of the register at an address. -/
def State.setShReg (s : State) (a : Nat) (w : Word) : State := { s with shadow := SMap.set regReset s.shadow a w }

/-- A field in force. -/
def State.rd (s : State) (f : Fld) : Nat := bitsOf (s.reg f.addr) f.lo f.len

/-- A one-bit field in force. -/
def State.rdB (s : State) (f : Fld) : Bool := s.rd f != 0

/-- Set a field in force. -/
def State.wr (s : State) (f : Fld) (v : Nat) : State := s.setReg f.addr (withBits (s.reg f.addr) f.lo f.len v)

/-- Set a one-bit field in force. -/
def State.wrB (s : State) (f : Fld) (b : Bool) : State := s.wr f (if b then 1 else 0)

/-- A field of the shadow. -/
def State.rdSh (s : State) (f : Fld) : Nat := bitsOf (s.shReg f.addr) f.lo f.len

/-- Set a field of the shadow. -/
def State.wrSh (s : State) (f : Fld) (v : Nat) : State :=
  s.setShReg f.addr (withBits (s.shReg f.addr) f.lo f.len v)

/-- Set a field in force and in the shadow: what the boot loader and the mirror's own changes do. -/
def State.wrBoth (s : State) (f : Fld) (v : Nat) : State := (s.wr f v).wrSh f v

/-- R500: a counter field has counted `n` in the SYS cycle in progress. -/
def State.noteCount (s : State) (f : Fld) (n : Nat) : State :=
  { s with cycle := { s.cycle with counts := (f.addr, f.lo, n) :: s.cycle.counts } }

/-- Add to a counter field, saturating at its largest value. -/
def State.bumpBy (s : State) (f : Fld) (n : Nat) : State :=
  (s.wr f (min (s.rd f + n) (2 ^ f.len - 1))).noteCount f n

/-- Count one in a saturating counter field. -/
def State.bump (s : State) (f : Fld) : State := s.bumpBy f 1

/-- Count one in a counter field that wraps. -/
def State.bumpWrap (s : State) (f : Fld) : State := (s.wr f (s.rd f + 1)).noteCount f 1

/-- A two's-complement reading of an `n`-bit value. -/
def signed (n v : Nat) : Int := if v % 2 ^ n < 2 ^ (n - 1) then (v % 2 ^ n : Nat) else (v % 2 ^ n : Nat) - 2 ^ n

/-- A signed value cut to an `n`-bit two's-complement field, saturating. -/
def saturate (n : Nat) (i : Int) : Nat :=
  let c := max (-(2 ^ (n - 1) : Int)) (min i (2 ^ (n - 1) - 1))
  (c % 2 ^ n).toNat

/-- The word of an integer: two's complement, 32 bits. -/
def wordOfInt (i : Int) : Word := BitVec.ofInt 32 i

/-- Clamp an integer to 0 to 65,535 (R94). -/
def clamp16 (i : Int) : Nat := (max 0 (min i 65535)).toNat

/-- Bit `i` of a mask. -/
def bitAt (m i : Nat) : Bool := m / 2 ^ i % 2 == 1

/-- The indices below `n` whose bit is set in a mask, ascending. -/
def maskIdx (n m : Nat) : List Nat := (List.range n).filter (bitAt m)

/-- Draw a free value (log entry 10). -/
def State.draw (s : State) : Nat × State := (Config.freeValue s.free, { s with free := s.free + 1 })

/-- VT now, in 2^-16 ns. -/
def State.now (s : State) : Nat := s.time.vt.toNat

/-- Set the VT counter. -/
def State.setVt (s : State) (t : Nat) : State := { s with time := { s.time with vt := BitVec.ofNat 80 t } }

/-- Microseconds, milliseconds and seconds in 2^-16 ns. -/
def usec (n : Nat) : Nat := n * 1000 * nsUnit
def msec (n : Nat) : Nat := n * 1000000 * nsUnit
def sec (n : Nat) : Nat := n * 1000000000 * nsUnit

/-- Bit p of PWR_DOMAIN.STAT: 0 NET, 1 CTL, 2 PIX, 3 DRV, 4 IOX, 5 SUP. -/
def State.powered (s : State) (d : Nat) : Bool := s.rdB ⟨Reg.PWR_DOMAIN_STAT.addr, 8 + d, 1⟩

/-! Tables of unit records: a listed record, or the unit's reset record. -/

/-- Record `i` of a table whose unlisted records are `d`. -/
def tabGet {α : Type} (d : α) (t : List (Nat × α)) (i : Nat) : α := SMap.get (fun _ => d) t i

/-- A table without an entry. -/
def tabDrop {α : Type} (t : List (Nat × α)) (i : Nat) : List (Nat × α) := t.filter fun e => e.1 != i

/-- A table with entry `i` put in its place, indexes ascending. -/
def tabPut {α : Type} (i : Nat) (v : α) : List (Nat × α) → List (Nat × α)
  | [] => [(i, v)]
  | (k, w) :: t => if i < k then (i, v) :: (k, w) :: t else if i = k then (i, v) :: t else (k, w) :: tabPut i v t

/-- The entry at an index of a table. -/
def tabFind {α : Type} (t : List (Nat × α)) (i : Nat) : Option α := (t.find? fun e => e.1 == i).map (·.2)

/-- A table with record `i` replaced. -/
def tabSet {α : Type} [DecidableEq α] (d : α) (t : List (Nat × α)) (i : Nat) (v : α) : List (Nat × α) :=
  SMap.set (fun _ => d) t i v

/-! The PX pads (R350, R351). -/

/-- A pawn after reset. -/
def pawnReset : PawnSt :=
  ⟨false, 0, true, 0, 0, 0, 0, 0, 0, 0, [], [], 0, false, false, false, 0, 0, none, 0, false⟩

def State.pawn (s : State) (n : Nat) : PawnSt := tabGet pawnReset s.pawns n
def State.setPawn (s : State) (n : Nat) (p : PawnSt) : State := { s with pawns := tabSet pawnReset s.pawns n p }

/-- R350: whether pin `j` lies in the window of pawn n, and at which window index. -/
def State.windowIdx (s : State) (n j : Nat) : Option Nat :=
  let b := s.rd (Reg.PAWN_PINS_BASE n)
  if b ≤ j ∧ j < b + s.rd (Reg.PAWN_PINS_WIDTH n) then some (j - b) else none

/-- The running pawns, ascending. -/
def State.runningPawns (s : State) : List Nat := (List.range 8).filter fun n => (s.pawn n).run

/-- R63: the pin lies in the window of a running pawn. -/
def State.inRunningWindow (s : State) (j : Nat) : Bool := s.runningPawns.any fun n => (s.windowIdx n j).isSome

/-- R351: the driver of pin `j`: its level when it is driven. A pin in the window of a running pawn that none of them drives is an
input (R352, R356), whatever PAWN_PX_OE holds (DEDUCED, log entry 124). -/
def State.pxDriven (s : State) (j : Nat) : Option Bool :=
  match s.runningPawns.reverse.find? fun n => match s.windowIdx n j with
    | some i => bitAt (s.pawn n).dir.toNat i
    | none => false with
  | some n => some (bitAt (s.pawn n).level.toNat (j - s.rd (Reg.PAWN_PINS_BASE n)))
  | none =>
    if !s.inRunningWindow j && bitAt (s.rd Reg.PAWN_PX_OE_OE) j then some (bitAt (s.rd Reg.PAWN_PX_OUT_LEVEL) j) else none

/-- What the PX pads drive. -/
def State.pxPads (s : State) : PxPads :=
  let word (p : Nat → Bool) : Word := BitVec.ofNat 32 ((List.range 32).foldl (fun acc j => acc + if p j then 2 ^ j else 0) 0)
  ⟨word fun j => (s.pxDriven j).isSome, word fun j => s.pxDriven j == some true⟩

/-- R351: the 32 levels at the pads: a driven pin has its driven level unless the board overdrives it, the others the board's. -/
def PxPads.levels (p : PxPads) (board : PxBoard) : Word :=
  let own := p.drive &&& ~~~ board.forced
  (p.level &&& own) ||| (board.level &&& ~~~ own)

/-- R351: the 32 input levels at the pads now. -/
def State.pxLevels (s : State) (board : PxBoard) : Word := s.pxPads.levels board

/-- R351, R360: the 32 levels that the synchroniser gives: those at the pads 2 SYS cycles before the start of this one. -/
def State.pxSeen (s : State) (board : PxBoard) : Word := s.cycle.pads2.levels board

/-! The SYS cycle (R500). -/

/-- A SYS cycle begins, `n` cycles after the last one in which anything happened. -/
def State.newCycle (s : State) (n : Nat) : State :=
  let now := s.pxPads
  let last := { s with toChip := s.cycle.start }.pxPads
  { s with cycle := ⟨s.toChip, [], [], 0, 0, [], 0, 0, false, [], [],
                     if n ≤ 1 then last else now, if n ≤ 1 then s.cycle.pads1 else if n = 2 then last else now⟩ }

/-- The block as it was at the start of the cycle. -/
def State.atStart (s : State) : State := { s with toChip := s.cycle.start }

/-- Software has written the word at an address in the cycle. -/
def State.seeWrite (s : State) (a : Nat) : State := { s with cycle := { s.cycle with written := a :: s.cycle.written } }

/-- Reads of the cycle that follow find the word `w` at an address, whatever stood there when it began: a read has latched it (R501), or
software has written it where the hardware writes too (R500). -/
def State.fixStart (s : State) (a : Nat) (w : Word) : State :=
  { s with cycle := { s.cycle with start := (s.atStart.setReg a w).toChip } }

/-- The hardware sets a W1C bit: a write of 1 to it in the same cycle leaves it set (R486, R500). -/
def State.setW1c (s : State) (f : Fld) : State :=
  let s := s.wr f 1
  { s with cycle := { s.cycle with sets := (f.addr, f.lo) :: s.cycle.sets } }

/-- R486, R500: the bits of a word that hardware has set in the SYS cycle in progress. -/
def State.setNow (s : State) (a : Nat) : Word :=
  s.cycle.sets.foldl (fun acc e => if e.1 = a then acc ||| BitVec.ofNat 32 (2 ^ e.2) else acc) 0

/-- R3, R486, R500: ones written to W1C bits clear them, but for those that the hardware sets in the cycle. -/
def State.clearW1c (s : State) (a : Nat) (w : Word) : State := s.setReg a (s.reg a &&& ~~~ (w &&& ~~~ s.setNow a))

/-- The hardware sets a register, or a field, that software may write: a write of the same cycle prevails (R500). -/
def State.hwReg (s : State) (a : Nat) (w : Word) : State := if s.cycle.written.contains a then s else s.setReg a w
def State.hwWr (s : State) (f : Fld) (v : Nat) : State := if s.cycle.written.contains f.addr then s else s.wr f v

/-- The hardware sets a field of a shadow, or in force and in the shadow: a write of the same cycle, which reaches the shadow, prevails
there (R3, R500). -/
def State.hwWrSh (s : State) (f : Fld) (v : Nat) : State := if s.cycle.written.contains f.addr then s else s.wrSh f v
def State.hwWrBoth (s : State) (f : Fld) (v : Nat) : State := (s.wr f v).hwWrSh f v

/-! FCM (R105). -/

/-- An unlisted byte of the FCM (log entry 2). -/
def fcmReset (_ : Nat) : Byte := 0

/-- A byte of the FCM, by offset in the window. -/
def State.fcmByte (s : State) (o : Nat) : Byte := SMap.get fcmReset s.fcm o

/-- Write one byte of the FCM. The word takes new check bits: an uncorrectable one is whole again (R488). -/
def State.setFcmByte (s : State) (o : Nat) (b : Byte) : State :=
  { s with fcm := SMap.set fcmReset s.fcm o b, badWords := s.badWords.filter fun w => w != (0, o / 4) }

/-- A little-endian halfword of the FCM. -/
def State.fcm16 (s : State) (o : Nat) : Nat := (s.fcmByte o).toNat + 256 * (s.fcmByte (o + 1)).toNat

/-- A little-endian word of the FCM (R2). -/
def State.fcm32 (s : State) (o : Nat) : Nat := s.fcm16 o + 65536 * s.fcm16 (o + 2)

/-- Byte `k` of a number stored low byte first. -/
def leByte (v k : Nat) : Byte := BitVec.ofNat 8 (v / 256 ^ k)

/-- Write a little-endian halfword of the FCM. -/
def State.setFcm16 (s : State) (o v : Nat) : State := (s.setFcmByte o (leByte v 0)).setFcmByte (o + 1) (leByte v 1)

/-- Write a little-endian word of the FCM. -/
def State.setFcm32 (s : State) (o v : Nat) : State := (s.setFcm16 o v).setFcm16 (o + 2) (v / 65536)

/-- Write a block of the FCM with a function of the offset. -/
def State.fillFcm (s : State) (lo n : Nat) (f : Nat → Byte) : State :=
  { s with fcm := SMap.setRange fcmReset s.fcm lo n f,
           badWords := s.badWords.filter fun w => !(w.1 == 0 && decide (lo < 4 * w.2 + 4) && decide (4 * w.2 < lo + n)) }

/-- Region offsets of Table 3.9. -/
def fcmBoard (b : Nat) : Nat := b * 0x18000
def fcmCal (bank : Nat) : Nat := if bank = 0 then 0x48000 else 0x13E000
def fcmCalSize : Nat := 221184
def fcmXfer (t : Nat) : Nat := 0x7E000 + 8192 * t
def fcmPlace : Nat := 0x9E000
def fcmPlane (p : Nat) : Nat := if p = 0 then 0xAE000 else 0xDE000
def fcmPlaneSize : Nat := 196608
def fcmMotifLayer : Nat := 0x10E000
def fcmMotifDef : Nat := 0x126000
def fcmCensus : Nat := 0x136000
def fcmUser : Nat := 0x174000
def fcmSize : Nat := 1572864

/-- The data a read returned. -/
def State.readGave (s : State) (l : List Byte) : State := { s with cmd := { s.cmd with readOut := l } }

/-- A read of one word, with its data kept. -/
def readWordGave (r : Word × State) : State := r.2.readGave ((List.range 4).map fun k => BitVec.ofNat 8 (r.1.toNat / 256 ^ k))

/-- R489: the words that the scrubber has reported and whose next use has come; an FCM word written in between is whole again. -/
def State.scrubTake (s : State) (use : Nat × Nat → Bool) : List (Nat × Nat) × State :=
  (s.rook.scrubbed.filter fun w => use w && (w.1 != 0 || s.badWords.contains w), { s with rook := { s.rook with scrubbed := s.rook.scrubbed.filter fun w => !use w } })

end Sys2Proof.Machine
end

