-- ==== Sys2Proof/Machine/Operands.lean ====
section
/-! DEFINITION. The operand forms: reading numbers out of the bytes of packets, commands and frames. KLP fields are
big-endian on the wire, registers little-endian (R2). -/
namespace Sys2Proof.Machine

/-- A big-endian number. -/
def beNat (l : List Byte) : Nat := l.foldl (fun acc b => acc * 256 + b.toNat) 0

/-- A little-endian number. -/
def leNat (l : List Byte) : Nat := l.foldr (fun b acc => acc * 256 + b.toNat) 0

/-- `n` bytes of a number, most significant first. -/
def beBytes (n v : Nat) : List Byte := (List.range n).reverse.map fun k => BitVec.ofNat 8 (v / 256 ^ k)

/-- `n` bytes of a number, least significant first. -/
def leBytes (n v : Nat) : List Byte := (List.range n).map fun k => BitVec.ofNat 8 (v / 256 ^ k)

/-- `n` bytes of a list from an offset. -/
def slice (l : List Byte) (off n : Nat) : List Byte := (l.drop off).take n

/-- The big-endian field of `n` bytes at an offset; missing bytes end the number early. -/
def beAt (l : List Byte) (off n : Nat) : Nat := beNat (slice l off n)

/-- The byte at an offset; 0 beyond the end. -/
def byteAt (l : List Byte) (off : Nat) : Nat := (l.getD off 0).toNat

/-- ASCII bytes. -/
def asciiBytes (s : String) : List Byte := s.toList.map fun c => BitVec.ofNat 8 c.toNat

end Sys2Proof.Machine
end

