-- ==== Sys2Proof/Machine/Crc.lean ====
section
/-! DEFINITION. CRCs and checksums: the algorithms and presets of R406, R407, used by the check-value units, the KLP
checks, the poll bus, the calibration check and the Seal. -/
namespace Sys2Proof.Machine

/-- The parameters of an algorithm: 0 CRC, 1 ADD32, 2 FLETCHER32. -/
structure CrcParams where
  algo : Nat
  width : Nat
  poly : Nat
  init : Nat
  refIn : Bool
  refOut : Bool
  xorOut : Nat
  deriving DecidableEq, Repr

/-- Reverse the low `n` bits of a number. -/
def reflect (n v : Nat) : Nat := (List.range n).foldl (fun acc i => acc * 2 + v / 2 ^ i % 2) 0

/-- R406: one bit of a CRC. -/
def crcBit (p : CrcParams) (v b : Nat) : Nat :=
  let top := (v / 2 ^ (p.width - 1) + b) % 2
  let v := v * 2 % 2 ^ p.width
  if top = 1 then v ^^^ p.poly else v

/-- R406: one byte of a CRC. -/
def crcByte (p : CrcParams) (v : Nat) (b : Byte) : Nat :=
  let b := if p.refIn then reflect 8 b.toNat else b.toNat
  ((List.range 8).reverse).foldl (fun v i => crcBit p v (b / 2 ^ i % 2)) v

/-- R406: one complete word of ADD32 or FLETCHER32. -/
def sumWord (p : CrcParams) (v w : Nat) : Nat :=
  if p.algo = 1 then (v + w) % 2 ^ 32
  else
    let s1 := (v % 65536 + w) % 65535
    let s2 := (v / 65536 + s1) % 65535
    s2 * 65536 + s1

/-- Bytes in a word of the algorithm: 1 for a CRC. -/
def CrcParams.unit (p : CrcParams) : Nat := match p.algo with
  | 0 => 1
  | 1 => 4
  | _ => 2

/-- Process one byte: the running value and the partial word. -/
def crcStep (p : CrcParams) (st : Nat × List Byte) (b : Byte) : Nat × List Byte :=
  if p.algo = 0 then (crcByte p st.1 b, [])
  else
    let part := st.2 ++ [b]
    if part.length < p.unit then (st.1, part) else (sumWord p st.1 (beNat part), [])

/-- The value at a window's end: a partial word is completed with zeros. -/
def crcComplete (p : CrcParams) (st : Nat × List Byte) : Nat :=
  if st.2.isEmpty then st.1 else sumWord p st.1 (beNat (st.2 ++ List.replicate (p.unit - st.2.length) 0))

/-- The RESULT form of a running value: partial words completed with zeros, REFOUT, XOROUT. -/
def crcResult (p : CrcParams) (st : Nat × List Byte) : Nat :=
  let v := crcComplete p st
  (if p.algo = 0 && p.refOut then reflect p.width v else v) ^^^ p.xorOut

/-- The result over a list of bytes. -/
def crcOf (p : CrcParams) (l : List Byte) : Nat := crcResult p (l.foldl (crcStep p) (p.init, []))

/-- Table 14.2. -/
def crc32 : CrcParams := ⟨0, 32, 0x04C11DB7, 0xFFFFFFFF, true, true, 0xFFFFFFFF⟩
def crc32c : CrcParams := ⟨0, 32, 0x1EDC6F41, 0xFFFFFFFF, true, true, 0xFFFFFFFF⟩
def crc16 : CrcParams := ⟨0, 16, 0x1021, 0xFFFF, false, false, 0⟩
def crc8 : CrcParams := ⟨0, 8, 0x07, 0, false, false, 0⟩
def add32 : CrcParams := ⟨1, 32, 0, 0, false, false, 0⟩
def fletcher32 : CrcParams := ⟨2, 32, 0, 0, false, false, 0⟩

end Sys2Proof.Machine
end

