-- ==== Sys2Proof/Machine/Flags.lean ====
section
/-! DEFINITION. Events: raising one sets its EVT_RAW bit, writes its data and queues its records (R484, R485). -/
namespace Sys2Proof.Machine

namespace Ev
/-! The events of Table 18.1, by number. -/
def BROWN_C : Nat := 0  -- VDDC or VDDS warning (R463)
def BROWN_A : Nat := 1  -- VDDH, VDDIO or VDDA warning (R463)
def BROWN_CLEAR : Nat := 2  -- BRACE ends (R466)
def TJ_WARN : Nat := 3  -- Die at 115 °C (R185)
def TJ_SHUT : Nat := 4  -- Dark-safe at 135 °C, or its end (R185)
def DOMAIN_FAULT : Nat := 5  -- Unexpected domain loss (R13)
def WAKE : Nat := 6  -- Wake from Sentry (R478)
def SUP_STRAP : Nat := 7  -- Boot step 2 (R401)
def TIME_LOCK : Nat := 8  -- Servo enters LOCKED (Table 2.2)
def TIME_LOST : Nat := 9  -- Table 2.2, R43
def TIME_STEP : Nat := 10  -- VT step (R38)
def MOVE_LATE : Nat := 11  -- Move run late (R65)
def MOVE_DROP : Nat := 12  -- Move dropped (R65)
def MOVE_FULL : Nat := 13  -- Table full (R67)
def GRID_CHANGE : Nat := 14  -- Grid applied (R48, R53)
def PPS_MISSING : Nat := 15  -- No PPS_IN for 2 s (R46)
def LINK_UP : Nat := 16  -- Link up (R238)
def LINK_DOWN : Nat := 17  -- Link down (R238)
def RING_OPEN : Nat := 18  -- Ring OPEN (R255)
def RING_HEAL : Nat := 19  -- Ring CLOSED (R255)
def RX_DISCARD : Nat := 20  -- Frame discarded (R248)
def BUF_LOW : Nat := 21  -- FWD_FREE at XOFF (R261)
def PAUSE_RX : Nat := 22  -- Pause started (R263)
def POLLBUS : Nat := 23  -- Poll-bus error (R279)
def FRAME_LATE : Nat := 24  -- Frame not READY at deadline (R84, R85)
def FRAME_REPEAT : Nat := 25  -- R40, R54, R62, R87
def CHECK_MISMATCH : Nat := 26  -- hcheck or pcheck failure (R295)
def CASTLE_DONE : Nat := 27  -- Castle applied (R146, R150)
def CASTLE_LATE : Nat := 28  -- Late commit (R147)
def STREAM_LOST : Nat := 29  -- Stream-loss rule (R20)
def ABL_ACTIVE : Nat := 30  -- ABL starts scaling (R103)
def CAL_ERROR : Nat := 31  -- R98, R104
def GCK_UNLOCK : Nat := 32  -- R153, R154, R473
def SCAN_STALL : Nat := 33  -- Slot left dark (R155)
def VBLANK_SHORT : Nat := 34  -- Fit refused (R52, R131)
def PROBE_NO_SLACK : Nat := 35  -- R203, R206
def HEADROOM_LOW : Nat := 36  -- Raise at V_MAX (R169)
def LOOP_LIMIT : Nat := 37  -- R171, R172
def THERM_FOLD : Nat := 38  -- Foldback state change (R183)
def THERM_SENSOR : Nat := 39  -- Input faulty (R180)
def CENSUS_OPEN : Nat := 40  -- R196
def CENSUS_SHORT : Nat := 41  -- R196
def CENSUS_DONE : Nat := 42  -- Sweep ends (R214)
def GROUP_TRIP : Nat := 43  -- R208
def GROUP_BLIND : Nat := 44  -- R210
def MOTIF_END : Nat := 45  -- R221, R225
def FALLBACK_ON : Nat := 46  -- Look starts (R231)
def FALLBACK_OFF : Nat := 47  -- Look ends (R22, R232)
def PAWN_FAULT : Nat := 48  -- R372
def PAWN_FLAG : Nat := 49  -- SIGNAL EVENT (R362)
def PAWN_STALL : Nat := 50  -- R370
def SPWM_TRIP : Nat := 51  -- R393
def SPWM_SKIP : Nat := 52  -- R382
def CVU_DONE : Nat := 53  -- R417
def CVU_MISMATCH : Nat := 54  -- R417
def MIR_TE_MISSING : Nat := 55  -- R428
def ECC_CORR : Nat := 56  -- R488
def ECC_UNCORR : Nat := 57  -- R488
def WDOG : Nat := 58  -- Watchdog expiry (R491)
def STALEMATE : Nat := 59  -- R449
def ARMED : Nat := 60  -- R450
def FW_SWAP : Nat := 61  -- R454
def AUTH_FAIL : Nat := 62  -- R311, R313
def DEBUG : Nat := 63  -- R495
end Ev

/-- R484: events raised in one SYS cycle, which have the same vt, are recorded in ascending number: a record takes its place
in the queue; the record numbers and LOSS flags stay with the places. -/
def recordInto (q : List EvRec) (r : EvRec) : List EvRec :=
  let after := fun (x : EvRec) => x.vt == r.vt && decide (r.event < x.event)
  let b := q.filter after
  (q.filter fun x => !after x) ++
    List.zipWith (fun (place x : EvRec) => { x with number := place.number, loss := place.loss }) (b ++ [r]) (r :: b)

/-- R315: a subscription takes a record of an event its mask holds; a full queue loses it, and the next one sent has LOSS set. -/
def Sub.post (b : Sub) (n : Nat) (move : Bool) (data vt : Nat) : Sub :=
  if bitAt b.mask n then
    let b' := { b with next := (b.next + 1) % 65536 }
    let q := recordInto b.queue ⟨n, move, b.lost, b.next, data, vt⟩
    { b' with queue := q.take 32, lost := decide (32 < q.length) }
  else b

/-- R277: whether an event reaches the poll bus: by the masks, EV_STALEMATE whatever they hold. -/
def State.pollWants (s : State) (n : Nat) : Bool :=
  s.powered 4 && (n == Ev.STALEMATE || bitAt (s.rd (if n < 32 then Reg.PB_EV_MASK0_MASK else Reg.PB_EV_MASK1_MASK)) (n % 32))

/-- R277: up to 16 events are pending on the poll bus; further ones are lost and counted. -/
def State.pollPost (s : State) (n : Nat) (move : Bool) (data vt : Nat) : State :=
  if s.pollWants n then
    let p := { s.poll with evNumber := (s.poll.evNumber + 1) % 65536 }
    let q := recordInto s.poll.events ⟨n, move, s.poll.evLost, s.poll.evNumber, data, vt⟩
    let s := if 16 < q.length then s.bump Reg.PB_CNT1_EV_LOST else s
    { s with poll := { p with events := q.take 16, evLost := decide (16 < q.length) } }
  else s

/-- R484, R486: the EVT_RAW bit and the data of an event. -/
def State.evtMark (s : State) (n data : Nat) : State :=
  (s.setW1c ⟨(Reg.EVT_RAW_RAW (n / 32)).addr, n % 32, 1⟩).wr (Reg.EVT_DATA_DATA n) data

/-- R315: every subscription takes the record it wants. -/
def State.subsPost (s : State) (n : Nat) (move : Bool) (data vt : Nat) : State :=
  { s with klp := { s.klp with subs := s.klp.subs.map fun (e : Nat × Sub) => (e.1, e.2.post n move data vt) } }

/-- R484: the vt of the events of the SYS cycle in progress, in whole ns: that of its start. -/
def State.cycleVt (s : State) : Nat := s.atStart.now / nsUnit

/-- R484, R485: raise event `n` with its data, by an EVENT move or not. -/
def State.raiseAs (s : State) (move : Bool) (n : Nat) (data : Nat) : State :=
  let data := data % 2 ^ 32
  let vt := s.cycleVt
  ((s.evtMark n data).subsPost n move data vt).pollPost n move data vt

/-- R484: raise event `n` with its data. -/
def State.raise (s : State) (n : Nat) (data : Nat) : State := s.raiseAs false n data

/-- R486: EVT_PEND of word w. -/
def State.evtPend (s : State) (w : Nat) : Word := s.reg (Reg.EVT_RAW_RAW w).addr &&& s.reg (Reg.EVT_MASK_MASK w).addr

/-- R486: SVC_IRQ is driven low. -/
def State.svcIrq (s : State) : Bool :=
  s.evtPend 0 != 0 || s.evtPend 1 != 0 || (s.rdB Reg.SVC_MBOX_RDY && s.rdB Reg.SVC_CFG_RDY_IE)

end Sys2Proof.Machine
end

