-- ==== Sys2Proof/Machine/Cvu.lean ====
section
/-! DEFINITION. Check-value units (chapter 14). -/
namespace Sys2Proof.Machine

/-- A unit after reset. -/
def cvuReset : CvuSt := ⟨[], 0, 0, none, false, false, none, 0, false, false, false, 0, none, none⟩
def State.cvuAt (s : State) (n : Nat) : CvuSt := tabGet cvuReset s.cvu n
def State.setCvu (s : State) (n : Nat) (c : CvuSt) : State := { s with cvu := tabSet cvuReset s.cvu n c }

/-- R406, R407: the parameters in force. -/
def State.cvuParams (s : State) (n : Nat) : CrcParams :=
  let w := s.rd (Reg.CVU_CTRL_WIDTH n)
  match s.rd (Reg.CVU_CTRL_PRESET n) with
  | 1 => crc32
  | 2 => crc32c
  | 3 => crc16
  | 4 => crc8
  | 5 => add32
  | 6 => fletcher32
  | 7 => crc32c
  | _ => ⟨0, w, s.rd (Reg.CVU_POLY_VALUE n) % 2 ^ w, s.rd (Reg.CVU_INIT_VALUE n) % 2 ^ w,
      s.rdB (Reg.CVU_CTRL_REFIN n), s.rdB (Reg.CVU_CTRL_REFOUT n), s.rd (Reg.CVU_XOROUT_VALUE n) % 2 ^ w⟩

/-- PRESET 7: tag from each packet, base payload, trailer compared (R407). -/
def State.cvuKlp (s : State) (n : Nat) : Bool := s.rd (Reg.CVU_CTRL_PRESET n) == 7
def State.cvuTrailer (s : State) (n : Nat) : Bool := s.cvuKlp n || s.rdB (Reg.CVU_CTRL_CMP_SRC n)

/-- R409: the tag bytes of TAG_HI:TAG_LO. -/
def State.cvuTag (s : State) (n : Nat) : List Byte :=
  (beBytes 4 (s.rd (Reg.CVU_TAG_HI_TAG n)) ++ beBytes 4 (s.rd (Reg.CVU_TAG_LO_TAG n))).take (s.rd (Reg.CVU_CTRL_TAG_LEN n))

/-- The domain a tap needs (Table 14.1), in PWR_DOMAIN bit order. -/
def tapDomain (src : Nat) : Nat := if src = 1 ∨ src = 2 then 0 else if src = 5 then 2 else 4

/-- R412: what makes an enable refused, on the values it would have. PRESET KLP stands for TAG_KLP = 1 and BASE payload (Table 14.2). -/
def State.cvuEnableOk (s : State) (n : Nat) : Bool :=
  let preset := s.rd (Reg.CVU_CTRL_PRESET n)
  let src := s.rd (Reg.CVU_TAP_SRC n)
  let sel := s.rd (Reg.CVU_TAP_SEL n)
  let mode := s.rd (Reg.CVU_CTRL_MODE n)
  let width := s.rd (Reg.CVU_CTRL_WIDTH n)
  let filter := s.rd (Reg.CVU_TAP_FILTER n)
  let link := src == 1 || src == 2
  preset ≤ 7 && src ≤ 7 && (preset != 0 || (8 ≤ width && width ≤ 32)) && mode != 3 &&
    (if link then mode == 0 else mode == 2 || (mode == 1 && src != 5 && src != 0)) &&
    (!link || sel ≤ 5) && s.rd (Reg.CVU_CTRL_TAG_LEN n) ≤ 8 &&
    ((preset != 7 && !s.rdB (Reg.CVU_CTRL_TAG_KLP n) && s.rd (Reg.CVU_TAP_BASE n) == 0) || filter == 1 || filter == 2) &&
    (preset != 7 || link) &&
    (src != 5 || s.rd (Reg.CVU_WIN_START_BYTES n) + s.rd (Reg.CVU_WIN_LEN_BYTES n) ≤ 1572864)

/-- R417: EV_CVU_DONE, at most once per millisecond per unit. -/
def State.cvuDoneEvent (s : State) (n : Nat) : State :=
  let c := s.cvuAt n
  let c := { c with closed := min 255 (c.closed + 1) }
  let free := match c.lastDone with
    | none => true
    | some t => t + msec 1 ≤ s.time.uptime
  if s.rdB (Reg.CVU_CTRL_DONE_IE n) && free then
    (s.raise Ev.CVU_DONE (n + c.closed * 256)).setCvu n { c with closed := 0, lastDone := some s.time.uptime }
  else s.setCvu n c

/-- R417: EV_CVU_MISMATCH, at most once per 100 ms per unit. -/
def State.cvuMisEvent (s : State) (n : Nat) : State :=
  let c := s.cvuAt n
  let free := match c.lastMis with
    | none => true
    | some t => t + msec 100 ≤ s.time.uptime
  if free then
    (s.raise Ev.CVU_MISMATCH (n + s.rd (Reg.CVU_TAP_SRC n) * 16)).setCvu n { c with lastMis := some s.time.uptime }
  else s

/-- R410: CVU_n_RINFO describes a window that has closed (log entry 138). -/
def State.cvuInfo (s : State) (n : Nat) (c : CvuSt) : State :=
  ((s.wr (Reg.CVU_RINFO_WINDOW n) c.winNo).wrB (Reg.CVU_RINFO_SHORT n) c.short).wrB (Reg.CVU_RINFO_MISMATCH n) c.mismatch

/-- A unit's record changes what RINFO shows, but while a read of RESULT has latched it. -/
def State.setInfo (s : State) (n : Nat) (c : CvuSt) : State := if c.infoHeld then s.setCvu n c else (s.setCvu n c).cvuInfo n c

/-- R410: compare a result with the expected value. -/
def State.cvuCompare (s : State) (n result expected : Nat) : State :=
  if result = expected then s else
    let s := s.setInfo n { s.cvuAt n with mismatch := true }
    ((s.setW1c (Reg.CVU_STAT_MISMATCH n)).bump (Reg.CVU_CNT_MISMATCH n)).cvuMisEvent n

/-- R416: the window has closed in this SYS cycle: a snap of the cycle equals its result. -/
def State.cvuCycleClose (s : State) (n r : Nat) : State :=
  let s := { s with cycle := { s.cycle with cvuClosed := s.cycle.cvuClosed ||| BitVec.ofNat 8 (2 ^ n) } }
  if s.cycle.cvuSnapped.getLsbD n then s.wr (Reg.CVU_SNAP_SNAP n) r else s

/-- R410: close a window with a running value; `short` says that the frame or word ended it early; `follow` holds the
bytes after it, when they are known. -/
def State.cvuClose (s : State) (n : Nat) (st : Nat × List Byte) (short : Bool) (follow : Option (List Byte)) : State :=
  let p := s.cvuParams n
  let r := crcResult p st
  let k := (p.width + 7) / 8
  let c := s.cvuAt n
  let s := s.setInfo n { c with winNo := (c.winNo + 1) % 256, short := short, mismatch := false, part := [], done := 0, resumed := false }
  let s := (((s.wr (Reg.CVU_RESULT_RESULT n) r).wr (Reg.CVU_VALUE_VALUE n) (crcComplete p st)).wr (Reg.CVU_STAT_OPEN n) 0).wr
    (Reg.CVU_STAT_PART n) 0
  let s := (s.cvuCycleClose n r).bump (Reg.CVU_CNT_WINDOWS n)
  let s := if !s.rdB (Reg.CVU_CTRL_CMP_EN n) || short then s
    else if s.cvuTrailer n then
      match follow with
      | some l => if k ≤ l.length then s.cvuCompare n r (beNat (l.take k)) else s.setInfo n { s.cvuAt n with short := true }
      | none => s.setCvu n { s.cvuAt n with trailer := some (r, []) }
    else s.cvuCompare n r (s.rd (Reg.CVU_EXPECT_EXPECT n))
  s.cvuDoneEvent n

/-- R411: abandon a window. -/
def State.cvuAbandon (s : State) (n : Nat) : State :=
  let s := s.setCvu n { s.cvuAt n with part := [], done := 0, trailer := none, resumed := false }
  ((s.wr (Reg.CVU_STAT_OPEN n) 0).wr (Reg.CVU_STAT_PART n) 0).bump (Reg.CVU_CNT_ABANDONED n)

/-- The running value at a window's start: INIT or the value held, with the tag folded in (R406, R409, R413). -/
def State.cvuStart (s : State) (n : Nat) (tag : List Byte) : Nat × List Byte :=
  let p := s.cvuParams n
  if (s.cvuAt n).resumed then (s.rd (Reg.CVU_VALUE_VALUE n), []) else tag.foldl (crcStep p) (p.init, [])

/-- A unit is enabled, powered, and on a tap. -/
def State.cvuOn (s : State) (n src sel : Nat) : Bool :=
  s.rdB (Reg.CVU_CTRL_EN n) && s.powered 4 && s.powered (tapDomain src) && s.rd (Reg.CVU_TAP_SRC n) == src &&
    (src == 5 || src == 6 || src == 7 || s.rd (Reg.CVU_TAP_SEL n) == sel)

/-- Record the value a window started or continued with, and that RESUME has been used. -/
def State.cvuHold (s : State) (n : Nat) (st : Nat × List Byte) (done : Nat) : State :=
  let s := s.setCvu n { s.cvuAt n with part := st.2, done := done, resumed := false }
  ((s.wr (Reg.CVU_VALUE_VALUE n) st.1).wr (Reg.CVU_STAT_OPEN n) 1).wr (Reg.CVU_STAT_PART n) st.2.length

/-- The running value that the next byte of a RUN window meets. -/
def State.cvuRunning (s : State) (n : Nat) : Nat × List Byte :=
  if s.rdB (Reg.CVU_STAT_OPEN n) then (s.rd (Reg.CVU_VALUE_VALUE n), (s.cvuAt n).part) else s.cvuStart n (s.cvuTag n)

/-- R410: a byte of the stream after a closed RUN window, where the trailer's bytes `l` follow the window with result `r`. -/
def State.cvuTrail (s : State) (n r : Nat) (l : List Byte) : State :=
  if l.length < ((s.cvuParams n).width + 7) / 8 then s.setCvu n { s.cvuAt n with trailer := some (r, l) }
  else (s.setCvu n { s.cvuAt n with trailer := none }).cvuCompare n r (beNat l)

/-- R416: a byte presented in the cycle of a CLOSE belongs to the window being closed, whatever rows stand between: its result follows,
and what its comparison set but for an event already raised (log entry 168). -/
def State.cvuLate (s : State) (n : Nat) (k : CloseSt) (b : Byte) : State :=
  let p := s.cvuParams n
  let st := crcStep p (k.value, k.part) b
  let r := crcResult p st
  let s := { s with cycle := { s.cycle with closing := tabPut n { k with value := st.1, part := st.2 } s.cycle.closing } }
  let s := ((s.wr (Reg.CVU_RESULT_RESULT n) r).wr (Reg.CVU_VALUE_VALUE n) (crcComplete p st)).cvuCycleClose n r
  let c := s.cvuAt n
  let wrong := decide (r ≠ s.rd (Reg.CVU_EXPECT_EXPECT n))
  if c.trailer.isSome then s.setCvu n { c with trailer := some (r, []) }
  else if !s.rdB (Reg.CVU_CTRL_CMP_EN n) || wrong == c.mismatch then s
  else if wrong then s.cvuCompare n r (s.rd (Reg.CVU_EXPECT_EXPECT n))
  else ((s.setInfo n { c with mismatch := false }).wrB (Reg.CVU_STAT_MISMATCH n) k.stat).wr (Reg.CVU_CNT_MISMATCH n) k.count

/-- The window of unit n that a CLOSE has closed in the SYS cycle in progress. -/
def State.cvuClosing (s : State) (n : Nat) : Option CloseSt := tabFind s.cycle.closing n

/-- R408 RUN: one byte of the stream at unit n. WIN_START bytes are skipped before the first window, a resumed one too. -/
def State.cvuRunByte (n : Nat) (s : State) (b : Byte) : State :=
  let c := s.cvuAt n
  match s.cvuClosing n, c.trailer with
  | some k, _ => s.cvuLate n k b
  | none, some (r, l) => s.cvuTrail n r (l ++ [b])
  | none, none =>
    if c.finished then s
    else if c.skipped < s.rd (Reg.CVU_WIN_START_BYTES n) && c.done = 0 && (c.resumed || !s.rdB (Reg.CVU_STAT_OPEN n)) then
      s.setCvu n { c with skipped := c.skipped + 1 }
    else
      let st := crcStep (s.cvuParams n) (s.cvuRunning n) b
      let s := s.cvuHold n st (c.done + 1)
      if s.rd (Reg.CVU_WIN_LEN_BYTES n) = c.done + 1 then
        let s := s.setCvu n { s.cvuAt n with finished := !s.rdB (Reg.CVU_CTRL_REPEAT n) }
        s.cvuClose n st false none
      else s

/-- R408 RUN over FCM_WR: one byte written at an FCM offset. Bytes outside the offsets of the window are no part of its stream, the
trailer's included (log entry 16). -/
def State.cvuFcmByte (n o : Nat) (s : State) (b : Byte) : State :=
  let lo := s.rd (Reg.CVU_WIN_START_BYTES n)
  if lo ≤ o ∧ o < lo + s.rd (Reg.CVU_WIN_LEN_BYTES n) then
    let c := s.cvuAt n
    match s.cvuClosing n, c.trailer with
    | some k, _ => s.cvuLate n k b
    | none, some (r, l) => s.cvuTrail n r (l ++ [b])
    | none, none => if c.finished then s else s.cvuHold n (crcStep (s.cvuParams n) (s.cvuRunning n) b) (c.done + 1)
  else s

/-- R408 WORD: one word at unit n. -/
def State.cvuWordWindow (s : State) (n : Nat) (w : Word) : State :=
  let bytes := leBytes 4 w.toNat
  let start := s.rd (Reg.CVU_WIN_START_BYTES n)
  let len := s.rd (Reg.CVU_WIN_LEN_BYTES n)
  if 4 ≤ start then s else
    let win := if len = 0 then bytes.drop start else slice bytes start len
    let st := win.foldl (crcStep (s.cvuParams n)) (s.cvuStart n (s.cvuTag n))
    let s := s.cvuHold n st win.length
    s.cvuClose n st (len != 0 && win.length < len) (some (bytes.drop (start + win.length)))

/-- R405: a word presented on a pawn or service tap. -/
def State.cvuTapWord (s : State) (src sel : Nat) (w : Word) : State :=
  (List.range 8).foldl (fun s n =>
    if !s.cvuOn n src sel then s
    else if s.rd (Reg.CVU_CTRL_MODE n) = 1 then s.cvuWordWindow n w
    else (leBytes 4 w.toNat).foldl (State.cvuRunByte n) s) s

/-- R405: an agent writes the bytes of a block of the FCM that `sel` names, in ascending order (log entry 139), and FCM_WR presents them.
The others of the block keep their values under `f`. -/
def State.writeSome (s : State) (lo n : Nat) (sel : Nat → Bool) (f : Nat → Byte) : State :=
  (List.range 8).foldl (fun s u =>
    if s.cvuOn u 5 0 then (List.range n).foldl (fun s i =>
      if sel (lo + i) then State.cvuFcmByte u (lo + i) s (f (lo + i)) else s) s else s) (s.fillFcm lo n f)

/-- R405: an agent writes a block of the FCM. -/
def State.writeFcm (s : State) (lo n : Nat) (f : Nat → Byte) : State := s.writeSome lo n (fun _ => true) f

/-- What a link tap presents: the frame's bytes, whether it was accepted whole (R244 to R247) and left unstomped, and for
a KLP frame the offset of its header and the length of its payload. -/
structure TapFrame where
  bytes : List Byte
  ok : Bool
  klp : Option (Nat × Nat)
  deriving DecidableEq, Repr

/-- R408: the filter of unit n, and the offset of its base in the frame. -/
def State.cvuBase (s : State) (n : Nat) (f : TapFrame) : Option Nat :=
  let filter := s.rd (Reg.CVU_TAP_FILTER n)
  let base := if s.cvuKlp n then 2 else s.rd (Reg.CVU_TAP_BASE n)
  match f.klp with
  | none => if filter = 0 || filter = 3 then some 0 else none
  | some (h, _) =>
    if filter = 2 && byteAt f.bytes (h + 2) != s.rd (Reg.CVU_TAP_CLASS n) then none
    else some (match base with
      | 1 => h
      | 2 => h + 32
      | _ => 0)

/-- R409: the tag of a packet's header: {dst, class, ver_major, seq} of R292. -/
def klpTag (bytes : List Byte) (h : Nat) : List Byte :=
  slice bytes (h + 4) 2 ++ slice bytes (h + 2) 1 ++ slice bytes h 1 ++ slice bytes (h + 8) 4

/-- R408 FRAME: the first byte of unit n's window in a frame, and the byte after its last; none where the frame opens none. -/
def State.cvuSpan (s : State) (n : Nat) (f : TapFrame) : Option (Nat × Nat) :=
  (s.cvuBase n f).bind fun base =>
    let start := base + s.rd (Reg.CVU_WIN_START_BYTES n)
    let len := if s.cvuKlp n then 0 else s.rd (Reg.CVU_WIN_LEN_BYTES n)
    let limit := match f.klp with
      | some (h, l) => if s.cvuKlp n || s.rd (Reg.CVU_TAP_BASE n) = 2 then h + 32 + l else f.bytes.length - 4
      | none => f.bytes.length - 4
    if f.bytes.length < start then none else some (start, if len = 0 then limit else start + len)

/-- R409: the tag of unit n's window in a frame. -/
def State.cvuFrameTag (s : State) (n : Nat) (f : TapFrame) : List Byte :=
  match f.klp with
  | some (h, _) => if s.cvuKlp n || s.rdB (Reg.CVU_CTRL_TAG_KLP n) then klpTag f.bytes h else s.cvuTag n
  | none => s.cvuTag n

/-- The running value of unit n after further bytes of its window in a frame. -/
def State.cvuFold (s : State) (n : Nat) (f : TapFrame) (win : List Byte) : Nat × List Byte :=
  win.foldl (crcStep (s.cvuParams n))
    (if s.rdB (Reg.CVU_STAT_OPEN n) then (s.rd (Reg.CVU_VALUE_VALUE n), (s.cvuAt n).part) else s.cvuStart n (s.cvuFrameTag n f))

/-- The unit has processed `k` bytes of its window in the frame that passes, or follows none. -/
def State.cvuFollow (s : State) (n : Nat) (k : Option Nat) : State := s.setCvu n { s.cvuAt n with link := k }

/-- R408 FRAME: the first bytes of a frame pass at unit n: its window opens where it starts among them. -/
def State.cvuFrameHead (s : State) (n : Nat) (f : TapFrame) : State :=
  match s.cvuSpan n f with
  | some (start, stop) =>
    if start < f.bytes.length then
      let win := slice f.bytes start (stop - start)
      (s.cvuHold n (s.cvuFold n f win) win.length).cvuFollow n (some win.length)
    else s.cvuFollow n (some 0)
  | none => s.cvuFollow n (some 0)

/-- R408, R410, R411: the rest of a frame, `f` as a whole, passes at unit n. The window's result is given when the frame has ended, and
with it R411 is decided (log entry 140). -/
def State.cvuFrameEnd (s : State) (n : Nat) (f : TapFrame) : State :=
  match (s.cvuAt n).link, s.cvuSpan n f with
  | some k, some (start, stop) =>
    let win := slice f.bytes start (stop - start)
    let st := s.cvuFold n f (win.drop k)
    let s := (s.cvuHold n st win.length).cvuFollow n none
    if f.ok then s.cvuClose n st (decide (win.length < stop - start)) (some (f.bytes.drop (start + win.length)))
    else s.cvuAbandon n
  | _, _ => s.cvuFollow n none

/-- What the units on a link tap (1 LINK_RX, 2 LINK_TX) of a port do. -/
def State.cvuLink (s : State) (src port : Nat) (act : State → Nat → State) : State :=
  (List.range 8).foldl (fun s n => if s.cvuOn n src port then act s n else s) s

/-- R405: the first bytes of a frame on a link tap, and the rest of it. -/
def State.cvuTapHead (s : State) (src port : Nat) (f : TapFrame) : State := s.cvuLink src port fun s n => s.cvuFrameHead n f
def State.cvuTapRest (s : State) (src port : Nat) (f : TapFrame) : State := s.cvuLink src port fun s n => s.cvuFrameEnd n f

/-- R405: a frame on a link tap, whole. -/
def State.cvuTapFrame (s : State) (src port : Nat) (f : TapFrame) : State :=
  s.cvuLink src port fun s n => (s.cvuFollow n (some 0)).cvuFrameEnd n f

/-- R411: a frame is cut short on a link tap: an open window in it is abandoned. -/
def State.cvuTapCut (s : State) (src port : Nat) : State :=
  s.cvuLink src port fun s n =>
    ((if s.rdB (Reg.CVU_STAT_OPEN n) then s.cvuAbandon n else s)).cvuFollow n none

/-- R411: a domain is lost: open windows on its taps are abandoned. -/
def State.cvuDomainLost (s : State) (d : Nat) : State :=
  (List.range 8).foldl (fun s n =>
    if tapDomain (s.rd (Reg.CVU_TAP_SRC n)) == d then
      let s := s.cvuFollow n none
      if s.rdB (Reg.CVU_STAT_OPEN n) then (s.cvuAbandon n).setW1c (Reg.CVU_STAT_TAP_LOST n) else s
    else s) s

/-- R415, R416: what a snap of unit n writes: the result of a window that closes in this SYS cycle, else the RESULT form of the bytes
presented before it. -/
def State.cvuSnapValue (s : State) (n : Nat) : Nat :=
  if s.cycle.cvuClosed.getLsbD n then s.rd (Reg.CVU_RESULT_RESULT n)
  else
    let t := if s.atStart.rdB (Reg.CVU_CTRL_EN n) then s.atStart else s
    crcResult (s.cvuParams n) (t.rd (Reg.CVU_VALUE_VALUE n), (t.cvuAt n).part)

/-- R416: unit n has been snapped in this SYS cycle. -/
def State.cvuNoteSnap (s : State) (n : Nat) : State :=
  { s with cycle := { s.cycle with cvuSnapped := s.cycle.cvuSnapped ||| BitVec.ofNat 8 (2 ^ n) } }

/-- R415: a CVU_SNAP move at one unit. -/
def State.cvuSnap1 (s : State) (n : Nat) : State :=
  if s.rdB (Reg.CVU_CTRL_EN n) && s.powered 4 then
    ((s.wr (Reg.CVU_SNAP_SNAP n) (s.cvuSnapValue n)).setW1c (Reg.CVU_STAT_SNAPPED n)).cvuNoteSnap n
  else s

/-- R415: a CVU_SNAP move. -/
def State.cvuSnap (s : State) (mask : Nat) : State := (maskIdx 8 mask).foldl State.cvuSnap1 s

/-! ## Register writes (R412, R413) -/

/-- The bits of CVU_n_CTRL other than EN and CLOSE. -/
def cvuCfgMask : Word := 0x03FFFFFA

/-- R412: EN goes from 0 to 1. RESUME opens a RUN window at once (R413); a link or word window opens with its frame or word. -/
def State.cvuEnable (s : State) (n : Nat) : State :=
  if s.cvuEnableOk n then
    let c := s.cvuAt n
    let resume := s.rdB (Reg.CVU_CTRL_RESUME n)
    let s := s.setCvu n { cvuReset with resumed := resume, winNo := c.winNo, closed := c.closed, lastDone := c.lastDone,
                                        lastMis := c.lastMis, short := c.short, mismatch := c.mismatch,
                                        infoHeld := c.infoHeld }
    let s := { s with cycle := { s.cycle with closing := tabDrop s.cycle.closing n } }
    let s := if resume then s.wrB (Reg.CVU_STAT_OPEN n) (s.rd (Reg.CVU_CTRL_MODE n) == 2)
      else s.wr (Reg.CVU_VALUE_VALUE n) (s.cvuParams n).init
    s.wr (Reg.CVU_CTRL_EN n) 1
  else s.setW1c (Reg.CVU_STAT_CFG_REJ n)

/-- R411: EN goes from 1 to 0: an open window is abandoned. -/
def State.cvuDisable (s : State) (n : Nat) : State :=
  let s := (s.wr (Reg.CVU_CTRL_EN n) 0).cvuFollow n none
  if s.rdB (Reg.CVU_STAT_OPEN n) then s.cvuAbandon n else s

/-- R408: CLOSE closes the open RUN window of FCM_WR, and of another tap when WIN_LEN is 0. -/
def State.cvuCloseRun (s : State) (n : Nat) : State :=
  if s.rdB (Reg.CVU_CTRL_EN n) && s.rd (Reg.CVU_CTRL_MODE n) == 2 && s.rdB (Reg.CVU_STAT_OPEN n) &&
      (s.rd (Reg.CVU_TAP_SRC n) == 5 || s.rd (Reg.CVU_WIN_LEN_BYTES n) == 0) then
    let s := s.setCvu n { s.cvuAt n with finished := !s.rdB (Reg.CVU_CTRL_REPEAT n) }
    let k : CloseSt := ⟨s.rd (Reg.CVU_VALUE_VALUE n), (s.cvuAt n).part, s.rdB (Reg.CVU_STAT_MISMATCH n), s.rd (Reg.CVU_CNT_MISMATCH n)⟩
    let s := { s with cycle := { s.cycle with closing := tabPut n k s.cycle.closing } }
    s.cvuClose n (s.rd (Reg.CVU_VALUE_VALUE n), (s.cvuAt n).part) false none
  else s

/-- R412, R413: a write to CVU_n_CTRL. -/
def State.cvuWriteCtrl (s : State) (n : Nat) (w : Word) : State :=
  let a := (Reg.CVU_CTRL_EN n).addr
  if s.rdB (Reg.CVU_CTRL_EN n) then
    let s := if (w &&& cvuCfgMask) != (s.reg a &&& cvuCfgMask) then s.setW1c (Reg.CVU_STAT_CFG_REJ n) else s
    let s := if bitAt w.toNat 2 then s.cvuCloseRun n else s
    if bitAt w.toNat 0 then s else s.cvuDisable n
  else
    let s := s.setReg a (w &&& cvuCfgMask)
    if bitAt w.toNat 0 then s.cvuEnable n else s

/-- R413: a write to TAP, POLY, INIT, XOROUT, WIN_START, WIN_LEN, TAG_LO, TAG_HI or VALUE (offsets 0x04 to 0x20, 0x28). A read of VALUE
in the same cycle finds what has been written. -/
def State.cvuWriteCfg (s : State) (n off : Nat) (w : Word) : State :=
  let mask : Word := if off = 0x04 then 0x03FF037F else if off = 0x14 ∨ off = 0x18 then 0x001FFFFF else 0xFFFFFFFF
  if s.rdB (Reg.CVU_CTRL_EN n) then s.setW1c (Reg.CVU_STAT_CFG_REJ n)
  else
    let a := 0xF0000 + 0x40 * n + off
    let s := s.setReg a (w &&& mask)
    if off = 0x28 then s.fixStart a (w &&& mask) else s

/-- R410, R416: a read of RESULT returns the one at the start of the SYS cycle, and latches the RINFO of its window, which a read of the
cycle finds too. -/
def State.cvuReadResult (s : State) (n : Nat) : Word × State :=
  let t := (s.setCvu n { s.cvuAt n with infoHeld := true }).cvuInfo n (s.atStart.cvuAt n)
  let a := (Reg.CVU_RINFO_WINDOW n).addr
  (s.atStart.reg (Reg.CVU_RESULT_RESULT n).addr, t.fixStart a (t.reg a))

/-- R410: a read of CVU_n_RESULT. -/
def execCvuResultRead (n : Fin 8) (s : State) : Host.Outcome State Fault Refusal :=
  .next (if s.powered 4 then readWordGave (s.cvuReadResult n.val) else s)

end Sys2Proof.Machine
end

