-- ==== Sys2Proof/Machine/Grid.lean ====
section
/-! DEFINITION. The frame grid and the durations of the scan geometry in force (R49 to R55, R125 to R129).
Instants are in 2^-16 ns; GCLK counts are compared exactly, as multiples of 10^6 × 2^16 / FREQ_KHZ. -/
namespace Sys2Proof.Machine

/-- E of R49: TIME_GRID_EPOCH with its fraction. -/
def gridEpoch (s : State) : Nat :=
  (s.rd Reg.TIME_GRID_EPOCH_EPOCH_HI * 2 ^ 32 + s.rd Reg.TIME_GRID_EPOCH_EPOCH_LO) * nsUnit
    + s.rd Reg.TIME_GRID_EPOCH_FRAC_FRAC

/-- TIME_GRID_PERIOD with its fraction. -/
def gridPeriod (s : State) : Nat := s.rd Reg.TIME_GRID_PERIOD_NS * nsUnit + s.rd Reg.TIME_GRID_PERIOD_FRAC

/-- R49: grid point k. -/
def gridPoint (e t : Nat) (k : Int) : Int := e + k * t

/-- The index of the first grid point at or after an instant. -/
def gridIndexAtOrAfter (e t : Nat) (at_ : Int) : Int := if t = 0 then 0 else -(((e : Int) - at_) / (t : Int))

/-- The first grid point at or after an instant. -/
def firstGrid (s : State) (at_ : Nat) : Nat :=
  (gridPoint (gridEpoch s) (gridPeriod s) (gridIndexAtOrAfter (gridEpoch s) (gridPeriod s) at_)).toNat

/-- The index of the last grid point at or before an instant. -/
def gridIndexAtOrBefore (s : State) (at_ : Nat) : Int :=
  if gridPeriod s = 0 then 0 else ((at_ : Int) - (gridEpoch s : Int)) / (gridPeriod s : Int)

/-- R51: the grid point a presentation time (whole ns) maps to. -/
def presentAt (s : State) (p : Nat) : Nat := firstGrid s ((p - 1) * nsUnit)

/-- F_GCK in kHz from FREQ_KHZ: outside 120,000 to 320,000 acts as the nearer limit. -/
def khzOf (v : Nat) : Nat := min 320000 (max 120000 v)

/-- F_GCK of R50, in kHz. -/
def gckKhz (s : State) : Nat := khzOf (s.rd Reg.CLK_GCK_CFG_FREQ_KHZ)

/-- 10^6 × 2^16: one GCLK is this many 2^-16 ns divided by FREQ_KHZ. -/
def gclkUnit : Nat := 1000000 * nsUnit

/-- The duration of n GCLK, rounded up to 2^-16 ns. -/
def gclkTime (s : State) (n : Nat) : Nat := (n * gclkUnit + (gckKhz s - 1)) / gckKhz s

/-- R50: the first GCLK edge at or after an instant, rounded up to 2^-16 ns. -/
def gclkEdge (s : State) (at_ : Nat) : Nat :=
  let e := gridEpoch s
  let n : Int := -(-(((at_ : Int) - e) * gckKhz s) / (gclkUnit : Int))
  (e + -(-(n * gclkUnit) / (gckKhz s : Int))).toNat

/-- N_SUB of a GREY_SEG code (R108). -/
def nSubOf (c : Nat) : Nat := 16 * 2 ^ c

/-- S_SEG of a GREY_SEG code (R108). -/
def sSegOf (c : Nat) : Nat := 128 * 2 ^ c

/-- The scan geometry of R125. -/
structure Geom where
  lines : Nat
  tBlank : Nat
  subPad : Nat
  nSub : Nat
  sSeg : Nat
  probe : Nat
  deriving DecidableEq, Repr

/-- The geometry in the values a reader gives (in force, or those a castle would apply). -/
def geomOf (rd : Fld → Nat) : Geom where
  lines := rd Reg.SCAN_GEOM_LINES
  tBlank := max 8 (rd Reg.SCAN_GEOM_T_BLANK)
  subPad := rd Reg.SCAN_GEOM_SUB_PAD
  nSub := nSubOf (rd Reg.GREY_SEG_NSUB)
  sSeg := sSegOf (rd Reg.GREY_SEG_SSEG)
  probe := rd Reg.CENSUS_CFG_PROBE_SLOT

/-- The geometry in force. -/
def State.geom (s : State) : Geom := geomOf s.rd

/-- T_SLOT of R125, in GCLK. -/
def Geom.tSlot (g : Geom) : Nat := g.sSeg + g.tBlank
/-- T_SUB of R125, in GCLK. -/
def Geom.tSub (g : Geom) : Nat := (g.lines + g.subPad) * g.tSlot
/-- T_ACT of R125, in GCLK. -/
def Geom.tAct (g : Geom) : Nat := (g.nSub + g.probe) * g.tSub

/-- T_VB_MIN in µs from VB_MIN (R128 and the field's limits). -/
def vbMinUs (vb : Nat) : Nat := min 10000 (max vb 120)

/-- T_VB_MIN in force, in 2^-16 ns. -/
def State.tVbMin (s : State) : Nat := usec (vbMinUs (s.rd Reg.SCAN_VBLANK_VB_MIN))

/-- R129: whether a frame period fits a geometry, compared exactly. -/
def fits (g : Geom) (khz vbUs period : Nat) : Bool :=
  (g.tAct + 1) * gclkUnit + usec vbUs * khz ≤ period * khz && (g.nSub + g.probe) * 57604 * nsUnit ≤ period

/-- T_F_MIN of R129 for a geometry, rounded up to 2^-16 ns. -/
def tFMin (g : Geom) (khz vbUs : Nat) : Nat :=
  max (((g.tAct + 1) * gclkUnit + (khz - 1)) / khz + usec vbUs) ((g.nSub + g.probe) * 57604 * nsUnit)

/-- T_F_MIN in force. -/
def State.tFMin (s : State) : Nat := Machine.tFMin s.geom (gckKhz s) (vbMinUs (s.rd Reg.SCAN_VBLANK_VB_MIN))

/-- R55: the effective minimum frame period in READY and FOLLOW. FRAME_MIN and FRAME_MAX count µs. -/
def State.effMin (s : State) : Nat := max (usec (s.rd Reg.SCAN_FRAME_LIM_FRAME_MIN)) s.tFMin

/-- R55: FRAME_MAX, or the effective minimum when that is larger. -/
def State.effMax (s : State) : Nat := max (usec (s.rd Reg.SCAN_FRAME_LIM_FRAME_MAX)) s.effMin

/-- SCAN_MODE in force: 0 LOCKED, 1 READY, 2 FOLLOW; 3 acts as LOCKED (log entry 20). -/
def State.readyMode (s : State) : Bool := s.rd Reg.SCAN_MODE_MODE == 1

/-- T_F of R129 and R102: the grid period, or the effective minimum in READY mode. -/
def State.frameTime (s : State) : Nat := if s.readyMode then s.effMin else gridPeriod s

/-- The castling point of the current frame: frame start + T_ACT (R125). -/
def State.castlingAt (s : State) : Nat := (s.scan.frameStart + gclkTime s s.geom.tAct).toNat

/-- The frame start that follows an instant in LOCKED and FOLLOW: a grid point that no step or grid change has put off. -/
def State.nextGrid (s : State) (at_ : Nat) : Nat := firstGrid s (max at_ s.scan.notBefore)

/-- The scan engine is idle (R142): SCAN_STAT.STATE is IDLE or RELOCK. -/
def State.idle (s : State) : Bool := s.rd Reg.SCAN_STAT_STATE == 0 || s.rd Reg.SCAN_STAT_STATE == 3

/-- GCK is locked. -/
def State.gckOk (s : State) : Bool := s.rdB Reg.CLK_STAT_GCK_LOCK

/-- A SYS cycle, 2 ns, in 2^-16 ns. -/
def sysCycle : Nat := 2 * nsUnit

/-- The first SYS cycle at or after an instant. -/
def cycleAt (t : Nat) : Nat := (t + sysCycle - 1) / sysCycle * sysCycle

/-- R126: the first line-slot boundary at or after an instant: counted from the last frame start; while the scan engine is
idle every GCLK edge counts as one, and without GCK every SYS cycle. -/
def State.slotBoundary (s : State) (v : Nat) : Nat :=
  if !s.gckOk then cycleAt v
  else if s.idle then gclkEdge s v
  else
    let slot := s.geom.tSlot * gclkUnit
    (s.scan.frameStart + gclkTime s ((((v : Int) - s.scan.frameStart).toNat * gckKhz s + slot - 1) / max 1 slot * s.geom.tSlot)).toNat

/-- R54, R55: the first frame start at or after an instant that READY mode permits. -/
def State.readyStart (s : State) (v : Nat) : Nat :=
  s.slotBoundary (max (max v s.scan.notBefore) (if s.idle then 0 else (s.scan.frameStart + s.effMin).toNat))

/-- BRACE in force (R463). -/
def State.brace (s : State) : Bool := s.rdB Reg.SYS_STATE_BRACE

/-- The control core is restarting, halted or unpowered. -/
def State.coreDown (s : State) : Bool := s.rdB Reg.SYS_STATE_CORE_DOWN

end Sys2Proof.Machine
end

