-- ==== Sys2Proof/Machine/Floor.lean ====
section
/-! DEFINITION. Service floors (R15, R17 to R19, R24), and the passing of time, in which FLOOR rises. -/
namespace Sys2Proof.Machine

/-- R400: the unit is strap-owned. -/
def State.swStrap (s : State) (n : Nat) : Bool := 6 ≤ n && s.pwr.strapped.getLsbD (n - 6)

/-- R15: the board counts as using SPWM-driven converters. -/
def State.usesConverters (s : State) : Bool :=
  s.rdB (Reg.LOOP_EN 0) || s.rdB (Reg.LOOP_EN 1) || s.swStrap 6 || s.swStrap 7 ||
    (maskIdx 8 (s.rd Reg.SYS_ROOK_CFG_SUP_CRIT)).any fun n => s.rdB (Reg.SPWM_CTRL_EN n)

/-- R18: the units that drive converters have their clock: SPW runs while an SPWM unit is enabled (Table 17.4). -/
def State.supClocked (s : State) : Bool :=
  s.powered 5 && (s.rdB Reg.SPWM_GSTAT_CLK_RUN || !(List.range 8).any fun n => s.rdB (Reg.SPWM_CTRL_EN n))

/-- R18, R104: the highest floor whose units an uncorrectable FCM word at an offset leaves working, by the block that reads it:
frame boards and transfer tables serve streams, the calibration bank and the placement table in use, the grey planes, the
motif layer and the fallback definitions serve every look, and the other regions no floor (DEDUCED, log entry 118). -/
def State.floorOfWord (s : State) (o : Nat) : Nat :=
  let within := fun lo n => decide (lo ≤ o ∧ o < lo + n)
  let bank := s.rd Reg.PIPE_CAL_CFG_BANK
  if within 0 (fcmCal 0) || within (fcmXfer 0) 131072 then 1
  else if (s.rdB Reg.PIPE_CAL_CFG_EN && within (fcmCal bank) fcmCalSize) || (s.rdB Reg.PIPE_CFG_LAYOUT && within fcmPlace 65536) ||
      within (fcmPlane 0) (2 * fcmPlaneSize) || within fcmMotifLayer 98304 || within 0x12E000 4096 || within 0x130000 256 then 0
  else 3

/-- R18: the floor that the uncorrected faults of the FCM leave. An uncorrectable word of the PKB, the coverage RAM or the census RAM
is no fault of a unit: Table 18.2 gives it an effect of its own (DESIGN CHOICE, log entry 156). -/
def State.floorOfFaults (s : State) : Nat :=
  (s.badWords.filter fun e => e.1 == 0).foldl (fun f e => min f (s.floorOfWord (4 * e.2))) 3

/-- Table 1.5, by power, link and clock (R18). A valid Seal is in force in READY, ARMED and FALLBACK. Of faults it counts IREF_FAULT;
a latched SPWM trip of a unit that drives converters is not counted as an uncorrected fault of SUP (DESIGN CHOICE, log entry
128). -/
def State.floorOfUnits (s : State) : Nat :=
  let st := s.rd Reg.SYS_STATE_STATE
  if !(st == 4 || st == 5 || st == 6) || s.rdB Reg.SYS_STATE_DARK_SAFE || !s.powered 2 || !s.powered 3 || !s.gckOk ||
      s.rdB Reg.SINK_STAT_IREF_FAULT || (s.usesConverters && !s.supClocked) then 0
  else if !s.powered 0 || !(List.range 6).any (fun p => s.rdB (Reg.LINK_STAT_UP p)) then 1
  else if !s.powered 1 || s.coreDown then 2
  else 3

/-- Table 1.5: the floor whose units all work now. Venue Time counts as working whatever the state of its servo: Table 1.5 asks for
it on Floor 2 with 'holdover acceptable' and says nothing of FREE and ACQUIRE (DESIGN CHOICE, log entry 102). -/
def State.floorNow (s : State) : Nat := min s.floorOfUnits s.floorOfFaults

/-- R18: SYS_STATE.FLOOR. -/
def State.floor (s : State) : Nat := min s.time.floor s.floorNow

/-- R19: FLOOR falls at the instant a required unit stops working. -/
def State.floorFall (s : State) : State := { s with time := { s.time with floor := s.floor } }

/-- R19: between VT instants `a` and `b` lies a grid point: FLOOR is then that of the units that work. -/
def State.floorAcross (s : State) (a b : Nat) : Nat :=
  if gridIndexAtOrBefore s a < gridIndexAtOrBefore s b then s.floorNow else s.floor

/-- Table 18.3: a frozen pawn executes nothing. -/
def State.pawnFrozen (s : State) : Bool := s.rdB Reg.SYS_DBG_HALTED && s.rdB Reg.SYS_DBG_PAWN_FRZ

/-- R354: the rate accumulators of the running pawns after some SYS cycles; those of frozen pawns are held. -/
def State.pawnsRun (s : State) (cycles : Nat) : List (Nat × PawnSt) :=
  if s.pawnFrozen then s.pawns else
    s.pawns.map fun (e : Nat × PawnSt) =>
      let r := s.rd (Reg.PAWN_CFG_RATE e.1)
      (e.1, if e.2.run then { e.2 with acc := (e.2.acc + cycles * if r = 0 then 2 ^ 24 else r) % 2 ^ 24 } else e.2)

/-- Bring the clock to the VT instant at which a command happens; an instant already past leaves it (log entry 11). A grid
point on the way lets FLOOR rise (R19), and the pawns' rate accumulators run (R354). -/
def State.clockTo (s : State) (t : Vt) : State :=
  let u := s.time.uptime + (t.toNat - s.now)
  { s with time := { s.time with vt := t, uptime := u, floor := s.floorAcross s.now t.toNat }
           pawns := s.pawnsRun (u / sysCycle - s.time.uptime / sysCycle) }

/-- The clock at the instant of a command, in a new SYS cycle where the last one has ended (R500). -/
def State.elapseTo (s : State) (t : Vt) : State :=
  if s.now < t.toNat then
    let c := s.clockTo t
    if c.time.uptime / sysCycle = s.time.uptime / sysCycle then c
    else c.newCycle (c.time.uptime / sysCycle - s.time.uptime / sysCycle)
  else s

end Sys2Proof.Machine
end

