-- ==== Sys2Proof/Machine/Grey.lean ====
section
/-! DEFINITION. The grey engine (chapter 04): from a 20-bit code to a grey-plane word, and from the word to pieces. -/
namespace Sys2Proof.Machine

/-- The castled values the grey engine works from. -/
structure GreyCfg where
  nSub : Nat
  sSeg : Nat
  minPulse : Nat
  assistEn : Bool
  /-- A of R114: 4 or 16. -/
  factor : Nat
  limit : Nat
  dither : Bool
  seed : Nat
  deriving DecidableEq, Repr

/-- MIN_PULSE; 0 acts as 1 (Table 4.4). -/
def minPulseOf (v : Nat) : Nat := max 1 v

/-- The grey configuration in force. -/
def State.greyCfg (s : State) : GreyCfg where
  nSub := nSubOf (s.rd Reg.GREY_SEG_NSUB)
  sSeg := sSegOf (s.rd Reg.GREY_SEG_SSEG)
  minPulse := minPulseOf (s.rd Reg.GREY_MINPULSE_MIN_PULSE)
  assistEn := s.rdB Reg.GREY_ASSIST_EN
  factor := if s.rdB Reg.GREY_ASSIST_FACTOR then 16 else 4
  limit := s.rd Reg.GREY_ASSIST_LIMIT
  dither := s.rdB Reg.GREY_DITHER_EN
  seed := s.rd Reg.GREY_DITHER_SEED

/-- R108: the time capacity C. -/
def GreyCfg.cap (c : GreyCfg) : Nat := c.nSub * c.sSeg

/-- R113: the effective resolution in bits. -/
def GreyCfg.res (c : GreyCfg) : Nat := Nat.log2 c.cap + (if c.dither then 4 else 0)

/-- Reverse the low `n` bits of `k`. -/
def bitrev : Nat → Nat → Nat
  | 0, _ => 0
  | n + 1, k => k % 2 * 2 ^ n + bitrev n (k / 2)

/-- Table 4.2: DSEQ is the 4-bit bit reversal of its index. -/
def dseq (i : Nat) : Nat := bitrev 4 (i % 16)

/-- R110: the dither phase of emitter e = l × 384 + n. -/
def ditherPhase (seed e : Nat) : Nat := (7 * (e % 384) + e % 384 / 16 + 11 * (e / 384) + seed) % 16

/-- R109: T and d of a code. -/
def litTime (c : GreyCfg) (g : Nat) : Nat × Nat := (g * c.cap / 2 ^ 20, g * c.cap / 2 ^ 16 % 16)

/-- R110, R111: the lit time T′ of a frame with dither index f. -/
def litTime' (c : GreyCfg) (f e g : Nat) : Nat :=
  let (t, d) := litTime c g
  if c.dither && d > dseq ((f + ditherPhase c.seed e) % 16) then t + 1 else t

/-- A grey-plane word (Table 4.3). MODE: 0 NORMAL, 1 ASSIST_4, 2 ASSIST_16, 3 DENSITY. -/
structure GreyWord where
  tot : Nat
  mode : Nat
  acc : Nat
  deriving DecidableEq, Repr

/-- R114: the path of an emitter with code g, lit time t′ and accumulator acc. -/
def greyPath (c : GreyCfg) (g t acc : Nat) : GreyWord :=
  if g = 0 then ⟨0, 0, 0⟩
  else if t = 0 then ⟨0, 0, acc⟩
  else if c.assistEn && t < c.limit && c.minPulse ≤ t * c.factor && t * c.factor ≤ c.cap then
    ⟨t * c.factor, if c.factor = 4 then 1 else 2, acc⟩
  else if t < c.minPulse then
    if acc + t ≥ c.minPulse then ⟨c.minPulse, 3, acc + t - c.minPulse⟩ else ⟨0, 3, acc + t⟩
  else ⟨t, 0, acc⟩

/-- Table 4.3: the 32-bit word. -/
def GreyWord.pack (w : GreyWord) : Nat := w.tot % 2 ^ 17 + w.mode % 4 * 2 ^ 17 + w.acc % 64 * 2 ^ 20

/-- Table 4.3: the fields of a 32-bit word. -/
def greyUnpack (v : Nat) : GreyWord := ⟨v % 2 ^ 17, v / 2 ^ 17 % 4, v / 2 ^ 20 % 64⟩

/-- R118: n, the number of subframes that carry a pulse. -/
def pieceCount (nSub sSeg minPulse : Nat) (w : GreyWord) : Nat :=
  if w.mode = 0 then max 1 (min nSub (w.tot / minPulse))
  else if w.mode = 1 ∨ w.mode = 2 then (w.tot + sSeg - 1) / sSeg
  else 1

/-- R118: the length of the piece of subframe k. -/
def piece (nSub sSeg minPulse : Nat) (w : GreyWord) (k : Nat) : Nat :=
  let n := pieceCount nSub sSeg minPulse w
  let j := bitrev (Nat.log2 nSub) k
  if w.tot = 0 ∨ j ≥ n then 0
  else w.tot / n + (if j < w.tot % n then 1 else 0)

/-- L_max of "Census observability": the longest piece of a frame. -/
def longestPiece (nSub sSeg minPulse : Nat) (w : GreyWord) : Nat :=
  let n := pieceCount nSub sSeg minPulse w
  if w.tot = 0 then 0 else w.tot / n + (if w.tot % n > 0 then 1 else 0)

/-- R120: where a piece of length q of a bank starts in its segment. -/
def pieceStart (stagger sSeg q : Nat) : Nat := min stagger (sSeg - q)

/-- GREY_STAGGER.Sb of a bank. -/
def State.stagger (s : State) (bank : Nat) : Nat := bitsOf (s.reg Reg.GREY_STAGGER_S0.addr) (3 * bank) 3

/-- The word of an emitter in a grey plane. -/
def State.greyWord (s : State) (plane e : Nat) : GreyWord := greyUnpack (s.fcm32 (fcmPlane plane + 4 * e))

/-- GREY_STAT.CAP and RES follow the values in force (R108, R113). -/
def State.greyStat (s : State) : State :=
  (s.wr Reg.GREY_STAT_CAP s.greyCfg.cap).wr Reg.GREY_STAT_RES s.greyCfg.res

/-- R132: the line slot j switches on. The TABLE order reads SCAN_ORDER entry j. -/
def interleave (m lines j : Nat) : Nat :=
  (((List.range m).flatMap fun r => (List.range lines).filter fun l => l % m == r).getD j 0)

/-- SCAN_ORDER entry j, by a reader of words. -/
def orderEntry (word : Nat → Word) (j : Nat) : Nat := bitsOf (word (0x90100 + j / 4 * 4)) (8 * (j % 4)) 7

/-- R132: ORD(j). -/
def State.ord (s : State) (j : Nat) : Nat :=
  match s.rd Reg.SCAN_GEOM_ORDER with
  | 0 => j
  | 1 => interleave 2 s.geom.lines j
  | 2 => interleave 4 s.geom.lines j
  | _ => orderEntry s.reg j

end Sys2Proof.Machine
end

