-- ==== Sys2Proof/Machine/Sinks.lean ====
section
/-! DEFINITION. Current sinks, board temperature and foldback (chapter 06). Currents are exact: one unit is
24 mA / 2^28, so that I_eff is an integer. Temperatures are in 1/256 °C inside, 1/16 °C in registers. -/
namespace Sys2Proof.Machine

/-- R157, R164: the channel current I_ch × FF / 1,024 in units of 24 mA / 2^28. -/
def currentUnits (gcs range cg ff : Nat) : Nat := (gcs + 1) * (if range = 1 then 8 else 1) * (cg + 1) * ff

/-- CG of channel n (SINK_CG). -/
def State.cg (s : State) (n : Nat) : Nat := bitsOf (s.reg (0xA0100 + n / 4 * 4)) (8 * (n % 4)) 8

/-- I_eff of channel n with foldback factor ff, in units of 24 mA / 2^28. -/
def State.iEff (s : State) (ff n : Nat) : Nat :=
  currentUnits (s.rd (Reg.SINK_BANK_GCS_GCS (n / 64))) (s.rd (Reg.SINK_BANK_GCS_RANGE (n / 64))) (s.cg n) ff

/-- The rail of channel n: false R (LOOP0), true GB (LOOP1) (R166). -/
def State.railGB (s : State) (n : Nat) : Bool := bitAt (s.reg (0xA0280 + n / 32 * 4)).toNat (n % 32)

/-- SINK_BUDGET.BUDGET_MA; above 6,000 acts as 6,000 (R165). -/
def State.budget (s : State) : Nat := min 6000 (s.rd Reg.SINK_BUDGET_BUDGET_MA)

/-- R163: the channel's bank may conduct. -/
def State.bankOn (s : State) (n : Nat) : Bool := bitAt (s.rd Reg.SINK_CTRL_BANK_EN) (n / 64)

/-- The sinks are held off: IREF faulty or not yet resumed (R159), FF 0 (R182), or the dark-safe state (R493). -/
def State.sinksOff (s : State) : Bool :=
  s.rdB Reg.SINK_STAT_IREF_FAULT || s.sink.irefOff || s.sink.ffScan == 0 || s.rdB Reg.SYS_STATE_DARK_SAFE

/-- R18, R159: the IREF current leaves 80 µA to 120 µA, or returns within it. -/
def execIrefFault (microamps : Nat) (s : State) : Host.Outcome State Fault Refusal :=
  .next (if microamps < 80 || 120 < microamps then
      { (s.wr Reg.SINK_STAT_IREF_FAULT 1) with sink := { s.sink with irefOff := true } }.floorFall
    else s.wr Reg.SINK_STAT_IREF_FAULT 0)

/-- R166: headroom sample point; below 16 acts as 16. -/
def State.hrDelay (s : State) : Nat := max 16 (s.rd Reg.SINK_HR_CFG_DELAY)

/-- R166: the comparator target of a channel in mV; TARGET fields are limited to 20 to 100. -/
def State.hrTarget (s : State) (n : Nat) : Nat :=
  10 * min 100 (max 20 (if s.railGB n then s.rd Reg.SINK_HR_CFG_TARGET_GB else s.rd Reg.SINK_HR_CFG_TARGET_R))

/-- R167: add one headroom sample of channel n. -/
def State.hrAdd (s : State) (n : Nat) (low : Bool) : State :=
  let i := 2 * (n / 64) + (if s.railGB n then 1 else 0)
  let (c, l) := tabGet (0, 0) s.sink.hr i
  { s with sink := { s.sink with hr := tabSet (0, 0) s.sink.hr i (c + 1, l + if low then 1 else 0) } }

/-- ⌊1,024 × low / samples⌋ of R167; 0 where the window held no sample (DESIGN CHOICE, log entry 146). -/
def hrFrac (c : Nat × Nat) : Nat := if c.1 = 0 then 0 else 1024 * c.2 / c.1

/-- R167: the statistics of one bank at a castling point. -/
def State.hrBank (s : State) (b : Nat) : State :=
  let r := tabGet (0, 0) s.sink.hr (2 * b)
  let g := tabGet (0, 0) s.sink.hr (2 * b + 1)
  (((s.wr (Reg.SINK_HR_STAT_FRAC_R b) (hrFrac r)).wr (Reg.SINK_HR_STAT_FRAC_GB b) (hrFrac g)).wrB
    (Reg.SINK_HR_STAT_VALID_R b) (64 ≤ r.1)).wrB (Reg.SINK_HR_STAT_VALID_GB b) (64 ≤ g.1)

/-- R167: at the castling point the statistics are set and the counts restart. -/
def State.hrClose (s : State) : State :=
  let s := (List.range 6).foldl State.hrBank s
  { s with sink := { s.sink with hr := [] } }

/-- R168: the largest FRAC over the valid banks of a rail. -/
def State.hrWorst (s : State) (gb : Bool) : Option Nat :=
  (List.range 6).foldl (fun acc b =>
    let valid := if gb then s.rdB (Reg.SINK_HR_STAT_VALID_GB b) else s.rdB (Reg.SINK_HR_STAT_VALID_R b)
    let f := if gb then s.rd (Reg.SINK_HR_STAT_FRAC_GB b) else s.rd (Reg.SINK_HR_STAT_FRAC_R b)
    if valid then some (max (acc.getD 0) f) else acc) none

/-- R168, R169: loop i updates its set-point at a castling point. -/
def State.loopUpdate (s : State) (i : Nat) : State :=
  if !s.rdB (Reg.LOOP_EN i) then s else
    let v := s.rd (Reg.LOOP_V_SET i)
    match s.hrWorst (i == 1) with
    | none => s.wr (Reg.LOOP_AT_MAX i) 0
    | some w =>
      if w > s.rd (Reg.LOOP_RAISE_FRAC i) then
        if v == s.rd (Reg.LOOP_V_MAX i) then
          let s' := s.wr (Reg.LOOP_AT_MAX i) 1
          if s.rdB (Reg.LOOP_AT_MAX i) then s' else s'.raise Ev.HEADROOM_LOW i
        else (s.wr (Reg.LOOP_V_SET i) (min (v + s.rd (Reg.LOOP_STEP_UP i)) (s.rd (Reg.LOOP_V_MAX i)))).wr
          (Reg.LOOP_AT_MAX i) 0
      else if w = 0 then
        (s.wr (Reg.LOOP_V_SET i) (max (v - s.rd (Reg.LOOP_STEP_DN i)) (s.rd (Reg.LOOP_V_MIN i)))).wr
          (Reg.LOOP_AT_MAX i) 0
      else s.wr (Reg.LOOP_AT_MAX i) 0

/-- A loop's reset record. -/
def loopReset : LoopSt := ⟨0, 0, 0, 0⟩

/-- R173: the scan engine leaves idle: each enabled loop starts from V_START with acc cleared. -/
def State.loopsStart (s : State) : State :=
  (List.range 2).foldl (fun s i =>
    if s.rdB (Reg.LOOP_EN i) then
      let s := s.wr (Reg.LOOP_V_SET i) (s.rd (Reg.LOOP_V_START i))
      let l := tabGet loopReset s.sink.loops i
      { s with sink := { s.sink with loops := tabSet loopReset s.sink.loops i { l with acc := 0 } } }
    else s) s

/-! ## Board temperature (R177 to R180) -/

/-- Entry j of an NTC table, signed 1/16 °C; entry 16 stands in word 8. -/
def State.ntcEntry (s : State) (b : Bool) (j : Nat) : Int :=
  signed 16 (bitsOf (s.reg ((if b then 0xA0380 else 0xA0340) + j / 2 * 4)) (16 * (j % 2)) 16)

/-- R177, R178: an NTC code as a temperature in 1/256 °C, interpolated and rounded toward minus infinity. -/
def State.ntcTemp (s : State) (b : Bool) (code : Nat) : Int :=
  let j := code / 256
  let lo := s.ntcEntry b j * 16
  let hi := s.ntcEntry b (j + 1) * 16
  lo + (hi - lo) * (code % 256 : Nat) / 256

/-- SINK_TB_CFG.SRC; 6 and 7 act as 0. -/
def State.tbSrc (s : State) : Nat := let v := s.rd Reg.SINK_TB_CFG_SRC; if v ≤ 5 then v else 0

/-- R180: whether the source uses THA, THB. -/
def usesA (src : Nat) : Bool := src == 1 || src == 3 || src == 4
def usesB (src : Nat) : Bool := src == 2 || src == 3 || src == 4

/-- R180: an NTC code that shows an open or shorted thermistor. -/
def ntcFaulty (code : Nat) : Bool := 4080 ≤ code || code ≤ 16

/-- R180: set a fault bit, raising EV_THERM_SENSOR at a change to faulty. -/
def State.thermFault (s : State) (f : Fld) (input : Nat) (bad : Bool) : State :=
  let was := s.rdB f
  let s := s.wrB f bad
  if bad && !was then s.raise Ev.THERM_SENSOR input else s

/-- A thermal input: it has given no sample yet, it is faulty, or it has a temperature in 1/256 °C. -/
inductive ThermIn where
  | unsampled | faulty
  | at (t : Int)
  deriving DecidableEq, Repr

/-- R178, R180: the inputs give T_B's sample and the source USED: the remaining input of MAX and MEAN, DIE when none remains, and
nothing before the first sample. -/
def tbInput (src : Nat) (die : Option Int) (a b p : ThermIn) : Option (Int × Nat) :=
  let d := die.map fun t => (t, 0)
  let one := fun (x : ThermIn) (used : Nat) => match x with
    | .at t => some (t, used)
    | .faulty => d
    | .unsampled => none
  match src with
  | 1 => one a 1
  | 2 => one b 2
  | 5 => one p 5
  | 0 => d
  | _ => match a, b with
    | .at x, .at y => some (if src = 3 then (max x y, 3) else ((x + y) / 2, 4))
    | .at x, .faulty => some (x, 1)
    | .faulty, .at y => some (y, 2)
    | .faulty, .faulty => d
    | _, _ => none

/-- SINK_TB_CFG.STALE in 2^-16 ns; 0 acts as 1. -/
def State.staleTime (s : State) : Nat := msec (100 * max 1 (s.rd Reg.SINK_TB_CFG_STALE))

/-- Die temperature minus DIE_OFFSET, in 1/256 °C, once channel 5 has been converted (R178). -/
def State.dieTemp (s : State) : Option Int :=
  if s.rdB (Reg.ADC_DATA_VALID 5) then some (signed 16 (s.rd Reg.SINK_DIE_TJ) * 16 - (s.rd Reg.SINK_TB_CFG_DIE_OFFSET : Int) * 256)
  else none

/-- R177, R180: what THA (ADC channel 2) or THB (3) gives. -/
def State.ntcIn (s : State) (b : Bool) : ThermIn :=
  let c := if b then 3 else 2
  let code := s.rd (Reg.ADC_DATA_CODE c)
  if !s.rdB (Reg.ADC_DATA_VALID c) then .unsampled else if ntcFaulty code then .faulty else .at (s.ntcTemp b code)

/-- R179, R180: what the PAWN source gives. -/
def State.pawnIn (s : State) : ThermIn :=
  if s.rdB Reg.SINK_TB_STAT_FAULT_P then .faulty else match s.sink.tP with
    | some t => .at t
    | none => .unsampled

/-- The temperature an input gives. -/
def ThermIn.temp : ThermIn → Option Int
  | .at t => some t
  | _ => none

/-- SUP is powered: the ADC runs (R14). -/
def State.supOn (s : State) : Bool := s.rdB ⟨Reg.PWR_DOMAIN_STAT.addr, 13, 1⟩

/-- R178: the 1 ms board-temperature sample, from the last conversions. While SUP is lost T_B holds, under SRC = PAWN too (DESIGN CHOICE,
log entry 165), and while a warning on VDDA lasts (R464). -/
def execTbSample (s : State) : Host.Outcome State Fault Refusal :=
  .next (if !s.supOn || s.sink.hold then s else
    let src := s.tbSrc
    let a := if usesA src then s.ntcIn false else .unsampled
    let b := if usesB src then s.ntcIn true else .unsampled
    let s := s.thermFault Reg.SINK_TB_STAT_FAULT_A 0 (a == .faulty)
    let s := s.thermFault Reg.SINK_TB_STAT_FAULT_B 1 (b == .faulty)
    match tbInput src s.dieTemp a b s.pawnIn with
    | none => s
    | some (t, used) =>
      let tb := match s.sink.tb with
        | none => t
        | some x => x + (t - x) / 8
      let s := { s with sink := { s.sink with tb := some tb, tA := a.temp, tB := b.temp } }
      (s.wr Reg.SINK_TB_STAT_USED used).wr Reg.SINK_TB_STAT_TB (saturate 16 (tb / 16)))

/-- R180: at an instant, no valid word of the PAWN source for STALE × 100 ms. -/
def execTbPawnStale (at_ : Vt) (s : State) : Host.Outcome State Fault Refusal :=
  let s := s.elapseTo at_
  .next (if s.tbSrc == 5 && s.sink.pawnAt + s.staleTime ≤ s.time.uptime then s.thermFault Reg.SINK_TB_STAT_FAULT_P 2 true else s)

/-- R180: the fault bits of inputs that the source does not use read 0. -/
def State.tbUnused (s : State) : State :=
  let clear := fun (s : State) (used : Bool) (f : Fld) => if used then s else s.wr f 0
  clear (clear (clear s (usesA s.tbSrc) Reg.SINK_TB_STAT_FAULT_A) (usesB s.tbSrc) Reg.SINK_TB_STAT_FAULT_B) (s.tbSrc == 5)
    Reg.SINK_TB_STAT_FAULT_P

/-- R179: a word the named pawn stores: with bit [16] set it carries a temperature in 1/16 °C. -/
def State.tbPawnWord (s : State) (w : Word) : State :=
  if bitsOf w 16 1 = 1 then
    let s := { s with sink := { s.sink with tP := some (signed 16 w.toNat * 16), pawnAt := s.time.uptime } }
    s.wr Reg.SINK_TB_STAT_FAULT_P 0
  else s

/-- R175: a conversion of ADC channel c gives a code. The temperature that a code of channel 5 stands for is not stated:
SINK_DIE.TJ takes a free value (log entry 13). -/
def execAdcConversion (c : Fin 6) (code : BitVec 12) (s : State) : Host.Outcome State Fault Refusal :=
  .next (if !s.supOn || (s.sink.hold && c.val < 5) then s
    else
      let s := (s.wr (Reg.ADC_DATA_CODE c.val) code.toNat).wr (Reg.ADC_DATA_VALID c.val) 1
      if c.val = 5 then
        let (v, s) := s.draw
        s.wr Reg.SINK_DIE_TJ v
      else s)

/-- T_B as reported, in 1/16 °C. -/
def State.tb16 (s : State) : Int := signed 16 (s.rd Reg.SINK_TB_STAT_TB)

/-- R181: the foldback factor of a board temperature; temperatures in 1/16 °C. -/
def foldFactor (tb tFold tCut : Int) (floor_ : Nat) : Nat :=
  if tb ≤ tFold then 1024
  else if tb < tCut then (1024 - (1024 - (floor_ : Int)) * (tb - tFold) / (tCut - tFold)).toNat
  else 0

/-- R181 to R183: FF and STATE at a castling point. While SUP is lost they hold (R14). -/
def State.foldStep (s : State) : State :=
  if !s.supOn then s else
    let tFold := signed 8 (s.rd Reg.SINK_FOLD_T_FOLD) * 16
    let tCut := signed 8 (s.rd Reg.SINK_FOLD_T_CUT) * 16
    let hyst : Int := (max 1 (s.rd Reg.SINK_FOLD_HYST) : Nat) * 16
    let en := s.rdB Reg.SINK_FOLD_EN
    let held := en && s.sink.cut && !(s.tb16 ≤ tCut - hyst)
    let ff := if !en then 1024 else if held then 0 else foldFactor s.tb16 tFold tCut (s.rd Reg.SINK_FOLD_FLOOR)
    let st := if ff = 1024 then 0 else if ff = 0 then 2 else 1
    let old := s.rd Reg.SINK_FOLD_STAT_STATE
    let s := (s.wr Reg.SINK_FOLD_STAT_FF ff).wr Reg.SINK_FOLD_STAT_STATE st
    let s := { s with sink := { s.sink with cut := ff == 0 } }
    if st != old then s.raise Ev.THERM_FOLD st else s

/-- R182: EN = 0 ends the latch at FF 0, wherever a castle applies it. -/
def State.foldOff (s : State) : State :=
  if s.rdB Reg.SINK_FOLD_EN then s else { s with sink := { s.sink with cut := false } }

/-- R184: SINK_FOLD values a castle may apply. -/
def foldOk (w : Word) : Bool :=
  let f := signed 8 (bitsOf w 0 8)
  let c := signed 8 (bitsOf w 8 8)
  f < c && -40 ≤ f && f ≤ 120 && -40 ≤ c && c ≤ 120

/-! ## The thermal colour matrix (R100) -/

/-- Breakpoint b in °C, through a reader of words. -/
def breakpoint (word : Nat → Word) (b : Nat) : Int := signed 8 (bitsOf (word (0x70044 + b / 4 * 4)) (8 * (b % 4)) 8)

/-- R100: breakpoints strictly ascending from −40 °C to +120 °C. -/
def breakpointsOk (word : Nat → Word) : Bool :=
  (List.range 8).all (fun b => -40 ≤ breakpoint word b && breakpoint word b ≤ 120) &&
  (List.range 7).all (fun b => breakpoint word b < breakpoint word (b + 1))

/-- Coefficient i (0 to 8, row by row) of matrix b. -/
def State.thermCoef (s : State) (b i : Nat) : Int :=
  signed 16 (bitsOf (s.reg (0x70100 + 0x20 * b + i / 2 * 4)) (16 * (i % 2)) 16)

/-- R100: interpolation rounded to the nearest multiple of 2^-14, halves toward +∞. -/
def matMix (a b num den : Int) : Int := a + ((b - a) * num * 2 + den) / (2 * den)

/-- R100: the lower breakpoint index in use; 6 also at or above breakpoint 7 (DESIGN CHOICE, log entry 147). -/
def State.thermSeg (s : State) (tb : Int) : Nat :=
  (List.range 7).foldl (fun acc b => if breakpoint s.reg b * 16 ≤ tb then b else acc) 0

/-- R100: sample T_B and form the matrix at a castling point; held while SUP is lost. -/
def State.thermStep (s : State) : State :=
  if !s.supOn then s else
    let tb := s.tb16
    let b := s.thermSeg tb
    let m := if tb ≤ breakpoint s.reg 0 * 16 then (List.range 9).map (s.thermCoef 0)
      else if breakpoint s.reg 7 * 16 ≤ tb then (List.range 9).map (s.thermCoef 7)
      else (List.range 9).map fun i => matMix (s.thermCoef b i) (s.thermCoef (b + 1) i)
        (tb - breakpoint s.reg b * 16) ((breakpoint s.reg (b + 1) - breakpoint s.reg b) * 16)
    let s := { s with pipe := { s.pipe with matrix := m } }
    (s.wr Reg.PIPE_THERM_STAT_TB (s.rd Reg.SINK_TB_STAT_TB)).wr Reg.PIPE_THERM_STAT_SEG b

end Sys2Proof.Machine
end

