-- ==== Sys2Proof/Machine/Census.lean ====
section
/-! DEFINITION. The lamp census and the function groups (chapter 07). -/
namespace Sys2Proof.Machine

/-- An emitter's record after CLEAR: no observation, run 0, age 0 (R194). -/
def censusReset : CensusRec := ⟨0, 0, 0⟩

/-- CONFIRM_N and PROBE_AFTER; 0 acts as 1. MEAS_DELAY below 16 acts as 16. -/
def State.confirmN (s : State) : Nat := max 1 (s.rd Reg.CENSUS_CFG_CONFIRM_N)
def State.probeAfter (s : State) : Nat := max 1 (s.rd Reg.CENSUS_CFG_PROBE_AFTER)
def State.measDelay (s : State) : Nat := max 16 (s.rd Reg.CENSUS_CFG_MEAS_DELAY)

/-- R189: VSHORT of a bank in mV; outside 0.5 V to 5.0 V it acts as the nearer limit. -/
def State.vShort (s : State) (b : Nat) : Nat :=
  100 * min 50 (max 5 (bitsOf (s.reg (if b < 4 then 0xB0004 else 0xB0008)) (8 * (b % 4)) 6))

/-- R189: a sample of VCOL in mV: 1 OK, 2 OPEN, 3 SHORT. -/
def State.sampleKind (s : State) (channel vcol : Nat) : Nat :=
  if vcol < 80 then 2 else if s.vShort (channel / 64) ≤ vcol then 3 else 1

/-- R194: the map state of an emitter: 0 UNSEEN, 1 OK, 2 OPEN, 3 SHORT. -/
def State.mapState (s : State) (e : Nat) : Nat := (s.fcmByte (fcmCensus + e / 4)).toNat / 4 ^ (e % 4) % 4

/-- The map counts CENSUS_COUNT keeps: a change of one entry from one state to another. -/
def State.countChange (s : State) (old new : Nat) : State :=
  let adj := fun (s : State) (f : Fld) (st : Nat) =>
    s.wr f (s.rd f + (if new = st then 1 else 0) - (if old = st then 1 else 0))
  adj (adj (adj s Reg.CENSUS_COUNT0_OPEN 2) Reg.CENSUS_COUNT0_SHORT 3) Reg.CENSUS_COUNT1_UNSEEN 0

/-- R194: set the map state of an emitter. -/
def State.setMapState (s : State) (e st : Nat) : State :=
  let o := fcmCensus + e / 4
  let b := (s.fcmByte o).toNat
  let sh := 4 ^ (e % 4)
  let old := b / sh % 4
  let s := s.writeFcm o 1 fun _ => BitVec.ofNat 8 (b - old * sh + st % 4 * sh)
  if old = st then s else s.countChange old st

/-- R316: a change is one more to report, one for each emitter in a frame: from what its state was before the frame's first change to what
the last one made it. An emitter that is again what it was has not changed (DESIGN CHOICE, log entry 171). -/
def addChange (l : List MapChange) (c : MapChange) : List MapChange :=
  let same (d : MapChange) : Bool := d.frame == c.frame && d.emitter == c.emitter
  match l.find? same with
  | some d => if d.old = c.new then l.filter fun x => !same x else l.map fun x => if same x then { x with new := c.new } else x
  | none => l ++ [c]

/-- R193, R215: an emitter's map state becomes `st` in a frame; a change is one to report. -/
def State.mapChange (s : State) (e st frame shown : Nat) : State :=
  let old := s.mapState e
  if old = st then s else
    let s := s.setMapState e st
    { s with census := { s.census with changes := addChange s.census.changes ⟨e, old, st, frame, shown⟩ } }

/-- The census record of an emitter. -/
def State.cRec (s : State) (e : Nat) : CensusRec := tabGet censusReset s.census.recs e

/-- Replace the census record of an emitter. -/
def State.setCRec (s : State) (e : Nat) (r : CensusRec) : State :=
  { s with census := { s.census with recs := tabSet censusReset s.census.recs e r } }

/-! ## Groups -/

/-- A group's record. -/
def groupReset : GroupSt := ⟨0, 0, 0, [], []⟩
def State.grp (s : State) (g : Nat) : GroupSt := tabGet groupReset s.census.groups g
def State.setGrp (s : State) (g : Nat) (r : GroupSt) : State :=
  { s with census := { s.census with groups := tabSet groupReset s.census.groups g r } }

/-- CENSUS_GRP_g.STATE (Table 7.2). -/
def State.grpState (s : State) (g : Nat) : Nat := s.rd (Reg.CENSUS_GRP_STATE g)

/-- R200: the member-list entry i, at 0x0113_9000 + 2i. -/
def State.memberEntry (s : State) (i : Nat) : Nat := s.fcm16 (0x139000 + 2 * i)

/-- R200: the members of group g. -/
def State.members (s : State) (g : Nat) : List Nat :=
  (List.range (s.rd (Reg.CENSUS_GRP_COUNT g))).map fun i => s.memberEntry (s.rd (Reg.CENSUS_GRP_BASE g) + i)

/-- The groups that are not IDLE and hold an emitter. -/
def State.groupsOf (s : State) (e : Nat) : List Nat :=
  (List.range 64).filter fun g => s.grpState g != 0 && (s.members g).contains e

/-- R202, R212: an emitter is suppressed when a group that was dark at the last counted frame start held it then. -/
def State.suppressed (s : State) (e : Nat) : Bool := s.census.dark.contains e

/-- DARK_ALL. -/
def State.darkAll (s : State) (g : Nat) : Bool := s.rdB (Reg.CENSUS_GRP_POLICY g)

/-- Enter a group state, with the cause cleared; proof and group age begin anew. -/
def State.grpEnter (s : State) (g st : Nat) : State :=
  let s := ((s.wr (Reg.CENSUS_GRP_STATE g) st).wr (Reg.CENSUS_GRP_CAUSE g) 0).wr (Reg.CENSUS_GRP_EMITTER g) 0
  let s := s.wr (Reg.CENSUS_GRP_ARM g) (if st = 0 then 0 else 1)
  s.setGrp g { s.grp g with since := s.census.made, entered := s.census.frameNo, okRun := [], age := [] }

/-- R203: a DARK_ALL group needs the census and the probe subframe in force. -/
def State.armSlack (s : State) (g : Nat) : Bool :=
  !s.darkAll g || (s.rdB Reg.CENSUS_CFG_EN && s.rdB Reg.CENSUS_CFG_PROBE_SLOT)

/-- R204: the group's members and MEAS_DELAY allow arming. -/
def State.armParams (s : State) (g : Nat) : Bool :=
  let b := s.rd (Reg.CENSUS_GRP_BASE g)
  let c := s.rd (Reg.CENSUS_GRP_COUNT g)
  c != 0 && b + c ≤ 10240 && ((s.members g).all fun e => e < s.geom.lines * 384) &&
    (!s.darkAll g || s.measDelay ≤ 88)

/-- R205, R211, R213: DARK_ALL to PROVING, REPORT_ONLY to ARMED. -/
def State.grpBegin (s : State) (g : Nat) : State := s.grpEnter g (if s.darkAll g then 1 else 2)

/-- R205: arm an IDLE group: the frames after this one count. -/
def State.grpArm (s : State) (g : Nat) : State :=
  let s := s.grpBegin g
  s.setGrp g { s.grp g with armed := s.census.frameNo + 1 }

/-- R205: a register write of 1 to ARM. -/
def State.grpArmWrite (s : State) (g : Nat) : State :=
  if s.grpState g != 0 then s
  else if !s.armSlack g then (s.setW1c (Reg.CENSUS_GRP_ARM_REJ g)).raise Ev.PROBE_NO_SLACK g
  else if !s.armParams g then s.setW1c (Reg.CENSUS_GRP_ARM_REJ g)
  else s.grpArm g

/-- R212: disarm: IDLE from any state. -/
def State.grpDisarm (s : State) (g : Nat) : State := if s.grpState g = 0 then s else s.grpEnter g 0

/-- R211: whether an acknowledgement is accepted: TRIPPED or BLIND. -/
def State.ackOk (s : State) (g : Nat) : Bool := s.grpState g == 3 || s.grpState g == 4

/-- R211: a register write of 1 to ACK. -/
def State.grpAckWrite (s : State) (g : Nat) : State :=
  if s.ackOk g then s.grpBegin g else s.setW1c (Reg.CENSUS_GRP_ACK_REJ g)

/-- The event data of EV_GROUP_TRIP and EV_GROUP_BLIND. -/
def groupData (g cause e : Nat) : Nat := g % 64 + cause * 2 ^ 8 + e * 2 ^ 16

/-- R208: an ARMED group trips on a member's confirmed fault. -/
def State.grpTrip (s : State) (g e kind : Nat) : State :=
  let s := s.grpEnter g 3
  let s := (s.wr (Reg.CENSUS_GRP_EMITTER g) e).wr (Reg.CENSUS_GRP_CAUSE g) (kind - 1)
  (s.bump Reg.CENSUS_CNT_TRIPS).raise Ev.GROUP_TRIP (groupData g (kind - 1) e)

/-- R210: a PROVING or ARMED group goes BLIND on a member. -/
def State.grpBlind (s : State) (g e : Nat) : State :=
  let s := s.grpEnter g 4
  let s := (s.wr (Reg.CENSUS_GRP_EMITTER g) e).wr (Reg.CENSUS_GRP_CAUSE g) 3
  (s.bump Reg.CENSUS_CNT_BLINDS).raise Ev.GROUP_BLIND (groupData g 3 e)

/-- R207: a PROVING group whose members all have CONFIRM_N OK observations enters ARMED. -/
def State.grpProve (s : State) (g : Nat) : State :=
  if s.grpState g = 1 && (s.members g).all (fun e => s.confirmN ≤ tabGet 0 (s.grp g).okRun e) then
    s.grpEnter g 2
  else s

/-- R193: run and last after an observation. -/
def CensusRec.observe (r : CensusRec) (o : Nat) : CensusRec :=
  if o = r.last then { r with run := min (r.run + 1) 15, age := 0 } else ⟨o, 1, 0⟩

/-- R193: an observation confirms a state that the map does not show. -/
def State.confirms (s : State) (o : CensusObs) : Bool :=
  decide (s.confirmN ≤ ((s.cRec o.emitter).observe o.kind).run) && s.mapState o.emitter != o.kind

/-- R208: of the members of group g that one evaluation finds faulty, the lowest: `o`, or an observation of the same subframe
that waits. -/
def State.tripCause (s : State) (g : Nat) (o : CensusObs) : CensusObs :=
  (s.census.toApply.filter fun x => x.frame == o.frame && x.probe == o.probe && decide (2 ≤ x.kind) && s.confirms x &&
    (s.members g).contains x.emitter).foldl (fun b x => if x.emitter < b.emitter then x else b) o

/-- What an observation does to one group that holds its emitter; `became` says that it changed the map state. -/
def State.grpObserve (o : CensusObs) (became : Bool) (s : State) (g : Nat) : State :=
  let r := s.grp g
  if o.frame < r.armed then s else
    let run := tabGet 0 r.okRun o.emitter
    let run := if o.serial < r.since then run else if o.kind = 1 then run + 1 else 0
    let s := s.setGrp g { r with okRun := tabSet 0 r.okRun o.emitter run, age := tabSet 0 r.age o.emitter 0 }
    let s := s.grpProve g
    if s.grpState g = 2 && 2 ≤ o.kind && became then
      let c := s.tripCause g o
      s.grpTrip g c.emitter c.kind
    else s

/-! ## Observations (R193, R195, R196) -/

/-- R193: apply one observation to the census map. -/
def State.censusApply (s : State) (o : CensusObs) : State :=
  let old := s.mapState o.emitter
  let changes := s.confirms o
  let s := s.setCRec o.emitter ((s.cRec o.emitter).observe o.kind)
  let s := if changes then s.mapChange o.emitter o.kind o.frame o.shown else s
  let s := if changes && 2 ≤ o.kind then { s with census := { s.census with newFaults := s.census.newFaults ++ [o] } } else s
  let s := if changes && o.kind = 1 && 2 ≤ old then s.bump Reg.CENSUS_CNT_RECOVER else s
  (s.groupsOf o.emitter).foldl (State.grpObserve o changes) s

/-- R196: the event of one kind for a frame: count, saturating, and lowest emitter. -/
def faultData (l : List Nat) : Nat := min l.length 65535 + (l.foldl min 65535) * 2 ^ 16

/-- R196: EV_CENSUS_OPEN and EV_CENSUS_SHORT of a frame. -/
def State.censusEvents (s : State) (frame : Nat) : State :=
  let of := fun k => (s.census.newFaults.filter fun o => o.frame == frame && o.kind == k).map (·.emitter)
  let o := of 2
  let h := of 3
  let s := { s with census := { s.census with newFaults := s.census.newFaults.filter fun x => x.frame != frame } }
  let s := if o.isEmpty then s else s.raise Ev.CENSUS_OPEN (faultData o)
  let s := if h.isEmpty then s else s.raise Ev.CENSUS_SHORT (faultData h)
  if o.isEmpty && h.isEmpty then s else s.bump Reg.CENSUS_CNT_NEW_FAULT

/-- R192: the slots of a frame have all run: bracing blanks none of them any more. -/
def State.frameOver (s : State) (frame : Nat) : Bool := decide (frame < s.census.frameNo) || s.scan.inBlank || s.idle

/-- R191: no further observation of a frame can be made: subframe 0 has run, and the probe subframe if there is one. -/
def State.allMade (s : State) (frame : Nat) : Bool :=
  s.frameOver frame || (!s.rdB Reg.CENSUS_CFG_PROBE_SLOT && decide (1 ≤ s.rd Reg.SCAN_POS_SUB))

/-- The observations that wait to be applied. -/
def State.waiting (s : State) : List CensusObs :=
  s.census.toApply ++ s.census.queue.flatMap (·.observed) ++ s.census.subRec.observed

/-- R195: the events of a frame are raised once all of its observations have been applied. -/
def State.censusFlush (s : State) : State :=
  let frames := (s.census.newFaults.map (·.frame)).eraseDups
  (frames.filter fun f => s.allMade f && !s.waiting.any (·.frame == f)).foldl State.censusEvents s

/-- R192, R195: an observation may be applied: the frame is over and counts, or a group that is not IDLE holds the emitter. -/
def State.mayApply (s : State) (o : CensusObs) : Bool :=
  if s.frameOver o.frame then decide (o.frame < s.census.frameNo) || !s.census.blanked else !(s.groupsOf o.emitter).isEmpty

/-- R195: one waiting observation is applied; the order is not specified, so the command names which. -/
def execCensusObservationApply (n : Nat) (s : State) : Host.Outcome State Fault Refusal :=
  .next (match s.census.toApply[n]? with
    | none => s
    | some o =>
      if s.mayApply o then
        ({ s with census := { s.census with toApply := s.census.toApply.eraseIdx n } }.censusApply o).censusFlush
      else s)

/-- R129: one closed subframe record is processed: its headroom samples are counted, its observations wait to be
applied. -/
def execSubframeRecord (s : State) : Host.Outcome State Fault Refusal :=
  .next (match s.census.queue with
    | [] => s
    | r :: rest =>
      let s := { s with census := { s.census with queue := rest, toApply := s.census.toApply ++ r.observed } }
      r.headroom.foldl (fun s (n, low) => s.hrAdd n low) s)

/-- R193: the end of a counted frame for an emitter that was not observed: its age, and UNSEEN at the limit. -/
def State.ageEmitter (s : State) (e : Nat) : State :=
  let r := s.cRec e
  let age := min (r.age + 1) 511
  if s.probeAfter + s.confirmN ≤ age then
    (s.setCRec e ⟨r.last, 0, age⟩).mapChange e 0 s.census.frameNo s.census.shown
  else s.setCRec e { r with age := age }

/-- R210: the end of a counted frame for a group that entered its state before it: members not observed grow older; one at the
limit makes it BLIND. -/
def State.ageGroup (s : State) (g : Nat) : State :=
  let r := s.grp g
  if s.grpState g = 0 || s.census.frameNo ≤ r.entered then s else
    let age := (s.members g).foldl (fun a e =>
      if tabGet false s.census.seen e then tabSet 0 a e 0 else tabSet 0 a e (tabGet 0 r.age e + 1)) r.age
    let s := s.setGrp g { r with age := age }
    match (s.members g).find? fun e => s.probeAfter + s.confirmN ≤ tabGet 0 age e with
    | some e => if s.grpState g = 1 || s.grpState g = 2 then s.grpBlind g e else s
    | none => s

/-- R193, R210, R214: the end of a counted frame. -/
def State.censusFrameEnd (s : State) : State :=
  let n := 128 * 384
  let s := (List.range n).foldl (fun s e =>
    if tabGet false s.census.seen e then s.setCRec e { s.cRec e with age := 0 } else s.ageEmitter e) s
  let s := (List.range 64).foldl State.ageGroup s
  let s := if s.rdB Reg.CENSUS_STAT_SWEEP_BUSY then
      { s with census := { s.census with
          sweepFrames := s.census.sweepFrames + 1
          sweepSeen := s.census.seen.foldl (fun t (e : Nat × Bool) => tabSet false t e.1 e.2) s.census.sweepSeen } } else s
  s.wr Reg.CENSUS_COUNT1_PROBED s.census.probed

/-- R214: the emitters a sweep covers. -/
def State.sweepCovers (s : State) (e : Nat) : Bool := s.bankOn (e % 384) && e / 384 < s.geom.lines

/-- R214: at a counted frame start a due sweep starts, and a running one ends when it is complete or has run long enough. -/
def State.sweepStep (s : State) : State :=
  if s.census.sweepDue then
    { (s.wr Reg.CENSUS_STAT_SWEEP_BUSY 1) with census := { s.census with sweepDue := false, sweepFrames := 0, sweepSeen := [] } }
  else if s.rdB Reg.CENSUS_STAT_SWEEP_BUSY then
    let missed := ((List.range 49152).filter fun e => s.sweepCovers e && !tabGet false s.census.sweepSeen e).length
    if missed = 0 || s.probeAfter + s.confirmN + 1 ≤ s.census.sweepFrames then
      let s := (s.wr Reg.CENSUS_STAT_SWEEP_BUSY 0).wr Reg.CENSUS_STAT_SWEEP_MISSED missed
      { (s.raise Ev.CENSUS_DONE missed) with census := { s.census with sweepReport := true, sweepFrame := s.census.shown } }
    else s
  else s

/-- R202, R212: suppression follows the group states at a counted frame start. -/
def State.darkStep (s : State) : State :=
  let isDark := fun g => let st := s.grpState g; s.darkAll g && (st == 1 || st == 3 || st == 4)
  let dark := (List.range 64).filter isDark
  let s := (List.range 64).foldl (fun s g => s.wrB (Reg.CENSUS_GRP_DARK g) (dark.contains g)) s
  { s with census := { s.census with dark := dark.flatMap s.members } }

/-- R192: the observations of the frame in progress that wait are dropped. -/
def State.censusDrop (s : State) : State :=
  let keep := fun (l : List CensusObs) => l.filter fun o => o.frame != s.census.frameNo
  { s with census := { s.census with
      toApply := keep s.census.toApply
      subRec := { s.census.subRec with observed := keep s.census.subRec.observed }
      queue := s.census.queue.map fun r => { r with observed := keep r.observed } } }

/-- R210, Table 7.4: a bad member-list word: groups in PROVING or ARMED whose range holds one of its entries go BLIND. -/
def State.eccMemberWord (s : State) (o : Nat) : State :=
  (List.range 64).foldl (fun s g =>
    let b := s.rd (Reg.CENSUS_GRP_BASE g)
    let hit := [0, 1].filter fun k =>
      let i := (o - 0x139000) / 2 + k
      decide (b ≤ i) && decide (i < b + s.rd (Reg.CENSUS_GRP_COUNT g))
    match hit with
    | k :: _ => if s.grpState g = 1 ∨ s.grpState g = 2 then s.grpBlind g (s.memberEntry ((o - 0x139000) / 2 + k)) else s
    | [] => s) s

/-- Table 7.4: a bad map word: its 16 entries UNSEEN, their runs cleared; the word is whole again. -/
def State.eccMapWord (s : State) (o : Nat) : State :=
  let s := (List.range 16).foldl (fun s k =>
    let e := (o - fcmCensus) * 4 + k
    (s.mapChange e 0 s.census.frameNo s.census.shown).setCRec e { s.cRec e with last := 0, run := 0 }) s
  s.writeFcm o 4 fun _ => 0

/-- Table 7.4: a word of the census region that its reader finds uncorrectable. -/
def State.eccCensusWord (s : State) (o : Nat) : State := if o < 0x139000 then s.eccMapWord o else s.eccMemberWord o

/-- A word of the census map or of the member lists. -/
def censusWord (w : Nat × Nat) : Bool := w.1 == 0 && decide (fcmCensus ≤ 4 * w.2) && decide (4 * w.2 < 0x13E000)

/-- R489: the census reads its map and the member lists at each counted frame start. -/
def State.scrubCensus (s : State) : State :=
  let (ws, s) := s.scrubTake censusWord
  ws.foldl (fun s w => s.eccCensusWord (4 * w.2)) s

/-- R192, R193, R202, R214: what a frame start does to the census. `lit` says that the frame flips or scans a repeated
plane, and is no dark frame; `shown` is the number of the frame it shows. -/
def State.censusFrameStart (s : State) (lit : Bool) (shown : Nat) : State :=
  let s := if s.census.blanked then s.censusDrop else if s.census.counted then s.censusFrameEnd else s
  let counted := lit && s.sink.ffScan != 0 && s.rdB Reg.CENSUS_CFG_EN
  let s := { s with census := { s.census with frameNo := s.census.frameNo + 1, shown := shown, counted := counted, blanked := false,
                                              seen := [], probed := 0 } }
  let s := s.censusFlush
  if counted then s.scrubCensus.darkStep.sweepStep else s

/-- The emitters that the census map shows in a state other than UNSEEN. -/
def State.mapSeen (s : State) : List Nat :=
  ((s.fcm.filter fun (c : Nat × Byte) => decide (fcmCensus ≤ c.1) && decide (c.1 < fcmCensus + 12288)).flatMap fun c =>
    (List.range 4).map fun k => 4 * (c.1 - fcmCensus) + k).filter fun e => s.mapState e != 0

/-- R194: every emitter is UNSEEN with run 0 and age 0. Observations made before are not applied after it (DESIGN CHOICE, log
entry 125). -/
def State.censusForget (s : State) : State :=
  let gone := s.mapSeen.map fun e => (⟨e, s.mapState e, 0, s.census.frameNo, s.census.shown⟩ : MapChange)
  let s := s.writeFcm fcmCensus 12288 (fun _ => 0)
  let s := ((s.wr Reg.CENSUS_COUNT0_OPEN 0).wr Reg.CENSUS_COUNT0_SHORT 0).wr Reg.CENSUS_COUNT1_UNSEEN 49152
  { s with census := { s.census with
      recs := [], toApply := [], changes := gone.foldl addChange s.census.changes
      subRec := { s.census.subRec with observed := [] }
      queue := s.census.queue.map fun r => { r with observed := [] } } }

/-- R194, R213: CLEAR: the census begins anew, and groups go to PROVING or ARMED. -/
def State.censusClear (s : State) : State :=
  (List.range 64).foldl (fun s g => if 2 ≤ s.grpState g then s.grpBegin g else s) s.censusForget

/-- R214: start a sweep at the next counted frame. -/
def State.sweepStart (s : State) : State := { s with census := { s.census with sweepDue := true } }

/-! ## Probes and observability (R190, R197, R198) -/

/-- R115, R190: the drive current of a mode, in sixteenths of the unit of `i`: I_ch, I_ch / 4 and I_ch / 16 exactly. -/
def driveUnits (mode i : Nat) : Nat := if mode = 1 then 4 * i else if mode = 2 then i else 16 * i

/-- R158, R190: the current of channel n in a mode, in units of 0.125 mA / 2^26 (24 mA / 2^28 is 48 of them). -/
def State.ownCurrent (s : State) (mode n : Nat) : Nat := driveUnits mode (3 * s.iEff s.sink.ffScan n)

/-- R198: I_PROBE, (IPROBE + 1) × 0.125 mA, in the same units: neither CG, GCS nor foldback scales it. -/
def State.probeCurrent (s : State) : Nat := (s.rd Reg.CENSUS_CFG_IPROBE + 1) * 2 ^ 26

/-- R190: a piece of length q of emitter e is observable. -/
def State.observable (s : State) (e q mode : Nat) : Bool :=
  s.rdB Reg.CENSUS_CFG_EN && s.measDelay + 8 ≤ q && !s.suppressed e &&
    2 ^ 26 ≤ s.ownCurrent mode (e % 384)

/-- R197, R205: emitter e is due a whisper probe; `own` says that its own subframe-0 piece is observable, `g0` that G is 0. -/
def State.probeDue (s : State) (e : Nat) (own g0 : Bool) : Bool :=
  let r := s.cRec e
  let inDark := (s.groupsOf e).any fun g => s.darkAll g && decide ((s.grp g).armed ≤ s.census.frameNo)
  s.census.counted && s.rdB Reg.CENSUS_CFG_PROBE_SLOT && !own && s.bankOn (e % 384) && e / 384 < s.geom.lines &&
    (s.probeAfter ≤ r.age || (2 ≤ r.last && 0 < r.run && s.mapState e != r.last) || inDark) &&
    (!g0 || s.rdB Reg.CENSUS_CFG_PROBE_BLACK || inDark)

end Sys2Proof.Machine
end

