-- ==== Sys2Proof/Machine/Boards.lean ====
section
/-! DEFINITION. Frame boards (chapter 03): maps, PIXEL packets, board states, deadlines and flushing. -/
namespace Sys2Proof.Machine

/-- An EMPTY board. -/
def boardEmpty : Board := ⟨none, false, false, false, none, none, none, false, false, []⟩

/-- Board A, B or C (0, 1, 2). -/
def State.board (s : State) (i : Nat) : Board := tabGet boardEmpty s.pipe.boards i

/-- Replace a board. -/
def State.setBoard (s : State) (i : Nat) (b : Board) : State :=
  { s with pipe := { s.pipe with boards := tabSet boardEmpty s.pipe.boards i b } }

/-- Coverage of a slot (R75). -/
def Board.covered (b : Board) (slot : Nat) : Bool := SMap.get (fun _ => false) b.cov slot

/-- The board state of Table 3.3: 0 EMPTY, 1 FILLING, 2 READY, 3 SHOWING. -/
def Board.code (b : Board) : Nat := if b.showing then 3 else if b.frame.isNone then 0 else if b.ready then 2 else 1

/-- The board can be composed: READY, or FILLING under PATCH after its deadline (R83, R85). -/
def Board.composable (b : Board) : Bool := b.code == 2 || (b.code == 1 && b.patched)

/-- The board that is SHOWING, if any. -/
def State.showing (s : State) : Option Nat := (List.range 3).find? fun i => (s.board i).showing

/-- An uncorrectable word covers this FCM offset (R104; memory code 0). -/
def State.fcmBad (s : State) (o : Nat) : Bool := s.badWords.contains (0, o / 4)

/-- The board being composed, or composed and waiting for its frame start. -/
def State.composing (s : State) (i : Nat) : Bool :=
  match s.pipe.comp with
  | some c => c.board == some i
  | none => false

/-- Samples per pixel of a format (Table 3.2). -/
def samplesPer (fmt : Nat) : Nat := if fmt ≤ 2 then 3 else 1

/-- Bytes per pixel of a format (Table 3.2). -/
def bytesPer (fmt : Nat) : Nat :=
  match fmt with
  | 0 => 3
  | 1 => 4
  | 2 => 6
  | _ => 2

/-- Table 3.2: the samples of one pixel, widened to 16 bits. -/
def widen (fmt : Nat) (px : List Byte) : List Nat :=
  match fmt with
  | 0 => px.map fun b => b.toNat * 257
  | 1 =>
    let w := beNat px
    [20, 10, 0].map fun sh => let v := w / 2 ^ sh % 1024; v * 64 + v / 16
  | 2 => [beAt px 0 2, beAt px 2 2, beAt px 4 2]
  | _ => [beAt px 0 2]

/-- A map descriptor (PIPE_MAP_m). -/
structure MapDesc where
  en : Bool
  expect : Bool
  prio : Nat
  pattern : Nat
  format : Nat
  rot : Nat
  mirror : Bool
  wsub : Bool
  xfer : Nat
  bypass : Bool
  w : Nat
  h : Nat
  tx : Nat
  ty : Nat
  base : Nat
  deriving DecidableEq, Repr

/-- The descriptor of map `m` through a reader of fields. -/
def mapDescOf (rd : Fld → Nat) (m : Nat) : MapDesc where
  en := rd (Reg.PIPE_MAP_EN m) == 1
  expect := rd (Reg.PIPE_MAP_EXPECT m) == 1
  prio := rd (Reg.PIPE_MAP_PRIO m)
  pattern := rd (Reg.PIPE_MAP_PATTERN m)
  format := rd (Reg.PIPE_MAP_FORMAT m)
  rot := rd (Reg.PIPE_MAP_ROT m)
  mirror := rd (Reg.PIPE_MAP_MIRROR m) == 1
  wsub := rd (Reg.PIPE_MAP_WSUB m) == 1
  xfer := rd (Reg.PIPE_MAP_XFER m)
  bypass := rd (Reg.PIPE_MAP_XFER_BYPASS m) == 1
  w := rd (Reg.PIPE_MAP_W m)
  h := rd (Reg.PIPE_MAP_H m)
  tx := rd (Reg.PIPE_MAP_TX m)
  ty := rd (Reg.PIPE_MAP_TY m)
  base := rd (Reg.PIPE_MAP_BOARD_BASE m)

/-- The descriptor in force. -/
def State.mapDesc (s : State) (m : Nat) : MapDesc := mapDescOf s.rd m

/-- Table 3.6 and R92: a pattern and format the device can use; RAW16 ignores a pattern other than 3. -/
def comboOk (pattern format : Nat) : Bool :=
  pattern != 3 && format ≤ 4 && !(pattern == 2 && format ≤ 2)

/-- R92: the map acts as enabled. -/
def MapDesc.usable (d : MapDesc) : Bool := d.en && comboOk d.pattern d.format

/-- The map writes emitters directly (R93). -/
def MapDesc.raw (d : MapDesc) : Bool := d.format == 4

/-- The map's pixel count. -/
def MapDesc.pixels (d : MapDesc) : Nat := d.w * d.h

/-- The number of board slots the map uses (R75). -/
def MapDesc.slots (d : MapDesc) : Nat := d.pixels * samplesPer d.format

/-- R431: the mirror port's INPUT map is there to be read. -/
def State.mirMapOn (s : State) : Bool := s.rd Reg.MIR_SRC_SRC == 0 && (s.mapDesc (s.rd Reg.MIR_SRC_MAP)).usable

/-- R431: the mirror port's INPUT map, there in `s`, is destroyed. -/
def State.mirMapLost (t s : State) : State := { t with mir := { t.mir with mapGone := t.mir.mapGone || s.mirMapOn } }

/-- The usable maps with EXPECT = 1. -/
def State.expected (s : State) : List MapDesc :=
  ((List.range 64).map s.mapDesc).filter fun d => d.usable && d.expect

/-- R76: every slot of every expected map is covered. -/
def State.complete (s : State) (b : Board) : Bool :=
  s.expected.all fun d => (List.range d.slots).all fun k => b.covered (d.base + k)

/-- R80: a board that holds a frame and is not being composed is READY exactly while it is complete. -/
def State.refreshReady (s : State) (i : Nat) : State :=
  let b := s.board i
  if b.frame.isNone || b.showing || s.composing i then s else s.setBoard i { b with ready := s.complete b }

/-- R80 for all three boards. -/
def State.refreshBoards (s : State) : State := ((s.refreshReady 0).refreshReady 1).refreshReady 2

/-- GREY_LEAD in 2^-16 ns: 130 µs to 4,000 µs (PIPE_TIMING). -/
def State.greyLead (s : State) : Nat := usec (min 4000 (max 130 (s.rd Reg.PIPE_TIMING_GREY_LEAD)))

/-- R77: the target of a frame from the when field of its first accepted packet; none is a held frame. Without a presentation
time it is the first frame start whose deadline has not passed. -/
def State.targetOf (s : State) (when_ : Nat) : Option Nat :=
  if when_ = 2 ^ 64 - 1 then none
  else if when_ = 0 then
    if s.readyMode then some (s.readyStart (s.now + s.greyLead + 1)) else some (s.nextGrid (s.now + s.greyLead + 1))
  else if s.readyMode then some (when_ * nsUnit) else some (presentAt s when_)

/-- R78: the deadline of a target. -/
def State.deadlineOf (s : State) (target : Nat) : Nat := target - s.greyLead

/-- R75: write the samples of a packet into board `i`, setting their coverage. A castled map whose slots reach past slot 49,151
(only CREATE and the Seal check refuse it) writes on into the FCM bytes that follow the board, and its coverage bits beyond
the board's are kept (DESIGN CHOICE, log entry 100). -/
def State.writeSamples (s : State) (i : Nat) (d : MapDesc) (first : Nat) (data : List Byte) (count : Nat) : State :=
  (List.range count).foldl (fun s c =>
    let px := slice data (c * bytesPer d.format) (bytesPer d.format)
    let slot0 := d.base + (first + c) * samplesPer d.format
    ((widen d.format px).zipIdx).foldl (fun s (v, k) =>
      let slot := slot0 + k
      let s := s.writeFcm (fcmBoard i + 2 * slot) 2 fun o => leByte v (o - (fcmBoard i + 2 * slot))
      let b := s.board i
      s.setBoard i { b with cov := SMap.set (fun _ => false) b.cov slot true }) s) s

/-- Put the packet into board `i` and see whether the board is complete (R75, R80). -/
def State.receiveInto (s : State) (i : Nat) (d : MapDesc) (first : Nat) (data : List Byte) (count : Nat) : State :=
  (s.writeSamples i d first data count).refreshReady i

/-- R79: rule 2: F is not later than the SHOWING frame. -/
def State.isStale (s : State) (target : Option Nat) : Bool :=
  match target with
  | none => false
  | some t => s.showing.isSome && t ≤ s.pipe.shownTarget

/-- R79: rule 2: F's deadline has passed. -/
def State.isLate (s : State) (target : Option Nat) : Bool :=
  match target with
  | none => false
  | some t => s.deadlineOf t ≤ s.now

/-- R79: rule 4: the FILLING, non-held board with the earliest target earlier than F's. One past its deadline under PATCH, which is to be
shown (R85), is not evicted while it waits for its castling point (DESIGN CHOICE, log entry 160). -/
def State.evictable (s : State) (target : Option Nat) : Option Nat :=
  match target with
  | none => none
  | some t =>
    let cand := (List.range 3).filterMap fun i =>
      let b := s.board i
      match b.target with
      | some u => if b.code == 1 && !b.held && !b.patched && !s.composing i && u < t then some (u, i) else none
      | none => none
    (cand.foldl (fun acc x => match acc with
      | none => some x
      | some y => if x.1 < y.1 then some x else some y) none).map (·.2)

/-- R77: what F's first accepted packet has fixed, when there was one. -/
def State.knownFrame (s : State) (f : Word) : Option Known := (s.pipe.known.find? fun e => e.1 == f).map (·.2)

/-- R77, R78: what stands of frame F is fixed. -/
def State.setKnown (s : State) (f : Word) (k : Known) : State :=
  { s with pipe := { s.pipe with known := (f, k) :: s.pipe.known.filter fun e => e.1 != f } }

/-- R78: F's target becomes another one, without a presentation time. -/
def State.fixTarget (s : State) (f : Word) (target : Option Nat) : State :=
  match s.knownFrame f with
  | some k => s.setKnown f { k with target := target, pres := none }
  | none => s

/-- R77, R78: what the first accepted packet of F fixes by its when field; a FLIP of F that waits has selected the target already. -/
def State.firstKnown (s : State) (f : Word) (when_ : Nat) : Known :=
  let target := s.targetOf when_
  match s.pipe.flips.find? fun e => e.1 == f with
  | some e => ⟨some e.2, none, target.isNone⟩
  | none => ⟨target, if when_ = 0 || target.isNone then none else some when_, target.isNone⟩

/-- Assign frame F to board `i` (R79). -/
def State.assignBoard (s : State) (i : Nat) (f : Word) (k : Known) : State :=
  s.setBoard i { boardEmpty with frame := some f, held := k.held, target := k.target, deadline := k.target.map s.deadlineOf,
                                 pres := k.pres }

/-- R88: FLUSH empties every board that is not SHOWING and is not being composed. A board that is composed and waits for its frame
start counts as being composed, so that the plane that flips is a board's (Table 3.3; DESIGN CHOICE, log entry 129). -/
def State.flushBoards (s : State) : State :=
  (List.range 3).foldl (fun s i => if (s.board i).showing || s.composing i then s else s.setBoard i boardEmpty) s

/-- A slot of a board that composition can use: covered, and its word correctable (R85, R104). -/
def State.slotGood (s : State) (i slot : Nat) : Bool := (s.board i).covered slot && !s.fcmBad (fcmBoard i + 2 * slot)

/-- R80, R85, R104: copy every slot of board `i` that is uncovered or uncorrectable from the SHOWING board, or 0 where that has none.
Slots that belong to no enabled map are copied and covered like those of maps with EXPECT = 0 (DESIGN CHOICE, log entry 132).
The board is then READY. -/
def State.patchBoard (s : State) (i : Nat) : State :=
  let b := s.board i
  let old := s.showing
  let val := fun slot => match old with
    | some j => if s.slotGood j slot then s.fcm16 (fcmBoard j + 2 * slot) else 0
    | none => 0
  let get := fun slot => if s.slotGood i slot then s.fcm16 (fcmBoard i + 2 * slot) else val slot
  let s := s.writeSome (fcmBoard i) 98304 (fun o => !s.slotGood i ((o - fcmBoard i) / 2)) (fun o =>
    let r := o - fcmBoard i
    leByte (get (r / 2)) (r % 2))
  s.setBoard i { b with ready := true, cov := SMap.setRange (fun _ => false) b.cov 0 49152 (fun _ => true) }

/-- Discard the frame of a board (R84): its later packets meet rule 2 of R79. -/
def State.lateSkip (s : State) (i : Nat) : State :=
  let f := ((s.board i).frame.getD 0).toNat
  ((s.setBoard i boardEmpty).raise Ev.FRAME_LATE f).bump Reg.PIPE_CNT1_LATE_FRAME

/-- R85: under PATCH the frame becomes composable at its deadline; the board stays FILLING until the composition copies its
uncovered slots. A frame that is READY and late is complete as it is (R40). -/
def State.latePatch (s : State) (i : Nat) : State :=
  let b := s.board i
  ((s.setBoard i { b with patched := b.patched || !b.ready }).raise Ev.FRAME_LATE (b.frame.getD 0).toNat).bump
    Reg.PIPE_CNT1_LATE_FRAME

/-- R84, R85: a late frame under the policy in force. -/
def State.lateFrame (s : State) (i : Nat) : State :=
  if s.rd Reg.PIPE_LATE_POLICY_POLICY == 0 then s.lateSkip i else s.latePatch i

/-- R84, R85, R463: the deadline of board `i` has come: a READY board has met it, whatever a castle does to it later (R80); the
frame of one that is not is late, and in BRACE it is handled as under SKIP. -/
def State.deadlineBoard (s : State) (i : Nat) : State :=
  let b := s.board i
  match b.deadline with
  | none => s
  | some dl =>
    if s.now < dl || b.held || b.met || b.patched || b.showing || s.composing i then s
    else if b.ready then s.setBoard i { b with met := true }
    else if s.brace then s.lateSkip i else s.lateFrame i

/-- R84, R85: the deadlines that have come. -/
def State.deadlinesDue (s : State) : State := ((s.deadlineBoard 0).deadlineBoard 1).deadlineBoard 2

/-- R40: the frame of board `i` is READY and a step from `old` has passed over its presentation instant. -/
def State.passedOver (s : State) (old i : Nat) : Bool :=
  let b := s.board i
  !s.readyMode && b.code == 2 && !b.held && !s.composing i && match b.target with
    | some t => decide (old < t ∧ t < s.now)
    | none => false

/-- R40: READY frames whose presentation instants a forward step from `old` has passed over are late. Those not READY meet
their deadlines (R84, R85). -/
def State.stepLate (s : State) (old : Nat) : State :=
  (List.range 3).foldl (fun s i => if s.passedOver old i then s.lateFrame i else s) s

/-- R73, R77, R79: one PIXEL payload that passed the header and payload checks: `body` is the payload without the pcheck
trailer, `when_` and `frame` are header fields. A held frame whose FLIP has run has the target that the FLIP selected, also where no
board holds it (DESIGN CHOICE, log entry 161). -/
def State.pixelPacket (s : State) (when_ : Nat) (frame : Word) (body : List Byte) : State :=
  let handle := beAt body 0 4
  let first := beAt body 4 4
  let count := beAt body 8 2
  let format := byteAt body 10
  let m := handle % 65536
  let d := s.mapDesc m
  let ok := 12 ≤ body.length && m < 64 && handle != 0 && s.rd (Reg.PIPE_MAP_HANDLE m) == handle && d.usable &&
    format == d.format && body.length == 12 + count * bytesPer format && first + count ≤ d.pixels
  if !ok then s.bump Reg.PIPE_CNT1_REJECT else
    let data := body.drop 12
    let s := s.deadlinesDue
    match (List.range 3).find? fun i => (s.board i).frame == some frame && !(s.board i).showing with
    | some i =>
      if s.composing i then s.bump Reg.PIPE_CNT0_LATE_PKT else s.receiveInto i d first data count
    | none =>
      let k := (s.knownFrame frame).getD (s.firstKnown frame when_)
      let s := s.setKnown frame k
      let target := k.target
      let isShown := match s.showing with
        | some i => (s.board i).frame == some frame
        | none => false
      if isShown || s.isStale target then s.bump Reg.PIPE_CNT0_STALE
      else if s.isLate target then s.bump Reg.PIPE_CNT0_LATE_PKT
      else match (List.range 3).find? fun i => (s.board i).code == 0 with
        | some i => (s.assignBoard i frame k).receiveInto i d first data count
        | none => match s.evictable target with
          | some i => ((s.assignBoard i frame k).bump Reg.PIPE_CNT0_EVICTED).receiveInto i d first data count
          | none => s.bump Reg.PIPE_CNT0_NO_BOARD

/-- R84, R85: the instant at which deadlines are tested. -/
def execFrameDeadline (at_ : Vt) (s : State) : Host.Outcome State Fault Refusal :=
  let s := s.elapseTo at_
  .next s.deadlinesDue

/-- R89: a castle changed the layout of a map from `o` to `n`: the coverage of its old and new slot ranges is cleared. -/
def State.clearCoverage (s : State) (o n : MapDesc) : State :=
  (List.range 3).foldl (fun s i =>
    let b := s.board i
    let cov := SMap.setRange (fun _ => false) b.cov o.base o.slots (fun _ => false)
    let cov := SMap.setRange (fun _ => false) cov n.base n.slots (fun _ => false)
    s.setBoard i { b with cov := cov }) s

/-- R89: whether a castle's new descriptor clears coverage. -/
def MapDesc.layoutDiffers (o n : MapDesc) : Bool :=
  o.en != n.en || o.format != n.format || o.pattern != n.pattern || o.w != n.w || o.h != n.h || o.base != n.base

/-- Table 2.5, R78: the frame start a FLIP that runs now selects: the first one permitted whose composition has not begun. In READY mode the frame start that a composition in hand will take is not known as the FLIP runs: the one after
it is counted from GREY_LEAD after that composition began (DESIGN CHOICE, log entry 133). -/
def State.flipStart (s : State) : Nat :=
  if s.readyMode then
    match s.pipe.comp with
    | some c => s.readyStart (c.start + s.effMin)
    | none => s.readyStart s.now
  else
    let g := s.nextGrid s.now
    if s.pipe.composedFor == some g then s.nextGrid (g + 1) else g

/-- The FLIP move (Table 2.5, R62, R78): the frame start it selects becomes the frame's target, whether or not a board holds it; a
held frame stays held until it is presented. A frame that is SHOWING or being composed needs nothing (log entry 101). -/
def State.flip (s : State) (frame : Word) : State :=
  let g := s.flipStart
  let wait := fun (s : State) => { s with pipe := { s.pipe with flips := s.pipe.flips ++ [(frame, g)] } }
  match (List.range 3).find? fun i => (s.board i).frame == some frame with
  | some i =>
    let b := s.board i
    if b.showing || s.composing i then s else
      wait ((s.fixTarget frame (some g)).setBoard i
        { b with target := some g, deadline := some (max (s.deadlineOf g) s.now), pres := none, met := false })
  | none => wait (s.fixTarget frame (some g))

/-- R51, R53: the target of a board under the grid now in force: its presentation time mapped anew; a target that no
presentation time gave maps as its old instant. -/
def State.remapped (s : State) (b : Board) (t : Nat) : Nat :=
  if s.readyMode then t else match b.pres with
    | some p => presentAt s p
    | none => firstGrid s (t - nsUnit)

/-- R53: frame starts that FLIP moves have selected follow a new grid. -/
def State.remapFlips (s : State) : State :=
  if s.readyMode then s
  else { s with pipe := { s.pipe with flips := s.pipe.flips.map fun e => (e.1, firstGrid s (e.2 - nsUnit)) } }

/-- R53, R78: pending targets and deadlines follow a new grid and a new GREY_LEAD. -/
def State.retarget (s : State) : State :=
  let s := s.remapFlips
  (List.range 3).foldl (fun s i =>
    let b := s.board i
    match b.target with
    | none => s
    | some t =>
      if b.showing || s.composing i || b.patched then s else
        let g := s.remapped b t
        let f := b.frame.getD 0
        let s := match s.knownFrame f with
          | some k => s.setKnown f { k with target := some g }
          | none => s
        s.setBoard i { b with target := some g, deadline := some (s.deadlineOf g), met := b.met && decide (s.deadlineOf g ≤ s.now) }) s

end Sys2Proof.Machine
end

