-- ==== Sys2Proof/Machine/Handles.lean ====
section
/-! DEFINITION. Statuses and handles (R318 to R322). -/
namespace Sys2Proof.Machine

/-- The number under which a status's code is free (log entry 10). -/
def Status.index : Status → Nat
  | .ok => 0 | .doneLater => 1 | .partially => 2 | .eCheck => 3 | .eVersion => 4 | .eHandle => 5 | .eAuth => 6
  | .eCredit => 7 | .eBusy => 8 | .eOpcode => 9 | .eState => 10 | .eParam => 11 | .eNoSpace => 12 | .eLate => 13
  | .eLocked => 14 | .eRunning => 15 | .eSeal => 16

/-- The u16 code of a status: the manual gives no numbers, so the code is free (log entry 10). -/
def Status.code (st : Status) : Nat := (Config.statusCode st.index).toNat

/-- R318: a handle from its class, generation and index. -/
def handleOf (cls gen idx : Nat) : Nat := cls * 2 ^ 24 + gen * 2 ^ 16 + idx

/-- R319: the current generation of an index of a class. -/
def State.gen (s : State) (cls idx : Nat) : Nat := (tabGet (1 : Byte) s.gens (cls * 65536 + idx)).toNat

/-- The handle of the object at an index. -/
def State.handle (s : State) (cls idx : Nat) : Nat := handleOf cls (s.gen cls idx) idx

/-- R319: the generation after one: 255 advances to 1. -/
def nextGen (g : Byte) : Byte := if g = 255 then 1 else g + 1

/-- R319: advance the generation of an index. -/
def State.advanceGen (s : State) (cls idx : Nat) : State :=
  let k := cls * 65536 + idx
  { s with gens := tabSet (1 : Byte) s.gens k (nextGen (tabGet (1 : Byte) s.gens k)) }

/-- Table 11.1: how many indexes a class has; 0 for a number that names no class. -/
def classSize : Nat → Nat
  | 1 => 32 | 2 => 64 | 3 => 64 | 4 => 64 | 5 => 16 | 6 => 256 | 7 => 32 | 8 => 128 | _ => 0

/-- Whether an index is listed in a table. -/
def listed {α : Type} (t : List (Nat × α)) (i : Nat) : Bool := t.any fun e => e.1 == i

/-- R319: an object exists at an index of a class. -/
def State.objExists (s : State) (cls idx : Nat) : Bool :=
  idx < classSize cls && match cls with
    | 1 => listed s.klp.sessions idx
    | 2 => s.rd (Reg.PIPE_MAP_HANDLE idx) != 0
    | 3 => s.rd (Reg.MOTIF_DEF_HANDLE_HANDLE idx) != 0
    | 4 => s.rd (Reg.CENSUS_GRP_HANDLE idx) != 0
    | 5 => listed s.cmd.progs idx
    | 6 => listed s.moves idx
    | 7 => listed s.cmd.ctxs idx
    | 8 => listed s.klp.subs idx
    | _ => false

/-- R319: the index a handle of a class names, when the handle is valid. -/
def State.resolve (s : State) (cls h : Nat) : Option Nat :=
  let idx := h % 65536
  if h / 2 ^ 24 = cls ∧ s.objExists cls idx ∧ h = s.handle cls idx then some idx else none

/-- The lowest free index of a class. -/
def State.freeIndex (s : State) (cls : Nat) : Option Nat := (List.range (classSize cls)).find? fun i => !s.objExists cls i

end Sys2Proof.Machine
end

