-- ==== Sys2Proof/Machine/Motif.lean ====
section
/-! DEFINITION. Motif engines and the fallback look (chapter 08): the phase, the types, the layer, steps. -/
namespace Sys2Proof.Machine

/-- A motif definition (Table 8.2), read from 512 bytes of the FCM. -/
structure MotifDef where
  type : Nat
  clockStep : Bool
  loop : Bool
  interp : Bool
  dir : Nat
  nKeys : Nat
  period : Nat
  epoch : Nat
  ca : List Nat
  cb : List Nat
  width : Nat
  span : Nat
  lMin : Nat
  lMax : Nat
  seed : Nat
  /-- TIME_j and the four components of each key. -/
  keys : List (Nat × List Nat)
  deriving DecidableEq, Repr

/-- Two halfword pairs: the R, G, B, W components at an offset. -/
def State.colour (s : State) (o : Nat) : List Nat := [s.fcm16 o, s.fcm16 (o + 2), s.fcm16 (o + 4), s.fcm16 (o + 6)]

/-- R226: the definition at an FCM offset. -/
def State.motifDef (s : State) (o : Nat) : MotifDef :=
  let w := s.fcm32 o
  { type := w % 16
    clockStep := bitAt w 4
    loop := bitAt w 5
    interp := bitAt w 6
    dir := w / 128 % 4
    nKeys := w / 512 % 64
    period := s.fcm32 (o + 4)
    epoch := s.fcm32 (o + 8) + 2 ^ 32 * s.fcm32 (o + 12)
    ca := s.colour (o + 0x10)
    cb := s.colour (o + 0x18)
    width := s.fcm16 (o + 0x20)
    span := s.fcm16 (o + 0x22)
    lMin := s.fcm16 (o + 0x24)
    lMax := s.fcm16 (o + 0x26)
    seed := s.fcm32 (o + 0x28)
    keys := (List.range (w / 512 % 64)).map fun j => (s.fcm32 (o + 0x40 + 12 * j), s.colour (o + 0x44 + 12 * j)) }

/-- Key times start at 0, ascend strictly and stay below PERIOD (R227). -/
def keysAscend (period : Nat) : List (Nat × List Nat) → Bool
  | [] => true
  | [(t, _)] => t < period
  | (t, _) :: (u, c) :: rest => t < u && keysAscend period ((u, c) :: rest)

/-- R227: validity of a definition. -/
def MotifDef.valid (d : MotifDef) : Bool :=
  d.type ≤ 5 && (!d.clockStep || d.type == 5) && 1000 ≤ d.period && d.period ≤ 4000000000 &&
  (!(d.type == 2 || d.type == 3 || d.type == 4) || 1 ≤ d.span) &&
  (d.type != 2 || (1 ≤ d.width && d.width ≤ d.span)) && (d.type != 1 || d.lMin ≤ d.lMax) &&
  (d.type != 5 || (1 ≤ d.nKeys && d.nKeys ≤ 32 && (d.keys.head?.map (·.1)) == some 0 && keysAscend d.period d.keys))

/-- Where a motif stands in its cycle (R220). -/
structure Phase where
  c : Nat
  tau : Nat
  p : Nat
  ended : Bool
  deriving DecidableEq, Repr

/-- R220: the phase at an instant in whole ns. -/
def MotifDef.phase (d : MotifDef) (t : Nat) : Phase :=
  let q := d.period * 1000
  let c0 := if t < d.epoch then 0 else (t - d.epoch) / q
  let tau0 := if t < d.epoch then 0 else (t - d.epoch) % q
  let ended := !d.loop && 1 ≤ c0
  let c := if ended then 0 else c0
  let tau := if ended then q - 1 else tau0
  ⟨c, tau, tau * 65536 / q, ended⟩

/-- R223: the TWINKLE hash, in 32-bit unsigned arithmetic. -/
def twinkleHash (xc yc : Int) (c seed : Nat) : BitVec 32 :=
  let h := (BitVec.ofInt 32 xc * 0x9E3779B1#32) ^^^ (BitVec.ofInt 32 yc * 0x85EBCA77#32)
    ^^^ (BitVec.ofNat 32 c * 0xC2B2AE3D#32) ^^^ BitVec.ofNat 32 seed
  let h := h ^^^ (h >>> 15)
  let h := h * 0x2C1B3C6D#32
  h ^^^ (h >>> 12)

/-- The position along DIR (chapter 08, "Motif types"). -/
def MotifDef.along (d : MotifDef) (xc yc : Int) : Int :=
  match d.dir with
  | 0 => xc
  | 1 => d.span - 1 - xc
  | 2 => yc
  | _ => d.span - 1 - yc

/-- R224: the interpolated component, rounded toward zero. -/
def keyMix (a b num den : Nat) : Nat := ((a : Int) + Int.tdiv (((b : Int) - a) * num) den).toNat

/-- R224: the colour of a KEYFRAME motif under CLOCK = TIME at τ in µs. -/
def MotifDef.keyColour (d : MotifDef) (us : Nat) : List Nat :=
  let j := (d.keys.filter fun k => k.1 ≤ us).length - 1
  let cur := d.keys.getD j (0, [0, 0, 0, 0])
  let nxt : Option (Nat × List Nat) :=
    if j + 1 < d.nKeys then some (d.keys.getD (j + 1) (0, [0, 0, 0, 0]))
    else if d.loop then some (d.period, (d.keys.headD (0, [0, 0, 0, 0])).2) else none
  match d.interp, nxt with
  | true, some n =>
    (List.range 4).map fun i => keyMix (cur.2.getD i 0) (n.2.getD i 0) (us - cur.1) (n.1 - cur.1)
  | _, _ => cur.2

/-- R224: the key shown under CLOCK = STEP. -/
def MotifDef.stepKey (d : MotifDef) (steps : Nat) : Nat :=
  if d.loop then steps % max 1 d.nKeys else min steps (d.nKeys - 1)

/-- R222: colour and level of a pixel at canvas coordinates. -/
def MotifDef.pixel (d : MotifDef) (ph : Phase) (steps : Nat) (xc yc : Int) : List Nat × Nat :=
  let s := d.along xc yc
  match d.type with
  | 0 => (d.ca, 65535)
  | 1 =>
    let tri := if ph.p < 32768 then min 65535 (2 * ph.p) else min 65535 (2 * (65536 - ph.p))
    (d.ca, d.lMin + (d.lMax - d.lMin) * tri / 65536)
  | 2 =>
    let h : Int := (ph.p * d.span / 65536 : Nat)
    (if Int.emod (h - s) d.span < d.width then d.ca else d.cb, 65535)
  | 3 => (if 0 ≤ s ∧ s < ((ph.p * d.span / 65536 : Nat) : Int) then d.ca else d.cb, 65535)
  | 4 => (if (twinkleHash xc yc ph.c d.seed).toNat / 65536 < d.width then d.ca else d.cb, 65535)
  | _ =>
    if d.clockStep then ((d.keys.getD (d.stepKey steps) (0, [0, 0, 0, 0])).2, 65535)
    else (d.keyColour (ph.tau / 1000), 65535)

/-- R219: the motif value of primary k. -/
def motifValue (col : List Nat) (lam k : Nat) : Nat := col.getD k 0 * (lam + 1) / 65536

/-- An engine's descriptor: EN, DEF, OPACITY and its region (MOTIF_ENG_i). -/
structure EngDesc where
  en : Bool
  defn : Nat
  opacity : Nat
  x0 : Nat
  y0 : Nat
  w : Nat
  h : Nat
  cx : Nat
  cy : Nat
  deriving DecidableEq, Repr

/-- A descriptor from its four words. -/
def EngDesc.ofWords (w0 w1 w2 w3 : Word) : EngDesc :=
  ⟨bitsOf w0 0 1 == 1, bitsOf w0 1 6, bitsOf w0 8 8, bitsOf w1 0 16, bitsOf w1 16 16, bitsOf w2 0 16, bitsOf w2 16 16,
    bitsOf w3 0 16, bitsOf w3 16 16⟩

/-- The host descriptor of engine i. -/
def State.hostEng (s : State) (i : Nat) : EngDesc :=
  let a := (Reg.MOTIF_ENG_EN i).addr
  .ofWords (s.reg a) (s.reg (a + 4)) (s.reg (a + 8)) (s.reg (a + 12))

/-- The fallback descriptor of engine i, at FCM offset 0x13_0000 + 32 × i (R226). -/
def State.fbEng (s : State) (i : Nat) : EngDesc :=
  let o := 0x130000 + 32 * i
  let wd := fun k => BitVec.ofNat 32 (s.fcm32 (o + 4 * k))
  .ofWords (wd 0) (wd 1) (wd 2) (wd 3)

/-- The fallback look is shown (MOTIF_FB_STAT.ACTIVE). -/
def State.fbActive (s : State) : Bool := s.rdB Reg.MOTIF_FB_STAT_ACTIVE

/-- An engine that is enabled: step count 0, no motif rendered. -/
def motifReset : MotifEng := ⟨0, false, none⟩

/-- Table 18.2: an uncorrectable word lies in the definition at an offset. -/
def State.defBad (s : State) (o : Nat) : Bool := s.badWords.any fun w => w.1 == 0 && o ≤ 4 * w.2 && decide (4 * w.2 < o + 512)

/-- R227, R488: a host definition that an engine can render: named, valid, and without an uncorrectable word. -/
def State.defOk (s : State) (d : Nat) : Bool :=
  (s.motifDef (fcmMotifDef + 512 * d)).valid && !s.defBad (fcmMotifDef + 512 * d) && s.rd (Reg.MOTIF_DEF_HANDLE_HANDLE d) != 0

/-- Engine `i` as it renders now: its descriptor and definition; none when it renders nothing (R227, R230). -/
def State.rendering (s : State) (i : Nat) : Option (EngDesc × MotifDef × Nat) :=
  if s.fbActive then
    let e := s.fbEng i
    let d := s.motifDef (0x12E000 + 512 * (e.defn % 8))
    if e.en && d.valid then some (e, d, 0) else none
  else
    let e := s.hostEng i
    let d := s.motifDef (fcmMotifDef + 512 * e.defn)
    if e.en && s.defOk e.defn then
      some (e, d, (tabGet motifReset s.motif i).steps)
    else none

/-- R217, R218: the engine that supplies a tile pixel: the highest-numbered one that renders it. -/
def State.engineAt (s : State) (x y : Nat) : Option (EngDesc × MotifDef × Nat) :=
  ((List.range 8).reverse.filterMap s.rendering).find? fun (e, _, _) =>
    e.x0 ≤ x && x < e.x0 + e.w && e.y0 ≤ y && y < e.y0 + e.h

/-- R218, R219: the motif value and opacity of primary k of a tile pixel at an instant in whole ns. -/
def State.motifAt (s : State) (t x y k : Nat) : Nat × Nat :=
  match s.engineAt x y with
  | none => (0, 0)
  | some (e, d, steps) =>
    let (col, lam) := d.pixel (d.phase t) steps ((e.cx : Int) + x - e.x0) ((e.cy : Int) + y - e.y0)
    (motifValue col lam k, e.opacity)

/-- R225: the step count after pending steps of a CLOCK = STEP definition: a non-looping engine that has reached its last key
discards steps. -/
def MotifDef.stepsAfter (d : MotifDef) (steps pend : Nat) : Nat :=
  if d.loop then steps + pend else max steps (min (steps + pend) (d.nKeys - 1))

/-- R221, R225, R227: what a composition does to host engine `i`: take its pending steps, report STATE and STEP, raise
EV_MOTIF_END once for each motif. -/
def State.composeEngine (t : Nat) (s : State) (i : Nat) : State :=
  let e := s.hostEng i
  if !e.en then s.wr (Reg.MOTIF_ENG_STATE i) 0 else
    let d := s.motifDef (fcmMotifDef + 512 * e.defn)
    let h := s.rd (Reg.MOTIF_DEF_HANDLE_HANDLE e.defn)
    let ok := s.defOk e.defn
    let g := tabGet motifReset s.motif i
    let before := g.ended && g.motif == some (e.defn, h)
    let n := if ok && d.clockStep then d.stepsAfter g.steps (s.rd (Reg.MOTIF_ENG_PEND i)) else g.steps
    let fin := ok && if d.clockStep then !d.loop && d.nKeys ≤ n + 1 else (d.phase t).ended
    let s := s.wr (Reg.MOTIF_ENG_PEND i) 0
    let s := { s with motif := tabSet motifReset s.motif i ⟨n, before || fin, some (e.defn, h)⟩ }
    let s := if ok && d.clockStep then s.wr (Reg.MOTIF_ENG_STEP i) (min n 255) else s
    let s := s.wr (Reg.MOTIF_ENG_STATE i) (if !ok then 3 else if fin then 2 else 1)
    if fin && !before then s.raise Ev.MOTIF_END i else s

/-- R230: host engines take part in a composition only while the fallback look is not shown. -/
def State.composeEngines (s : State) (t : Nat) : State :=
  if s.fbActive then s else (List.range 8).foldl (fun s i => s.composeEngine t i) s

/-- R225: one step addressed to an engine: ignored when it is disabled, else pending, up to 255. -/
def State.motifStep1 (s : State) (i : Nat) : State :=
  if s.rdB (Reg.MOTIF_ENG_EN i) then s.bump (Reg.MOTIF_ENG_PEND i) else s

/-- R225: a step addressed to each engine of a mask. -/
def State.motifStep (s : State) (mask : Nat) : State := (maskIdx 8 mask).foldl State.motifStep1 s

/-- R225: an engine that a castle enables starts from step count 0 and PEND 0. -/
def State.motifEnabled (s : State) (i : Nat) : State :=
  let s := (s.wr (Reg.MOTIF_ENG_PEND i) 0).wr (Reg.MOTIF_ENG_STEP i) 0
  { s with motif := tabSet motifReset s.motif i motifReset }

/-- R231: a command or register request to start the look. While it is shown for another cause, CAUSE becomes 2. -/
def State.fbOn (s : State) : State :=
  if s.fbActive then s.wr Reg.MOTIF_FB_STAT_CAUSE 2
  else { s with fallback := { s.fallback with startDue := 2 } }

/-- R232: whether a fallback-off is accepted: only for a look of cause 2. -/
def State.fbOffOk (s : State) : Bool := s.fbActive && s.rd Reg.MOTIF_FB_STAT_CAUSE == 2

/-- R232: a fallback-off ends the look at the next grid point. -/
def State.fbOff (s : State) : State :=
  if s.fbOffOk then { s with fallback := { s.fallback with endDue := true } } else s

/-- R231: any cause but a command starts the look when it is not shown or requested. -/
def State.fbRequest (s : State) (cause : Nat) : State :=
  if s.fbActive || s.fallback.startDue != 0 then s
  else { s with fallback := { s.fallback with startDue := cause } }

/-- STREAM_LOSS_TIMEOUT in 2^-16 ns (R233). -/
def State.streamLossTime (s : State) : Nat := msec (max 100 (s.rd Reg.MOTIF_FB_CFG_TIMEOUT))

/-- R231: the look starts at a grid point. -/
def State.fbStart (s : State) : State :=
  match s.fallback.startDue with
  | 0 => s
  | c =>
    let s := { s with fallback := { s.fallback with startDue := 0, endDue := false } }
    let s := (s.wr Reg.MOTIF_FB_STAT_ACTIVE 1).wr Reg.MOTIF_FB_STAT_CAUSE c
    (s.wr Reg.SYS_STATE_STATE 6).raise Ev.FALLBACK_ON c

/-- R22, R232: the look ends at a grid point. -/
def State.fbEnd (s : State) : State :=
  let s := (s.wr Reg.MOTIF_FB_STAT_ACTIVE 0).wr Reg.MOTIF_FB_STAT_CAUSE 0
  let s := { s with fallback := { s.fallback with endDue := false, timerFrom := s.time.uptime } }
  (s.wr Reg.SYS_STATE_STATE 5).raise Ev.FALLBACK_OFF 0

end Sys2Proof.Machine
end

