-- ==== Sys2Proof/Machine/Compose.lean ====
section
/-! DEFINITION. Composition (R81 to R87, R94 to R104): from a board's samples to the inactive grey plane, in the order
of Table 3.7. -/
namespace Sys2Proof.Machine

/-- The sample of a slot as composition reads it: uncovered slots take 0; an uncorrectable one is composed as uncovered
under R85 (R104). -/
def State.sample (s : State) (b : Option Nat) (slot : Nat) : Nat :=
  match b with
  | none => 0
  | some i =>
    if s.slotGood i slot then s.fcm16 (fcmBoard i + 2 * slot)
    else match s.showing with
      | some j => if j != i && s.slotGood j slot then s.fcm16 (fcmBoard j + 2 * slot) else 0
      | none => 0

/-- R95: input transfer of a sample through a table. -/
def transfer (t : Nat → Nat) (v : Nat) : Nat :=
  let i := v / 16
  let a := t i
  let b := t (min (i + 1) 4095)
  clamp16 ((a : Int) + (((b : Int) - a) * (v % 16 : Nat)) / 16)

/-- R95, R104: input transfer under a map; an uncorrectable table entry passes the sample. -/
def State.xfer (s : State) (d : MapDesc) (v : Nat) : Nat :=
  let o := fun i => fcmXfer d.xfer + 2 * i
  if d.bypass || s.fcmBad (o (v / 16)) || s.fcmBad (o (min (v / 16 + 1) 4095)) then v
  else transfer (fun i => s.fcm16 (o i)) v

/-- R90: the map pixel that a tile pixel shows, when the map covers it. -/
def MapDesc.pixelAt (d : MapDesc) (x y : Nat) : Option Nat :=
  if x < d.tx ∨ y < d.ty then none else
    let ox := x - d.tx
    let oy := y - d.ty
    let uv : Option (Nat × Nat) :=
      match d.rot with
      | 0 => if ox < d.w ∧ oy < d.h then some (ox, oy) else none
      | 1 => if ox < d.h ∧ oy < d.w then some (oy, d.h - 1 - ox) else none
      | 2 => if ox < d.w ∧ oy < d.h then some (d.w - 1 - ox, d.h - 1 - oy) else none
      | _ => if ox < d.h ∧ oy < d.w then some (d.w - 1 - oy, ox) else none
    uv.map fun (u, v) => v * d.w + (if d.mirror then d.w - 1 - u else u)

/-- R90: the highest-numbered usable map that covers a tile pixel, with the map pixel. RAW16 maps cover none (R93). -/
def State.covering (s : State) (x y : Nat) : Option (MapDesc × Nat) :=
  (((List.range 64).reverse.map s.mapDesc).filterMap fun d =>
    if d.usable && !d.raw then (d.pixelAt x y).map fun i => (d, i) else none).head?

/-- R91, Table 3.6: primaries of a map's pattern. -/
def MapDesc.prims (d : MapDesc) : Nat := match d.pattern with
  | 0 => 3
  | 1 => 4
  | _ => 1

/-- Table 3.6, steps 2 and 3 of Table 3.7: the primaries of a map pixel. -/
def State.streamPrims (s : State) (b : Option Nat) (d : MapDesc) (i : Nat) : List Nat :=
  let n := samplesPer d.format
  let v := (List.range n).map fun c => s.xfer d (s.sample b (d.base + i * n + c))
  let rgb := if n = 3 then v else let m := v.headD 0; [m, m, m]
  match d.pattern with
  | 0 => rgb
  | 1 =>
    let w := rgb.foldl min 65535
    (if d.wsub then rgb.map (· - w) else rgb) ++ [w]
  | _ => [v.headD 0]

/-- R96: compositing of one primary. -/
def mix (prio : Nat) (l m a : Nat) : Nat :=
  match prio with
  | 0 => (m * a + l * (255 - a) + 127) / 255
  | 1 => if 0 < l then l else (m * a + 127) / 255
  | 2 => (m * a + 127) / 255
  | _ => l

/-- Primaries of the LINEAR layout: PRIM 0 one, 1 three, 2 four, 3 acts as 1. -/
def State.layoutPrims (s : State) : Nat := match s.rd Reg.PIPE_CFG_PRIM with
  | 0 => 1
  | 2 => 4
  | _ => 3

/-- R91: the number of primaries of a tile pixel. -/
def State.pixelPrims (s : State) (x y : Nat) : Nat :=
  if s.rdB Reg.PIPE_CFG_LAYOUT then
    match s.covering x y with
    | some (d, _) => d.prims
    | none => 3
  else s.layoutPrims

/-- Steps 2 to 4 of Table 3.7 for a tile pixel, at the instant `t` (whole ns) of its motif phase. While the fallback look is
shown, a primary of the layout beyond the map's pattern takes its motif value too, where R91 alone would give 0 (DESIGN CHOICE,
log entry 111). -/
def State.composited (s : State) (b : Option Nat) (t x y : Nat) : List Nat :=
  (List.range (s.pixelPrims x y)).map fun k =>
    let (m, a) := s.motifAt t x y k
    match s.covering x y with
    | none => mix 2 0 m a
    | some (d, i) => if s.fbActive then mix 2 0 m a
        else if k < d.prims then mix d.prio ((s.streamPrims b d i).getD k 0) m a else 0

/-- R97: calibration coefficient i of pixel p of a bank, signed Q1.11. -/
def State.calCoef (s : State) (bank p i : Nat) : Int :=
  let bit := (9 * p + i) * 12
  signed 12 (s.fcm16 (fcmCal bank + bit / 8) / 2 ^ (bit % 8))

/-- R97: the coefficients that calibrate tile pixel p: one of the diagonal for a MONO pixel, else the rows of the primaries. -/
def calIndices (mono : Bool) (p prims : Nat) : List Nat := if mono then [4 * (p % 3)] else List.range (3 * min 3 prims)

/-- R104: an uncorrectable word lies in one of the coefficients that calibrate a pixel. -/
def State.calBad (s : State) (bank : Nat) (mono : Bool) (p prims : Nat) : Bool :=
  let q := if mono then p / 3 else p
  (calIndices mono p prims).any fun i =>
    let o := fcmCal bank + (9 * q + i) * 12 / 8
    s.fcmBad o || s.fcmBad (o + 1)

/-- A 3 × 3 product with rounding and shift, clamped (steps 5 and 6). -/
def mat3 (m : Nat → Int) (half den : Int) (c : List Nat) : List Nat :=
  (List.range 3).map fun j =>
    clamp16 ((m (3 * j) * (c.getD 0 0 : Nat) + m (3 * j + 1) * (c.getD 1 0 : Nat) + m (3 * j + 2) * (c.getD 2 0 : Nat)
      + half) / den)

/-- A 3 × 3 product on the first three primaries of a pixel: a primary the layout drops counts 0 (DEDUCED, log entry 113), and W
passes unchanged (R94). -/
def onColours (m : Nat → Int) (half den : Int) (c : List Nat) : List Nat := (mat3 m half den c ++ c.drop 3).take c.length

/-- R91, R92: the pixel is a MONO pixel: by its map's pattern, or, covered by no map, by its single primary (DESIGN CHOICE, log entry
134). -/
def State.monoPixel (s : State) (x y : Nat) : Bool :=
  match s.covering x y with
  | some (d, _) => d.pattern == 2
  | none => s.pixelPrims x y == 1

/-- Step 5: calibration of tile pixel p. The W primary skips it; a MONO emitter takes a diagonal coefficient (R97). -/
def State.calibrated (s : State) (mono : Bool) (p : Nat) (c : List Nat) : List Nat :=
  let bank := s.rd Reg.PIPE_CAL_CFG_BANK
  let q := if mono then p / 3 else p
  if !s.rdB Reg.PIPE_CAL_CFG_EN || s.calBad bank mono p c.length then c
  else if mono then c.map fun v => clamp16 ((s.calCoef bank q (4 * (p % 3)) * (v : Nat) + 1024) / 2048)
  else onColours (s.calCoef bank q) 1024 2048 c

/-- Step 6: the thermal colour matrix; W primaries and MONO pixels skip it. -/
def State.thermal (s : State) (mono : Bool) (c : List Nat) : List Nat :=
  if !s.rdB Reg.PIPE_THERM_CFG_EN || mono then c
  else onColours (fun i => s.pipe.matrix.getD i 0) 8192 16384 c

/-- The tile pixels and primaries that reach an emitter (R91). -/
def State.pixelsOf (s : State) (e : Nat) : List (Nat × Nat × Nat) :=
  let l := e / 384
  let n := e % 384
  let tw := s.rd Reg.PIPE_CFG_TILE_W
  let th := s.rd Reg.PIPE_CFG_TILE_H
  if tw = 0 then []
  else if s.rdB Reg.PIPE_CFG_LAYOUT then
    (List.range (min 16384 (tw * th))).flatMap fun p =>
      let w := s.fcm32 (fcmPlace + 4 * p)
      if bitAt w 31 && !s.fcmBad (fcmPlace + 4 * p) && w % 128 == l then
        (List.range (s.pixelPrims (p % tw) (p / tw))).filterMap fun k =>
          if w / 128 % 512 + k * (w / 65536 % 256) = n then some (p % tw, p / tw, k) else none
      else []
  else
    let pr := s.layoutPrims
    let y := n / (tw * pr) * s.geom.lines + l
    if l < s.geom.lines ∧ y < th then [(n % (tw * pr) / pr, y, n % pr)] else []

/-- R93: the RAW16 sample that replaces the composed value of an emitter. A castled RAW16 map with H other than 1 writes W × H
emitters (DESIGN CHOICE, log entry 108). -/
def State.rawSample (s : State) (b : Option Nat) (e : Nat) : Option Nat :=
  (((List.range 64).reverse.map s.mapDesc).filterMap fun d =>
    if d.usable && d.raw && d.tx ≤ e && e < d.tx + d.pixels then some (s.sample b (d.base + (e - d.tx))) else none).head?

/-- The tile pixel and primary that supply an emitter. Where placement entries put several pixels on one emitter, one of them
supplies it (log entry 14). -/
def State.supplier (s : State) (e : Nat) : Option (Nat × Nat × Nat) :=
  let l := s.pixelsOf e
  l[Config.freeValue (s.free + e) % max 1 l.length]?

/-- Steps 1 to 6: the linear value of an emitter. -/
def State.linear (s : State) (b : Option Nat) (t e : Nat) : Nat :=
  match s.rawSample b e with
  | some v => v
  | none =>
    match s.supplier e with
    | none => 0
    | some (x, y, k) =>
      let mono := s.monoPixel x y
      (s.thermal mono (s.calibrated mono (y * s.rd Reg.PIPE_CFG_TILE_W + x) (s.composited b t x y))).getD k 0

/-- R101: brightness, extending to 20 bits. -/
def bright (level y : Nat) : Nat := (y * level + 2048) / 4096

/-- Steps 1 to 7: the code G of an emitter before ABL. -/
def State.codeOf (s : State) (b : Option Nat) (t e : Nat) : Nat := bright (s.rd Reg.PIPE_BRIGHT_LEVEL) (s.linear b t e)

/-- R102: the emitters that can conduct in the frame. -/
def State.canConduct (s : State) (e : Nat) : Bool := s.bankOn (e % 384) && e / 384 < s.geom.lines

/-- R102: Σ I_ch(e) × G_e in units of 24 mA / 2^28. -/
def State.currentSum (s : State) (g : Nat → Nat) : Nat :=
  (List.range 49152).foldl (fun acc e =>
    if s.canConduct e then acc + s.iEff (s.rd Reg.SINK_FOLD_STAT_FF) (e % 384) * g e else acc) 0

/-- R102: I_pred as a fraction (numerator, denominator) in mA. -/
def State.predicted (s : State) (g : Nat → Nat) : Nat × Nat :=
  (s.greyCfg.cap * gclkUnit * s.currentSum g * 24, gckKhz s * s.frameTime * 2 ^ 48)

/-- R102: k of a prediction and a budget. -/
def ablFactor (budget : Nat) (pred : Nat × Nat) : Nat :=
  if budget * pred.2 < pred.1 then budget * pred.2 * 32768 / pred.1 else 32768

/-- R110: f of the frame start being composed. -/
def State.frameIndex (s : State) (g : Nat) : Nat :=
  if s.readyMode then s.scan.flips % 16
  else (Int.emod (gridIndexAtOrBefore s g) 16).toNat

/-- R114, R116: the new grey word of an emitter. -/
def State.newWord (s : State) (f : Nat) (code : Nat → Nat) (e : Nat) : GreyWord :=
  let plane := s.rd Reg.GREY_STAT_PLANE
  let clear := s.scan.accClear || s.scan.accClearOnce || s.fcmBad (fcmPlane plane + 4 * e)
  let acc := if clear then 0 else (s.greyWord plane e).acc
  greyPath s.greyCfg (code e) (litTime' s.greyCfg f e (code e)) acc

/-- R107: write the composed words into the plane that is not being scanned, with the geometry they were composed under. -/
def State.writePlane (s : State) (f : Nat) (code : Nat → Nat) : State :=
  let p := 1 - s.rd Reg.GREY_STAT_PLANE
  let word := fun e => (s.newWord f code e).pack
  let pos := (SMap.cells (fun _ => false) (fun e => decide (0 < code e)) 0 49152)
  let s' := s.writeFcm (fcmPlane p) fcmPlaneSize (fun o => leByte (word ((o - fcmPlane p) / 4)) ((o - fcmPlane p) % 4))
  let geom := (s.geom.nSub, s.geom.sSeg)
  let s' := if p = 0 then { s' with scan := { s'.scan with planeGeom0 := geom, gPos0 := pos } }
    else { s' with scan := { s'.scan with planeGeom1 := geom, gPos1 := pos } }
  { (s'.wr Reg.GREY_STAT_FIDX f) with scan := { s'.scan with accClearOnce := false } }

/-- R102, R103: ABL of a composition: registers and event. -/
def State.ablStep (s : State) (k : Nat) (pred : Nat × Nat) : State :=
  let s := (s.wr Reg.PIPE_ABL_FACTOR k).wrB Reg.PIPE_ABL_ACTIVE (k < 32768)
  let s := s.wr Reg.PIPE_ABL_PRED_PRED_MA (min 65535 (pred.1 / max 1 pred.2))
  let s' := if k < 32768 && s.pipe.ablIdle then s.raise Ev.ABL_ACTIVE k else s
  { s' with pipe := { s'.pipe with ablIdle := k == 32768 } }

/-- R104: the composition reads an uncorrectable calibration word for emitter e. -/
def State.calHit (s : State) (b : Option Nat) (e : Nat) : Bool :=
  (s.rawSample b e).isNone && match s.supplier e with
    | some (x, y, _) =>
      s.calBad (s.rd Reg.PIPE_CAL_CFG_BANK) (s.monoPixel x y) (y * s.rd Reg.PIPE_CFG_TILE_W + x) (s.pixelPrims x y)
    | none => false

/-- R104: uncorrectable calibration words that a composition of board `b` reads are reported once for the frame. -/
def State.calErrorStep (s : State) (b : Option Nat) : State :=
  if s.rdB Reg.PIPE_CAL_CFG_EN && s.badWords.any (fun w => w.1 == 0) && (List.range 49152).any (s.calHit b) then
    s.raise Ev.CAL_ERROR (s.rd Reg.PIPE_CAL_CFG_BANK)
  else s

/-- Table 3.9, R217: the motif layer, one 16-bit value per emitter, as the engines rendered it for this composition. -/
def State.writeMotifLayer (s : State) (t : Nat) : State :=
  let m := fun e =>
    match s.supplier e with
    | none => 0
    | some (x, y, k) => (s.motifAt t x y k).1
  s.writeFcm fcmMotifLayer 98304 fun o => leByte (m ((o - fcmMotifLayer) / 2)) ((o - fcmMotifLayer) % 2)

/-- Steps 2 to 9 of Table 3.7 for the whole frame: board `b` (none composes 0), frame start `g`. -/
def State.composeFrame (s : State) (b : Option Nat) (g : Nat) (fb : Bool) : State :=
  let active := s.fbActive
  let s := s.wrB Reg.MOTIF_FB_STAT_ACTIVE fb
  let t := (if s.readyMode then s.now else g) / nsUnit
  let s := s.composeEngines t
  let pred := s.predicted (s.codeOf b t)
  let k := ablFactor s.budget pred
  let code := fun e => s.codeOf b t e * k / 32768
  let s := (((s.writeMotifLayer t).calErrorStep b).ablStep k pred).writePlane (s.frameIndex g) code
  { (s.wrB Reg.MOTIF_FB_STAT_ACTIVE active) with free := s.free + 49152 }

/-- R83: a later target, or the same target and the newer frame number in 32-bit serial order. -/
def newerFrame (a b : Nat × Word) : Bool :=
  b.1 < a.1 || (a.1 == b.1 && a.2 != b.2 && (a.2 - b.2).toNat < 2 ^ 31)

/-- R81, R83, R85: the composable boards that qualify for frame start g. -/
def State.qualifying (s : State) (g : Nat) : List (Nat × Nat × Word) :=
  (List.range 3).filterMap fun i =>
    let b := s.board i
    match b.target, b.frame with
    | some t, some f => if b.composable && t ≤ g && (!s.readyMode || (b.deadline.getD 0) ≤ s.now) then some (i, t, f) else none
    | _, _ => none

/-- R83: the board taken for frame start g. -/
def State.chosen (s : State) (g : Nat) : Option Nat :=
  ((s.qualifying g).foldl (fun acc x => match acc with
    | none => some x
    | some y => if newerFrame x.2 y.2 then some x else some y) none).map (·.1)

/-- R83: every other READY board with a target before g is emptied. -/
def State.supersede (s : State) (g : Nat) (keep : Option Nat) : State :=
  (s.qualifying g).foldl (fun s (i, t, _) =>
    if some i != keep && t < g then (s.setBoard i boardEmpty).bump Reg.PIPE_CNT1_SUPERSEDED else s) s

/-- The board that holds a frame and is composable. -/
def State.readyBoard (s : State) (f : Word) : Option Nat :=
  (List.range 3).find? fun i => (s.board i).frame == some f && (s.board i).composable

/-- R62: a FLIP has selected a frame start not later than g, and its frame is not complete. -/
def State.flipMissed (s : State) (g : Nat) : Bool := s.pipe.flips.any fun e => e.2 ≤ g && (s.readyBoard e.1).isNone

/-- R78: a FLIP move whose frame start is not later than g and whose frame is complete. -/
def State.flipMet (s : State) (g : Nat) (e : Word × Nat) : Bool := decide (e.2 ≤ g) && (s.readyBoard e.1).isSome

/-- R78: the FLIP moves whose frame start is not later than g and whose frame is complete are spent: the frame's target stands. -/
def State.resolveFlips (s : State) (g : Nat) : State :=
  { s with pipe := { s.pipe with flips := s.pipe.flips.filter fun e => !s.flipMet g e } }

/-- R22, R231, R232: whether frame start g shows the fallback look; `new` says that a complete new frame is presented. -/
def State.fbFor (s : State) (g : Nat) (new : Bool) : Bool :=
  if s.fbActive then
    !(s.fallback.endDue || (new && s.rd Reg.MOTIF_FB_STAT_CAUSE == 1) ||
      (new && s.rd Reg.MOTIF_FB_STAT_CAUSE == 3 && (match s.fallback.restartDone with
        | some t => t < g
        | none => false)))
  else s.fallback.startDue != 0

/-- R62, R83: the board that the composition for frame start g takes: none where a FLIP of an incomplete frame selects g. -/
def State.pick (s : State) (g : Nat) : Option Nat := if s.flipMissed g then none else s.chosen g

/-- The coverage RAM holds 32 slots per word, board after board (log entry 41): a bad word leaves its slots uncovered (Table 18.2). -/
def State.eccCoverage (s : State) (w : Nat) : State :=
  if w / 1536 < 3 then
    let b := s.board (w / 1536)
    let lo := 32 * (w % 1536)
    s.setBoard (w / 1536) { b with cov := SMap.setRange (fun _ => false) b.cov lo 32 fun _ => false }
  else s

/-- The fallback definitions and descriptors. -/
def fallbackWord (w : Nat × Nat) : Bool :=
  let o := 4 * w.2
  w.1 == 0 && ((decide (0x12E000 ≤ o) && decide (o < 0x12F000)) || (decide (0x130000 ≤ o) && decide (o < 0x130100)))

/-- R229: the Rook copies the fallback section again. -/
def State.fallbackAgain (s : State) : State := { s with store := { s.store with copying := s.store.armed.isSome } }

/-- R489: a composition reads the coverage of its board and, for the fallback look, the fallback definitions and descriptors. -/
def State.scrubCompose (s : State) (board : Option Nat) (fb : Bool) : State :=
  let (ws, s) := s.scrubTake fun w => w.1 == 3 && board == some (w.2 / 1536)
  let s := ws.foldl (fun s w => s.eccCoverage w.2) s
  let (ws, s) := s.scrubTake fun w => fb && fallbackWord w
  if ws.isEmpty then s else s.fallbackAgain

/-- Begin the composition for frame start g (R81, R83, R85, R86). A repeat that R62 calls for leaves the other boards (DEDUCED,
log entry 101). -/
def State.compose (s : State) (g : Nat) : State :=
  let miss := s.flipMissed g
  let pick := s.pick g
  let clears := s.scan.accClear
  let met := s.pipe.flips.filter (s.flipMet g)
  let s := s.resolveFlips g
  let s := if miss then s else s.supersede g pick
  let complete := match pick with
    | some i => !(s.board i).patched
    | none => false
  let s := s.scrubCompose (pick.orElse fun _ => s.showing) (s.fbFor g complete)
  let s := match pick with
    | some i => s.patchBoard i
    | none => s.bump Reg.PIPE_CNT1_REPEAT
  let b := match pick with
    | some i => some i
    | none => s.showing
  let fb := s.fbFor g complete
  let s := s.composeFrame b g fb
  { s with pipe := { s.pipe with comp := some ⟨b, g, false, pick.isSome, complete, fb, s.time.uptime, clears, met⟩,
                                 composedFor := some g } }

/-- The states in which the scan engine runs: ARMED and FALLBACK outside the dark-safe state (R142). -/
def State.displayState (s : State) : Bool :=
  (s.rd Reg.SYS_STATE_STATE == 5 || s.rd Reg.SYS_STATE_STATE == 6) && !s.rdB Reg.SYS_STATE_DARK_SAFE

/-- R450, R525: READY with an entry to ARMED due at the coming grid point, which is fixed as the resuming frame start. -/
def State.armComing (s : State) : Bool :=
  match s.store.armDue with
  | some d => s.rd Reg.SYS_STATE_STATE == 4 && !s.rdB Reg.SYS_STATE_DARK_SAFE &&
      d.from_ + msec 1 ≤ s.time.uptime + (s.nextGrid (s.now + 1) - s.now)
  | none => false

/-- R525: the display resumes, or stands before its entry to ARMED. -/
def State.resuming (s : State) : Bool := s.displayState || s.armComing

/-- R525: an idle scan engine has taken the castling point of its resuming frame start (SCAN_STAT IDLE, setup done). -/
def State.resumeTaken (s : State) : Bool := s.scan.nextKind == .resume && s.scan.setupDone

/-- The frame start a composition beginning now is for (R81). -/
def State.composeTarget (s : State) : Nat :=
  if s.readyMode && !s.armComing then s.now + s.greyLead else s.nextGrid (s.now + 1)

/-- A composition is in hand for the coming frame start. While the scan engine is idle, one that was made for a frame start which has
passed without its frame, or which a VT step, a load of VT or a new grid has moved, is not (R525). -/
def State.compInHand (s : State) : Bool := match s.pipe.comp with
  | some c => !(s.idle && (c.start < s.now || (c.start != s.composeTarget && !(s.readyMode && !s.armComing))))
  | none => false

/-- R81: whether a composition may begin now: after the castling point that precedes its frame start, at or after the
deadline, once for each frame start, not for a dark frame (R152), and not under BRACE (R463, R466). In READY mode with no new
frame, the composition of the repeat begins GREY_LEAD before FRAME_MAX runs out (DESIGN CHOICE, log entry 110). -/
def State.mayCompose (s : State) : Bool :=
  s.resuming && s.rdB Reg.CLK_STAT_GCK_LOCK && !s.brace && !s.scan.braceHold && !s.compInHand &&
  s.scan.nextKind != .darkB && (s.scan.inBlank || s.resumeTaken) &&
  (if s.readyMode && !s.armComing then
    (s.pick (s.now + s.greyLead)).isSome || s.scan.frameStart + s.effMax ≤ (s.now + s.greyLead : Nat)
   else s.composeTarget ≤ s.now + s.greyLead && s.pipe.composedFor != some s.composeTarget)

/-- R81: composition of the coming frame starts. -/
def execCompositionStart (at_ : Vt) (s : State) : Host.Outcome State Fault Refusal :=
  let s := s.elapseTo at_
  .next (if s.mayCompose then s.compose s.composeTarget else s)

/-- R82: composition ends; GREY_PERF reports its duration in whole µs, rounded down (DESIGN CHOICE, log entry 130). -/
def execCompositionDone (at_ : Vt) (s : State) : Host.Outcome State Fault Refusal :=
  let s := s.elapseTo at_
  .next (match s.pipe.comp with
    | none => s
    | some c =>
      if c.done then s else
        let us := min 255 ((s.time.uptime - c.began) / usec 1)
        let s := (s.wr Reg.GREY_PERF_LAST us).hwWr Reg.GREY_PERF_MAX (max us (s.rd Reg.GREY_PERF_MAX))
        { s with pipe := { s.pipe with comp := some { c with done := true } } })

end Sys2Proof.Machine
end

