-- ==== Sys2Proof/Machine/Mirror.lean ====
section
/-! DEFINITION. The mirror port (chapter 15). -/
namespace Sys2Proof.Machine

/-- R420, R493: the port runs: EN = 1 in READY, ARMED and FALLBACK outside the dark-safe state, with IOX powered. -/
def State.mirRuns (s : State) : Bool :=
  s.rdB Reg.MIR_CTRL_EN && s.powered 4 && !s.rdB Reg.SYS_STATE_DARK_SAFE &&
    (s.rd Reg.SYS_STATE_STATE == 4 || s.rd Reg.SYS_STATE_STATE == 5 || s.rd Reg.SYS_STATE_STATE == 6)

/-- The port is in COMMAND mode. -/
def State.mirCommand (s : State) : Bool := s.rdB Reg.MIR_CTRL_MODE

/-- R419: the period of the MIR clock, in 2^-16 ns: 500 MHz divided by DIV_INT + DIV_FRAC / 256; a DIV_INT below 10 acts as 10. -/
def State.mirClock (s : State) : Nat := (max 10 (s.rd Reg.MIR_CLK_DIV_INT) * 256 + s.rd Reg.MIR_CLK_DIV_FRAC) * (2 * nsUnit / 256)

/-- Table 15.1: the source raster of values a reader gives. -/
def mirRaster (rd inForce : Fld → Nat) : Nat × Nat :=
  if rd Reg.MIR_SRC_SRC = 0 then
    let d := mapDescOf inForce (rd Reg.MIR_SRC_MAP)
    (d.w, d.h)
  else (384, inForce Reg.SCAN_GEOM_LINES)

/-- R422: the window (x0, y0, w, h), with 0 meaning the whole raster. -/
def mirWindow (rd inForce : Fld → Nat) : Nat × Nat × Nat × Nat :=
  let (rw, rh) := mirRaster rd inForce
  let w := rd Reg.MIR_WIN_SIZE_W
  let h := rd Reg.MIR_WIN_SIZE_H
  (rd Reg.MIR_WIN_POS_X0, rd Reg.MIR_WIN_POS_Y0, if w = 0 then rw else w, if h = 0 then rh else h)

/-- R422: the window is valid. -/
def mirWindowOk (rd inForce : Fld → Nat) : Bool :=
  let (rw, rh) := mirRaster rd inForce
  let (x0, y0, w, h) := mirWindow rd inForce
  let k := rd Reg.MIR_SRC_SCALE + 1
  (rd Reg.MIR_SRC_SRC != 0 || (mapDescOf inForce (rd Reg.MIR_SRC_MAP)).usable) &&
    x0 + w ≤ rw && y0 + h ≤ rh && w * k ≤ 2048 && h * k ≤ 2048

/-- R422: the active area in force. -/
def State.mirActive (s : State) : Nat × Nat :=
  let (_, _, w, h) := mirWindow s.rd s.rd
  let k := s.rd Reg.MIR_SRC_SCALE + 1
  (w * k, h * k)

/-- Table 15.1, R431: INPUT. -/
def State.mirInput (s : State) (u v : Nat) : List Nat :=
  let d := s.mapDesc (s.rd Reg.MIR_SRC_MAP)
  if !d.usable || s.mir.mapGone then [0, 0, 0] else
    let i := v * d.w + u
    let n := samplesPer d.format
    let at_ := fun k =>
      let slot := d.base + i * n + k
      match s.showing with
      | some b => if (s.board b).covered slot then s.fcm16 (fcmBoard b + 2 * slot) / 256 else 0
      | none => 0
    if n = 3 then [at_ 0, at_ 1, at_ 2] else [at_ 0, at_ 0, at_ 0]

/-- Table 15.1: GREY, from the plane being scanned. -/
def State.mirGrey (s : State) (e : Nat) : List Nat :=
  let w := s.greyWord (s.rd Reg.GREY_STAT_PLANE) e
  let c := s.greyCfg.cap
  match w.mode with
  | 0 => let v := min 255 ((w.tot * 255 + c - 1) / c); [v, v, v]
  | 3 => if w.tot = 0 then [0, 64, 0] else [0, 255, 0]
  | _ => [0, 160, 255]

/-- Table 15.1: CENSUS. -/
def State.mirCensus (s : State) (e : Nat) : List Nat :=
  if s.suppressed e then [255, 0, 255] else
    match s.mapState e with
    | 1 => [0, 0, 0]
    | 0 => [64, 64, 64]
    | 2 => [255, 0, 0]
    | _ => [255, 255, 0]

/-- R421, R431: a source pixel as (R, G, B). -/
def State.mirPixel (s : State) (u v : Nat) : List Nat :=
  if !s.powered 2 then [0, 0, 0] else
    let e := v * 384 + u
    match s.rd Reg.MIR_SRC_SRC with
    | 0 => s.mirInput u v
    | 1 => s.mirGrey e
    | 2 => s.mirCensus e
    | _ => let m := s.fcm16 (fcmMotifLayer + 2 * e) / 256; [m, m, m]

/-- R422: the pixels of an active line. -/
def State.mirLine (s : State) (y : Nat) : List (List Nat) :=
  let (x0, y0, _, _) := mirWindow s.rd s.rd
  let k := s.rd Reg.MIR_SRC_SCALE + 1
  (List.range s.mirActive.1).map fun x => s.mirPixel (x0 + x / k) (y0 + y / k)

/-- Table 15.2: MIR_D for a pixel in VIDEO mode. -/
def mirPins (bus : Nat) (px : List Nat) : Nat :=
  let r := px.getD 0 0
  let g := px.getD 1 0
  let b := px.getD 2 0
  match bus with
  | 0 => r / 8 * 2048 + g / 4 * 32 + b / 8
  | 1 => r / 4 * 4096 + g / 4 * 64 + b / 4
  | _ => r * 65536 + g * 256 + b

/-- Table 15.2: the bytes of a pixel in COMMAND mode. -/
def mirBytes (bus : Nat) (px : List Nat) : List Byte :=
  match bus with
  | 0 => beBytes 2 (mirPins 0 px)
  | 1 => px.map fun c => BitVec.ofNat 8 (c / 4 * 4)
  | _ => px.map fun c => BitVec.ofNat 8 c

/-- R426: what the port reads now: the SHOWING board for INPUT, the scanned plane for GREY. -/
def State.mirSource (s : State) : Option Nat :=
  match s.rd Reg.MIR_SRC_SRC with
  | 0 => s.showing
  | 1 => some (s.rd Reg.GREY_STAT_PLANE)
  | _ => none

/-- R429: apply a pending MIR commit: the shadows come in force, or the window is refused. -/
def State.mirApply (s : State) : State :=
  let pend : Fld := ⟨Reg.SYS_CASTLE_STAT_PENDING.addr, 8, 1⟩
  if !s.rdB pend then s else
    let s := s.wr pend 0
    if mirWindowOk s.rdSh s.rd then
      let s := { s with mir := { s.mir with mapGone := false } }
      [Reg.MIR_SRC_SRC.addr, Reg.MIR_WIN_POS_X0.addr, Reg.MIR_WIN_SIZE_W.addr].foldl
        (fun s a => s.setReg a (s.shReg a)) s
    else s.setW1c Reg.MIR_STAT_WIN_REJ

/-- FRAMES wraps (MIR_CNT). -/
def State.mirCountFrame (s : State) : State := s.bumpWrap Reg.MIR_CNT_FRAMES

/-- R427: the bytes of a pixel in COMMAND mode, and the MIR clocks that a byte's WR cycle takes; a WR_LO or WR_HI of 0 acts as 1. -/
def State.mirPixelBytes (s : State) : Nat := if s.rd Reg.MIR_CTRL_BUS = 0 then 2 else 3
def State.mirWrLo (s : State) : Nat := max 1 (s.rd Reg.MIR_CMD_WR_LO)
def State.mirWrHi (s : State) : Nat := max 1 (s.rd Reg.MIR_CMD_WR_HI)
def State.mirWrCycle (s : State) : Nat := s.mirWrLo + s.mirWrHi

/-- R427: PREFIX_N; above 4 acts as 4. -/
def State.mirPrefixN (s : State) : Nat := min 4 (s.rd Reg.MIR_CMD_PREFIX_N)

/-- R424: HS is active for HSW PCLK (0 acts as 1), and the first active pixel follows the back porch. -/
def State.mirHsw (s : State) : Nat := max 1 (s.rd Reg.MIR_HTIM_HSW)
def State.mirFirstPixel (s : State) : Nat := s.mirHsw + s.rd Reg.MIR_HTIM_HBP

/-- The MIR clocks from a line boundary to the next: HSW + HBP + active width + HFP in VIDEO mode (R424); in COMMAND mode the WR cycles of a
line, or, before the first line, the clock from the fall of MIR_CS and the prefix (R427). -/
def State.mirLineClocks (s : State) : Nat :=
  if s.mirCommand then
    if s.mir.line = 0 then 1 + s.mirPrefixN * s.mirWrCycle else s.mirActive.1 * s.mirPixelBytes * s.mirWrCycle
  else s.mirFirstPixel + s.mirActive.1 + s.rd Reg.MIR_HTIM_HFP

/-- The instant has come that lies some MIR clocks after the last line boundary. -/
def State.mirAfter (s : State) (clocks : Nat) : Bool :=
  match s.mir.lineAt with
  | some b => decide (b + clocks * s.mirClock ≤ s.time.uptime)
  | none => false

/-- R423, Table 15.2: the pins of MIR_D that the format uses, from D0 up. -/
def State.mirUsed (s : State) : Nat :=
  if s.mirCommand then 8 else match s.rd Reg.MIR_CTRL_BUS with
    | 0 => 16
    | 1 => 18
    | _ => 24

/-- R420: the idle levels; an inactive level is the opposite of the one HS_POL, VS_POL or DE_POL makes active. -/
def State.mirIdlePads (s : State) : MirPads :=
  ⟨some (!s.rdB Reg.MIR_CTRL_HS_POL), some (!s.rdB Reg.MIR_CTRL_VS_POL), some (s.rdB Reg.MIR_CTRL_DE_POL), some false, some true, some true,
    some 0, s.mirUsed⟩

/-- R424: VS is active from t0 to t1. -/
def State.mirVsActive (s : State) : Bool := s.mir.porch.isNone && decide (s.mir.line < max 1 (s.rd Reg.MIR_VTIM_VSW))

/-- R424: the pads in PCLK k of a VIDEO line, before its second edge or after it. Data changes on the edge that PCLK_EDGE selects; PCLK is
held low until the MIR clock has relocked (R430). -/
def State.mirVideoPads (s : State) (k : Nat) (second : Bool) : MirPads :=
  let px := if s.mirFirstPixel ≤ k then s.mir.videoOut[k - s.mirFirstPixel]? else none
  ⟨some (decide (k < s.mirHsw) == s.rdB Reg.MIR_CTRL_HS_POL), some (s.mirVsActive == s.rdB Reg.MIR_CTRL_VS_POL),
    some (px.isSome != s.rdB Reg.MIR_CTRL_DE_POL),
    some (!s.mir.clockHeld && (s.rdB Reg.MIR_CTRL_PCLK_EDGE != second)), none, none, px, s.mirUsed⟩

/-- R427: the pads c MIR clocks after a line boundary of a COMMAND frame, or after the fall of MIR_CS. MIR_CS and MIR_WR are high between
frames. -/
def State.mirCommandPads (s : State) (c : Nat) : MirPads :=
  let rest (cs : Bool) : MirPads := ⟨none, none, none, none, some cs, some true, none, s.mirUsed⟩
  if !s.mir.writing then rest true else
    let lead := if s.mir.line = 0 then 1 else 0
    let chunk := if s.mir.line = 0 then s.mir.cmdOut
      else s.mir.cmdOut.drop (s.mir.cmdOut.length - s.mirActive.1 * s.mirPixelBytes)
    if c < lead then rest false else
      match chunk[(c - lead) / s.mirWrCycle]? with
      | some (px, b) => ⟨none, none, some px, none, some false, some (decide (s.mirWrLo ≤ (c - lead) % s.mirWrCycle)), some b.toNat, s.mirUsed⟩
      | none => rest false

/-- The pads take the levels of the instant. -/
def State.mirDrive (s : State) : State :=
  { s with mir := { s.mir with pads := if !s.mirRuns then s.mirIdlePads else if s.mirCommand then s.mirCommandPads 0
                                       else s.mirVideoPads 0 false } }

/-- t0 of a mirror frame: MIR values applied, the request taken, RETIME ended. -/
def State.mirBegin (s : State) : State :=
  let s := (s.mirApply.mirCountFrame.wr Reg.MIR_STAT_RETIME 0).wr Reg.MIR_STAT_LINE 0
  { s with mir := { s.mir with request := false, waited := 0, line := 0, porch := none, source := s.mirSource,
                               retimeDue := false, torn := false, lineAt := some s.time.uptime } }

/-- R427: the prefix of a COMMAND frame, byte 0 first. -/
def State.mirPrefix (s : State) : List (Bool × Byte) :=
  (List.range s.mirPrefixN).map fun k => (false, leByte (s.reg Reg.MIR_CMD_BYTES_B0.addr).toNat k)

/-- R427: the bytes of a line of a COMMAND frame. -/
def State.mirLineBytes (s : State) (y : Nat) : List (Bool × Byte) :=
  (s.mirLine y).flatMap fun px => (mirBytes (s.rd Reg.MIR_CTRL_BUS) px).map fun b => (true, b)

/-- R427: the port starts to write a frame: MIR_CS falls, and the prefix comes first. -/
def State.mirWrite (s : State) : State :=
  let s := s.mirBegin.wr Reg.MIR_STAT_STATE 1
  { s with mir := { s.mir with writing := true, cmdOut := s.mirPrefix } }.mirDrive

/-- R426: a flip has taken away what the frame under way reads. -/
def State.mirNoteSource (s : State) : State :=
  { s with mir := { s.mir with torn := s.mir.torn || s.mirSource != s.mir.source } }

/-- R425, R427, R428: an LED frame start sets a start request; one that finds a request set, or a COMMAND frame being
written, is dropped and counted. -/
def State.mirRequest (s : State) : State :=
  if !s.mirRuns then s else
    let s := s.mirNoteSource
    if s.mir.request || s.mir.writing then
      (s.bump Reg.MIR_CNT_SKIP |> fun s => { s with mir := { s.mir with waited := s.mir.waited + 1 } })
    else
      let s := { s with mir := { s.mir with request := true, waited := 0 } }
      if s.mirCommand && s.rdB Reg.MIR_CMD_TE_EN then s.wr Reg.MIR_STAT_STATE 3 else s

/-- R424: t2 and t3 in lines from t0. -/
def State.mirT2 (s : State) : Nat := max 1 (s.rd Reg.MIR_VTIM_VSW) + s.rd Reg.MIR_VTIM_VBP
def State.mirT3 (s : State) : Nat := s.mirT2 + s.mirActive.2

/-- R430: RETIME begins at the line boundary after a timing change. -/
def State.mirRetimeBegins (s : State) : State :=
  if s.mir.retimeDue then { (s.wr Reg.MIR_STAT_RETIME 1) with mir := { s.mir with retimeDue := false } } else s

/-- R426: a line is read: TEAR, where the board or plane of its frame has gone. CENSUS and MOTIF are read live. -/
def State.mirTear (s : State) : State :=
  if s.mir.torn || s.mirSource != s.mir.source then s.setW1c Reg.MIR_STAT_TEAR else s

/-- R424 to R426, R430: a mirror line boundary in VIDEO mode. -/
def State.mirLineStep (s : State) : State :=
  let s := s.mirRetimeBegins
  match s.mir.porch with
  | some n => { s with mir := { s.mir with porch := some (n + 1), line := s.mir.line + 1, videoOut := [] } }.wr
      Reg.MIR_STAT_LINE (min 4095 (s.mir.line + 1))
  | none =>
    let line := s.mir.line + 1
    let s := { s with mir := { s.mir with line := line } }.wr Reg.MIR_STAT_LINE (min 4095 line)
    if s.mirT3 ≤ line then
      { (s.wr Reg.MIR_STAT_STATE 2) with mir := { s.mir with porch := some 0, videoOut := [] } }
    else if s.mirT2 ≤ line then
      let s := (s.wr Reg.MIR_STAT_STATE 1).mirTear
      let px := if s.rdB Reg.MIR_STAT_RETIME then [] else (s.mirLine (line - s.mirT2)).map (mirPins (s.rd Reg.MIR_CTRL_BUS))
      { s with mir := { s.mir with videoOut := px } }
    else { (s.wr Reg.MIR_STAT_STATE 2) with mir := { s.mir with videoOut := [] } }

/-- R430: a COMMAND frame ends with MIR_CS high. -/
def State.mirWriteEnds (s : State) : State :=
  { (s.wr Reg.MIR_STAT_STATE 0) with mir := { s.mir with writing := false, lineAt := none } }

/-- R426, R427, R430: a line boundary of a COMMAND frame: the next line is read and its WR cycles begin, or a timing change ends the
frame. -/
def State.mirCommandStep (s : State) : State :=
  if !s.mir.writing then s
  else if s.mir.retimeDue then s.mirRetimeBegins.mirWriteEnds
  else if s.mirActive.2 ≤ s.mir.line then s
  else
    let y := s.mir.line
    let s := (s.mirTear.wr Reg.MIR_STAT_LINE (min 4095 y))
    { s with mir := { s.mir with line := y + 1, cmdOut := s.mir.cmdOut ++ s.mirLineBytes y } }

/-- R427: all lines of a COMMAND frame have begun: what comes is the end of the write. -/
def State.mirLastLine (s : State) : Bool := s.mirCommand && decide (s.mirActive.2 ≤ s.mir.line)

/-- R424, R427: a mirror line boundary passes, once the line before it has run its length. Lines run in VIDEO mode, and while a COMMAND frame
is written, as long as the MIR clock runs. After the last line of a COMMAND frame no other one begins. -/
def execMirrorLine (at_ : Vt) (s : State) : Host.Outcome State Fault Refusal :=
  .next (let s := s.elapseTo at_
    if s.mirRuns && !s.mir.clockHeld && s.mirAfter s.mirLineClocks then
      let t := if s.mirCommand then s.mirCommandStep else s.mirLineStep
      (if s.mirLastLine then t else { t with mir := { t.mir with lineAt := t.mir.lineAt.map fun _ => s.time.uptime } }).mirDrive
    else s)

/-- MIR_VBLANK.MAX; below MIN acts as MIN (R425). -/
def State.mirMax (s : State) : Nat := max (s.rd Reg.MIR_VBLANK_MIN) (s.rd Reg.MIR_VBLANK_MAX)

/-- t0 in VIDEO mode. -/
def State.mirVideoStart (s : State) : State :=
  let s := s.mirBegin.wr Reg.MIR_STAT_STATE 2
  { s with mir := { s.mir with videoOut := [] } }.mirDrive

/-- R425: the lines passed since t3, at a line boundary in VIDEO mode. -/
def State.mirPorchLines (s : State) : Option Nat :=
  if !s.mirCommand && !s.mir.clockHeld && s.mir.lineAt == some s.time.uptime then s.mir.porch else none

/-- R425, R427: a mirror frame starts on its request: in VIDEO at a line boundary after MIN lines, in COMMAND where the
port does not wait for MIR_TE. -/
def execMirrorFrameStart (at_ : Vt) (s : State) : Host.Outcome State Fault Refusal :=
  .next (let s := s.elapseTo at_
    if !s.mirRuns || s.mir.clockHeld || !s.mir.request then s
    else if s.mirCommand then (if s.rdB Reg.MIR_CMD_TE_EN || s.mir.writing then s else s.mirWrite)
    else match s.mirPorchLines with
      | some n => if s.rd Reg.MIR_VBLANK_MIN ≤ n then s.mirVideoStart else s
      | none => s)

/-- R425: MAX lines pass after t3 with no request. -/
def execMirrorSelfStart (at_ : Vt) (s : State) : Host.Outcome State Fault Refusal :=
  .next (let s := s.elapseTo at_
    if !s.mirRuns || s.mir.request then s
    else match s.mirPorchLines with
      | some n => if s.mirMax ≤ n then s.mirVideoStart.bump Reg.MIR_CNT_SELF else s
      | none => s)

/-- R427, R428: a rising edge of MIR_TE: an armed port writes its frame; an edge during a write is ignored. -/
def execMirTe (at_ : Vt) (s : State) : Host.Outcome State Fault Refusal :=
  .next (let s := s.elapseTo at_
    if !s.mirRuns || !s.mirCommand then s else
      let s := s.wr Reg.MIR_STAT_TE_MISSING 0
      let s := { s with mir := { s.mir with waited := 0 } }
      if s.mir.request && s.rdB Reg.MIR_CMD_TE_EN && !s.mir.writing && !s.mir.clockHeld then s.mirWrite else s)

/-- R428: a request has waited through three LED frame starts. -/
def execMirTeMissing (s : State) : Host.Outcome State Fault Refusal :=
  .next (if s.mirRuns && s.mirCommand && s.mir.request && s.rdB Reg.MIR_CMD_TE_EN && 3 ≤ s.mir.waited
      && !s.rdB Reg.MIR_STAT_TE_MISSING then
      (s.wr Reg.MIR_STAT_TE_MISSING 1).raise Ev.MIR_TE_MISSING 0
    else s)

/-- R427: MIR_CS rises one MIR clock after the last rising edge of MIR_WR, which lies WR_HI clocks before the end of the last WR cycle. -/
def State.mirWriteClocks (s : State) : Nat := s.mirLineClocks + 1 - s.mirWrHi

/-- R427: the last WR cycle of a COMMAND frame has ended; MIR_CS rises. A timing change made in the last line holds the port from here
(R430). -/
def execMirCommandWriteDone (at_ : Vt) (s : State) : Host.Outcome State Fault Refusal :=
  .next (let s := s.elapseTo at_
    if s.mirRuns && s.mir.writing && !s.mir.clockHeld && s.mirActive.2 ≤ s.mir.line && s.mirAfter s.mirWriteClocks then
      s.mirRetimeBegins.mirWriteEnds.mirDrive
    else s)

/-- R420: the port starts: its front porch counts from here (log entry 33). -/
def State.mirStart (s : State) : State :=
  { (s.wr Reg.MIR_STAT_STATE (if s.mirCommand then 0 else 2)) with
      mir := { State.reset.mir with clockHeld := true, lineAt := some s.time.uptime, mapGone := s.mir.mapGone } }.mirDrive

/-- R420, R429: the port idles; a pending MIR commit is applied. -/
def State.mirIdle (s : State) : State :=
  let s := { ((s.wr Reg.MIR_STAT_STATE 0).wr Reg.MIR_STAT_RETIME 0) with
      mir := { State.reset.mir with mapGone := s.mir.mapGone } }
  (s.wr Reg.MIR_STAT_TE_MISSING 0).mirApply.mirDrive

/-- R420: follow a change of what lets the port run; `was` says that it ran before. -/
def State.mirFollow (s : State) (was : Bool) : State :=
  if was == s.mirRuns then s else if was then s.mirIdle else s.mirStart

/-- R430: a timing change while the port runs: output is held from the next line boundary. Where no line is under way, a COMMAND port
between frames, that is at once. -/
def State.mirRetime (s : State) (clock : Bool) : State :=
  if !s.mirRuns then s else
    let s := { s with mir := { s.mir with retimeDue := true, clockHeld := s.mir.clockHeld || clock } }
    (if s.mirCommand && !s.mir.writing then s.mirRetimeBegins else s).mirDrive

/-- R430: a change of MODE while the port runs: what the old mode drove ends, and the new one begins as at the port's start. -/
def State.mirModeChanged (s : State) : State :=
  let st := if !s.mirCommand then 2 else if s.mir.request && s.rdB Reg.MIR_CMD_TE_EN then 3 else 0
  { ((s.wr Reg.MIR_STAT_STATE st).wr Reg.MIR_STAT_LINE 0) with
      mir := { s.mir with writing := false, videoOut := [], line := 0, porch := some 0, lineAt := some s.time.uptime } }

/-- R420, R430: a write to MIR_CTRL. -/
def State.mirCtrlWrite (s : State) (w : Word) : State :=
  let was := s.mirRuns
  let mode := s.mirCommand
  let a := Reg.MIR_CTRL_EN.addr
  let old := s.reg a
  let s := s.setReg a (w &&& 0xFF)
  let s := (s.mirFollow was).mirDrive
  if was && s.mirRuns && (old >>> 1) != ((w &&& 0xFF) >>> 1) then
    (if s.mirCommand == mode then s else s.mirModeChanged).mirRetime false
  else s

/-- R430: the timing registers, by index: MIR_CLK, MIR_HTIM, MIR_VTIM, MIR_VBLANK, MIR_CMD. -/
def mirTimingReg (r : Nat) : Nat × Word :=
  match r with
  | 0 => (0x100004, 0xFFFF)
  | 1 => (0x100008, 0xFFFFFF)
  | 2 => (0x10000C, 0xFFFF)
  | 3 => (0x100010, 0x0FFF0FFF)
  | _ => (0x100020, 0x1FF7)

/-- R430: a write to a timing register; a change of MIR_CLK holds PCLK low until the clock has relocked. -/
def State.mirTimingWrite (s : State) (r : Nat) (w : Word) : State :=
  let (a, m) := mirTimingReg r
  (s.setReg a (w &&& m)).mirRetime (r == 0 && s.reg a != w &&& m)

/-- R430: the MIR clock has locked. The line in hand counts anew from here. -/
def execMirClockLock (at_ : Vt) (s : State) : Host.Outcome State Fault Refusal :=
  .next (let s := s.elapseTo at_
    { s with mir := { s.mir with clockHeld := false, lineAt := s.mir.lineAt.map fun b => if s.mir.clockHeld then s.time.uptime else b } }.mirDrive)

end Sys2Proof.Machine
end

