-- ==== Sys2Proof/Machine/Pawn.lean ====
section
/-! DEFINITION. Pawn engines (chapter 12): pins, store, ticks, starting and stopping, faults, and the ten instructions.
An instruction's command is one pawn clock edge at which that instruction stands at the program counter. -/
namespace Sys2Proof.Machine

/-- R373: pawns run only in READY, ARMED and FALLBACK, outside the dark-safe state, with IOX powered. -/
def State.pawnsMayRun (s : State) : Bool :=
  (s.rd Reg.SYS_STATE_STATE == 4 || s.rd Reg.SYS_STATE_STATE == 5 || s.rd Reg.SYS_STATE_STATE == 6) &&
    !s.rdB Reg.SYS_STATE_DARK_SAFE && s.powered 4

/-- R353: the states in which PAWN_PX_OUT and PAWN_PX_OE hold their SAFE values. -/
def State.pxSafe (s : State) : Bool :=
  let st := s.rd Reg.SYS_STATE_STATE
  st == 0 || st == 1 || st == 2 || st == 3 || st == 7 || s.rdB Reg.SYS_STATE_DARK_SAFE

/-- R351: PAWN_STAT.OVERLAP. -/
def State.pawnOverlap (s : State) : Bool :=
  (List.range 32).any fun j => 2 ≤ (s.runningPawns.filter fun n => (s.windowIdx n j).isSome).length

/-- R353: enter a state in which the PX pins hold their SAFE values. -/
def State.pxToSafe (s : State) : State :=
  (s.setReg Reg.PAWN_PX_OUT_LEVEL.addr (s.reg Reg.PAWN_PX_SAFE_OUT_SAFE.addr)).setReg Reg.PAWN_PX_OE_OE.addr
    (s.reg Reg.PAWN_PX_SAFE_OE_SAFE.addr)

/-- A word with bit `j` set to `b`. -/
def setBitTo (w : Word) (j : Nat) (b : Bool) : Word := withBits w j 1 (if b then 1 else 0)

/-- R352: a stopping pawn copies its window pins' levels and directions. -/
def State.pawnCopyPins (s : State) (n : Nat) : State :=
  let b := s.rd (Reg.PAWN_PINS_BASE n)
  (List.range (s.rd (Reg.PAWN_PINS_WIDTH n))).foldl (fun s i =>
    let s := s.hwReg Reg.PAWN_PX_OUT_LEVEL.addr (setBitTo (s.reg Reg.PAWN_PX_OUT_LEVEL.addr) (b + i) (bitAt (s.pawn n).level.toNat i))
    s.hwReg Reg.PAWN_PX_OE_OE.addr (setBitTo (s.reg Reg.PAWN_PX_OE_OE.addr) (b + i) (bitAt (s.pawn n).dir.toNat i))) s

/-- R352, R365: stop pawn n. A waiting instruction is abandoned and the program counter stays on it. -/
def State.pawnStop (s : State) (n : Nat) : State :=
  if (s.pawn n).run then
    let s := s.pawnCopyPins n
    let s := s.setPawn n { s.pawn n with run := false, wait := 0, awaitPx := none, stalled := false }
    s.wr (Reg.PAWN_ERR_STALL_LONG n) 0
  else s

/-- R365: stop every pawn of a mask. -/
def State.pawnsStop (s : State) (mask : Nat) : State := (maskIdx 8 mask).foldl State.pawnStop s

/-- R373: entry to a state in which pawns do not run. -/
def State.pawnsHalt (s : State) : State := (s.pawnsStop 255).pxToSafe

/-- R372: a fault stops the pawn and is recorded. -/
def State.pawnFault (s : State) (n cause : Nat) : State :=
  let pc := (s.pawn n).pc
  let s := s.pawnStop n
  let s := s.setPawn n { s.pawn n with fromEntry := true }
  let s := (s.wr (Reg.PAWN_ERR_CAUSE n) cause).wr (Reg.PAWN_ERR_FAULT_PC n) pc
  s.raise Ev.PAWN_FAULT (n + cause * 2 ^ 4 + pc * 2 ^ 8)

/-- R350, R364: the pawn's range and window allow a start. -/
def State.pawnConfigOk (s : State) (n : Nat) : Bool :=
  let st := s.rd (Reg.PAWN_PROG_START n)
  let en := s.rd (Reg.PAWN_PROG_ENTRY n)
  let e := s.rd (Reg.PAWN_PROG_END n)
  st ≤ en && en ≤ e && e ≤ 47 && s.rd (Reg.PAWN_PINS_BASE n) + s.rd (Reg.PAWN_PINS_WIDTH n) ≤ 32

/-- The latches a starting pawn takes from PAWN_PX_OUT or PAWN_PX_OE (R352). -/
def State.windowBits (s : State) (n : Nat) (f : Fld) : BitVec 8 :=
  BitVec.ofNat 8 (s.rd f / 2 ^ s.rd (Reg.PAWN_PINS_BASE n) % 2 ^ s.rd (Reg.PAWN_PINS_WIDTH n))

/-- R356: a word written to the store takes its parity bit with it. -/
def State.parityGood (s : State) (w : Nat) : State := { s with rook := { s.rook with storeBad := s.rook.storeBad.filter (· != w) } }

/-- R356: a bit of a store word has been lost since it was written. -/
def State.parityLost (s : State) (w : Nat) : State := { s with rook := { s.rook with storeBad := w :: s.rook.storeBad.filter (· != w) } }

/-- R368: a word that a register has written in this SYS cycle is refused after all: it is what it was. -/
def State.storeUndo (s : State) (e : Nat × Word × Bool) : State :=
  let s := s.setReg (Reg.PAWN_STORE_WORD e.1).addr e.2.1
  if e.2.2 then s.parityLost e.1 else s.parityGood e.1

/-- R368: the test of a store write uses the pawns that run after any start of its SYS cycle: one that starts has the writes of the cycle
to its range refused. -/
def State.storeRefuse (s : State) (n : Nat) : State :=
  let hit (e : Nat × Word × Bool) : Bool := s.rd (Reg.PAWN_PROG_START n) ≤ e.1 && e.1 ≤ s.rd (Reg.PAWN_PROG_END n)
  match s.cycle.stored.filter hit with
  | [] => s
  | e :: l =>
    let s := (e :: l).foldl State.storeUndo s
    let s := { s with cycle := { s.cycle with stored := s.cycle.stored.filter fun e => !hit e } }
    (s.setW1c Reg.PAWN_STAT_STORE_REFUSED).wr Reg.PAWN_STAT_REFUSED_WORD e.1

/-- R363, R364, R366: start a stopped pawn. A start that is refused leaves the program counter. -/
def State.pawnStart (s : State) (n : Nat) : State :=
  let p := s.pawn n
  let entry := s.rd (Reg.PAWN_PROG_ENTRY n)
  if !s.pawnConfigOk n then (s.setPawn n { p with pc := if p.fromEntry then entry else p.pc }).pawnFault n 5
  else
    let clr := bitAt (s.rd Reg.PAWN_CTRL_CLR) n
    let s := s.storeRefuse n
    let p := { p with run := true, wait := 0, acc := 0, sync := false, line := false, frame := false, fromEntry := false,
                      awaitPx := none, stalled := false, level := s.windowBits n Reg.PAWN_PX_OUT_LEVEL,
                      dir := s.windowBits n Reg.PAWN_PX_OE_OE, pc := if p.fromEntry || clr then entry else p.pc }
    s.setPawn n (if clr then { p with emr := 0, smr := 0, eFill := 0, sFill := 0, cntA := 0, cntB := 0, dir := 0 } else p)

/-- R361: a tick, to a running or a stopped pawn; one that finds its bit set is lost. -/
def State.pawnTick (s : State) (n : Nat) (bit : PawnSt → Bool) (set : PawnSt → PawnSt) : State :=
  let p := s.pawn n
  if !s.powered 4 then s
  else if bit p then s.setW1c (Reg.PAWN_ERR_TICK_LOST n) else s.setPawn n (set p)

/-- R361: the SYNC, LINE and FRAME ticks. -/
def State.pawnSync (s : State) (n : Nat) : State := s.pawnTick n (·.sync) fun p => { p with sync := true }
def State.pawnLine (s : State) (n : Nat) : State := s.pawnTick n (·.line) fun p => { p with line := true }
def State.pawnFrame (s : State) (n : Nat) : State := s.pawnTick n (·.frame) fun p => { p with frame := true }

/-- R363: one pawn of a PAWN_GO mask. -/
def State.pawnGo1 (s : State) (n : Nat) : State :=
  if (s.pawn n).run then (s.setPawn n { s.pawn n with acc := 0 }).pawnSync n else s.pawnStart n

/-- R363: a PAWN_GO mask, by register, move or command; ignored where pawns may not run (R373). -/
def State.pawnsGo (s : State) (mask : Nat) : State :=
  if s.pawnsMayRun then (maskIdx 8 mask).foldl State.pawnGo1 s else s

/-- R366: FLUSH empties both FIFOs of stopped pawns. -/
def State.pawnsFlush (s : State) (mask : Nat) : State :=
  (maskIdx 8 mask).foldl (fun s n => if (s.pawn n).run then s else s.setPawn n { s.pawn n with tx := [], rx := [] }) s

/-- R368: a store word lies in the range of a running pawn. -/
def State.storeBusy (s : State) (w : Nat) : Bool :=
  s.runningPawns.any fun n => s.rd (Reg.PAWN_PROG_START n) ≤ w && w ≤ s.rd (Reg.PAWN_PROG_END n)

/-- R368: a register write to a store word, which a start in the same SYS cycle may still refuse. -/
def State.storeWrite (s : State) (w : Nat) (v : Word) : State :=
  if s.storeBusy w then (s.setW1c Reg.PAWN_STAT_STORE_REFUSED).wr Reg.PAWN_STAT_REFUSED_WORD w
  else
    let e := (w, s.reg (Reg.PAWN_STORE_WORD w).addr, s.rook.storeBad.contains w)
    ({ s with cycle := { s.cycle with stored := e :: s.cycle.stored } }.wr (Reg.PAWN_STORE_WORD w) v.toNat).parityGood w

/-- R339, R374: a store word that a command or a Seal writes; no start of the cycle refuses it (log entry 169). -/
def State.storePut (s : State) (w : Nat) (v : Word) : State :=
  ({ s with cycle := { s.cycle with stored := s.cycle.stored.filter fun e => e.1 != w } }.wr (Reg.PAWN_STORE_WORD w) v.toNat).parityGood w

/-- R369: a register write to CFG (0), PINS (4) or PROG (8) of a pawn. -/
def State.pawnCfgWrite (s : State) (n off : Nat) (v : Word) : State :=
  if (s.pawn n).run then s.setW1c Reg.PAWN_STAT_CFG_REFUSED
  else
    let mask : Word := if off = 4 then 0x00000F1F else if off = 8 then 0x003F3F3F else 0xFFFFFFFF
    let s := s.setReg (0xD0100 + 0x40 * n + off) (v &&& mask)
    if off = 8 then s.setPawn n { s.pawn n with pc := s.rd (Reg.PAWN_PROG_ENTRY n), fromEntry := true } else s

/-- R371: a word pushed into a TX FIFO by register. -/
def State.pawnTxWrite (s : State) (n : Nat) (v : Word) : State :=
  let p := s.pawn n
  if 4 ≤ p.tx.length then s.setW1c (Reg.PAWN_ERR_TX_OVF n) else s.setPawn n { p with tx := p.tx ++ [v] }

/-- R371: a read of PAWN_RXn pops the oldest word. -/
def State.pawnRxRead (s : State) (n : Nat) : Word × State :=
  let p := s.pawn n
  match p.rx with
  | [] => (0, s.setW1c (Reg.PAWN_ERR_RX_UNF n))
  | w :: rest => (w, s.setPawn n { p with rx := rest })

/-- R353: a register write to PAWN_PX_OUT or PAWN_PX_OE is ignored while the pins hold their SAFE values. -/
def State.pxWrite (s : State) (a : Nat) (v : Word) : State := if s.pxSafe then s else s.setReg a v

/-- R64: the SYS cycle in progress has cleared pin `j`. -/
def State.notePinClr (s : State) (j : Nat) : State :=
  { s with cycle := { s.cycle with pinsClr := setBitTo s.cycle.pinsClr j true } }

/-- R63, R64: a PIN_SET (`high`) or PIN_CLEAR move at one pin: a PIN_CLEAR of the same cycle prevails, and a register write. -/
def State.pinMove1 (high : Bool) (s : State) (j : Nat) : State :=
  if s.pxSafe || !s.powered 4 || s.inRunningWindow j then s.bump Reg.MOVE_CNT_PIN_CONFLICT
  else if high && bitAt s.cycle.pinsClr.toNat j then s
  else
    let s := s.hwReg Reg.PAWN_PX_OUT_LEVEL.addr (setBitTo (s.reg Reg.PAWN_PX_OUT_LEVEL.addr) j high)
    let s := s.hwReg Reg.PAWN_PX_OE_OE.addr (setBitTo (s.reg Reg.PAWN_PX_OE_OE.addr) j true)
    if high then s else s.notePinClr j

/-- R63, R64: a PIN_SET (`high`) or PIN_CLEAR move. -/
def State.pinMove (s : State) (mask : Word) (high : Bool) : State := (maskIdx 32 mask.toNat).foldl (State.pinMove1 high) s

/-! ## Instructions (R356 to R362) -/

/-- R356, Table 12.4 cause 2: the operand of an instruction has no reserved field or value that is not 0. -/
def pawnOperandOk (op v : Nat) : Bool :=
  match op with
  | 0 => v / 1024 == 0 && v / 256 % 4 != 3
  | 1 | 2 => v / 128 == 0 && 1 ≤ v % 64 && v % 64 ≤ 32
  | 3 | 4 => v == 0
  | 5 => v / 64 % 8 == 0 && (v / 512 == 7 || v / 32 % 2 == 0) && (v / 512 != 7 || v / 8 % 4 == 0)
  | 6 => 6 ≤ v / 512 || v / 64 % 8 == 0
  | 7 => v / 64 % 32 == 0
  | 8 => true
  | _ => v / 1024 != 3 && v / 256 % 4 == 0 && (v / 1024 == 2 || v % 256 ≤ 7)

/-- R359, cause 3: the TARGET of a BRANCH or LOOP lies in the pawn's range. -/
def State.pawnTargetOk (s : State) (n op v : Nat) : Bool :=
  !(op == 6 || op == 7) || (s.rd (Reg.PAWN_PROG_START n) ≤ v % 64 && v % 64 ≤ s.rd (Reg.PAWN_PROG_END n))

/-- R359: the word after the program counter. -/
def State.pawnNext (s : State) (n : Nat) : Nat :=
  if (s.pawn n).pc = s.rd (Reg.PAWN_PROG_END n) then s.rd (Reg.PAWN_PROG_START n) else ((s.pawn n).pc + 1) % 64

/-- R358: the instruction is complete: the program counter moves to `pc`, and a delay is waited. -/
def State.pawnDone (s : State) (n delay pc : Nat) : State :=
  s.setPawn n { s.pawn n with pc := pc, wait := if delay = 0 then 0 else 4, awaitPx := none, stalled := false }

/-- One pawn clock edge, at the instant of its command, at which instruction `op` stands at the program counter: its faults in the order of Table 12.4,
else its action on (delay, operand). An edge at another instruction leaves the pawn. `upset`: the word has lost a bit since it was
last fetched or written. -/
def State.pawnEdge (s : State) (n op : Nat) (upset : Bool) (act : State → Nat → Nat → State) : State :=
  if !(s.pawn n).run || s.pawnFrozen then s else
    let s := if upset then s.parityLost (s.pawn n).pc else s
    let w := s.rd (Reg.PAWN_STORE_WORD (s.pawn n).pc)
    let v := w % 4096
    if s.rook.storeBad.contains (s.pawn n).pc then s.pawnFault n 4
    else if 10 ≤ w / 65536 then s.pawnFault n 1
    else if w / 65536 != op then s
    else if !pawnOperandOk op v then s.pawnFault n 2
    else if !s.pawnTargetOk n op v then s.pawnFault n 3
    else act s (w / 4096 % 16) v

/-- R356: DRIVE. -/
def State.pawnDrive (n : Nat) (s : State) (delay v : Nat) : State :=
  let p := s.pawn n
  let m := 2 ^ s.rd (Reg.PAWN_PINS_WIDTH n) % 512
  let val := BitVec.ofNat 8 (v % 256 % m)
  let p := match v / 256 % 4 with
    | 0 => { p with level := val }
    | 1 => { p with dir := val }
    | _ => { p with level := val, dir := BitVec.ofNat 8 (m - 1) }
  (s.setPawn n p).pawnDone n delay (s.pawnNext n)

/-- R357: EMIT: the bits that leave, the new EMR. -/
def emitShift (dir : Bool) (k : Nat) (emr : Word) : Nat × Word :=
  if dir then (emr.toNat / 2 ^ (32 - k), emr <<< k) else (emr.toNat % 2 ^ k, emr >>> k)

/-- R356, R357: EMIT. -/
def State.pawnEmit (n : Nat) (s : State) (delay v : Nat) : State :=
  let p := s.pawn n
  let k := v % 64
  let (out, emr) := emitShift (bitAt v 6) k p.emr
  let w := min k (s.rd (Reg.PAWN_PINS_WIDTH n))
  let level := BitVec.ofNat 8 (p.level.toNat / 2 ^ w * 2 ^ w + out % 2 ^ w)
  (s.setPawn n { p with emr := emr, eFill := p.eFill - k, level := level }).pawnDone n delay (s.pawnNext n)

/-- R357: SAMPLE: the new SMR. -/
def sampleShift (dir : Bool) (k : Nat) (inp : Nat) (smr : Word) : Word :=
  if dir then (smr <<< k) ||| BitVec.ofNat 32 inp else (smr >>> k) ||| (BitVec.ofNat 32 inp <<< (32 - k))

/-- R356, R357: SAMPLE, with the PX levels at the pads. -/
def State.pawnSample (n : Nat) (px : PxBoard) (s : State) (delay v : Nat) : State :=
  let p := s.pawn n
  let k := v % 64
  let inp := (s.pxLevels px).toNat / 2 ^ s.rd (Reg.PAWN_PINS_BASE n) % 2 ^ min k (s.rd (Reg.PAWN_PINS_WIDTH n))
  (s.setPawn n { p with smr := sampleShift (bitAt v 6) k inp p.smr, sFill := min (p.sFill + k) 32 }).pawnDone n delay
    (s.pawnNext n)

/-- The wait in LOAD or STORE has ended (R370). -/
def State.stallOver (s : State) (n : Nat) : State := s.wr (Reg.PAWN_ERR_STALL_LONG n) 0

/-- R370: pawn n waits in LOAD (1) or STORE (2), from now where it does not wait yet. -/
def State.pawnWait (s : State) (n wait : Nat) : State :=
  let p := s.pawn n
  if p.wait = wait then s else s.setPawn n { p with wait := wait, waitAt := s.time.uptime }

/-- R356, R371: LOAD; it waits while the TX FIFO is empty. -/
def State.pawnLoad (n : Nat) (s : State) (delay _v : Nat) : State :=
  let p := s.pawn n
  match p.tx with
  | [] => s.pawnWait n 1
  | w :: rest =>
    let next := s.pawnNext n
    let s := (s.setPawn n { p with emr := w, eFill := 32, tx := rest }).stallOver n
    (s.cvuTapWord 3 n w).pawnDone n delay next

/-- R179: the sink block takes the words this pawn stores. -/
def State.tbPawnSource (s : State) (n : Nat) : Bool := s.tbSrc == 5 && s.rd Reg.SINK_TB_CFG_PAWN == n

/-- R178 to R180: the PAWN source is selected, or another pawn for it: the words it has stored are taken, and STALE counts from now. -/
def State.tbSelect (s : State) : State :=
  let n := s.rd Reg.SINK_TB_CFG_PAWN
  let words := (s.pawn n).rx
  let s := { s with sink := { s.sink with tP := none, pawnAt := s.time.uptime } }.wr Reg.SINK_TB_STAT_FAULT_P 0
  words.foldl State.tbPawnWord (if words.isEmpty then s else s.setPawn n { s.pawn n with rx := [] })

/-- R178 to R180: SINK_TB_CFG has changed from the values of `old`. -/
def State.tbChanged (s old : State) : State :=
  let s := s.tbUnused
  if s.tbSrc == 5 && (old.tbSrc != 5 || old.rd Reg.SINK_TB_CFG_PAWN != s.rd Reg.SINK_TB_CFG_PAWN) then s.tbSelect else s

/-- R356, R371: STORE; it waits while the RX FIFO is full. -/
def State.pawnStoreWord (n : Nat) (s : State) (delay _v : Nat) : State :=
  let p := s.pawn n
  if 4 ≤ p.rx.length then s.pawnWait n 2 else
    let next := s.pawnNext n
    let w := p.smr
    let sink := s.tbPawnSource n
    let s := (s.setPawn n { p with smr := 0, sFill := 0, rx := if sink then p.rx else p.rx ++ [w] }).stallOver n
    let s := if sink then s.tbPawnWord w else s
    (s.cvuTapWord 4 n w).pawnDone n delay next

/-- R362: the level of a shared flag that the pawns see: changes show from the next SYS cycle. -/
def State.flagSeen (s : State) (i : Nat) : Bool := bitAt (s.atStart.rd Reg.PAWN_FLAGS_FLAG) i

/-- R362: a SIGNAL SET, or a clear, of a shared flag: in one SYS cycle a clear prevails over a SET, and a register write over both. An
AWAIT with CLR counts as a clear (DEDUCED, log entry 136). -/
def State.setFlag (s : State) (i : Nat) (b : Bool) : State :=
  let a := Reg.PAWN_FLAGS_FLAG.addr
  if b then (if bitAt s.cycle.flagsClr.toNat i then s else s.hwReg a (setBitTo (s.reg a) i true))
  else
    let s := s.hwReg a (setBitTo (s.reg a) i false)
    { s with cycle := { s.cycle with flagsClr := s.cycle.flagsClr ||| BitVec.ofNat 8 (2 ^ i) } }

/-- Table 12.3, R360: whether an AWAIT is released, on the PX levels now and when it last looked, and on the pins that have risen and
fallen at the synchroniser output since then: those count once it has begun to wait. -/
def State.awaitHolds (s : State) (n v : Nat) (now rose fell : Word) : Bool :=
  let p := s.pawn n
  let pin := fun (w : Word) => bitAt w.toNat (v % 32)
  match v / 512 with
  | 0 => pin now
  | 1 => !pin now
  | 2 => (p.awaitPx.map fun w => pin rose || (!pin w && pin now)).getD false
  | 3 => (p.awaitPx.map fun w => pin fell || (pin w && !pin now)).getD false
  | 4 => p.sync
  | 5 => p.line
  | 6 => p.frame
  | _ => s.flagSeen (v % 8)

/-- R356, R361, R362: AWAIT; a released tick is cleared, and a flag under CLR. -/
def State.pawnAwait (n : Nat) (px : PxBoard) (rose fell : Word) (s : State) (delay v : Nat) : State :=
  let now := s.pxSeen px
  let p := s.pawn n
  if !s.awaitHolds n v now rose fell then s.setPawn n { p with wait := 3, awaitPx := some now } else
    let next := s.pawnNext n
    let s := match v / 512 with
      | 4 => s.setPawn n { p with sync := false }
      | 5 => s.setPawn n { p with line := false }
      | 6 => s.setPawn n { p with frame := false }
      | 7 => if bitAt v 5 then s.setFlag (v % 8) false else s
      | _ => s
    s.pawnDone n delay next

/-- Table 12.3: a BRANCH condition. -/
def State.branchHolds (s : State) (n v : Nat) (px : PxBoard) : Bool :=
  let p := s.pawn n
  let i := v / 64 % 8
  match v / 512 with
  | 0 => true
  | 1 => p.cntA != 0
  | 2 => p.cntB != 0
  | 3 => p.eFill != 0
  | 4 => p.sFill == 32
  | 5 => p.tx.isEmpty
  | 6 => i < s.rd (Reg.PAWN_PINS_WIDTH n) && bitAt (s.pxSeen px).toNat (s.rd (Reg.PAWN_PINS_BASE n) + i)
  | _ => s.flagSeen i

/-- R356: BRANCH. -/
def State.pawnBranch (n : Nat) (px : PxBoard) (s : State) (delay v : Nat) : State :=
  s.pawnDone n delay (if s.branchHolds n v px then v % 64 else s.pawnNext n)

/-- R356: LOOP. -/
def State.pawnLoop (n : Nat) (s : State) (delay v : Nat) : State :=
  let p := s.pawn n
  let b := bitAt v 11
  let c := if b then p.cntB else p.cntA
  if c = 0 then s.pawnDone n delay (s.pawnNext n) else
    let c' := c - 1
    let next := if c' = 0 then s.pawnNext n else v % 64
    (s.setPawn n (if b then { p with cntB := c' } else { p with cntA := c' })).pawnDone n delay next

/-- R356: COUNT. -/
def State.pawnCount (n : Nat) (s : State) (delay v : Nat) : State :=
  let p := s.pawn n
  let c := if bitAt v 10 then p.emr else BitVec.ofNat 32 (v % 1024)
  (s.setPawn n (if bitAt v 11 then { p with cntB := c } else { p with cntA := c })).pawnDone n delay (s.pawnNext n)

/-- R356, R362: SIGNAL. -/
def State.pawnSignal (n : Nat) (s : State) (delay v : Nat) : State :=
  let s' := match v / 1024 with
    | 0 => s.setFlag (v % 8) true
    | 1 => s.setFlag (v % 8) false
    | _ => s.raise Ev.PAWN_FLAG (n + v % 256 * 256)
  s'.pawnDone n delay (s.pawnNext n)

/-! ## The commands of the pawns -/

/-- R370: at an instant, a wait in LOAD or STORE has lasted STALL_LIM ms. -/
def execPawnStall (at_ : Vt) (n : Fin 8) (s : State) : Host.Outcome State Fault Refusal :=
  let s := s.elapseTo at_
  .next (let p := s.pawn n.val
    let lim := s.rd (Reg.PAWN_CFG_STALL_LIM n.val)
    if p.run && (p.wait == 1 || p.wait == 2) && !p.stalled && lim != 0 && decide (p.waitAt + msec lim ≤ s.time.uptime) then
      let s := (s.setPawn n.val { p with stalled := true }).wr (Reg.PAWN_ERR_STALL_LONG n.val) 1
      s.raise Ev.PAWN_STALL (n.val + (p.wait - 1) * 16)
    else s)

/-- R356: DRIVE at pawn n. -/
def execDrive (at_ : Vt) (n : Fin 8) (upset : Bool) (s : State) : Host.Outcome State Fault Refusal :=
  .next ((s.elapseTo at_).pawnEdge n.val 0 upset (State.pawnDrive n.val))

/-- R356, R357: EMIT at pawn n. -/
def execEmit (at_ : Vt) (n : Fin 8) (upset : Bool) (s : State) : Host.Outcome State Fault Refusal :=
  .next ((s.elapseTo at_).pawnEdge n.val 1 upset (State.pawnEmit n.val))

/-- R356, R357: SAMPLE at pawn n, with the levels at the PX pads. -/
def execSample (at_ : Vt) (n : Fin 8) (upset : Bool) (px : PxBoard) (s : State) : Host.Outcome State Fault Refusal :=
  .next ((s.elapseTo at_).pawnEdge n.val 2 upset (State.pawnSample n.val px))

/-- R356: LOAD at pawn n. -/
def execLoad (at_ : Vt) (n : Fin 8) (upset : Bool) (s : State) : Host.Outcome State Fault Refusal :=
  .next ((s.elapseTo at_).pawnEdge n.val 3 upset (State.pawnLoad n.val))

/-- R356: STORE at pawn n. -/
def execStore (at_ : Vt) (n : Fin 8) (upset : Bool) (s : State) : Host.Outcome State Fault Refusal :=
  .next ((s.elapseTo at_).pawnEdge n.val 4 upset (State.pawnStoreWord n.val))

/-- R356, R360: AWAIT at pawn n, with what the board did at the PX pads 2 SYS cycles before, which the synchroniser gives now (log entry
169), and the pins that have risen and fallen at its output since the last clock edge. -/
def execAwait (at_ : Vt) (n : Fin 8) (upset : Bool) (px : PxBoard) (rose fell : Word) (s : State) : Host.Outcome State Fault Refusal :=
  .next ((s.elapseTo at_).pawnEdge n.val 5 upset (State.pawnAwait n.val px rose fell))

/-- R356, R360: BRANCH at pawn n, with what the board did at the PX pads 2 SYS cycles before (log entry 169). -/
def execBranch (at_ : Vt) (n : Fin 8) (upset : Bool) (px : PxBoard) (s : State) : Host.Outcome State Fault Refusal :=
  .next ((s.elapseTo at_).pawnEdge n.val 6 upset (State.pawnBranch n.val px))

/-- R356: LOOP at pawn n. -/
def execLoop (at_ : Vt) (n : Fin 8) (upset : Bool) (s : State) : Host.Outcome State Fault Refusal :=
  .next ((s.elapseTo at_).pawnEdge n.val 7 upset (State.pawnLoop n.val))

/-- R356: COUNT at pawn n. -/
def execCount (at_ : Vt) (n : Fin 8) (upset : Bool) (s : State) : Host.Outcome State Fault Refusal :=
  .next ((s.elapseTo at_).pawnEdge n.val 8 upset (State.pawnCount n.val))

/-- R356, R362: SIGNAL at pawn n. -/
def execSignal (at_ : Vt) (n : Fin 8) (upset : Bool) (s : State) : Host.Outcome State Fault Refusal :=
  .next ((s.elapseTo at_).pawnEdge n.val 9 upset (State.pawnSignal n.val))

end Sys2Proof.Machine
end

