-- ==== Sys2Proof/Machine/Scan.lean ====
section
/-! DEFINITION. Frame starts and line slots (chapters 02 and 05): R50, R54, R87, R118 to R120, R125 to R142, R152, R155,
R524, R525, with the headroom and census samples of a slot (R166, R189 to R191, R197, R198). -/
namespace Sys2Proof.Machine

/-- R142: the line interface while the scan engine is idle, before polarity. -/
def idlePins : LinePins := ⟨false, true, 0, 0, false, false, false, 0⟩

/-- R146, R463: captured groups that are not applied return to PENDING. -/
def State.uncapture (s : State) : State :=
  let s := s.wr Reg.SYS_CASTLE_STAT_PENDING (s.rd Reg.SYS_CASTLE_STAT_PENDING ||| s.scan.capturedMask.toNat)
  { s with scan := { s.scan with capturedMask := 0, taken := 0, captured := [] } }

/-- R142: the scan engine goes idle: no composition, no plane is scanned again, the line interface holds its idle levels, and
groups captured for a castling point that does not come are pending again. A relock in progress goes on (R153). -/
def State.scanIdle (s : State) : State :=
  let s := s.uncapture
  let s := { s with scan := { s.scan with inBlank := false, setupDone := false, nextKind := .resume, dark := true, pins := idlePins,
                                          phases := [], pulses := [] },
                    pipe := { s.pipe with comp := none, composedFor := none } }
  let s := if s.rd Reg.SCAN_STAT_STATE = 3 then s else s.wr Reg.SCAN_STAT_STATE 0
  ((s.wr Reg.SCAN_POS_SLOT 0).wr Reg.SCAN_POS_SUB 0).wr Reg.SCAN_POS_VBLANK 0

/-- The frame number that is shown (EV_FRAME_REPEAT's data); 0 when no board is SHOWING. -/
def State.shownFrame (s : State) : Nat :=
  match s.showing with
  | some b => ((s.board b).frame.getD 0).toNat
  | none => 0

/-- EV_FRAME_REPEAT with the frame shown again. -/
def State.frameRepeat (s : State) : State := s.raise Ev.FRAME_REPEAT s.shownFrame

/-! ## The line slot -/

/-- A slot of a frame: subframe and index in it. -/
structure Slot where
  sub : Nat
  idx : Nat
  deriving DecidableEq, Repr

/-- SCAN_POS: the slot that runs next. -/
def State.slotPos (s : State) : Slot := ⟨s.rd Reg.SCAN_POS_SUB, s.rd Reg.SCAN_POS_SLOT⟩

/-- The slot after a slot, in the geometry in force; after the last one the subframe index is N_SUB + PROBE. -/
def Slot.next (g : Geom) (p : Slot) : Slot := if p.idx + 1 < g.lines + g.subPad then ⟨p.sub, p.idx + 1⟩ else ⟨p.sub + 1, 0⟩

/-- The subframe of a slot belongs to the frame. -/
def Slot.inFrame (g : Geom) (p : Slot) : Bool := p.sub < g.nSub + g.probe

/-- The sinks drive nothing in the frame or slot: a dark frame, blanking under R464, or R159, R182, R493. -/
def State.slotDark (s : State) : Bool :=
  s.scan.dark || s.sinksOff || s.rdB Reg.PWR_SUPV_STAT_BLANKED || s.scan.braceDark || !s.powered 3

/-- An emitter may receive its pieces: its bank is on, no dark group contains it (R202), and its word in the plane being scanned
is correctable (R124). -/
def State.lit (s : State) (e : Nat) : Bool :=
  s.bankOn (e % 384) && !s.suppressed e && !s.fcmBad (fcmPlane (s.rd Reg.GREY_STAT_PLANE) + 4 * e)

/-- R118: the piece of emitter e in active subframe k, from the plane being scanned. -/
def State.pieceOf (s : State) (e k : Nat) : Nat :=
  piece s.geom.nSub s.geom.sSeg s.greyCfg.minPulse (s.greyWord (s.rd Reg.GREY_STAT_PLANE) e) k

/-- R197: the emitter is due a whisper probe in the frame being scanned. Where its plane word is uncorrectable, the bits that the word
holds decide (DESIGN CHOICE, log entry 148). -/
def State.due (s : State) (e : Nat) : Bool :=
  let p := s.rd Reg.GREY_STAT_PLANE
  let w := s.greyWord p e
  let g0 := !tabGet false (if p = 0 then s.scan.gPos0 else s.scan.gPos1) e
  s.probeDue e (s.observable e (s.pieceOf e 0) w.mode) g0

/-- R118, R120, R198: the pulse that channel n of line l receives in a slot of subframe k, if any. -/
def State.pulseAt (s : State) (k l n : Nat) : Option Pulse :=
  let e := l * 384 + n
  let st := s.stagger (n / 64)
  if k = s.geom.nSub then
    if s.due e then some ⟨n, pieceStart st s.geom.sSeg 96, 96, 4, s.probeCurrent⟩ else none
  else
    let q := s.pieceOf e k
    if q = 0 || !s.lit e then none
    else
      let mode := (s.greyWord (s.rd Reg.GREY_STAT_PLANE) e).mode
      some ⟨n, pieceStart st s.geom.sSeg q, q, mode, s.ownCurrent mode n⟩

/-- The pulses of a slot on line l. -/
def State.slotPulses (s : State) (k l : Nat) : List Pulse :=
  if s.slotDark then [] else (List.range 384).filterMap (s.pulseAt k l)

/-- R166: a pulse that is a headroom sample, with its result for a column voltage in mV. -/
def State.headroomSample (s : State) (vcol : Nat) (p : Pulse) : Option (Nat × Bool) :=
  if p.mode = 0 ∧ s.hrDelay + 8 ≤ p.length then some (p.channel, decide (vcol < s.hrTarget p.channel)) else none

/-- R190, R191, R198: the observation a pulse of subframe k gives. -/
def State.observation (s : State) (k l vcol : Nat) (p : Pulse) : Option CensusObs :=
  let e := l * 384 + p.channel
  let ok := if p.mode = 4 then s.measDelay ≤ 88 else k == 0 && s.observable e p.length p.mode
  if s.census.counted && ok && !tabGet false s.census.seen e then
    some ⟨e, s.sampleKind p.channel vcol, s.census.frameNo, s.census.shown, s.census.made + p.channel, p.mode == 4⟩ else none

/-- The column voltage of a channel in a slot, in mV: what the board shows, else a free value (log entry 10). -/
def State.vcolOf (s : State) (vcol : List (Nat × Nat)) (n : Nat) : Nat :=
  match vcol.find? fun c => c.1 == n with
  | some c => c.2
  | none => Config.freeValue (s.free + n)

/-- R129, R166, R190: the samples of a slot join the record of the subframe. -/
def State.slotSamples (s : State) (k l : Nat) (vcol : List (Nat × Nat)) (pulses : List Pulse) : State :=
  let hr := pulses.filterMap fun p => s.headroomSample (s.vcolOf vcol p.channel) p
  let obs := pulses.filterMap fun p => s.observation k l (s.vcolOf vcol p.channel) p
  let probes := (pulses.filter fun p => p.mode == 4).length
  { s with free := s.free + 384,
           census := { s.census with
             subRec := ⟨s.census.subRec.headroom ++ hr, s.census.subRec.observed ++ obs⟩,
             made := s.census.made + 384,
             seen := obs.foldl (fun t o => tabSet false t o.emitter true) s.census.seen,
             probed := s.census.probed + probes } }

/-- R136: LDIS for the line just turned off. -/
def State.ldis (s : State) (l : Nat) : BitVec 4 :=
  if s.rdB Reg.SCAN_LINEIF_DIS_MAP then BitVec.ofNat 4 (2 ^ (l % 4)) else 15

/-- R137: the channels connected to VPRE before a slot that gives the listed pulses. -/
def State.precharged (s : State) (next : List Pulse) : BitVec 384 :=
  let banks := s.rd Reg.SCAN_PRECHG_BANK_EN
  let lit := s.rdB Reg.SCAN_PRECHG_PRE_SEL
  BitVec.ofNat 384 ((List.range 384).foldl (fun acc n =>
    let on := bitAt banks (n / 64) && (!lit || next.any fun p => p.channel == n)
    acc + if on then 2 ^ n else 0) 0)

/-- T_LOFF; 0 acts as 1. SHIFT_W; 0 acts as 1. -/
def State.tLoff (s : State) : Nat := max 1 (s.rd Reg.SCAN_PRECHG_T_LOFF)
def State.shiftW (s : State) : Nat := max 1 (s.rd Reg.SCAN_LINEIF_SHIFT_W)

/-- SCAN_LINEIF.MODE: 0 ADDRESS, 1 SHIFT, 2 PAWN. -/
def State.lineMode (s : State) : Nat := s.rd Reg.SCAN_LINEIF_MODE

/-- What the line interface does around one line change (Table 5.2): the segment before it ends at `b1` with LEN at `on`, line
`off` is discharged, the columns in `pre` are pre-charged, and line `next` is selected; `first` says that the phases precede
ORD(0) of a subframe. LLAT of the change before is high until `carry`. -/
structure LineChange where
  b1 : Nat
  on : Bool
  off : Nat
  next : Nat
  first : Bool
  pre : BitVec 384
  carry : Nat
  deriving DecidableEq, Repr

/-- b2, b3 and b4 of Table 5.2. -/
def State.phase2 (s : State) (c : LineChange) : Nat := c.b1 + s.tLoff
def State.phase3 (s : State) (c : LineChange) : Nat := s.phase2 c + s.rd Reg.SCAN_PRECHG_T_DIS
def State.phase4 (s : State) (c : LineChange) : Nat := s.phase3 c + s.rd Reg.SCAN_PRECHG_T_PRE

/-- Table 5.2, R136, R137, R139: the levels at an offset. -/
def State.levelsAt (s : State) (c : LineChange) (t : Nat) : LinePins :=
  let inside := fun lo hi => decide (lo ≤ t ∧ t < hi)
  let shift := s.lineMode == 1
  { len := c.on && decide (t < c.b1)
    lblk := decide (c.b1 ≤ t)
    ldis := if inside (s.phase2 c) (s.phase3 c) then s.ldis c.off else 0
    la := if s.lineMode ≠ 0 then 0 else if s.phase4 c ≤ t then BitVec.ofNat 7 c.next else s.scan.pins.la
    lsdi := shift && c.first && decide (c.b1 ≤ t)
    lsck := shift && inside (c.b1 + 1) (c.b1 + 1 + s.shiftW)
    llat := decide (t < c.carry) || (shift && inside (s.phase4 c) (s.phase4 c + s.shiftW))
    vpre := if inside (s.phase3 c) (s.phase4 c) then c.pre else 0 }

/-- The offsets at which a level changes, ascending, below the slot end at `stop`. -/
def State.changesAt (s : State) (c : LineChange) (stop : Nat) : List Nat :=
  let at_ := [0, c.carry, c.b1, c.b1 + 1, c.b1 + 1 + s.shiftW, s.phase2 c, s.phase3 c, s.phase4 c, s.phase4 c + s.shiftW]
  (List.range stop).filter at_.contains

/-- The levels of a line change by offset, up to the slot end. -/
def State.changePhases (s : State) (c : LineChange) (stop : Nat) : List (Nat × LinePins) :=
  (s.changesAt c stop).map fun t => (t, s.levelsAt c t)

/-- R139: the part of an LLAT pulse that runs past the end of its slot. -/
def State.llatCarry (s : State) : Nat :=
  if s.scan.pins.llat then
    s.tLoff + s.rd Reg.SCAN_PRECHG_T_DIS + s.rd Reg.SCAN_PRECHG_T_PRE + s.shiftW - s.geom.tBlank
  else 0

/-- R127, R138: the levels where no phase runs: in a pad slot and in vertical blanking. -/
def State.quietPhases (s : State) : List (Nat × LinePins) :=
  let rest : LinePins := { idlePins with la := if s.lineMode = 0 then s.scan.pins.la else 0 }
  if s.llatCarry = 0 then [(0, rest)] else [(0, { rest with llat := true }), (s.llatCarry, rest)]

/-- SCAN_LINEIF: the levels at the pads, under the polarities set for LEN, LBLK and LDIS (R139). -/
def State.atPads (s : State) (p : LinePins) : LinePins :=
  { p with len := p.len != s.rdB Reg.SCAN_LINEIF_LEN_POL
           lblk := p.lblk != s.rdB Reg.SCAN_LINEIF_LBLK_POL
           ldis := if s.rdB Reg.SCAN_LINEIF_LDIS_POL then ~~~p.ldis else p.ldis }

/-- The levels that the pads of the line interface show now. -/
def State.linePads (s : State) : LinePins := s.atPads s.scan.pins

/-- R139: a line tick to the pawns of SCAN_LINEIF.PAWN_MASK in PAWN mode. -/
def State.lineTicks (s : State) : State :=
  if s.lineMode = 2 then (maskIdx 8 (s.rd Reg.SCAN_LINEIF_PAWN_MASK)).foldl State.pawnLine s else s

/-- R139: a frame tick to the pawns of SCAN_LINEIF.PAWN_MASK in PAWN mode. -/
def State.frameTicks (s : State) : State :=
  if s.lineMode = 2 then (maskIdx 8 (s.rd Reg.SCAN_LINEIF_PAWN_MASK)).foldl State.pawnFrame s else s

/-- The trace of a slot is kept, and the pins rest at its last levels. -/
def State.setPhases (s : State) (ph : List (Nat × LinePins)) : State :=
  { s with scan := { s.scan with phases := ph, pins := (ph.getLast?.map (·.2)).getD s.scan.pins } }

/-- R127, R138: the line slot that follows a slot within its frame: pad slots excepted, and none after the last. -/
def State.nextLineSlot (s : State) (p : Slot) : Option Slot :=
  let g := s.geom
  if p.idx + 1 < g.lines then some ⟨p.sub, p.idx + 1⟩
  else if (Slot.mk (p.sub + 1) 0).inFrame g then some ⟨p.sub + 1, 0⟩ else none

/-- R134: the phases of a slot on line l, and the line tick at b4. -/
def State.slotPhases (s : State) (p : Slot) (l : Nat) : State :=
  let nx := s.nextLineSlot p
  let (line, pulses) := match nx with
    | some q => (s.ord q.idx, s.slotPulses q.sub (s.ord q.idx))
    | none => (s.ord 0, [])
  let on := !(s.rdB Reg.PWR_SUPV_STAT_BLANKED || s.scan.braceDark)
  let first := match nx with
    | some q => q.idx == 0
    | none => false
  (s.setPhases (s.changePhases ⟨s.geom.sSeg, on, l, line, first, s.precharged pulses, s.llatCarry⟩ s.geom.tSlot)).lineTicks

/-- R129: the record of a subframe is closed at its end. -/
def State.closeSubframe (s : State) (p : Slot) : State :=
  if (p.next s.geom).sub = p.sub then s else
    { s with census := { s.census with queue := s.census.queue ++ [s.census.subRec], subRec := ⟨[], []⟩ } }

/-- R155: the grey words of a slot were not fetched by b0. -/
def State.slotStall (s : State) (p : Slot) : State :=
  (s.raise Ev.SCAN_STALL (p.idx + p.sub * 2 ^ 13)).bump Reg.SCAN_CNT_STALL

/-- R134, R155: one line slot, with whether its grey words were fetched and the column voltages its samples see. -/
def State.runSlot (s : State) (p : Slot) (fetched : Bool) (vcol : List (Nat × Nat)) : State :=
  if s.geom.lines ≤ p.idx then { s.setPhases s.quietPhases with scan := { (s.setPhases s.quietPhases).scan with pulses := [] } }
  else
    let l := s.ord p.idx
    let s := if (s.rdB Reg.PWR_SUPV_STAT_BLANKED || s.scan.braceDark) && !s.scan.dark then
        { s with census := { s.census with blanked := true } } else s
    let pulses := if fetched then s.slotPulses p.sub l else []
    let s := if fetched then s else s.slotStall p
    let s := { s with scan := { s.scan with pulses := pulses } }
    (s.slotSamples p.sub l vcol pulses).slotPhases p l

/-- R134: the line slot at SCAN_POS runs; SCAN_POS then names the next. -/
def execLineSlot (fetched : Bool) (vcol : List (Nat × Nat)) (s : State) : Host.Outcome State Fault Refusal :=
  .next (let p := s.slotPos
    if s.idle || s.scan.inBlank || !p.inFrame s.geom then s else
      let s := (s.runSlot p fetched vcol).closeSubframe p
      let n := p.next s.geom
      ((s.wr Reg.SCAN_POS_SLOT n.idx).wr Reg.SCAN_POS_SUB n.sub).censusFlush)

/-! ## Frame starts -/

/-- R126: `now` is a line-slot boundary, or lies within one GCLK after it. -/
def State.atBoundary (s : State) : Bool := s.slotBoundary (s.now - gclkTime s 1) ≤ s.now

/-- R50: `now` is the first GCLK edge at or after a grid point, within ±2 ns. -/
def State.atStartEdge (s : State) : Bool :=
  let near := 2 * nsUnit
  let g := gridPoint (gridEpoch s) (gridPeriod s) (gridIndexAtOrBefore s (s.now + near))
  let edge := gclkEdge s g.toNat
  gridPeriod s != 0 && 0 ≤ g && decide (edge ≤ s.now + near) && decide (s.now ≤ edge + near)

/-- `now` is a grid point, or lies within one GCLK after it. -/
def State.atGrid (s : State) : Bool :=
  let g := gridPoint (gridEpoch s) (gridPeriod s) (gridIndexAtOrBefore s s.now)
  gridPeriod s != 0 && 0 ≤ g && decide (((s.now : Int) - g) * gckKhz s ≤ gclkUnit + gckKhz s)

/-- The composition made for this frame start has finished. -/
def State.compDone (s : State) : Bool := match s.pipe.comp with
  | some c => c.done
  | none => false

/-- It presents a new frame. -/
def State.compNew (s : State) : Bool := match s.pipe.comp with
  | some c => c.done && c.isNew
  | none => false

/-- R54: the presentation time of the composed frame has come. -/
def State.compTimeOk (s : State) : Bool := match s.pipe.comp with
  | some c => (match c.board with
    | some b => decide ((s.board b).target.getD 0 ≤ s.now)
    | none => true)
  | none => true

/-- A frame may start now: the display runs, GCK is locked, no step, grid change or relock has put the start off, and the
castling point has passed or the scan engine is idle. -/
def State.mayStart (s : State) : Bool :=
  s.displayState && s.gckOk && s.scan.notBefore ≤ s.now && (s.scan.inBlank || s.idle)

/-- R50, R54: a frame may start now in the mode in force. In READY mode a start presents a new frame, or repeats the shown one
for a FLIP whose frame is not complete (R62). -/
def State.frameDue (s : State) : Bool :=
  s.mayStart &&
    (if s.readyMode then
      s.idle || (s.atBoundary && s.scan.frameStart + s.effMin ≤ (s.now : Int) && (s.scan.nextKind == .darkB || (s.compNew && s.compTimeOk) || s.flipMissed s.now))
     else s.atStartEdge)

/-- R107, R83: the planes flip: the composed board is SHOWING, the one shown before is EMPTY. f of READY mode counts the flips
made in READY mode only (R110; DESIGN CHOICE, log entry 112). -/
def State.flipPlanes (s : State) (c : Comp) : State :=
  let s := if c.isNew then
      let s := match s.showing with
        | some old => s.setBoard old boardEmpty
        | none => s
      match c.board with
      | some b =>
        let bd := s.board b
        let s := s.setBoard b { bd with showing := true, held := false }
        { s with pipe := { s.pipe with shownTarget := bd.target.getD s.pipe.shownTarget } }
      | none => s
    else s
  let s := s.wr Reg.GREY_STAT_PLANE (1 - s.rd Reg.GREY_STAT_PLANE)
  let s := { s with scan := { s.scan with accClear := s.scan.accClear && !c.clears, flips := if s.readyMode then s.scan.flips + 1 else s.scan.flips } }
  if c.isNew && c.complete then
    { s with pipe := { s.pipe with shownOnce := true, lastShown := s.time.uptime },
             fallback := { s.fallback with timerFrom := s.time.uptime } }
  else s

/-- R22, R231, R232: the fallback look follows the composition that is shown. A cause that arises after that composition began
starts the look one frame start later (R20, R21; DESIGN CHOICE, log entry 103). Under cause 2 only a fallback-off ends it. -/
def State.followFallback (s : State) (c : Comp) : State :=
  if c.fb && !s.fbActive then s.fbStart
  else if !c.fb && s.fbActive && (s.rd Reg.MOTIF_FB_STAT_CAUSE != 2 || s.fallback.endDue) then s.fbEnd
  else s

/-- The plane being scanned was composed under the N_SUB and S_SEG in force (R524). -/
def State.planeFits (s : State) : Bool :=
  (if s.rd Reg.GREY_STAT_PLANE = 0 then s.scan.planeGeom0 else s.scan.planeGeom1) == (s.geom.nSub, s.geom.sSeg)

/-- R152, R524, R525: a dark frame; the next composition clears the density accumulators (R116). -/
def State.darkFrame (s : State) : State :=
  { ((s.bump Reg.SCAN_CNT_DARK_FRAMES).wr Reg.SCAN_STAT_STATE 2) with
    scan := { s.scan with dark := true, accClearOnce := true } }

/-- A frame that drives the sinks from the plane in use. -/
def State.litFrame (s : State) : State := { (s.wr Reg.SCAN_STAT_STATE 1) with scan := { s.scan with dark := false } }

/-- R87, R524: the plane is scanned again, or the frame is dark where the plane's geometry is not that in force. -/
def State.repeatFrame (s : State) (event : Bool) : State :=
  let fit := s.planeFits
  let s := if event || !fit then s.frameRepeat else s
  if fit then s.litFrame else s.darkFrame

/-- The plane composed was composed under the N_SUB and S_SEG in force (R123). -/
def State.newPlaneFits (s : State) : Bool :=
  (if s.rd Reg.GREY_STAT_PLANE = 0 then s.scan.planeGeom1 else s.scan.planeGeom0) == (s.geom.nSub, s.geom.sSeg)

/-- R232: a composition that ends the fallback look, which has taken cause 2 or another frame since, is not shown (DEDUCED, log
entry 115). -/
def State.endsLook (s : State) (c : Comp) : Bool := s.fbActive && !c.fb && s.fbFor c.start c.complete

/-- The composition may be shown at this frame start: it has finished, its plane has the geometry in force (R123), at a resuming
frame start it is the one for it (R525), at the repeat of R54 it presents no frame before its time, and it ends no fallback look
that stays (R232). -/
def State.compShows (s : State) (c : Comp) (maxRepeat : Bool) : Bool :=
  c.done && s.newPlaneFits && (!s.idle || s.readyMode || gridIndexAtOrBefore s c.start == gridIndexAtOrBefore s s.now) &&
    !(maxRepeat && c.isNew && !s.compTimeOk) && !s.endsLook c

/-- R62: a FLIP that has not presented its frame is spent; a held frame waits for another. -/
def State.releaseFlip (s : State) (f : Word) : State :=
  match (List.range 3).find? fun i => (s.board i).frame == some f && !(s.board i).showing && !s.composing i with
  | some i =>
    let b := s.board i
    if b.held then (s.fixTarget f none).setBoard i { b with target := none, deadline := none, pres := none } else s
  | none => s

/-- R62: a frame start spends its FLIP moves; the frames that `gone` tells of are not presented by it. A frame that became complete
after the composition for this frame start began without it is none of them: its target stands and it is presented at the following
frame start (DESIGN CHOICE, log entry 159). -/
def State.spendFlips (s : State) (gone : Word → Bool) : State :=
  let due := s.pipe.flips.filter fun e => e.2 ≤ s.now
  let s' := (due.filter fun e => gone e.1).foldl (fun t e => t.releaseFlip e.1) s
  { s' with pipe := { s'.pipe with flips := s.pipe.flips.filter fun e => decide (s.now < e.2) } }

/-- R62, R78: at a frame start whose FLIP moves have been followed, those of incomplete frames release them. -/
def State.endFlips (s : State) : State := s.spendFlips fun f => (s.readyBoard f).isNone

/-- R62, R463: a FLIP whose frame start falls in BRACE is spent, its frame not presented, whether or not it had been composed: the shown
frame repeats with EV_FRAME_REPEAT, at a resuming dark frame too (DESIGN CHOICE, log entry 162). A frame start without one repeats
without an event. -/
def State.braceFlips (s : State) : State :=
  let composed := match s.pipe.comp with
    | some c => c.flips
    | none => []
  let s := { s with pipe := { s.pipe with comp := none, flips := s.pipe.flips ++ composed } }
  if s.pipe.flips.any fun e => e.2 ≤ s.now then s.frameRepeat.spendFlips fun _ => true else s

/-- What a frame start shows (R54, R62, R87, R152, R463, R524, R525); `maxRepeat` marks the repeat of R54. In READY mode the frame
start stands for the grid point at which a fallback look starts or ends (R20; DESIGN CHOICE, log entry 104). -/
def State.showFrame (s : State) (maxRepeat : Bool) : State :=
  if s.scan.nextKind == .darkB then s.darkFrame
  else if s.brace || s.scan.braceHold then
    let s := s.braceFlips
    (if s.idle then s.darkFrame else (s.bump Reg.PIPE_CNT1_REPEAT).repeatFrame false)
  else
    let miss := s.flipMissed s.now
    match s.pipe.comp.filter fun c => s.compShows c maxRepeat with
    | some c =>
      let s := if maxRepeat || miss || (!c.isNew && s.now < s.scan.replayTo) then s.frameRepeat else s
      (((s.endFlips).flipPlanes c).followFallback c).litFrame
    | none => if s.idle then s.darkFrame else (s.repeatFrame true).endFlips

/-- R138, R139: the phases b1 to b4 in the last T_BLANK GCLK before the frame, toward ORD(0), with frame and line ticks. The
discharge is of the line last on, ORD(SCAN_LINES - 1) (DEDUCED, log entry 114). -/
def State.preFrame (s : State) : State :=
  let s := s.frameTicks
  let l := s.ord 0
  let pulses := s.slotPulses 0 l
  (s.setPhases (s.changePhases ⟨0, false, s.ord (s.geom.lines - 1), l, true, s.precharged pulses, s.llatCarry⟩
    s.geom.tBlank)).lineTicks

/-- R50: a frame starts now. The end of a class B dark frame is no end of idle for V_START: its slots ran (R152, R173; DESIGN CHOICE, log
entry 164). -/
def State.startFrame (s : State) (maxRepeat : Bool) : State :=
  let resume := s.idle
  let vb := if s.scan.inBlank then min 65535 (((s.now : Int) - s.scan.blankFrom).toNat / usec 1) else s.rd Reg.SCAN_STAT_VB_LAST
  let s := { s with scan := { s.scan with braceDark := s.scan.braceDark && s.brace },
                    sink := { s.sink with ffScan := s.rd Reg.SINK_FOLD_STAT_FF,
                                          irefOff := s.sink.irefOff && s.rdB Reg.SINK_STAT_IREF_FAULT } }
  let s := if resume then s.loopsStart else s
  let s := s.showFrame maxRepeat
  let s := { s with scan := { s.scan with frameStart := s.now, inBlank := false, setupDone := false, nextKind := .lit,
                                          pulses := [] },
                    pipe := { s.pipe with comp := none, composedFor := none } }
  let s := (((s.wr Reg.SCAN_STAT_VB_LAST vb).wr Reg.SCAN_POS_SLOT 0).wr Reg.SCAN_POS_SUB 0).wr Reg.SCAN_POS_VBLANK 0
  let s := s.censusFrameStart (!s.scan.dark) s.shownFrame
  s.preFrame.mirRequest

/-- R50, R54: a frame starts at an instant. A READY frame start is one that presents a new frame. -/
def execFrameStart (at_ : Vt) (s : State) : Host.Outcome State Fault Refusal :=
  .next (let s := s.elapseTo at_
    if s.frameDue then s.startFrame false else s)

/-- R54, R55: in READY no new frame has started by the previous start plus FRAME_MAX: the shown frame repeats. -/
def execFrameMaxRepeat (at_ : Vt) (s : State) : Host.Outcome State Fault Refusal :=
  .next (let s := s.elapseTo at_
    if s.readyMode && s.mayStart && !s.idle && !(s.compNew && s.compTimeOk) && s.scan.frameStart + s.effMax ≤ (s.now : Int) then
      s.startFrame true
    else s)

end Sys2Proof.Machine
end

