-- ==== Sys2Proof/Machine/Spwm.lean ====
section
/-! DEFINITION. Switch PWM units (chapter 13) and the sampling of the supply loops (R170 to R173). -/
namespace Sys2Proof.Machine

/-- A unit after reset. -/
def spwmReset : SpwmSt :=
  ⟨0, 0, 0, 0, 0, ⟨0, 0, 0, 0, 0, 0⟩, 0, none, false, false, none, none, false, false, false, true, none, false, none, none, none, none⟩

def State.sw (s : State) (n : Nat) : SpwmSt := tabGet spwmReset s.spwm n
def State.setSw (s : State) (n : Nat) (u : SpwmSt) : State := { s with spwm := tabSet spwmReset s.spwm n u }

/-- One SPW tick, 1.5625 ns, in 2^-16 ns (R376). -/
def spwTick : Nat := 102400

/-- R376: P in force; below 16 acts as 16. -/
def periodOf (v : Nat) : Nat := max 16 v
def State.swP (s : State) (n : Nat) : Nat := periodOf (s.rd (Reg.SPWM_PERIOD_P n))

/-- SPWM_n_CTRL.PAIR: 0 SINGLE, 1 COMPLEMENTARY, 2 INDEPENDENT; 3 acts as 0. -/
def State.swPair (s : State) (n : Nat) : Nat := let v := s.rd (Reg.SPWM_CTRL_PAIR n); if v = 3 then 0 else v

/-- ALIGN is CENTRE. -/
def State.swCentre (s : State) (n : Nat) : Bool := s.rdB (Reg.SPWM_CTRL_ALIGN n)

/-- Table 13.2: the update mode in use: 0 BOUNDARY, 1 MIDPOINT, 2 BOTH, 3 MOVE, 4 CASTLE. -/
def State.swUpd (s : State) (n : Nat) : Nat :=
  let u := s.rd (Reg.SPWM_CTRL_UPD n)
  if 5 ≤ u then 0 else if !s.swCentre n && (u = 1 || u = 2) then 0 else u

/-- R379: D_MAX for a period and dead times; 0 where the difference is negative. -/
def dMax (p dtR dtF minOff : Nat) (comp : Bool) : Nat := p - (if comp then dtR + dtF else 0) - minOff

/-- R379: D_MAX in force, which is D_LIM of R170. -/
def State.swDMax (s : State) (n : Nat) : Nat :=
  dMax (s.swP n) (s.rd (Reg.SPWM_DT_DT_R n)) (s.rd (Reg.SPWM_DT_DT_F n)) (s.rd (Reg.SPWM_LIMITS_MIN_OFF n))
    (s.swPair n == 1)

/-- R379: a set of values is valid. -/
def spwmValid (p dtR dtF minA minB minOff : Nat) (comp : Bool) : Bool :=
  (if comp then dtR + dtF else 0) + minOff + minA ≤ p &&
    (!comp || minB ≤ minOff || minA + dtR + dtF + minB ≤ p)

/-- R379: the set (PERIOD, DT) of a unit is valid under its limits. -/
def State.swSetOk (s : State) (n : Nat) (period dt : Word) : Bool :=
  spwmValid (periodOf (bitsOf period 0 16)) (bitsOf dt 0 8) (bitsOf dt 8 8) (s.rd (Reg.SPWM_LIMITS_MIN_PULSE_A n))
    (s.rd (Reg.SPWM_LIMITS_MIN_PULSE_B n)) (s.rd (Reg.SPWM_LIMITS_MIN_OFF n)) (s.swPair n == 1)

/-- Table 18.3, R394: a debug halt freezes the units. -/
def State.swHalted (s : State) : Bool := s.rdB Reg.SYS_DBG_HALTED

/-- R397: the unit is pinned. -/
def State.swPinned (s : State) (n : Nat) : Bool := 6 ≤ n && s.pwr.pinned.getLsbD (n - 6)

/-- R386: the unit is owned by its loop. -/
def State.swLoopOwned (s : State) (n : Nat) : Bool := n < 2 && s.rdB (Reg.LOOP_EN n)

/-- The addresses of PERIOD, DUTY, DUTY_B and DT of a unit. -/
def swAddr (n k : Nat) : Nat := 0xE0004 + 0x40 * n + 4 * k

/-- The shadows of a unit: PERIOD, DUTY, DUTY_B, DT. -/
def State.swShadows (s : State) (n : Nat) : List Word := (List.range 4).map fun k => s.shReg (swAddr n k)

/-- R383: nothing is armed any more. -/
def State.swDisarm (s : State) (n : Nat) : State :=
  (s.wr (Reg.SPWM_STAT_PENDING n) 0).setSw n { s.sw n with loopArmed := false }

/-- R383: copy a set to the active set, or refuse it with SET_REJ. Where `wait` holds, PERIOD waits for the following boundary. -/
def State.swCopy (s : State) (n : Nat) (set : List Word) (wait : Bool) : State :=
  let period := set.getD 0 0
  let dt := set.getD 3 0
  if !s.swSetOk n period dt then s.setW1c (Reg.SPWM_STAT_SET_REJ n)
  else
    let s := ((s.setReg (swAddr n 1) (set.getD 1 0)).setReg (swAddr n 2) (set.getD 2 0)).setReg (swAddr n 3) dt
    if wait then s.setSw n { s.sw n with periodDue := some period.toNat }
    else (s.setReg (swAddr n 0) period).setSw n { s.sw n with periodDue := none }

/-- R383: a transfer of the shadows; it ends the arming (log entry 77). -/
def State.swTransfer (s : State) (n : Nat) (wait : Bool) : State := (s.swDisarm n).swCopy n (s.swShadows n) wait

/-! ## On-times (R378, R380, R381) -/

/-- R378: the requested on-time of a period. -/
def requested (d frac j : Nat) : Nat := if dseq j < frac then d + 1 else d

/-- One on-time computation: on-time, carry, whether a pulse was dropped, whether it was clamped. -/
structure OnTime where
  on : Nat
  carry : Nat
  dropped : Bool
  clamped : Bool
  deriving DecidableEq, Repr

/-- R380: the on-time from the request and the carry. -/
def onTime (r carry minPulse dmax : Nat) : OnTime :=
  if r = 0 then ⟨0, 0, false, false⟩
  else if r + carry < minPulse then ⟨0, r + carry, true, false⟩
  else ⟨min (r + carry) dmax, 0, false, dmax < r + carry⟩

/-- R378, R380: SWnA's on-time in period j with the values in force. -/
def State.swOnA (s : State) (n j carry : Nat) : OnTime :=
  onTime (requested (s.rd (Reg.SPWM_DUTY_D n)) (s.rd (Reg.SPWM_DUTY_FRAC n)) j) carry
    (s.rd (Reg.SPWM_LIMITS_MIN_PULSE_A n)) (s.swDMax n)

/-- R380: SWnB's on-time under INDEPENDENT. -/
def State.swOnB (s : State) (n carry : Nat) : OnTime :=
  if s.swPair n = 2 then
    onTime (s.rd (Reg.SPWM_DUTY_B_DUTY_B n)) carry (s.rd (Reg.SPWM_LIMITS_MIN_PULSE_B n)) (s.swDMax n)
  else ⟨0, 0, false, false⟩

/-- R381: SWnB is dropped under COMPLEMENTARY. -/
def State.swDropB (s : State) (n onA : Nat) : Bool :=
  s.swPair n == 1 &&
    s.swP n < onA + s.rd (Reg.SPWM_DT_DT_R n) + s.rd (Reg.SPWM_DT_DT_F n) + s.rd (Reg.SPWM_LIMITS_MIN_PULSE_B n)

/-- 100 ms have passed since a rate-limited event. -/
def State.eventDue (s : State) (last : Option Nat) : Bool :=
  match last with
  | none => true
  | some t => t + msec 100 ≤ s.time.uptime

/-- R382: a dropped pulse of SWnA (b = 0) or SWnB (b = 1). -/
def State.swSkip (s : State) (n b : Nat) : State :=
  let s := s.bump (Reg.SPWM_CNT_SKIP n)
  if s.eventDue (s.sw n).lastSkip then
    (s.setSw n { s.sw n with lastSkip := some s.time.uptime }).raise Ev.SPWM_SKIP (n + 16 * b)
  else s

/-- R399: the soft start of a strap unit: one tick more every 2^SS periods. -/
def State.swSoft (s : State) (n : Nat) : State :=
  match (s.sw n).soft with
  | none => s
  | some (target, ss, count) =>
    let d := s.rd (Reg.SPWM_DUTY_D n)
    if target ≤ d then s.setSw n { s.sw n with soft := none }
    else if count + 1 = 2 ^ ss then
      ((s.wrBoth (Reg.SPWM_DUTY_D n) (d + 1))).setSw n { s.sw n with soft := some (target, ss, 0) }
    else s.setSw n { s.sw n with soft := some (target, ss, count + 1) }

/-- Table 13.1: the edges of a period with on-times onA and onB. `carried`: under COMPLEMENTARY, SWnB is active over the boundary that
begins the period, from this tick of it. -/
def State.swEdges (s : State) (n onA onB : Nat) (carried : Option Nat) : SwEdges :=
  let p := s.swP n
  let c := s.swCentre n
  let dtR := s.rd (Reg.SPWM_DT_DT_R n)
  let riseA := if c then p / 2 - onA / 2 else 0
  let fallA := if c then p / 2 + (onA - onA / 2) else onA
  match s.swPair n with
  | 1 => if s.swDropB n onA then ⟨riseA, fallA, 0, 0, 0, 0⟩
      else ⟨riseA, fallA, fallA + s.rd (Reg.SPWM_DT_DT_F n), p + riseA - dtR, carried.getD 0, if carried.isSome then riseA - dtR else 0⟩
  | 2 =>
    let o := s.rd (Reg.SPWM_DUTY_B_OFS_B n) % p
    if c then ⟨riseA, fallA, p / 2 - onB / 2, p / 2 + (onB - onB / 2), 0, 0⟩ else ⟨riseA, fallA, o, o + onB, 0, o + onB - p⟩
  | _ => ⟨riseA, fallA, 0, 0, 0, 0⟩

/-- Under COMPLEMENTARY, SWnB is active over the boundary that comes, or rises after it by a fall of SWnA before it: the tick after the
boundary from which it is. -/
def State.swCarried (s : State) (n : Nat) : Option Nat :=
  let u := s.sw n
  if s.swPair n == 1 && u.boundaryAt.isSome && !u.waiting && !s.rdB (Reg.SPWM_STAT_TRIPPED n) &&
      decide (u.edges.riseB < u.edges.fallB ∧ s.swP n < u.edges.fallB) then some (u.edges.riseB - s.swP n)
  else none

/-- R380 to R382: the on-times of the period that begins; a pinned unit's carries are frozen in a halt (R394). -/
def State.swCompute (s : State) (n : Nat) (carried : Option Nat) : State :=
  let u := s.sw n
  let a := s.swOnA n u.periods u.carryA
  let b := s.swOnB n u.carryB
  let drop := s.swDropB n a.on
  let frozen := s.swHalted
  let s := s.setSw n { u with onA := a.on, edges := s.swEdges n a.on b.on carried, inA := u.carryA, inB := u.carryB,
                              periods := (u.periods + 1) % 16,
                              carryA := if frozen then u.carryA else a.carry,
                              carryB := if frozen then u.carryB else b.carry }
  let s := (s.wrB (Reg.SPWM_STAT_CLAMP n) (a.clamped || b.clamped)).wr (Reg.SPWM_ACT_P n) (s.swP n)
  let s := s.wr (Reg.SPWM_ACT_ONA n) a.on
  let s := if a.dropped then s.swSkip n 0 else s
  if drop || b.dropped then s.swSkip n 1 else s

/-- An edge that has not yet passed at a tick of the period moves to a new place, at once where that has passed. -/
def moveEdge (pos old new : Nat) : Nat := if old < pos then old else max new pos

/-- R377, R384: the edges of the current period with new values, at a tick of it. Edges that have passed stay. SWnA rises no earlier than
DT_R after the fall that SWnB makes, and SWnB DT_F after the fall that SWnA makes; an SWnB that was dropped stays dropped, and one whose
remainder after the on-time that SWnA makes is too short is dropped (R381). -/
def State.swMoved (s : State) (n onA onB pos : Nat) : SwEdges :=
  let o := (s.sw n).edges
  let e := s.swEdges n onA onB (if o.leadRise < o.leadFall then some o.leadRise else none)
  let leadFall := moveEdge pos o.leadFall e.leadFall
  let free := moveEdge pos o.riseA e.riseA
  let riseA := if s.swPair n = 1 && decide (pos ≤ o.riseA ∧ o.leadRise < leadFall) then
      max free (leadFall + s.rd (Reg.SPWM_DT_DT_R n)) else free
  let fallA := max riseA (moveEdge pos o.fallA e.fallA)
  if s.swPair n = 1 then
    let next := s.swP n + e.riseA - s.rd (Reg.SPWM_DT_DT_R n)
    if o.fallB ≤ o.riseB then ⟨riseA, fallA, 0, 0, o.leadRise, leadFall⟩
    else if o.riseB < pos then ⟨riseA, fallA, o.riseB, moveEdge pos o.fallB next, o.leadRise, leadFall⟩
    else if s.swDropB n (fallA - riseA) then ⟨riseA, fallA, 0, 0, o.leadRise, leadFall⟩
    else ⟨riseA, fallA, max (fallA + s.rd (Reg.SPWM_DT_DT_F n)) pos, next, o.leadRise, leadFall⟩
  else ⟨riseA, fallA, moveEdge pos o.riseB e.riseB, moveEdge pos o.fallB e.fallB, o.leadRise, leadFall⟩

/-- R380, R382, R384: new values in the current period, at a tick of it. The computation of the period runs again from the request and
the carry that it began with; at a midpoint (`again`, R380) its carry counts, after a move only that of an output whose rise
has not passed, since a pulse that has begun is not carried (log entry 141). Without a period in progress there is nothing to compute. -/
def State.swRecompute (s : State) (n pos : Nat) (again : Bool) : State :=
  let u := s.sw n
  if u.boundaryAt.isNone || u.waiting then s else
  let a := s.swOnA n (u.periods + 15) u.inA
  let b := s.swOnB n u.inB
  let e := s.swMoved n a.on b.on pos
  let newA := again || decide (pos ≤ u.edges.riseA)
  let newB := again || decide (pos ≤ u.edges.riseB)
  let clamped := a.clamped && (again || decide (pos ≤ u.edges.fallA)) || b.clamped && (again || decide (pos ≤ u.edges.fallB))
  let dropB := s.swDropB n (e.fallA - e.riseA) && decide (u.edges.riseB < u.edges.fallB ∧ pos ≤ u.edges.riseB)
  let s := s.setSw n { u with edges := e, onA := if newA && !again then a.on else u.onA,
                              carryA := if newA then a.carry else u.carryA,
                              carryB := if newB then b.carry else u.carryB }
  let s := if newA && !again then s.wr (Reg.SPWM_ACT_ONA n) a.on else s
  let s := if clamped then s.wr (Reg.SPWM_STAT_CLAMP n) 1 else s
  let s := if newA && a.dropped && u.carryA == 0 then s.swSkip n 0 else s
  if dropB || (newB && b.dropped && u.carryB == 0) then s.swSkip n 1 else s

/-! ## Output levels (R377, R389, R391, R395, R398) -/

/-- R398, R173: the state holds the unit's outputs SAFE: STALEMATE, RECOVERY or dark-safe, not pinned. -/
def State.swHeld (s : State) (n : Nat) : Bool :=
  (s.rd Reg.SYS_STATE_STATE == 3 || s.rd Reg.SYS_STATE_STATE == 7 || s.rdB Reg.SYS_STATE_DARK_SAFE) && !s.swPinned n

/-- The SAFE levels of a unit, and the levels of its inactive outputs. -/
def State.swSafe (s : State) (n : Nat) : Bool × Bool := (s.rdB (Reg.SPWM_CTRL_SAFE_A n), s.rdB (Reg.SPWM_CTRL_SAFE_B n))
def State.swInactive (s : State) (n : Nat) : Bool × Bool := (s.rdB (Reg.SPWM_CTRL_POL_A n), s.rdB (Reg.SPWM_CTRL_POL_B n))

/-- The unit's counter runs. -/
def State.swRuns (s : State) (n : Nat) : Bool := s.rdB (Reg.SPWM_STAT_RUN n)

/-- SWnA and SWnB are active at tick t of a period. -/
def SwEdges.activeA (e : SwEdges) (t : Nat) : Bool := e.riseA ≤ t && t < e.fallA
def SwEdges.activeB (e : SwEdges) (t : Nat) : Bool := (e.riseB ≤ t && t < e.fallB) || (e.leadRise ≤ t && t < e.leadFall)

/-- The levels of SWnA and SWnB at tick t of the current period where no trip acts. -/
def State.swDriven (s : State) (n t : Nat) : Bool × Bool :=
  let u := s.sw n
  if s.swHeld n then s.swSafe n
  else match u.heldLevels with
    | some l => l
    | none =>
      if !s.swRuns n || u.waiting then s.swSafe n
      else (u.edges.activeA t != s.rdB (Reg.SPWM_CTRL_POL_A n), u.edges.activeB t != s.rdB (Reg.SPWM_CTRL_POL_B n))

/-- R389, R391: the levels that a trip leaves: SAFE, and no change where both outputs are inactive. -/
def State.swTripTo (s : State) (n t : Nat) : Bool × Bool :=
  if s.swDriven n t = s.swInactive n then s.swInactive n else s.swSafe n

/-! ## Trips (R389 to R393) -/

/-- R399: TRIP input k acts active high whatever SPWM_TRIP_POL says: the strap of a strap-owned unit maps it. -/
def State.tripStrap (s : State) (k : Nat) : Bool :=
  [6, 7].any fun n => s.swStrap n && bitAt (s.rd (Reg.SPWM_STRAP_MAP (n - 6))) k

/-- The level at which TRIP input k is asserted is low. -/
def State.tripLow (s : State) (k : Nat) : Bool := !s.tripStrap k && bitAt (s.rd Reg.SPWM_TRIP_POL_POL) k

/-- SPWM_TRIP_POL.LEVEL: the TRIP inputs asserted now, by the levels of their pins, which SUP need not be powered to have. -/
def State.tripLevel (s : State) : Nat :=
  (List.range 8).foldl (fun acc k => acc + if s.pwr.tripPins.getLsbD k != s.tripLow k then 2 ^ k else 0) 0

/-- The asserted TRIP inputs that act on a unit. -/
def State.swAsserted (s : State) (n : Nat) : Nat := s.tripLevel &&& s.rd (Reg.SPWM_TRIP_MAP n)

/-- TRIP_MODE is CYCLE. -/
def State.swCycle (s : State) (n : Nat) : Bool := s.rdB (Reg.SPWM_CTRL_TRIP_MODE n)

/-- R393: the data of EV_SPWM_TRIP. -/
def tripData (n cause inputs : Nat) : Nat := n + cause * 2 ^ 4 + inputs * 2 ^ 8

/-- Ticks since the unit's last boundary. -/
def State.swPos (s : State) (n : Nat) : Nat := match (s.sw n).boundaryAt with
  | some b => (s.time.uptime - b) / spwTick
  | none => 0

/-- R390: the local instant at which SWnA last rose, before tick t of the current period. -/
def State.swRose (s : State) (n t : Nat) : Option Nat :=
  let u := s.sw n
  match u.boundaryAt with
  | some b =>
    if !s.rdB (Reg.SPWM_STAT_TRIPPED n) && !u.waiting && decide (u.edges.riseA < u.edges.fallA ∧ u.edges.riseA < t) then
      some (b + u.edges.riseA * spwTick)
    else u.roseAt
  | none => u.roseAt

/-- R389, R393: TRIPPED is set, counted and reported. -/
def State.swTrip (s : State) (n : Nat) : State :=
  if s.rdB (Reg.SPWM_STAT_TRIPPED n) then s else
    let s := s.setSw n { s.sw n with tripQuiet := decide (s.swDriven n (s.swPos n) = s.swInactive n),
                                     roseAt := s.swRose n (s.swPos n + 1), heldLevels := none }
    let s := (s.wr (Reg.SPWM_STAT_TRIPPED n) 1).bump (Reg.SPWM_CNT_TRIPS n)
    let data := tripData n 1 s.tripLevel
    if !s.swCycle n then s.raise Ev.SPWM_TRIP data
    else if s.eventDue (s.sw n).lastTrip then
      (s.setSw n { s.sw n with lastTrip := some s.time.uptime }).raise Ev.SPWM_TRIP data
    else s

/-- R390: CYCLE ignores a mapped input during the first LEB ticks after SWnA rises, past a boundary too. -/
def State.swBlanked (s : State) (n : Nat) : Bool :=
  s.swCycle n && s.swRuns n && match s.swRose n (s.swPos n + 1) with
    | some r => s.time.uptime < r + s.rd (Reg.SPWM_LIMITS_LEB n) * spwTick
    | none => false

/-- R389, R390: an asserted mapped input that is not blanked trips the unit now. -/
def State.swTrips (s : State) (n : Nat) : Bool := s.powered 5 && s.swAsserted n != 0 && !s.swBlanked n

/-- R389: STAT.TRIPPED: latched, or set by an input that acts now. -/
def State.swTripped (s : State) (n : Nat) : Bool := s.rdB (Reg.SPWM_STAT_TRIPPED n) || s.swTrips n

/-- R389, R390: the trip path latches, counts and reports what acts now. -/
def State.swTripCheck (s : State) (n : Nat) : State := if s.swTrips n then s.swTrip n else s

/-- R389: the trip path of every unit. -/
def State.swTripAll (s : State) : State := (List.range 8).foldl State.swTripCheck s

/-- R390, R392: TRIPPED is cleared; the unit restarts with carries 0. -/
def State.swRearm (s : State) (n : Nat) : State :=
  (s.wr (Reg.SPWM_STAT_TRIPPED n) 0).setSw n { s.sw n with carryA := 0, carryB := 0, inA := 0, inB := 0 }

/-- R390, R392: what a boundary does to TRIPPED. -/
def State.swBoundaryTrip (s : State) (n : Nat) : State :=
  if s.rdB (Reg.SPWM_STAT_TRIPPED n) && s.swAsserted n == 0 then
    if s.swCycle n then s.wr (Reg.SPWM_STAT_TRIPPED n) 0
    else if s.rdB (Reg.SPWM_CTRL_AUTO_REARM n) then s.swRearm n else s
  else s

/-- R390, R392: a write of 1 to CLR: no effect while a mapped input is asserted, or under CYCLE (log entry 31). The outputs
stay SAFE until the next boundary. -/
def State.swClr (s : State) (n : Nat) : State :=
  if s.rdB (Reg.SPWM_STAT_TRIPPED n) && !s.swCycle n && s.swAsserted n == 0 then
    let s := s.swRearm n
    s.setSw n { s.sw n with waiting := true }
  else s

/-! ## Boundary and midpoint -/

/-- R383, R385, R394: which armed transfer a boundary makes. -/
def State.swArmed (s : State) (n : Nat) : Bool :=
  let u := s.sw n
  s.rdB (Reg.SPWM_STAT_PENDING n) && (u.applyAny || u.loopArmed || s.swUpd n == 0 || s.swUpd n == 2)

/-- R385: the transfer of a castle's set: a DUTY written since its capture stays armed. -/
def State.swCastleTransfer (s : State) (n : Nat) (set : List Word) : State :=
  let late := (s.sw n).armedLate
  let s := (s.setSw n { s.sw n with castleDue := none, armedLate := false }).swDisarm n
  (s.wrB (Reg.SPWM_STAT_PENDING n) late).swCopy n set false

/-- R383, R385, R386, R394: the transfers a boundary makes. A castle's set is not for a unit that its loop owns. -/
def State.swBoundaryTransfer (s : State) (n : Nat) : State :=
  let u := s.sw n
  let s := match u.periodDue with
    | some p => (s.setReg (swAddr n 0) (BitVec.ofNat 32 p)).setSw n { u with periodDue := none }
    | none => s
  let s := match u.castleDue with
    | some set => if s.swLoopOwned n then s.setSw n { s.sw n with castleDue := none } else s.swCastleTransfer n set
    | none => s
  let s := if s.swArmed n then s.swTransfer n false else s
  s.setSw n { s.sw n with applyAny := false }

/-- The local instant of the boundary that comes: P ticks after the last one. -/
def State.swNext (s : State) (n : Nat) : Option Nat := (s.sw n).boundaryAt.map fun b => b + s.swP n * spwTick

/-- R376, R380, R383, R390: a boundary of a running unit at a local instant: transfers (frozen in a halt, R394), re-arming, the soft start
once a period has ended, and the on-times of the period. -/
def State.swBoundary (s : State) (n at_ : Nat) (carried : Option Nat) : State :=
  let ended := (s.sw n).boundaryAt.isSome
  let s := s.setSw n { s.sw n with boundaryAt := some at_, midDone := false, waiting := false,
                                   roseAt := s.swRose n ((at_ - (s.sw n).boundaryAt.getD at_) / spwTick) }
  let s := if s.swHalted then s else s.swBoundaryTransfer n
  let s := s.swBoundaryTrip n
  let s := if s.swHalted || !ended then s else s.swSoft n
  (s.swCompute n carried).swTripCheck n

/-- R170: boundaries are counted toward the next loop sample. -/
def State.loopCount (s : State) (n : Nat) : State :=
  if s.swLoopOwned n then
    let l := tabGet loopReset s.sink.loops n
    { s with sink := { s.sink with loops := tabSet loopReset s.sink.loops n { l with count := min 16 (l.count + 1) } } }
  else s

/-- R376: the boundary of unit n: its counter has reached P, or takes its first boundary. -/
def State.swAtBoundary (s : State) (n : Nat) : State :=
  match s.swNext n with
  | none => s.swBoundary n s.time.uptime none |>.loopCount n
  | some t => if t ≤ s.time.uptime then s.swBoundary n t (s.swCarried n) |>.loopCount n else s

/-- R383: a transfer within a period: where `wait` holds PERIOD waits, and a set that is valid moves the edges to come. -/
def State.swInner (s : State) (n pos : Nat) (again wait : Bool) : State :=
  let ok := s.swSetOk n (s.shReg (swAddr n 0)) (s.shReg (swAddr n 3))
  let s := s.swTransfer n wait
  if ok then s.swRecompute n pos again else s

/-- R376: the midpoint of the current period has come and has not been taken. -/
def State.swMidDue (s : State) (n : Nat) : Bool :=
  match (s.sw n).boundaryAt with
  | some b => !(s.sw n).midDone && b + s.swP n / 2 * spwTick ≤ s.time.uptime && s.time.uptime < b + s.swP n * spwTick
  | none => false

/-- R383: the transfer that a midpoint makes. -/
def State.swMidTransfers (s : State) (n : Nat) : Bool :=
  !s.swHalted && s.swCentre n && s.rdB (Reg.SPWM_STAT_PENDING n) && !(s.sw n).loopArmed && (s.swUpd n == 1 || s.swUpd n == 2)

/-- Table 2.5: the SPW tick of the current period that lies nearest a local instant, the later one where two lie equally near (log entry
166). -/
def swTickNear (boundary inst : Nat) : Nat := (inst + spwTick / 2 - boundary) / spwTick

/-- R384: RESYNC makes the move's tick a boundary. Where it is a boundary already, the transfer makes the new set that boundary's. -/
def State.swResync (s : State) (n inst : Nat) (armed : Bool) : State :=
  let boundary (at_ : Nat) : State := ((if armed then s.swTransfer n false else s).swBoundary n at_ none).loopCount n
  match (s.sw n).boundaryAt with
  | none => boundary inst
  | some b =>
    if 0 < swTickNear b inst then boundary (b + swTickNear b inst * spwTick)
    else if armed then let s := s.swInner n 0 false false; s.wr (Reg.SPWM_ACT_P n) (s.swP n)
    else s

/-- R384: an SPWM_UPDATE move of a local instant at one unit in MOVE mode whose counter runs. RESYNC is for a unit owned by its
loop or pinned in a halt too; the transfer is frozen in a halt (R394), and a loop's waits for the boundary (R386). -/
def State.swMove1 (inst : Nat) (s : State) (n : Nat) : State :=
  if s.rd (Reg.SPWM_CTRL_UPD n) != 3 || !s.swRuns n then s else
    let armed := s.rdB (Reg.SPWM_STAT_PENDING n) && !s.swHalted && !s.swLoopOwned n
    if s.rdB (Reg.SPWM_CTRL_RESYNC n) then s.swResync n inst armed
    else if armed then s.swInner n (((s.sw n).boundaryAt.map fun b => swTickNear b inst).getD 0) false true else s

/-- R384: an SPWM_UPDATE move of a local instant. -/
def State.spwmUpdate (s : State) (inst mask : Nat) : State :=
  if s.powered 5 then (maskIdx 8 mask).foldl (State.swMove1 inst) s else s

/-- The pad levels of SWnA and SWnB at tick t of the current period; none while the pads are high-impedance (SUP unpowered,
boot, Sentry; a strap-owned unit drives from its start, R388, R399). -/
def State.swLevels (s : State) (n t : Nat) : Option (Bool × Bool) :=
  if !s.powered 5 || s.rd Reg.SYS_STATE_STATE == 0 || (s.rd Reg.SYS_STATE_STATE == 1 && !s.swStrap n) then none
  else if s.swHeld n then some (s.swSafe n)
  else if s.rdB (Reg.SPWM_STAT_TRIPPED n) then some (if (s.sw n).tripQuiet then s.swInactive n else s.swSafe n)
  else if s.swTrips n then some (s.swTripTo n t)
  else some (s.swDriven n t)

/-! ## Enabling and register writes (R383, R386, R387) -/

/-- The unit's counter may run: SPW runs, and no debug halt stops it (R394). -/
def State.swMayRun (s : State) (n : Nat) : Bool := s.rdB Reg.SPWM_GSTAT_CLK_RUN && (!s.swHalted || s.swPinned n)

/-- The unit's counter stands, and its outputs are SAFE until a boundary. -/
def State.swStand (s : State) (n : Nat) : State :=
  (s.wr (Reg.SPWM_STAT_RUN n) 0).setSw n { s.sw n with boundaryAt := none, waiting := true, heldLevels := none,
                                                       tripQuiet := false, roseAt := none }

/-- R387: an enabled unit starts: its shadows come in force, its counter runs from its first boundary. -/
def State.swStart (s : State) (n : Nat) : State :=
  let s := s.setSw n { s.sw n with carryA := 0, carryB := 0, inA := 0, inB := 0, onA := 0, edges := ⟨0, 0, 0, 0, 0, 0⟩,
                                   periods := 0, loopArmed := false, periodDue := none, castleDue := none, armedLate := false,
                                   captured := false, applyAny := false }
  let s := (s.swStand n).swTransfer n false
  s.wrB (Reg.SPWM_STAT_RUN n) (s.swMayRun n)

/-- R387: a unit is disabled: SAFE levels, counter stopped. -/
def State.swStop (s : State) (n : Nat) : State := (s.swStand n).setSw n { (s.swStand n).sw n with soft := none }

/-- R387: a write to SPWM_n_CTRL. -/
def State.swCtrlWrite (s : State) (n : Nat) (w : Word) : State :=
  let a := (Reg.SPWM_CTRL_EN n).addr
  let w := w &&& 0x3FFF
  let en := bitsOf w 0 1 == 1
  if s.rdB (Reg.SPWM_CTRL_EN n) then
    let s := if (w >>> 1) != (s.reg a >>> 1) then s.setW1c (Reg.SPWM_STAT_CFG_REJ n) else s
    if en then s else (s.wr (Reg.SPWM_CTRL_EN n) 0).swStop n
  else
    let s := s.setReg a w
    if en then s.swStart n else s

/-- R387: a write to SPWM_n_LIMITS (0) or to SPWM_n_TRIP's MAP (1), which only EN = 0 lets change. -/
def State.swConfigWrite (s : State) (n : Nat) (trip : Bool) (w : Word) : State :=
  let a := 0xE0014 + 0x40 * n + if trip then 4 else 0
  let w := if trip then w &&& 0xFF else w
  if s.rdB (Reg.SPWM_CTRL_EN n) then (if w == s.reg a then s else s.setW1c (Reg.SPWM_STAT_CFG_REJ n))
  else (s.setReg a w).swTripCheck n

/-- R383, R386: a write to PERIOD (0), DUTY (1), DUTY_B (2) or DT (3) of a unit; DUTY arms the transfer. -/
def State.swShadowWrite (s : State) (n k : Nat) (w : Word) : State :=
  if s.swLoopOwned n then s.setW1c (Reg.SPWM_STAT_CFG_REJ n) else
    let mask : Word := if k = 1 then 0xFFFFF else if k = 2 then 0xFFFFFFFF else 0xFFFF
    let s := s.setShReg (swAddr n k) (w &&& mask)
    if k = 1 then (s.wr (Reg.SPWM_STAT_PENDING n) 1).setSw n { s.sw n with armedLate := true } else s

/-- A write to SPWM_TRIP_POL: the bits of strap-owned units stay (R400); a changed polarity changes what is asserted now. -/
def State.tripPolWrite (s : State) (w : Word) : State :=
  let keep := (List.range 8).foldl (fun acc k => acc + if s.tripStrap k then 2 ^ k else 0) 0
  (s.wr Reg.SPWM_TRIP_POL_POL ((w.toNat &&& (255 - keep)) ||| (s.rd Reg.SPWM_TRIP_POL_POL &&& keep))).swTripAll

/-- R400: software may not write the unit. -/
def State.swWritable (s : State) (n : Nat) : Bool := s.powered 5 && !s.swStrap n

/-- R387, R394, R395: SPW locks: each enabled unit that does not run starts at a boundary. -/
def State.swLock1 (s : State) (n : Nat) : State :=
  if s.rdB (Reg.SPWM_CTRL_EN n) && !s.swRuns n && s.swMayRun n then
    (s.wr (Reg.SPWM_STAT_RUN n) 1).setSw n { s.sw n with waiting := true, heldLevels := none }
  else s

/-- The SPW clock locks (R387). It runs only while SUP is powered and a unit is enabled. -/
def execSpwLock (at_ : Vt) (s : State) : Host.Outcome State Fault Refusal :=
  .next (let s := s.elapseTo at_
    if s.powered 5 && (List.range 8).any fun n => s.rdB (Reg.SPWM_CTRL_EN n) then
      (List.range 8).foldl State.swLock1 (s.wr Reg.SPWM_GSTAT_CLK_RUN 1)
    else s)

/-- R395: what an SPW stop does to one enabled unit. -/
def State.swLost1 (s : State) (n : Nat) : State :=
  if !s.rdB (Reg.SPWM_CTRL_EN n) then s else
    let s :=
      if s.swPinned n && s.swRuns n && !s.swTripped n then
        (s.wr (Reg.SPWM_STAT_RUN n) 0).setSw n { s.sw n with boundaryAt := none, waiting := true,
                                                             heldLevels := some (s.swDriven n (s.swPos n)) }
      else if s.swPinned n then (s.wr (Reg.SPWM_STAT_RUN n) 0).setSw n { s.sw n with boundaryAt := none, waiting := true }
      else s.swStand n
    s.raise Ev.SPWM_TRIP (tripData n 2 s.tripLevel)

/-- R395: the clock monitor detects a stop of SPW. -/
def State.spwStop (s : State) : State :=
  if !s.rdB Reg.SPWM_GSTAT_CLK_RUN then s else
    let any := (List.range 8).any fun n => s.rdB (Reg.SPWM_CTRL_EN n)
    let s := (List.range 8).foldl State.swLost1 s
    let s := s.wr Reg.SPWM_GSTAT_CLK_RUN 0
    (if any then s.setW1c Reg.SPWM_GSTAT_CLK_LOST else s).floorFall

/-- The SPW clock stops at an instant (R395). -/
def execSpwClockStop (at_ : Vt) (s : State) : Host.Outcome State Fault Refusal := .next (s.elapseTo at_).spwStop

/-- R472: the SPW clock stops because no unit is enabled. -/
def execSpwClockIdleStop (s : State) : Host.Outcome State Fault Refusal :=
  .next (if (List.range 8).any fun n => s.rdB (Reg.SPWM_CTRL_EN n) then s else s.wr Reg.SPWM_GSTAT_CLK_RUN 0)

/-- TRIP input k becomes asserted, or not. -/
def State.setTrip (s : State) (k : Nat) (on : Bool) : State :=
  let bit := BitVec.ofNat 8 (2 ^ k)
  { s with pwr := { s.pwr with tripPins := if on != s.tripLow k then s.pwr.tripPins ||| bit else s.pwr.tripPins &&& ~~~ bit } }

/-- TRIP input k asserts at an instant (R389); the path works while SPW is stopped, and the pin has its level without SUP. -/
def execTripAssert (at_ : Vt) (k : Fin 8) (s : State) : Host.Outcome State Fault Refusal :=
  .next ((s.elapseTo at_).setTrip k.val true).swTripAll

/-- TRIP input k deasserts at an instant (R390, R392); an input still asserted after the blanking has tripped before. -/
def execTripDeassert (at_ : Vt) (k : Fin 8) (s : State) : Host.Outcome State Fault Refusal :=
  .next ((s.elapseTo at_).swTripAll.setTrip k.val false)

/-! ## Pinning and straps (R397, R399 to R401) -/

/-- R397: units pinned by their straps. -/
def State.strapPins (s : State) : BitVec 2 :=
  BitVec.ofNat 2 ((if s.swStrap 6 then s.rd (Reg.SPWM_STRAP_PIN 0) else 0) + 2 * (if s.swStrap 7 then s.rd (Reg.SPWM_STRAP_PIN 1) else 0))

/-- R397: the sequence is open: its first write has been made within the last 64 SYS cycles. -/
def State.pinOpen (s : State) : Bool :=
  s.rdB Reg.SPWM_PIN_LOCK_STEP1 && s.time.uptime / sysCycle ≤ s.pwr.pinStepAt / sysCycle + 64

/-- R397: 64 SYS cycles have passed since the first write: the sequence is cancelled. -/
def State.pinLapse (s : State) : State :=
  if s.rdB Reg.SPWM_PIN_LOCK_STEP1 && !s.pinOpen then (s.wr Reg.SPWM_PIN_LOCK_STEP1 0).setW1c Reg.SPWM_GSTAT_LOCK_FAIL else s

/-- R394: a debug halt takes effect on unit n. -/
def State.swHalt1 (s : State) (n : Nat) : State := if s.swPinned n then s else s.swStand n

/-- R394, R397: the pinned set becomes another; in a halt a unit that is pinned no more stops. -/
def State.pinTo (s : State) (pins : BitVec 2) : State :=
  let s := { s with pwr := { s.pwr with pinned := pins } }
  if s.swHalted then [6, 7].foldl State.swHalt1 s else s

/-- R397: a write to SPWM_PIN_LOCK. -/
def State.pinLockWrite (s : State) (w : Word) : State :=
  let s := s.pinLapse
  if s.rdB Reg.SPWM_PIN_LOCK_STEP1 then
    let s := s.wr Reg.SPWM_PIN_LOCK_STEP1 0
    if bitsOf w 24 8 = 0xA5 then s.pinTo (BitVec.ofNat 2 (bitsOf w 0 2) ||| s.strapPins)
    else s.setW1c Reg.SPWM_GSTAT_LOCK_FAIL
  else if w = 0x5A000000 then
    { (s.wr Reg.SPWM_PIN_LOCK_STEP1 1) with pwr := { s.pwr with pinStepAt := s.time.uptime } }
  else s

/-- R397: 64 SYS cycles have passed since the first write. -/
def execPinLockLapse (at_ : Vt) (s : State) : Host.Outcome State Fault Refusal := .next (s.elapseTo at_).pinLapse

/-- Parity of a number's bits: true where their sum is odd. -/
def oddParity (bits v : Nat) : Bool := (List.range bits).foldl (fun acc i => acc != bitAt v i) false

/-- An OTP word; one that fails parity is taken as all zeros (Table 16.2 step 1). -/
def State.otpWord (s : State) (i : Nat) : Word :=
  if s.store.otpBad.contains i then 0 else SMap.get (fun _ => (0 : Word)) s.store.otp i

/-- R399: the strap's parity over its three OTP words is good; even parity is PRESUMED (log entry 32). -/
def State.strapParity (s : State) (u : Nat) : Bool :=
  !(List.range 3).foldl (fun acc k => acc != oddParity 32 (s.otpWord (14 + 3 * u + k)).toNat) false

/-- R399: the strap's values are valid under R379, and PAIR is SINGLE or COMPLEMENTARY. -/
def State.strapValid (s : State) (u : Nat) : Bool :=
  s.strapParity u && s.rd (Reg.SPWM_STRAP_PAIR u) ≤ 1 &&
    spwmValid (periodOf (s.rd (Reg.SPWM_STRAP_P u))) (s.rd (Reg.SPWM_STRAP_DT_R u)) (s.rd (Reg.SPWM_STRAP_DT_F u))
      (s.rd (Reg.SPWM_STRAP_MIN_PULSE u)) (s.rd (Reg.SPWM_STRAP_MIN_PULSE u)) (s.rd (Reg.SPWM_STRAP_MIN_OFF u))
      (s.rd (Reg.SPWM_STRAP_PAIR u) == 1)

/-- R399: start unit 6 + u from its strap. -/
def State.strapStart (s : State) (u : Nat) : State :=
  let n := 6 + u
  let ctrl := 1 + 2 * s.rd (Reg.SPWM_STRAP_ALIGN u) + 4 * s.rd (Reg.SPWM_STRAP_PAIR u)
    + 2 ^ 8 * s.rd (Reg.SPWM_STRAP_POL_A u) + 2 ^ 9 * s.rd (Reg.SPWM_STRAP_POL_B u)
    + 2 ^ 10 * s.rd (Reg.SPWM_STRAP_SAFE_A u) + 2 ^ 11 * s.rd (Reg.SPWM_STRAP_SAFE_B u)
    + 2 ^ 13 * s.rd (Reg.SPWM_STRAP_TRIP_MODE u)
  let m := s.rd (Reg.SPWM_STRAP_MIN_PULSE u)
  let s := s.setReg (Reg.SPWM_CTRL_EN n).addr (BitVec.ofNat 32 ctrl)
  let s := s.setReg (Reg.SPWM_LIMITS_LEB n).addr (BitVec.ofNat 32
    (m + 2 ^ 8 * m + 2 ^ 16 * s.rd (Reg.SPWM_STRAP_MIN_OFF u) + 2 ^ 24 * s.rd (Reg.SPWM_STRAP_LEB u)))
  let s := s.setReg (Reg.SPWM_TRIP_MAP n).addr (BitVec.ofNat 32 (s.rd (Reg.SPWM_STRAP_MAP u)))
  let s := s.setShReg (swAddr n 0) (BitVec.ofNat 32 (s.rd (Reg.SPWM_STRAP_P u)))
  let s := s.setShReg (swAddr n 1) 0
  let s := s.setShReg (swAddr n 3) (BitVec.ofNat 32
    (s.rd (Reg.SPWM_STRAP_DT_R u) + 2 ^ 8 * s.rd (Reg.SPWM_STRAP_DT_F u)))
  let s := { s with pwr := { s.pwr with strapped := s.pwr.strapped ||| BitVec.ofNat 2 (2 ^ u) } }.swStart n
  let s := s.setSw n { s.sw n with soft := some (s.rd (Reg.SPWM_STRAP_D u), s.rd (Reg.SPWM_STRAP_SS u), 0) }
  { s with pwr := { s.pwr with pinned := s.pwr.pinned ||| s.strapPins } }.swTripCheck n

/-- R399, R401: the boot ROM's second step: the units started and the units whose strap was present but not valid. -/
def State.strapsStart (s : State) : State :=
  let present := [0, 1].filter fun u => s.rdB (Reg.SPWM_STRAP_EN u)
  let good := present.filter s.strapValid
  let bad := present.filter fun u => !s.strapValid u
  let s := good.foldl State.strapStart s
  s.raise Ev.SUP_STRAP ((good.map (2 ^ ·)).sum + 2 ^ 8 * (bad.map (2 ^ ·)).sum)

/-! ## Halt (R394) -/

/-- R394: a debug halt of the SPWM units. -/
def State.spwmHalt (s : State) : State := (List.range 8).foldl State.swHalt1 s

/-- R394: a unit that stood in the halt restarts after release at a boundary, once SPW runs, with any armed transfer applied there: one
that is not pinned, or was pinned in the halt. -/
def State.swRelease1 (s : State) (n : Nat) : State :=
  if s.rdB (Reg.SPWM_CTRL_EN n) && (!s.swPinned n || (!s.swRuns n && s.rdB Reg.SPWM_GSTAT_CLK_RUN)) then
    (s.wrB (Reg.SPWM_STAT_RUN n) (s.rdB Reg.SPWM_GSTAT_CLK_RUN)).setSw n
      { s.sw n with waiting := true, applyAny := s.rdB (Reg.SPWM_STAT_PENDING n) }
  else s

/-- R394: the halt ends. -/
def State.spwmRelease (s : State) : State := (List.range 8).foldl State.swRelease1 s

/-! ## The loops (R170 to R172) -/

/-- The loops stop: dark-safe or STALEMATE (R173), or a halted SPWM (R394). -/
def State.loopsStopped (s : State) : Bool :=
  s.rdB Reg.SYS_STATE_DARK_SAFE || s.rd Reg.SYS_STATE_STATE == 3 || s.swHalted

/-- R170: the duty written, with BOUNDARY transfer. -/
def State.loopDuty (s : State) (i d : Nat) : State :=
  let s := (s.setShReg (swAddr i 1) (BitVec.ofNat 32 d)).wr (Reg.SPWM_STAT_PENDING i) 1
  (s.setSw i { s.sw i with loopArmed := true }).wr (Reg.LOOP_DUTY i) d

/-- A signed value held to 40 bits (R170). -/
def sat40 (x : Int) : Int := max (-(2 ^ 39)) (min x (2 ^ 39 - 1))

/-- Arithmetic shift right: floor division (R170). -/
def asr (x : Int) (k : Nat) : Int := x / (2 ^ k : Int)

/-- R170: the next accumulator and duty of a loop. -/
def loopStep (acc e kp ki : Int) (shift duty dlim : Nat) : Int × Nat :=
  let acc := if (duty == dlim && 0 < e) || (duty == 0 && e < 0) then acc else sat40 (acc + ki * e)
  let u := asr (kp * e + acc) shift
  (acc, (min (max u 0) dlim).toNat)

/-- R170: the set-point as an ADC code, rounded down (DESIGN CHOICE, log entry 130); a RATIO of 0 states no result (a free value, log
entry 10). -/
def State.loopSetCode (s : State) (i : Nat) : Nat × State :=
  let r := s.rd (Reg.LOOP_RATIO i)
  if r = 0 then s.draw else (s.rd (Reg.LOOP_V_SET i) * 1048576 / (1500 * r), s)

/-- R170: the sample in whole millivolts, rounded down (DESIGN CHOICE, log entry 130); one that exceeds the field states no result (a
free value). -/
def State.loopMeas (s : State) (i code : Nat) : State :=
  let mv := code * 1500 * s.rd (Reg.LOOP_RATIO i) / 1048576
  if mv < 65536 then s.wr (Reg.LOOP_V_MEAS i) mv else let (v, s) := s.draw; s.wr (Reg.LOOP_V_MEAS i) v

/-- R171: LIMIT after a sample with error e and duty d. -/
def State.loopLimit (s : State) (i : Nat) (e : Int) (d : Nat) : State :=
  let l := tabGet loopReset s.sink.loops i
  let big := e < -32 || 32 < e
  let run := if big && (d == s.swDMax i || d == 0) then min 255 (l.clampRun + 1) else 0
  let s := { s with sink := { s.sink with loops := tabSet loopReset s.sink.loops i { l with clampRun := run } } }
  if !big then s.wr (Reg.LOOP_LIMIT i) 0
  else if max 1 (s.rd (Reg.LOOP_LIM_N i)) ≤ run && !s.rdB (Reg.LOOP_LIMIT i) then
    (s.wr (Reg.LOOP_LIMIT i) 1).raise Ev.LOOP_LIMIT i
  else s

/-- R170, R171: one regulated sample. -/
def State.loopRegulate (s : State) (i code : Nat) : State :=
  let l := tabGet loopReset s.sink.loops i
  let (sc, s) := s.loopSetCode i
  let e : Int := (sc : Int) - code
  let (acc, d) := loopStep l.acc e (s.rd (Reg.LOOP_KP i)) (s.rd (Reg.LOOP_KI i)) (s.rd (Reg.LOOP_SHIFT i))
    (s.rd (Reg.LOOP_DUTY i)) (s.swDMax i)
  let s := { s with sink := { s.sink with loops := tabSet loopReset s.sink.loops i { l with acc := acc } } }
  (s.loopDuty i d).loopLimit i e d

/-- R172: overvoltage, then regulation. The samples while OV forces duty 0 leave LIMIT and its count (DESIGN CHOICE, log entry 163). -/
def State.loopSample (s : State) (i code : Nat) : State :=
  let l := tabGet loopReset s.sink.loops i
  let uv := code * 1500 * s.rd (Reg.LOOP_RATIO i)
  let vov := s.rd (Reg.LOOP_V_OV i)
  let run := if vov * 1048576 < uv then min 4 (l.ovRun + 1) else 0
  let s := { s with sink := { s.sink with loops := tabSet loopReset s.sink.loops i { l with ovRun := run, count := 0 } } }
  let s := s.loopMeas i code
  if s.rdB (Reg.LOOP_OV i) then
    if uv < (vov - 200) * 1048576 then
      let l := tabGet loopReset s.sink.loops i
      let s := { s with sink := { s.sink with loops := tabSet loopReset s.sink.loops i { l with acc := 0 } } }
      (s.wr (Reg.LOOP_OV i) 0).loopRegulate i code
    else s.loopDuty i 0
  else if run = 4 then ((s.wr (Reg.LOOP_OV i) 1).raise Ev.LOOP_LIMIT (i + 2)).loopDuty i 0
  else s.loopRegulate i code

/-- R170, R175: loop i's conversion gives a code, at every (DIV + 1)th boundary of its unit. -/
def execLoopSample (i : Fin 2) (code : BitVec 12) (s : State) : Host.Outcome State Fault Refusal :=
  .next (if s.supOn && !s.sink.hold && s.rdB (Reg.LOOP_EN i.val) && !s.loopsStopped
      && s.rd (Reg.LOOP_DIV i.val) < (tabGet loopReset s.sink.loops i.val).count then
      ((s.wr (Reg.ADC_DATA_CODE i.val) code.toNat).wr (Reg.ADC_DATA_VALID i.val) 1).loopSample i.val code.toNat
    else s)

/-- R174: the LOOP values of loop i, with its SPWM unit's period, are acceptable. -/
def loopOk (rd : Fld → Nat) (i period : Nat) : Bool :=
  1000 ≤ rd (Reg.LOOP_V_MIN i) && rd (Reg.LOOP_V_MIN i) ≤ rd (Reg.LOOP_V_START i) &&
  rd (Reg.LOOP_V_START i) ≤ rd (Reg.LOOP_V_MAX i) && rd (Reg.LOOP_V_MAX i) < rd (Reg.LOOP_V_OV i) &&
  rd (Reg.LOOP_V_OV i) ≤ 6000 && 640 ≤ period * (rd (Reg.LOOP_DIV i) + 1)

end Sys2Proof.Machine
end

