-- ==== Sys2Proof/Machine/Time.lean ====
section
/-! DEFINITION. Venue time (chapter 02): the servo of Table 2.2, steps, PTP, PPS and genlock measurements. The PTP messages that
the device sends stand in Ptp.lean, and genlock edges, which change the grid, in Castle.lean. -/
namespace Sys2Proof.Machine

/-- TIME_CFG.SRC: 0 PTP, 1 GM_PPS, 2 GENLOCK, 3 FREE. -/
def State.timeSrc (s : State) : Nat := s.rd Reg.TIME_CFG_SRC

/-- TIME_STAT.SERVO: 0 FREE, 1 ACQUIRE, 2 LOCKED, 3 HOLDOVER. -/
def State.servo (s : State) : Nat := s.rd Reg.TIME_STAT_SERVO

/-- LOSS_N; 0 and 1 act as 2. -/
def State.lossN (s : State) : Nat := max 2 (s.rd Reg.TIME_CFG_LOSS_N)

/-- R47: PPS_OUT does not rise: it is disabled, or gated while the servo is FREE or ACQUIRE. -/
def State.ppsBlocked (s : State) : Bool :=
  !s.rdB Reg.TIME_CFG_PPS_OUT_EN || (s.rdB Reg.TIME_CFG_PPS_GATE && s.servo ≤ 1)

/-- R47: a pulse that PPS_OUT may not show ends. -/
def State.ppsGate (s : State) : State := if s.ppsBlocked then { s with time := { s.time with ppsLowAt := 0 } } else s

/-- The servo's next state (Table 2.2), with what it does to PPS_OUT (R47). -/
def State.setServo (s : State) (v : Nat) : State := (s.wr Reg.TIME_STAT_SERVO v).ppsGate

/-- R69: a VT step from `old` marks the waiting moves that it passes over. -/
def State.passMoves (s : State) (old : Nat) : State :=
  { s with moves := s.moves.map fun (e : Nat × Move) =>
      (e.1, { e.2 with passed := e.2.passed || decide (old < e.2.inst * nsUnit ∧ e.2.inst * nsUnit < s.now) }) }

/-- VT takes another value: the frame in progress, its blanking and the earliest next frame start keep their places in time
(R125, R126), and the waiting moves passed over are marked (R69). -/
def State.jumpVt (s : State) (t : Nat) : State :=
  let old := s.now
  let s := s.setVt t
  let at_ := fun (x : Int) => x + s.now - old
  { s with scan := { s.scan with frameStart := at_ s.scan.frameStart, blankFrom := at_ s.scan.blankFrom,
                                 notBefore := (at_ s.scan.notBefore).toNat } }.passMoves old

/-- R38, R40, R69: step VT by `d` (2^-16 ns), raise EV_TIME_STEP and count it. The next frame starts at least T_VB_MIN later;
frames and moves that a forward step passes over are late; the grid points that backward steps bring back repeat the shown
frame. A step with a fraction is reported rounded down to whole ns (DESIGN CHOICE, log entry 130). -/
def State.applyStep (s : State) (d : Int) : State :=
  let old := s.now
  let s := { s with time := { s.time with stepDue := none } }.jumpVt (((old : Int) + d) % 2 ^ 80).toNat
  let s := (s.raise Ev.TIME_STEP (saturate 32 (d / nsUnit))).bump Reg.TIME_CNT_STEP_CNT
  { s with scan := { s.scan with notBefore := s.now + s.tVbMin,
                                 replayTo := if d < 0 then max old s.scan.replayTo else s.scan.replayTo } }.stepLate old

/-- R38: no step waits any more: the servo steers, or is LOCKED. -/
def State.dropStep (s : State) : State := { s with time := { s.time with stepDue := none } }

/-- R39: the servo's new rate, a free value within ±100 ppm (log entry 12). -/
def State.steer (s : State) : State :=
  let (v, s) := s.draw
  { s with time := { s.time with freq := (v % 13107201 : Nat) - 6553600 } }

/-- R38: in ACQUIRE a measurement beyond STEP_LIMIT steps VT, at once while the display does not run, else at the next
castling point that applies groups; a smaller one steers. A later measurement replaces a step that waits, or, within STEP_LIMIT, cancels
it (DESIGN CHOICE, log entry 157). -/
def State.acquireAct (s : State) (off : Int) : State :=
  if off.natAbs > usec (max 1 (s.rd Reg.TIME_CFG_STEP_LIMIT)) then
    if s.idle then s.applyStep (-off) else { s with time := { s.time with stepDue := some (-off) } }
  else s.dropStep.steer

/-- Table 2.2, ACQUIRE to LOCKED: 16 consecutive measurements within 100 ns. -/
def State.acquireCount (s : State) (off : Int) : State :=
  let run := if off.natAbs ≤ 100 * nsUnit then s.time.lockRun + 1 else 0
  if run ≥ 16 then
    let s := { s with time := { s.time with lockRun := 0, lostRun := 0 } }
    (s.dropStep.setServo 2).raise Ev.TIME_LOCK (s.rd Reg.TIME_STAT_PORT)
  else { s with time := { s.time with lockRun := run } }

/-- Table 2.2, LOCKED: steer; 4 consecutive measurements beyond 1 µs lead to ACQUIRE. -/
def State.lockedAct (s : State) (off : Int) : State :=
  let s := s.steer
  let run := if off.natAbs > 1000 * nsUnit then s.time.lostRun + 1 else 0
  if run ≥ 4 then
    let s := { s with time := { s.time with lockRun := 0, lostRun := 0, genTaken := false } }
    (s.setServo 1).raise Ev.TIME_LOST 0
  else { s with time := { s.time with lostRun := run } }

/-- Entry into ACQUIRE from FREE or HOLDOVER (Table 2.2). -/
def State.enterAcquire (s : State) : State :=
  let s := { s with time := { s.time with lockRun := 0, lostRun := 0, genTaken := false } }
  (s.setServo 1).wr Reg.TIME_STAT_HOLD_S 0

/-- R36, R38: one valid offset measurement (2^-16 ns). TIME_OFFSET reports it rounded down to whole ns (DESIGN CHOICE, log entry
130). -/
def State.measure (s : State) (off : Int) : State :=
  let s := s.wr Reg.TIME_OFFSET_OFFSET (saturate 32 (off / nsUnit))
  let s := { s with time := { s.time with missed := 0 } }
  match s.servo with
  | 2 => s.lockedAct off
  | 1 => (s.acquireAct off).acquireCount off
  | _ => (s.enterAcquire.acquireAct off).acquireCount off

/-- Table 2.2: ACQUIRE or LOCKED to HOLDOVER. -/
def State.enterHoldover (s : State) : State :=
  let locked := s.servo == 2
  if s.servo == 1 || locked then
    let s := { s with time := { s.time with holdFrom := s.time.uptime,
                                            heldGood := locked && s.rdB Reg.TIME_STAT_TOD_VALID } }
    let s := s.setServo 3
    if locked then s.raise Ev.TIME_LOST 0 else s
  else s

/-- The firmware is not there to parse PTP messages: restarting, halted or unpowered (R42, Table 18.3). -/
def State.ptpDeaf (s : State) : Bool := s.coreDown

/-- Lexicographic order on data sets (R33). -/
def listLt : List Nat → List Nat → Bool
  | [], [] => false
  | [], _ => true
  | _, [] => false
  | a :: as, b :: bs => a < b || (a == b && listLt as bs)

/-- R33: the first entry is better by data set, then by stepsRemoved, then by port order. -/
def betterPort (a b : Nat × Announce) : Bool :=
  listLt a.2.dataset b.2.dataset ||
    (a.2.dataset == b.2.dataset && (a.2.steps < b.2.steps || (a.2.steps == b.2.steps && a.1 < b.1)))

/-- R33: the best of the ports heard, 7 when none. -/
def bestPort (l : List (Nat × Announce)) : Nat :=
  match l.foldl (fun acc x => match acc with
      | none => some x
      | some y => if betterPort x y then some x else some y) none with
  | some x => x.1
  | none => 7

/-- Whether a port has link up (LINK_STAT.UP). -/
def State.linkUp (s : State) (p : Nat) : Bool := s.rdB (Reg.LINK_STAT_UP p)

/-- R33: an Announce counts while its port has link up and it has not lapsed. -/
def State.hears (s : State) (e : Nat × Announce) : Bool := s.linkUp e.1 && s.time.uptime < e.2.until_

/-- The ports that hear a grandmaster now. -/
def State.heardPorts (s : State) : List (Nat × Announce) := s.time.announce.filter s.hears

/-- R34: the current delay measurement of a port; 0 where it has none. -/
def State.portDelay (s : State) (p : Nat) : Nat := ((s.time.delay.find? fun d => d.1 == p).map (·.2)).getD 0

/-- TIME_STAT.PORT, with the delay of the port it names in TIME_PATH_DELAY. -/
def State.setTimePort (s : State) (p : Nat) : State :=
  let d := s.portDelay p
  ((s.wr Reg.TIME_STAT_PORT p).wr Reg.TIME_PATH_DELAY_FRAC (d / 256 % 256)).wr Reg.TIME_PATH_DELAY_NS (d / nsUnit)

/-- R33, R35: the best of the ports that hear a grandmaster supplies Sync; one that the device has left for want of Sync only
where no other is heard. -/
def State.choosePort (s : State) : State :=
  let live := s.heardPorts.filter fun e => !s.time.syncDead.contains e.1
  s.setTimePort (bestPort (if live.isEmpty then s.heardPorts else live))

/-- Table 2.1: the transports in use: Ethernet, UDP/IPv4, or both; 3 acts as both (DESIGN CHOICE, log entry 121). -/
def State.ptpOver (s : State) (udp : Bool) : Bool :=
  match s.rd Reg.TIME_CFG_TRANSPORT with
  | 0 => !udp
  | 1 => udp
  | _ => true

/-- Table 2.1: a PTP message that the device takes: multicast, in the configured domain, over a transport in use. -/
def State.ptpMine (s : State) (h : PtpHead) : Bool :=
  s.ptpOver h.udp && !h.unicast && h.ptpDomain.toNat == s.rd Reg.TIME_CFG_DOMAIN

/-- The device acts as a PTP time receiver now: SRC = PTP, and the firmware that parses the messages runs (R42). -/
def State.ptpReceives (s : State) : Bool := s.timeSrc == 0 && !s.ptpDeaf

/-- 2^n seconds of a logMessageInterval n. -/
def logTime (n : BitVec 8) : Nat := if 0 ≤ n.toInt then sec 1 * 2 ^ n.toInt.toNat else sec 1 / 2 ^ (-n.toInt).toNat

/-- Table 2.1: a logSyncInterval from -7 to 0. -/
def syncIntervalOk (n : BitVec 8) : Bool := -7 ≤ n.toInt && n.toInt ≤ 0

/-- Table 2.1: the timestamp of an event message, with the resolution of 0.8 ns: it lies less than that before the instant,
where, a free value (log entry 10). -/
def State.portStamp (s : State) (t : Nat) : Nat × State :=
  let (v, s) := s.draw
  (t - v % 52429, s)

/-- R29, R30, R34: the offset that a Sync gives: its ingress timestamp less the origin timestamp, the delay of the port with its
TIME_ASYM, and the correctionFields of Sync and Follow_Up. -/
def State.syncOffset (s : State) (p : Nat) (ingress : Nat) (origin : Vt) (corr : BitVec 64) (followUp : Option (BitVec 64)) : Int :=
  (ingress : Int) - origin.toNat - s.portDelay p - signed 32 (s.rd (Reg.TIME_ASYM_ASYM p)) - corr.toInt - (followUp.getD 0).toInt

/-- R27, R30, R36: a Sync, one-step or with its Follow_Up, of the configured domain at an accepted interval. A port that delivers
Sync again is no longer left for want of it (R35); only the chosen port's Sync is a measurement (R33). -/
def execPtpSync (at_ : Vt) (port : Fin 6) (head : PtpHead) (ingress origin : Vt) (corr : BitVec 64)
    (followUp : Option (BitVec 64)) (s : State) : Host.Outcome State Fault Refusal :=
  let s := s.elapseTo at_
  .next (if s.ptpReceives && s.ptpMine head && syncIntervalOk head.logInterval then
      let s := { s with time := { s.time with syncDead := s.time.syncDead.filter (· != port.val) } }.choosePort
      if s.rd Reg.TIME_STAT_PORT == port.val then
        let (t, s) := s.portStamp ingress.toNat
        s.measure (s.syncOffset port.val t origin corr followUp)
      else s
    else s)

/-- R33: an Announce in the configured domain is heard on a port, and lapses after three of its intervals (IEEE 1588's default;
PRESUMED, log entry 119); the chosen port is taken afresh. -/
def execPtpAnnounce (at_ : Vt) (port : Fin 6) (head : PtpHead) (dataset : List Nat) (steps : Nat) (s : State) :
    Host.Outcome State Fault Refusal :=
  let s := s.elapseTo at_
  .next (if s.ptpReceives && s.ptpMine head then
      let a : Announce := ⟨dataset, steps, head.udp, s.time.uptime + 3 * logTime head.logInterval⟩
      { s with time := { s.time with announce := tabSet ⟨[], 0, false, 0⟩ s.time.announce port.val a } }.choosePort
    else s)

/-- R34: the port hears the grandmaster that the chosen port hears. -/
def State.hearsChosen (s : State) (p : Nat) : Bool :=
  match s.heardPorts.find? fun e => e.1 == s.rd Reg.TIME_STAT_PORT with
  | some c => s.heardPorts.any fun e => e.1 == p && e.2.dataset == c.2.dataset
  | none => false

/-- R29, R34: a port with link up has its delay measured: under peer-delay always, for the links a Sync crosses, under
request-response where it hears the chosen grandmaster (DEDUCED, log entry 122). -/
def State.measuresDelay (s : State) (p : Nat) : Bool :=
  s.linkUp p && !s.ptpDeaf && (s.rdB Reg.TIME_CFG_DELAY_MECH || (s.timeSrc == 0 && s.hearsChosen p))

/-- R33, R34: a port whose link has gone down: what it heard and its delay are no longer current. -/
def State.ptpPortDown (s : State) (p : Nat) : State :=
  let s := { s with time := { s.time with
    announce := s.time.announce.filter fun e => e.1 != p
    delay := s.time.delay.filter fun d => d.1 != p
    delayNext := s.time.delayNext.filter fun d => d.1 != p
    syncDead := s.time.syncDead.filter (· != p) } }
  if s.ptpReceives then s.choosePort else s

/-- R35, Table 2.2: one measurement interval without a valid measurement. `others` marks the ports that deliver Sync. -/
def execSyncLoss (others : BitVec 6) (s : State) : Host.Outcome State Fault Refusal :=
  .next (if s.timeSrc == 3 || (s.timeSrc == 0 && s.ptpDeaf) then s else
    let s := { s with time := { s.time with missed := s.time.missed + 1 } }
    if s.time.missed < s.lossN then s else
      let cand := s.heardPorts.filter fun e => bitAt others.toNat e.1 && e.1 != s.rd Reg.TIME_STAT_PORT &&
        s.time.delay.any fun d => d.1 == e.1
      if s.timeSrc == 0 && !cand.isEmpty then
        let dead := (s.heardPorts.map (·.1)).filter fun p => !bitAt others.toNat p || p == s.rd Reg.TIME_STAT_PORT
        { s with time := { s.time with missed := 0, syncDead := dead } }.setTimePort (bestPort cand)
      else s.enterHoldover)

/-- The grandmaster's clockClass (R44). -/
def State.clockClass (s : State) : Nat :=
  if s.servo == 2 && s.rdB Reg.TIME_STAT_TOD_VALID then 6
  else if s.servo == 3 && s.time.heldGood then 7 else 248

/-- The whole VT second nearest an instant, in 2^-16 ns. -/
def nearestSecond (t : Nat) : Nat := (t + sec 1 / 2) / sec 1 * sec 1

/-- R46: an edge on PPS_IN lies more than IN_WINDOW from the instant at which it is expected. It is expected at a whole VT
second while the servo has been aligned to PPS_IN and edges arrive; before that none is expected (log entry 70). -/
def State.ppsUnexpected (s : State) : Bool :=
  let off := ((s.now : Int) - nearestSecond s.now).natAbs
  s.timeSrc == 1 && s.rdB Reg.TIME_STAT_PPS_IN_OK && (s.servo == 2 || s.servo == 3) &&
    s.rd Reg.TIME_PPS_IN_WINDOW * 100 * nsUnit < off

/-- R45: the whole second that an accepted edge carries: the one TOD_SET gave, counted on from edge to edge, else the nearest one
of VT. -/
def State.ppsSecond (s : State) : Nat :=
  match s.time.todDue, s.time.todRef with
  | some t, _ => sec t
  | none, some (t, u) => t + nearestSecond (s.time.uptime - u)
  | none, none => nearestSecond s.now

/-- R44 to R46: an edge on PPS_IN. -/
def execPpsInEdge (at_ : Vt) (s : State) : Host.Outcome State Fault Refusal :=
  let s := s.elapseTo at_
  .next (if s.ppsUnexpected then
      s.bump Reg.TIME_CNT_PPS_REJ
    else
      let s := s.wr Reg.TIME_STAT_PPS_IN_OK 1
      let s := { s with time := { s.time with ppsFrom := s.time.uptime, ppsAbsent := false } }
      if s.timeSrc == 1 then
        let ref := s.ppsSecond
        let kept := s.time.todDue.isSome || s.time.todRef.isSome
        let s := { s with time := { s.time with todDue := none, todRef := if kept then some (ref, s.time.uptime) else none } }
        s.measure ((s.now : Int) - ref)
      else s)

/-- R46: at an instant, no accepted PPS_IN edge for 2 s. The event is raised once for each absence, under GM_PPS. -/
def execPpsMissing (at_ : Vt) (s : State) : Host.Outcome State Fault Refusal :=
  let s := s.elapseTo at_
  .next (if s.time.uptime < s.time.ppsFrom + sec 2 then s else
    let s := s.wr Reg.TIME_STAT_PPS_IN_OK 0
    if s.timeSrc == 1 && !s.time.ppsAbsent then
      { (s.raise Ev.PPS_MISSING 0) with time := { s.time with ppsAbsent := true } }
    else s)

/-- R47: OUT_WIDTH in µs; 0 acts as 1, larger values as 999,999. -/
def ppsWidth (w : Nat) : Nat := min 999999 (max 1 w)

/-- R47: PPS_OUT rises within 2 ns of a whole VT second, unless it is disabled or gated, and stays high for OUT_WIDTH. -/
def execPpsOut (at_ : Vt) (s : State) : Host.Outcome State Fault Refusal :=
  let s := s.elapseTo at_
  .next (if !s.ppsBlocked && ((s.now : Int) - nearestSecond s.now).natAbs ≤ 2 * nsUnit then
      { s with time := { s.time with ppsLowAt := s.time.uptime + usec (ppsWidth (s.rd Reg.TIME_PPS_OUT_WIDTH)) } }
    else s)

/-- The PPS_OUT pin (R47). -/
def State.ppsOut (s : State) : Bool := s.time.uptime < s.time.ppsLowAt

/-- R48: three consecutive predicted edges without an accepted one count as LOSS_N intervals. -/
def execGenlockLoss (s : State) : Host.Outcome State Fault Refusal :=
  .next (if s.timeSrc == 2 then
      { s with time := { s.time with missed := s.lossN } }.enterHoldover
    else s)

/-- R43: a change of SRC or DOMAIN puts the servo in FREE. What the ports have heard, their delay measurements (DESIGN CHOICE, log entry
131), and a VT step or a genlock epoch that waits for its castling point (DESIGN CHOICE, log entry 158) are discarded with it. The
seconds of a TOD_SET stay where SRC does (R45). -/
def State.sourceChanged (s : State) (sameSrc : Bool) : State :=
  let wasLocked := s.servo == 2
  let s := { s with time := { s.time with lockRun := 0, lostRun := 0, missed := 0, genTaken := false, stepDue := none,
                                          epochDue := none, announce := [], delay := [], delayNext := [], syncDead := [],
                                          todDue := if sameSrc then s.time.todDue else none,
                                          todRef := if sameSrc then s.time.todRef else none } }
  let s := ((s.setServo 0).setTimePort 7).wr Reg.TIME_STAT_HOLD_S 0
  if wasLocked then s.raise Ev.TIME_LOST 0 else s

/-- R43: TIME_CFG takes a value. -/
def State.setTimeCfg (s : State) (w : Word) : State :=
  let src := s.timeSrc
  let dom := s.rd Reg.TIME_CFG_DOMAIN
  let s := (s.setReg Reg.TIME_CFG_SRC.addr (w &&& 0xFF7F7F1F)).ppsGate
  if s.timeSrc != src || s.rd Reg.TIME_CFG_DOMAIN != dom then s.sourceChanged (s.timeSrc == src) else s

/-- R43, R46: a write to TIME_CFG; from one that selects GM_PPS the 2 s of R46 count. -/
def State.writeTimeCfg (s : State) (w : Word) : State :=
  let s' := s.setTimeCfg w
  if s'.timeSrc == 1 && s.timeSrc != 1 then { s' with time := { s'.time with ppsFrom := s.time.uptime } } else s'

/-- R501: a read of TIME_VT at 0x0004_0008 latches NS_HI and FRAC. -/
def State.readVt (s : State) : Word × State :=
  let ns := s.now / nsUnit
  (BitVec.ofNat 32 ns,
   let s := ((s.wr Reg.TIME_VT_NS_LO ns).wr Reg.TIME_VT_NS_HI (ns / 2 ^ 32)).wr Reg.TIME_VT_FRAC s.now
   [Reg.TIME_VT_NS_HI.addr, Reg.TIME_VT_FRAC.addr].foldl (fun s a => s.fixStart a (s.reg a)) s)

/-- R501: the read, seen as an event of its own. -/
def execTimeVtRead (at_ : Vt) (s : State) : Host.Outcome State Fault Refusal :=
  let s := s.elapseTo at_
  .next (if s.rdB ⟨Reg.PWR_DOMAIN_STAT.addr, 10, 1⟩ then readWordGave s.readVt else s)

/-- R45: TOD_SET of a VT in ns: the seconds value the next PPS_IN edge carries under GM_PPS, or VT loaded at once under GENLOCK
and FREE. The load is not treated as a step of R38: it raises no EV_TIME_STEP, and frame starts are not put off; the frame in
progress keeps its place in time, and moves passed over are late (DESIGN CHOICE, log entry 105). -/
def State.todSet (s : State) (ns : Nat) : State :=
  match s.timeSrc with
  | 0 => s
  | 1 => { s with time := { s.time with todDue := some (ns / 1000000000) } }.wr Reg.TIME_STAT_TOD_VALID 1
  | _ => (s.jumpVt (ns * nsUnit)).wr Reg.TIME_STAT_TOD_VALID 1

/-- TIME_STAT.HOLD_S: whole seconds spent in HOLDOVER, saturating; 0 outside it. -/
def State.holdS (s : State) : Nat :=
  if s.servo == 3 then min 65535 ((s.time.uptime - s.time.holdFrom) / sec 1) else 0

end Sys2Proof.Machine
end

