-- ==== Sys2Proof/Machine/Castle.lean ====
section
/-! DEFINITION. Castling (R145 to R154, R186): commits, the setup instant with its checks, the castling point, and GCK. -/
namespace Sys2Proof.Machine

/-- The bit of a group in SYS_CASTLE (R145). -/
def CastleGroup.bit : CastleGroup → Nat
  | .grid => 0 | .pipe => 1 | .grey => 2 | .scan => 3 | .sink => 4 | .census => 5 | .spwm => 6 | .loop => 7 | .mir => 8

/-- R385: an address of a shadow of an SPWM unit whose UPD is CASTLE. -/
def State.spwmCastled (s : State) (a : Nat) : Bool :=
  (List.range 8).any fun n => s.swUpd n == 4 && swAddr n 0 ≤ a && a ≤ swAddr n 3

/-- The register at an address belongs to one of the groups of a mask. -/
def State.inGroups (s : State) (mask a : Nat) : Bool :=
  match regDefAt a with
  | some d => (match d.group with
    | some g => bitAt mask g.bit
    | none => bitAt mask 6 && s.spwmCastled a)
  | none => false

/-- The word a castle would put in force at an address. -/
def State.wouldBe (s : State) (a : Nat) : Word :=
  if s.inGroups s.scan.taken.toNat a then SMap.get regReset s.scan.captured a else s.reg a

/-- The field a castle would put in force. -/
def State.wouldRd (s : State) (f : Fld) : Nat := bitsOf (s.wouldBe f.addr) f.lo f.len

/-- A captured word that a check refuses becomes the word in force. -/
def State.keepWord (s : State) (a : Nat) : State :=
  { s with scan := { s.scan with captured := SMap.set regReset s.scan.captured a (s.reg a) } }

/-- A captured field that a check refuses becomes the field in force. -/
def State.keepField (s : State) (f : Fld) : State :=
  let w := withBits (SMap.get regReset s.scan.captured f.addr) f.lo f.len (s.rd f)
  { s with scan := { s.scan with captured := SMap.set regReset s.scan.captured f.addr w } }

/-- A group was captured and is not refused. -/
def State.takes (s : State) (g : CastleGroup) : Bool := bitAt s.scan.taken.toNat g.bit

/-- A group of the castle is refused. -/
def State.refuseGroup (s : State) (g : CastleGroup) : State :=
  { s with scan := { s.scan with taken := s.scan.taken &&& ~~~(BitVec.ofNat 9 (2 ^ g.bit)) } }

/-- SCAN_GEOM. -/
def geomAddr : Nat := Reg.SCAN_GEOM_LINES.addr

/-- Table 5.6: LINES 0 or above 128. -/
def State.checkLines (s : State) : State :=
  let l := s.wouldRd Reg.SCAN_GEOM_LINES
  if l = 0 ∨ 128 < l then (s.keepWord geomAddr).setW1c Reg.SCAN_STAT_GEOM_REJ else s

/-- R135: the phases of a slot fit T_BLANK. -/
def phasesOk (rd : Fld → Nat) : Bool :=
  max 1 (rd Reg.SCAN_PRECHG_T_LOFF) + rd Reg.SCAN_PRECHG_T_DIS + rd Reg.SCAN_PRECHG_T_PRE + max 1 (rd Reg.SCAN_PRECHG_T_DEAD)
    ≤ max 8 (rd Reg.SCAN_GEOM_T_BLANK)

/-- R135: the phase check fails: SCAN_PRECHG stays, and SCAN_GEOM, whether or not the castle changes it. -/
def State.refusePhases (s : State) : State :=
  ((s.keepWord Reg.SCAN_PRECHG_T_LOFF.addr).keepWord geomAddr).setW1c Reg.SCAN_STAT_PHASE_REJ

/-- Table 5.6, R135: the line count and the phases, both tested on the captured values. -/
def State.checkGeom (s : State) : State := if phasesOk s.wouldRd then s.checkLines else s.checkLines.refusePhases

/-- The words of SCAN_ORDER. -/
def orderAddrs : List Nat := (List.range 32).map fun n => 0x90100 + 4 * n

/-- R133: the table holds each line below `lines` once. -/
def orderOk (word : Nat → Word) (lines : Nat) : Bool :=
  let l := (List.range lines).map (orderEntry word)
  (List.range lines).all fun x => l.contains x

/-- R133: the order check. -/
def State.checkOrder (s : State) : State :=
  if s.wouldRd Reg.SCAN_GEOM_ORDER = 3 ∧ !orderOk s.wouldBe (s.wouldRd Reg.SCAN_GEOM_LINES) then
    (orderAddrs.foldl State.keepWord (s.keepField Reg.SCAN_GEOM_ORDER)).setW1c Reg.SCAN_STAT_ORDER_REJ
  else s

/-- A commit of LINEIF.MODE 3 or of SCAN_MODE 3 keeps the mode (log entry 20). -/
def State.checkModes (s : State) : State :=
  let s := if s.wouldRd Reg.SCAN_LINEIF_MODE = 3 then s.keepField Reg.SCAN_LINEIF_MODE else s
  if s.wouldRd Reg.SCAN_MODE_MODE = 3 then s.keepField Reg.SCAN_MODE_MODE else s

/-- R140: SHIFT requires SEQUENTIAL order. -/
def State.checkShift (s : State) : State :=
  if s.wouldRd Reg.SCAN_LINEIF_MODE = 1 ∧ s.wouldRd Reg.SCAN_GEOM_ORDER ≠ 0 then
    ((s.keepWord Reg.SCAN_LINEIF_MODE.addr).keepField Reg.SCAN_GEOM_ORDER).setW1c Reg.SCAN_STAT_ORDER_REJ
  else s

/-- The value checks of the SCAN group. The order check sees the order that R140 has left. -/
def State.checkScan (s : State) : State :=
  if s.takes .scan then s.checkGeom.checkModes.checkShift.checkOrder else s

/-- R108: C does not exceed 65,536. -/
def segOk (rd : Fld → Nat) : Bool := nSubOf (rd Reg.GREY_SEG_NSUB) * sSegOf (rd Reg.GREY_SEG_SSEG) ≤ 65536

/-- R108: the value check of the GREY group. -/
def State.checkGrey (s : State) : State :=
  if s.takes .grey && !segOk s.wouldRd then (s.keepWord Reg.GREY_SEG_NSUB.addr).setW1c Reg.GREY_STAT_SEG_REJ else s

/-- R98: the castle selects a calibration bank. -/
def State.selectsBank (s : State) : Bool :=
  s.wouldRd Reg.PIPE_CAL_CFG_EN = 1 &&
    (!s.rdB Reg.PIPE_CAL_CFG_EN || s.wouldRd Reg.PIPE_CAL_CFG_BANK != s.rd Reg.PIPE_CAL_CFG_BANK)

/-- R98: PASS of a bank. -/
def State.calPass (s : State) (b : Nat) : Bool :=
  s.rdB (if b = 0 then Reg.PIPE_CAL_CHK_PASS0 else Reg.PIPE_CAL_CHK_PASS1)

/-- R98, R100: the value checks of the PIPE group. -/
def State.checkPipe (s : State) : State :=
  if !s.takes .pipe then s else
    let s := if breakpointsOk s.wouldBe then s
      else ((s.keepWord 0x70044).keepWord 0x70048).setW1c Reg.PIPE_THERM_STAT_BP_REJ
    let bank := s.wouldRd Reg.PIPE_CAL_CFG_BANK
    if s.selectsBank && !s.calPass bank then (s.keepWord Reg.PIPE_CAL_CFG_EN.addr).raise Ev.CAL_ERROR bank else s

/-- R184: the value check of the SINK group. -/
def State.checkSink (s : State) : State :=
  if s.takes .sink && !foldOk (s.wouldBe Reg.SINK_FOLD_T_FOLD.addr) then
    (s.keepWord Reg.SINK_FOLD_T_FOLD.addr).setW1c Reg.SINK_STAT_FOLD_REJ
  else s

/-- R174: the value check of loop i. -/
def State.checkLoop (s : State) (i : Nat) : State :=
  if s.takes .loop && !loopOk s.wouldRd i (s.swP i) then
    ((List.range 6).foldl (fun s k => s.keepWord (0xE0800 + 0x40 * i + 4 * k)) s).setW1c (Reg.LOOP_CFG_REJ i)
  else s

/-- R206: while a DARK_ALL group is not IDLE, the census and the probe subframe stay. -/
def State.checkCensus (s : State) : State :=
  if s.takes .census && (List.range 64).any (fun g => s.darkAll g && s.grpState g != 0) &&
      (s.wouldRd Reg.CENSUS_CFG_EN = 0 || s.wouldRd Reg.CENSUS_CFG_PROBE_SLOT = 0 ||
        88 < max 16 (s.wouldRd Reg.CENSUS_CFG_MEAS_DELAY)) then
    ((s.refuseGroup .census).setW1c Reg.CENSUS_STAT_SLOT_REJ).raise Ev.PROBE_NO_SLACK 0xFF
  else s

/-- The grid period a castle would put in force. -/
def periodOfRd (rd : Fld → Nat) : Nat := rd Reg.TIME_GRID_PERIOD_NS * nsUnit + rd Reg.TIME_GRID_PERIOD_FRAC

/-- R52: a period from 250 µs to 1 s. -/
def periodInRange (t : Nat) : Bool := usec 250 ≤ t && t ≤ sec 1

/-- R129, R131: the values a reader gives fit a period. -/
def fitsRd (rd : Fld → Nat) (period : Nat) : Bool :=
  fits (geomOf rd) (khzOf (rd Reg.CLK_GCK_CFG_FREQ_KHZ)) (vbMinUs (rd Reg.SCAN_VBLANK_VB_MIN)) period

/-- R52: a grid whose period lies out of range is not applied, and in READY mode one that holds no frame. In LOCKED and FOLLOW
modes one below 250 µs, which holds no frame, is left to the fit of R131. -/
def State.checkPeriod (s : State) : State :=
  let t := periodOfRd s.wouldRd
  if s.takes .grid && (decide (sec 1 < t) || (s.wouldRd Reg.SCAN_MODE_MODE = 1 && (!periodInRange t || !fitsRd s.wouldRd t))) then
    (s.refuseGroup .grid).raise Ev.VBLANK_SHORT 0
  else s

/-- R131: the fit, in LOCKED and FOLLOW modes against the grid period; the effective minimum of READY always fits (R55). -/
def State.checkFit (s : State) : State :=
  if (s.takes .grid || s.takes .grey || s.takes .scan || s.takes .census) && s.wouldRd Reg.SCAN_MODE_MODE != 1 &&
      !fitsRd s.wouldRd (periodOfRd s.wouldRd) then
    (((((s.refuseGroup .grid).refuseGroup .grey).refuseGroup .scan).refuseGroup .census).setW1c
      Reg.SYS_CASTLE_STAT_FIT_REJ).raise Ev.VBLANK_SHORT 0
  else s

/-- R148, R383, R385: the capture takes the shadows of each unit whose UPD is CASTLE and whose transfer is armed; what has been written to
DUTY is in the capture: later writes are not. -/
def State.spwmCaptured (s : State) (mask : Nat) : State :=
  if bitAt mask 6 then
    (List.range 8).foldl (fun s n =>
      s.setSw n { s.sw n with armedLate := false, captured := s.swUpd n == 4 && s.rdB (Reg.SPWM_STAT_PENDING n) }) s
  else s

/-- R146: capture the shadows of the pending groups other than MIR, and evaluate the checks. -/
def State.castleSetup (s : State) : State :=
  let mask := s.rd Reg.SYS_CASTLE_STAT_PENDING % 256
  let s := s.wr Reg.SYS_CASTLE_STAT_PENDING (s.rd Reg.SYS_CASTLE_STAT_PENDING / 256 * 256)
  let cap := SMap.copySel regReset (s.inGroups mask) s.shadow []
  let follow := bitAt mask 3 && s.time.followWritten
  let s := { s with scan := { s.scan with capturedMask := BitVec.ofNat 9 mask, taken := BitVec.ofNat 9 mask,
                                          captured := cap, setupDone := true },
                    time := { s.time with followTaken := s.time.followTaken || follow,
                                          followWritten := s.time.followWritten && !follow },
                    cmd := { s.cmd with mapDying := if bitAt mask 1 then s.cmd.mapDying.map fun (e : Nat × Bool) => (e.1, true)
                                                    else s.cmd.mapDying } }
  let s := (s.spwmCaptured mask).checkScan.checkGrey.checkPipe.checkSink
  let s := (s.checkLoop 0).checkLoop 1
  s.checkCensus.checkPeriod.checkFit

/-- Class B of Table 5.4: what changed between two states. -/
def classB (s t : State) : Bool :=
  s.reg geomAddr != t.reg geomAddr || s.reg Reg.SCAN_LINEIF_MODE.addr != t.reg Reg.SCAN_LINEIF_MODE.addr ||
    s.reg Reg.GREY_SEG_NSUB.addr != t.reg Reg.GREY_SEG_NSUB.addr || orderAddrs.any fun a => s.reg a != t.reg a

/-- R116: N_SUB, S_SEG or MIN_PULSE changed. -/
def clearsAcc (s t : State) : Bool :=
  s.reg Reg.GREY_SEG_NSUB.addr != t.reg Reg.GREY_SEG_NSUB.addr ||
    s.rd Reg.GREY_MINPULSE_MIN_PULSE != t.rd Reg.GREY_MINPULSE_MIN_PULSE

/-- R89, R80: maps whose layout changed lose coverage; a map that is no longer enabled is gone for the mirror port too (R431). -/
def State.remap (t s : State) : State :=
  let t := if t.mirMapOn then t else t.mirMapLost s
  ((List.range 64).foldl (fun (t : State) m =>
    let o := s.mapDesc m
    let n := t.mapDesc m
    if o.layoutDiffers n then t.clearCoverage o n else t) t).refreshBoards

/-- R225: engines that the castle enables start anew. -/
def State.restartMotifs (t s : State) : State :=
  (List.range 8).foldl (fun (t : State) i => if (t.hostEng i).en && !(s.hostEng i).en then t.motifEnabled i else t) t

/-- R385: the units whose shadows the capture took take them at their next boundary; one that its loop owns does not (R386). -/
def State.spwmCastle (s : State) : State :=
  if !s.takes .spwm then s else
    (List.range 8).foldl (fun s n =>
      if (s.sw n).captured && !s.swLoopOwned n then
        s.setSw n { s.sw n with castleDue := some ((List.range 4).map fun k => SMap.get regReset s.scan.captured (swAddr n k)) }
      else s) s

/-- R53: a new grid: EV_GRID_CHANGE, and the next frame starts at least T_VB_MIN later. -/
def State.gridChanged (s : State) : State :=
  { (s.raise Ev.GRID_CHANGE 0) with scan := { s.scan with notBefore := s.now + s.tVbMin } }

/-- R53: the epoch or the period of the grid is a new one. -/
def gridDiffers (s t : State) : Bool := gridEpoch s != gridEpoch t || gridPeriod s != gridPeriod t

/-- The registers of a group that no unit copies itself: every castled register but the SPWM shadows. -/
def State.copies (s : State) (a : Nat) : Bool :=
  match regDefAt a with
  | some d => d.group.isSome && s.inGroups s.scan.taken.toNat a
  | none => false

/-- R59, R314: FOLLOW_SESSION, written since it was last applied, is applied: the session it names now is the one followed. -/
def State.noteFollow (s : State) : State :=
  let i := s.rd Reg.SCAN_MODE_FOLLOW_SESSION
  if s.time.followTaken then
    { s with time := { s.time with followTaken := false, followHandle := if listed s.klp.sessions i then s.handle 1 i else 0 } }
  else s

/-- R333: a destroyed map whose cleared EN has been applied frees its index. -/
def State.freeMaps (s : State) : State :=
  { s with cmd := { s.cmd with mapDying := s.cmd.mapDying.filter fun (e : Nat × Bool) => !e.2 } }

/-- R146: the captured shadows of the groups taken go into force. -/
def State.copyCaptured (s : State) : State := { s with regs := SMap.copySel regReset s.copies s.scan.captured s.regs }

/-- R116: every composition from now on clears the density accumulators, until one so made flips. -/
def State.clearAccs (s : State) : State :=
  { s with scan := { s.scan with accClear := true },
           pipe := { s.pipe with comp := s.pipe.comp.map fun (c : Comp) => { c with clears := false } } }

/-- R146, Table 6.2 step 1: copy every captured group to its active registers, and what follows from the new values. Deadlines that
have come are tested before boards lose coverage (R84). -/
def State.castleApply (s : State) : State :=
  let s := s.deadlinesDue
  let mask := s.scan.taken
  let scan := s.takes .scan
  let pipe := s.takes .pipe
  let old := s
  let s := s.copyCaptured
  let s := ((s.remap old).restartMotifs old).spwmCastle.greyStat
  let s := s.wr Reg.SCAN_STAT_PROBE (s.rd Reg.CENSUS_CFG_PROBE_SLOT)
  let s := if clearsAcc old s then s.clearAccs else s
  let s := { s with scan := { s.scan with capturedMask := 0, taken := 0, captured := [] } }
  let s := if gridDiffers old s then s.gridChanged else s
  let s := if gridDiffers old s || old.greyLead != s.greyLead then s.retarget else s
  let s := if scan then s.noteFollow else s
  let s := if pipe then s.freeMaps else s
  let s := s.foldOff
  if mask = 0 then s else
    (s.wr Reg.SYS_CASTLE_STAT_COUNT (s.rd Reg.SYS_CASTLE_STAT_COUNT + 1)).raise Ev.CASTLE_DONE mask.toNat

/-- R153: GCK relocks: CLK_STAT.GCK_LOCK falls, FLOOR with it (R18), and the scan engine is idle in RELOCK. -/
def State.relock (s : State) (from_ : Option Nat) : State :=
  let s := (s.scanIdle.wr Reg.CLK_STAT_GCK_LOCK 0).wr Reg.SCAN_STAT_STATE 3
  { s with scan := { s.scan with relockFrom := from_ } }.floorFall

/-- FREQ_KHZ changed: class C. -/
def classC (s t : State) : Bool := s.rd Reg.CLK_GCK_CFG_FREQ_KHZ != t.rd Reg.CLK_GCK_CFG_FREQ_KHZ

/-- Table 17.4: GCK runs in READY, ARMED and FALLBACK. -/
def State.gckWanted (s : State) : Bool :=
  let st := s.rd Reg.SYS_STATE_STATE
  st == 4 || st == 5 || st == 6

/-- R153: a class C change while the scan engine is idle: GCK relocks where it runs or relocks; where it locks for the first time, the
5 ms count from the change. -/
def State.classCNow (s : State) : State :=
  if s.gckOk || s.rd Reg.SCAN_STAT_STATE == 3 then s.relock (some s.time.uptime)
  else if s.gckWanted then { s with scan := { s.scan with relockFrom := some s.time.uptime } }
  else s

/-- R150: an idle scan engine applies a commit at once, with its checks. A class B commit calls for no dark frame of R152 then: the frame
that resumes follows R525 (DESIGN CHOICE, log entry 135). -/
def State.castleNow (s : State) : State :=
  if s.rd Reg.SYS_CASTLE_STAT_PENDING % 256 = 0 then s else
    let old := s
    let s := s.castleSetup.castleApply
    let s := { s with scan := { s.scan with setupDone := old.scan.setupDone } }
    if classC old s then s.classCNow else s

/-- R145, R147, R149, R150: a value written to SYS_CASTLE. -/
def State.castleCommit (s : State) (mask : Nat) : State :=
  let mask := mask % 512
  if mask = 0 then s else
    let s := s.wr Reg.SYS_CASTLE_STAT_PENDING (s.rd Reg.SYS_CASTLE_STAT_PENDING ||| mask)
    let s := if mask % 256 = 0 then s
      else if s.idle then s.castleNow
      else if s.scan.setupDone || s.scan.inBlank then
        (s.setW1c Reg.SYS_CASTLE_STAT_LATE).raise Ev.CASTLE_LATE
          (s.rd Reg.SYS_CASTLE_STAT_PENDING ||| s.scan.capturedMask.toNat)
      else s
    if bitAt mask 8 && !s.mirRuns then s.mirApply else s

/-- R53: the device writes the grid's epoch, shadows included. -/
def State.writeEpoch (s : State) (e : Nat) : State :=
  let s := s.hwWrBoth Reg.TIME_GRID_EPOCH_EPOCH_LO (e / nsUnit)
  let s := s.hwWrBoth Reg.TIME_GRID_EPOCH_EPOCH_HI (e / nsUnit / 2 ^ 32)
  s.hwWrBoth Reg.TIME_GRID_EPOCH_FRAC_FRAC e

/-- R48: a genlock edge's point becomes the grid's epoch. -/
def State.genlockEpoch (s : State) (e : Nat) : State := (s.writeEpoch e).gridChanged.retarget

/-- R38: a step that waits takes effect, unless the servo is LOCKED by now. -/
def State.stepNow (s : State) : State :=
  match s.time.stepDue with
  | some d => if s.servo == 2 then s.dropStep else s.applyStep d
  | none => s

/-- R48: a genlock epoch that waits takes effect. -/
def State.epochNow (s : State) : State :=
  match s.time.epochDue with
  | some e => { s with time := { s.time with epochDue := none } }.genlockEpoch e
  | none => s

/-- R56: a FOLLOW announcement that waits takes effect. -/
def State.followNow (s : State) : State :=
  match s.time.followDue with
  | some (e, p) =>
    let s := { s with time := { s.time with followDue := none } }.writeEpoch e
    let s := (s.hwWrBoth Reg.TIME_GRID_PERIOD_NS (p / nsUnit)).hwWrBoth Reg.TIME_GRID_PERIOD_FRAC p
    { s with scan := { s.scan with notBefore := s.now + s.tVbMin } }.retarget
  | none => s

/-- R38, R48, R56, R150: the device's own changes that wait for a castling point. -/
def State.ownChanges (s : State) : State := s.stepNow.epochNow.followNow

/-- Table 6.2, steps 2 to 5. -/
def State.adjust (s : State) : State := ((s.foldStep.thermStep.hrClose).loopUpdate 0).loopUpdate 1

/-- Vertical blanking begins (R125). -/
def State.enterBlank (s : State) : State :=
  let s := (s.wr Reg.SCAN_POS_VBLANK 1).setPhases s.quietPhases
  { s with scan := { s.scan with inBlank := true, setupDone := false, blankFrom := s.now, pulses := [] } }

/-- R151 to R153: the display behaviour of the changes just applied. -/
def State.classify (s old : State) : State :=
  if classC old s then s.relock (some s.time.uptime)
  else if classB old s then { s with scan := { s.scan with nextKind := .darkB } }
  else s

/-- R186: the castling point of a running scan engine. In BRACE it applies nothing (R463). -/
def State.castlePoint (s : State) : State :=
  if s.brace then s.uncapture.enterBlank.censusFlush else
    let old := s
    let s := s.castleApply.ownChanges.adjust.enterBlank
    let s := { s with scan := { s.scan with braceHold := false } }
    (s.classify old).censusFlush

/-- R525: the instant that stands for the castling point before a resuming frame start. -/
def State.resumePoint (s : State) : State :=
  let s := s.castleNow.ownChanges.adjust
  { s with scan := { s.scan with braceHold := false, setupDone := true } }

/-- R525: the later of g - T_VB_MIN and the instant at which g is fixed; where a frame starts at no grid point (READY mode),
any instant before it. -/
def State.resumeDue (s : State) : Bool :=
  s.resuming && s.gckOk && !s.brace && !s.resumeTaken &&
    ((s.readyMode && !s.armComing) || s.nextGrid s.now ≤ s.now + s.tVbMin)

/-- R146: the setup instant, one line slot before the castling point. -/
def execCastleSetup (at_ : Vt) (s : State) : Host.Outcome State Fault Refusal :=
  .next (let s := s.elapseTo at_
    if !s.idle && !s.scan.inBlank && !s.scan.setupDone && s.castlingAt ≤ s.now + gclkTime s s.geom.tSlot then s.castleSetup
    else s)

/-- R186: a castling point at an instant: at or after T_ACT from the frame start, or the one R525 takes for a display that
resumes. -/
def execCastlingPoint (at_ : Vt) (s : State) : Host.Outcome State Fault Refusal :=
  .next (let s := s.elapseTo at_
    if s.idle then (if s.resumeDue then s.resumePoint else s)
    else if !s.scan.inBlank && s.castlingAt ≤ s.now then s.castlePoint else s)

/-- R154: GCK loses lock without a commit. -/
def execGckUnlock (at_ : Vt) (s : State) : Host.Outcome State Fault Refusal :=
  .next (let s := s.elapseTo at_
    if s.rdB Reg.CLK_STAT_GCK_LOCK then ((s.relock none).raise Ev.GCK_UNLOCK 0).castleNow else s)

/-- R153: GCK has locked; the display may resume T_VB_MIN later. A relock is counted; the first lock after a boot is not. -/
def execGckRelock (at_ : Vt) (s : State) : Host.Outcome State Fault Refusal :=
  .next (let s := s.elapseTo at_
    if s.rdB Reg.CLK_STAT_GCK_LOCK || !s.powered 2 || !s.gckWanted then s else
      let re := s.rd Reg.SCAN_STAT_STATE == 3
      let s := s.wr Reg.CLK_STAT_GCK_LOCK 1
      let s := if re then (s.bump Reg.SCAN_CNT_RELOCK).wr Reg.SCAN_STAT_STATE 0 else s
      { s with scan := { s.scan with relockFrom := none, notBefore := if re then s.now + s.tVbMin else s.scan.notBefore } })

/-- R153: GCK has not locked 5 ms after the castling point of a class C castle. -/
def execGckLockTimeout (at_ : Vt) (s : State) : Host.Outcome State Fault Refusal :=
  .next (let s := s.elapseTo at_
    match s.scan.relockFrom with
    | some t =>
      if t + msec 5 ≤ s.time.uptime && !s.rdB Reg.CLK_STAT_GCK_LOCK then
        { (s.raise Ev.GCK_UNLOCK 0) with scan := { s.scan with relockFrom := none } }
      else s
    | none => s)

/-! ## Genlock (R48) -/

/-- R48: the epoch that predicts the coming edges: one that waits for its castling point, else the one in force. -/
def State.genlockBase (s : State) : Nat := s.time.epochDue.getD (gridEpoch s)

/-- R48: how far a point lies from its predicted grid point. -/
def State.genlockOff (s : State) (point : Int) : Int :=
  let per := gridPeriod s
  point - gridPoint s.genlockBase per (gridIndexAtOrAfter s.genlockBase per (point - per / 2))

/-- R48: the edge is ignored: more than 0.1 % of the period from its predicted grid point. Points are predicted once the servo has
left FREE (DEDUCED, log entry 116). -/
def State.genlockRejects (s : State) (off : Int) : Bool := s.servo != 0 && decide (gridPeriod s < off.natAbs * 1000)

/-- R48: the first accepted edge in ACQUIRE, the one that enters it included: its point becomes the epoch at the next castling point
that applies groups, at once while the scan engine is idle. -/
def State.genlockFirst (s : State) (point : Nat) : State :=
  let s := s.measure 0
  let s := { s with time := { s.time with genTaken := true } }
  if s.idle then s.genlockEpoch point else { s with time := { s.time with epochDue := some point } }

/-- R48: an edge on GENLOCK_IN, of the polarity that GENLOCK_EDGE selects, with TIME_GENLOCK.OFFSET. -/
def execGenlockInEdge (at_ : Vt) (falling : Bool) (s : State) : Host.Outcome State Fault Refusal :=
  let s := s.elapseTo at_
  .next (if s.timeSrc != 2 || falling != s.rdB Reg.TIME_CFG_GENLOCK_EDGE then s else
    let point : Int := (s.now : Int) + signed 24 (s.rd Reg.TIME_GENLOCK_OFFSET) * nsUnit
    let off := s.genlockOff point
    if s.genlockRejects off then s.bump Reg.TIME_CNT_GENLOCK_REJ
    else if s.servo == 2 || (s.servo == 1 && s.time.genTaken) then s.measure off
    else s.genlockFirst point.toNat)

end Sys2Proof.Machine
end

