-- ==== Sys2Proof/Machine/Frames.lean ====
section
/-! DEFINITION. Ethernet frames as bytes: the fields the forwarding core reads (R240), the FCS and its stomped form (R246),
the KLP header (R286) and its checks (R291, R292). -/
namespace Sys2Proof.Machine

/-- The FCS of the bytes before it, as sent: CRC-32 with its least significant byte first. -/
def fcsOf (body : List Byte) : List Byte := leBytes 4 (crcOf crc32 body)

/-- R246: the stomped FCS. -/
def stompedFcs (body : List Byte) : List Byte := (fcsOf body).map (~~~ ·)

/-- A frame without its last four bytes. -/
def frameBody (f : List Byte) : List Byte := f.take (f.length - 4)

/-- How a received frame ends: its FCS is good, wrong, or stomped. -/
inductive FcsKind where
  | good | wrong | stomped
  deriving DecidableEq, Repr

/-- R246, R247: the kind of a frame's FCS. -/
def fcsKind (f : List Byte) : FcsKind :=
  let b := frameBody f
  let c := f.drop (f.length - 4)
  if c = fcsOf b then .good else if c = stompedFcs b then .stomped else .wrong

/-- The EtherType of a frame, after at most one IEEE 802.1Q tag (R240), and the offset of the byte after it. -/
def etherType (f : List Byte) : Nat × Nat := if beAt f 12 2 = 0x8100 then (beAt f 16 2, 18) else (beAt f 12 2, 14)

/-- The offset of the UDP header of a UDP/IPv4 frame whose IPv4 header carries no options. -/
def udpAt (f : List Byte) : Option Nat :=
  let (t, o) := etherType f
  if t = 0x0800 ∧ byteAt f o = 0x45 ∧ byteAt f (o + 9) = 17 then some (o + 20) else none

/-- The frame's IPv4 packet is a fragment: MF set, or fragment offset not zero (R283). -/
def isFragment (f : List Byte) : Bool := beAt f ((etherType f).2 + 6) 2 % 16384 != 0

/-- R283: the one's-complement sum over the UDP pseudo-header and datagram, for a checksum that is not 0. -/
def udpSum (f : List Byte) (u : Nat) : Nat :=
  let len := beAt f (u + 4) 2
  let data := slice f u len
  let pseudo := slice f (u - 8) 8 ++ [0, 17] ++ beBytes 2 len
  let bytes := pseudo ++ data ++ (if len % 2 = 1 then [0] else [])
  let total := (List.range (bytes.length / 2)).foldl (fun acc i => acc + beAt bytes (2 * i) 2) 0
  let fold := total % 65536 + total / 65536
  fold % 65536 + fold / 65536

/-- R283: the UDP checksum is absent (zero) or right. -/
def udpOk (f : List Byte) (u : Nat) : Bool :=
  beAt f (u + 6) 2 = 0 || (8 ≤ beAt f (u + 4) 2 && udpSum f u = 0xFFFF)

/-- What R240 finds in a frame. -/
inductive EthKind where
  | macControl | reserved
  /-- A PTP message: the offset of its header, and that of its UDP header. -/
  | ptp (at_ : Nat) (udp : Option Nat)
  /-- A KLP packet: the offset of its header, and that of its UDP header. -/
  | klp (at_ : Nat) (udp : Option Nat)
  | other
  deriving DecidableEq, Repr

/-- A destination of 01-80-C2-00-00-00 to -0F. -/
def reservedMac (mac : Nat) : Bool := mac / 16 == 0x0180C2000000 / 16

/-- R240: where a PTP message stands in a frame, and its UDP header: EtherType 0x88F7, or UDP ports 319 and 320. -/
def ptpAt (f : List Byte) : Option (Nat × Option Nat) :=
  let (t, o) := etherType f
  if t = 0x88F7 then some (o, none)
  else match udpAt f with
    | some u => if beAt f (u + 2) 2 = 319 ∨ beAt f (u + 2) 2 = 320 then some (u + 8, some u) else none
    | none => none

/-- R240, R282: the frame's kind by its EtherType and UDP port, with the identifiers of KLP in force. -/
def frameKind (ethType udpPort : Nat) (ethEn udpEn : Bool) (f : List Byte) : EthKind :=
  let (t, o) := etherType f
  if t = 0x8808 then .macControl
  else if reservedMac (beAt f 0 6) then .reserved
  else match ptpAt f, udpAt f with
    | some (at_, udp), _ => .ptp at_ udp
    | none, some u =>
      if udpEn ∧ beAt f (u + 2) 2 = udpPort then .klp (u + 8) (some u)
      else if ethEn ∧ t = ethType then .klp o none else .other
    | none, none => if ethEn ∧ t = ethType then .klp o none else .other

/-- The header fields of a KLP packet (Table 10.2). -/
structure KlpHdr where
  verMaj : Nat
  verMin : Nat
  cls : Nat
  flags : Nat
  dst : Nat
  src : Nat
  seq : Nat
  session : Nat
  when_ : Nat
  length : Nat
  hcheck : Nat
  frame : Nat
  deriving DecidableEq, Repr

/-- R286: the header at the start of a packet. -/
def klpHdr (p : List Byte) : KlpHdr where
  verMaj := byteAt p 0
  verMin := byteAt p 1
  cls := byteAt p 2
  flags := byteAt p 3
  dst := beAt p 4 2
  src := beAt p 6 2
  seq := beAt p 8 4
  session := beAt p 12 4
  when_ := beAt p 16 8
  length := beAt p 24 2
  hcheck := beAt p 26 2
  frame := beAt p 28 4

/-- R291: hcheck over header bytes 0 to 25. -/
def hcheckOf (p : List Byte) : Nat := crcOf crc16 (p.take 26)

/-- R292: the 8-byte tag before the payload. -/
def pcheckTag (h : KlpHdr) : List Byte := beBytes 2 h.dst ++ beBytes 1 h.cls ++ beBytes 1 h.verMaj ++ beBytes 4 h.seq

/-- R292: pcheck over the tag and the bytes between the header and pcheck. -/
def pcheckOf (h : KlpHdr) (body : List Byte) : Nat := crcOf crc32c (pcheckTag h ++ body)

/-- R286, R291, R292: a whole packet of a header's fields and a body; length and the checks are computed. -/
def klpPacket (h : KlpHdr) (body : List Byte) : List Byte :=
  let head := [BitVec.ofNat 8 h.verMaj, BitVec.ofNat 8 h.verMin, BitVec.ofNat 8 h.cls, BitVec.ofNat 8 h.flags] ++ beBytes 2 h.dst ++
    beBytes 2 h.src ++ beBytes 4 h.seq ++ beBytes 4 h.session ++ beBytes 8 h.when_ ++ beBytes 2 (body.length + 4)
  head ++ beBytes 2 (crcOf crc16 head) ++ beBytes 4 h.frame ++ body ++ beBytes 4 (pcheckOf h body)

end Sys2Proof.Machine
end

