-- ==== Sys2Proof/Machine/Links.lean ====
section
/-! DEFINITION. Link ports and the packet buffer (chapter 09): modes, link state, the ring, cells, flow control, queues,
transmission, PAUSE and LPI. -/
namespace Sys2Proof.Machine

/-- A port after reset. -/
def portReset : PortSt := ⟨none, none, [], none, 0, none, none, 0⟩
def State.port (s : State) (p : Nat) : PortSt := tabGet portReset s.net.ports p
def State.setPort (s : State) (p : Nat) (x : PortSt) : State :=
  { s with net := { s.net with ports := tabSet portReset s.net.ports p x } }

/-! ## Modes (Table 9.1) -/

/-- Table 9.1: the modes marked for a trunk (ports 0 and 1) or a branch. -/
def modeMarked (p m : Nat) : Bool := m == 0 || m == 3 || m == 4 || m == 6 || (if p < 2 then m == 1 || m == 2 else m == 5)

/-- R236: the mode a port runs. -/
def State.linkMode (s : State) (p : Nat) : Nat :=
  let m := s.rd (Reg.LINK_MODE_MODE p)
  if modeMarked p m then m else 0

/-- The data rate of a mode in Mb/s. -/
def modeRate (m : Nat) : Nat := if m = 1 ∨ m = 2 then 10000 else if m = 3 then 2500 else if m = 0 then 0 else 1000

/-- LINK_STAT.SPEED. -/
def speedCode (m : Nat) : Nat := if m = 1 ∨ m = 2 then 3 else if m = 3 then 2 else if m = 0 then 0 else 1

/-- Modes with auto-negotiation, and modes with LPI (R265). -/
def modeAn (m : Nat) : Bool := m == 2 || m == 4 || m == 5 || m == 6
def modeEee (m : Nat) : Bool := m == 2 || m == 5 || m == 6

/-- The port's link is up and NET is powered. -/
def State.portUp (s : State) (p : Nat) : Bool := s.powered 0 && s.rdB (Reg.LINK_STAT_UP p)

/-! ## The cell ledger (R256 to R261) -/

/-- Cells of 256 bytes that a frame holds. -/
def Pkt.cells (k : Pkt) : Nat := max 1 ((k.bytes.length + 255) / 256)

/-- The cell that a port may be filling (R258). -/
def Pkt.filling (k : Pkt) : Nat := if k.whole then 0 else 1

def sumCells (f : Pkt → Nat) (l : List Pkt) : Nat := (l.map f).foldl (· + ·) 0

/-- R256: a frame for local use is LOCKED from its end until its last user, a port included, releases it. -/
def Pkt.locked (k : Pkt) : Bool := k.whole && k.holder != 0

/-- A local user holds the frame. -/
def Pkt.held (k : Pkt) : Bool := k.holder == 1 || k.holder == 2

/-- R259: its local user releases the frame. -/
def Pkt.release (k : Pkt) : Pkt := if k.held then { k with holder := 3 } else k

/-- Cells in each state at this instant: LOCKED or else QUEUED (R256, R257). -/
def State.lockedCells (s : State) : Nat := sumCells (fun k => if k.locked then k.cells else 0) s.net.pkb
def State.queuedCells (s : State) : Nat := sumCells (fun k => if k.locked then 0 else k.cells) s.net.pkb
def State.freeCells (s : State) : Nat := 2048 - s.lockedCells - s.queuedCells

/-- R258: the live count of QUEUED cells omits the cells being filled. -/
def State.liveQueued (s : State) : Nat := s.queuedCells - sumCells (·.filling) s.net.pkb

/-- QCAP: outside 64 to 2,048 acts as the nearer limit. -/
def State.qcap (s : State) : Nat := min 2048 (max 64 (s.rd Reg.FWD_MTU_QCAP))

/-- MTU: outside 1,518 to 9,600 acts as the nearer limit. -/
def State.mtu (s : State) : Nat := min 9600 (max 1518 (s.rd Reg.FWD_MTU_MTU))

/-- Cells in the queues of an egress port. -/
def State.portCells (s : State) (p : Nat) : Nat :=
  sumCells (fun k => if k.egress.contains p || k.sending.contains p then k.cells else 0) s.net.pkb

/-- R268: a frame for a port in LPI wakes the transmitter; it leaves TW µs later. -/
def State.lpiWake (s : State) (p : Nat) : State :=
  if s.rdB (Reg.LINK_STAT_LPI_TX p) then
    let s := (s.wr (Reg.LINK_STAT_LPI_TX p) 0).bump (Reg.LINK_CNT1_LPI_LATE p)
    s.setPort p { s.port p with wakeAt := s.time.uptime + usec (s.rd (Reg.LINK_EEE_TW p)) }
  else s

/-- R261, R268: a SEND port with link up queues a PAUSE frame, which wakes it from LPI. -/
def State.queuePause (s : State) (quanta p : Nat) : State :=
  if s.rdB (Reg.LINK_PAUSE_TX p) && s.portUp p then
    let s := s.lpiWake p
    s.setPort p { s.port p with ownPause := (s.port p).ownPause ++ [quanta] }
  else s

/-- R261: each SEND port with link up queues a PAUSE frame. -/
def State.sendPause (s : State) (quanta : Nat) : State := (List.range 6).foldl (fun s p => s.queuePause quanta p) s

/-- R261: flow control starts when FWD_FREE falls to XOFF and ends when it reaches XON. -/
def State.flowCheck (s : State) : State :=
  if !s.net.flow && s.freeCells ≤ s.rd Reg.FWD_XOFF_XOFF then
    (({ s with net := { s.net with flow := true } }).raise Ev.BUF_LOW s.freeCells).sendPause (s.rd Reg.FWD_QUANTA_QUANTA)
  else if s.net.flow && s.rd Reg.FWD_XOFF_XON ≤ s.freeCells then
    ({ s with net := { s.net with flow := false } }).sendPause 0
  else s

/-- A frame that no port has still to send and no local user holds gives its cells back (R259). -/
def Pkt.live (k : Pkt) : Bool := !k.whole || !k.egress.isEmpty || !k.sending.isEmpty || k.held

/-- Replace the packet buffer, return the cells of finished frames and test the levels of R261. -/
def State.setPkb (s : State) (l : List Pkt) : State := ({ s with net := { s.net with pkb := l.filter Pkt.live } }).flowCheck

/-- A frame of the buffer. -/
def State.pkt (s : State) (id : Nat) : Option Pkt := s.net.pkb.find? fun k => k.id == id

/-- Change one frame of the buffer. -/
def State.updPkt (s : State) (id : Nat) (f : Pkt → Pkt) : State :=
  s.setPkb (s.net.pkb.map fun k => if k.id = id then f k else k)

/-! ## Discards (R248, R260) -/

/-- R248: EV_RX_DISCARD, at most once per 100 ms per port. -/
def State.rxDiscard (s : State) (p cause : Nat) : State :=
  let due := match (s.port p).lastDiscard with
    | none => true
    | some t => t + msec 100 ≤ s.time.uptime
  if due then (s.setPort p { s.port p with lastDiscard := some s.time.uptime }).raise Ev.RX_DISCARD (p + cause * 16) else s

/-- R260: a loss for want of cells, counted at a port and in the total. -/
def State.noCell (s : State) (p : Nat) : State := (s.bump (Reg.LINK_CNT1_NOCELL p)).bump Reg.FWD_CNT0_NOCELL

/-- Count `n` frames sent with a stomped FCS, one for each egress port. -/
def State.countStomp (s : State) (n : Nat) : State := s.bumpBy Reg.FWD_CNT0_STOMP n

/-- A frame's bytes ended with a stomped FCS (R246, R260). -/
def stomped (b : List Byte) : List Byte := b ++ stompedFcs b

/-- R260: a port that sends a frame, of which `f` are the bytes, ends it with a stomped FCS. -/
def State.cutTx (s : State) (f : List Byte) (e : Nat) : State :=
  let s := s.countStomp 1
  let x := s.port e
  s.setPort e { x with tx := x.tx.map fun (t : TxSt) => { t with cut := some (stomped (f.take 60)) } }

/-! ## The ring (R255) -/

/-- R255: a trunk is delivering. -/
def State.delivering (s : State) (t : Nat) : Bool :=
  s.portUp t && match (s.port t).lastGood with
    | none => false
    | some l => s.time.uptime < l + msec (max 1 (s.rd Reg.FWD_RING_TMO))

/-- R255: the ring state is taken anew and its changes are reported. -/
def State.ringEval (s : State) : State :=
  let d0 := s.delivering 0
  let d1 := s.delivering 1
  let s := (s.wrB (Reg.LINK_STAT_DELIVER 0) d0).wrB (Reg.LINK_STAT_DELIVER 1) d1
  let line := s.rdB Reg.FWD_CFG_TOPO
  let st := if line then 0 else (if d0 then 1 else 0) + (if d1 then 1 else 0)
  let silent := if st == 1 && d0 then 1 else 0
  let same := st == s.rd Reg.FWD_RING_STATE && silent == s.rd Reg.FWD_RING_SILENT
  let s := (s.wr Reg.FWD_RING_STATE st).wr Reg.FWD_RING_SILENT silent
  if line || same then s
  else if st = 1 then s.raise Ev.RING_OPEN silent
  else if st = 2 then s.raise Ev.RING_HEAL 0
  else s

/-- R255: a qualifying frame was received on a trunk. -/
def State.ringMark (s : State) (p : Nat) : State :=
  if p < 2 then (s.setPort p { s.port p with lastGood := some s.time.uptime }).ringEval else s

/-- R255: a trunk has been silent for TMO at an instant. -/
def execRingDeliveryTimeout (at_ : Vt) (s : State) : Host.Outcome State Fault Refusal :=
  let s := s.elapseTo at_
  .next (if s.powered 0 then s.ringEval else s)

/-! ## Link up, link down and mode writes (R235 to R239) -/

/-- R239: a reception cut short: frames being forwarded end with a stomped FCS, the rest is discarded. -/
def State.abortRx (s : State) (p : Nat) : State :=
  let id := (s.port p).rx.bind (·.pkt)
  let s := if (s.port p).rx.isSome then s.cvuTapCut 1 p else s
  let s := s.setPort p { s.port p with rx := none }
  match id.bind s.pkt with
  | some k =>
    (s.countStomp k.sending.length).updPkt k.id fun k =>
      { k with bytes := k.bytes ++ stompedFcs k.bytes, whole := true, egress := [], holder := 0 }
  | none => s

/-- R239: a transmission in progress ends with a stomped FCS, and frames queued for the port are discarded. -/
def State.flushTx (s : State) (p : Nat) : State :=
  let s := if (s.port p).tx.any (·.pkt.isSome) then s.countStomp 1 else s
  let s := if (s.port p).tx.isSome then s.cvuTapCut 2 p else s
  let s := s.setPort p { s.port p with tx := none, ownPause := [], pause := none, wakeAt := 0 }
  s.setPkb (s.net.pkb.map fun k => { k with egress := k.egress.erase p, sending := k.sending.erase p })

/-- The link of a port goes down (R238, R239). -/
def State.linkDown (s : State) (p fault : Nat) : State :=
  let was := s.rdB (Reg.LINK_STAT_UP p)
  let s := (s.abortRx p).flushTx p
  let s := ((s.wr (Reg.LINK_STAT_UP p) 0).wr (Reg.LINK_STAT_SPEED p) 0).wr (Reg.LINK_STAT_AN_DONE p) 0
  let s := (((s.wr (Reg.LINK_STAT_FEC_ACT p) 0).wr (Reg.LINK_STAT_LPI_TX p) 0).wr (Reg.LINK_STAT_LPI_RX p) 0).wr
    (Reg.LINK_STAT_PAUSED p) 0
  let s := s.wr (Reg.LINK_STAT_FAULT p) fault
  if was then ((s.raise Ev.LINK_DOWN p).floorFall.ringEval).ptpPortDown p else s

/-- R238: a port's PCS has held lock for 1 ms, auto-negotiation has completed and no fault is signalled. `fec`: both ends
advertise Clause 74 FEC. `refused`: the partner asks for what R237 does not take. -/
def execLinkUp (port : Fin 6) (fec refused : Bool) (s : State) : Host.Outcome State Fault Refusal :=
  let p := port.val
  let m := s.linkMode p
  .next (if !s.powered 0 || m == 0 || s.rdB (Reg.LINK_STAT_UP p) then s
    else if refused && modeAn m then s.setW1c (Reg.LINK_STAT_SPEED_REJ p)
    else
      let s := ((s.wr (Reg.LINK_STAT_UP p) 1).wr (Reg.LINK_STAT_SPEED p) (speedCode m)).wr (Reg.LINK_STAT_FAULT p) 0
      let s := s.wrB (Reg.LINK_STAT_AN_DONE p) (modeAn m && s.rdB (Reg.LINK_MODE_AN_EN p))
      let s := s.wrB (Reg.LINK_STAT_FEC_ACT p) (fec && m == 2 && s.rdB (Reg.LINK_MODE_FEC_EN p))
      (s.raise Ev.LINK_UP p).ringEval)

/-- R238: lock lost, or a fault signalled (1 local, 2 remote), for longer than DOWN_HOLD. -/
def execLinkDown (port : Fin 6) (fault : Fin 3) (s : State) : Host.Outcome State Fault Refusal :=
  .next (if s.portUp port.val then s.linkDown port.val fault.val else s)

/-- R236, R239: a write to LINK_MODE. -/
def State.linkModeWrite (s : State) (p : Nat) (w : Word) : State :=
  let s := s.linkDown p 0
  let s := s.setReg (Reg.LINK_MODE_MODE p).addr (w &&& 0xFF7F)
  let s := s.setPort p { s.port p with modeAt := s.time.uptime }
  if modeMarked p (s.rd (Reg.LINK_MODE_MODE p)) then s else s.setW1c (Reg.LINK_STAT_MODE_REJ p)

/-- Table 17.4: the SerDes PLL of a port is locked 100 µs after a mode write, while its mode is not DISABLED. -/
def State.netLock (s : State) (p : Nat) : Bool := s.powered 0 && s.linkMode p != 0 && (s.port p).modeAt + usec 100 ≤ s.time.uptime

/-! ## Egress (R241 to R243, R249, R250) -/

/-- R263: a quantum, 512 bit times at the port's rate, in 2^-16 ns. -/
def State.quantum (s : State) (p : Nat) : Nat := 512 * 1000 * nsUnit / max 1 (modeRate (s.linkMode p))

/-- The port transmits no frames because of a PAUSE (R263). -/
def State.isPaused (s : State) (p : Nat) : Bool := (s.port p).pause.isSome

/-- The port may begin a frame: link up, nothing in transmission, not in LPI and not still waking (R249, R268). -/
def State.portReady (s : State) (p : Nat) : Bool :=
  s.portUp p && (s.port p).tx.isNone && !s.rdB (Reg.LINK_STAT_LPI_TX p) && (s.port p).wakeAt ≤ s.time.uptime

/-- Store a frame in the buffer; the new frame's number is `s.net.nextId`. -/
def State.storeFrame (s : State) (k : Pkt) : State :=
  let s := { s with net := { s.net with nextId := s.net.nextId + 1 } }
  (k.egress.foldl State.lpiWake s).setPkb (s.net.pkb ++ [{ k with id := s.net.nextId - 1 }])

/-- Pad a frame's body to 60 bytes and append its FCS. -/
def sealFrame (body : List Byte) : List Byte :=
  let b := body ++ List.replicate (60 - body.length) 0
  b ++ fcsOf b

/-- FWD_MAC, first byte most significant. -/
def State.fwdMac (s : State) : Nat := s.rd Reg.FWD_MAC_MAC_HI * 2 ^ 32 + s.rd Reg.FWD_MAC_MAC_LO

/-- R243: destination, FWD_MAC and the tag in force, before the EtherType. -/
def State.etherHead (s : State) (dst : Nat) : List Byte :=
  beBytes 6 dst ++ beBytes 6 s.fwdMac ++ (if s.rdB Reg.FWD_CFG_TAG_EN then
    [0x81, 0x00] ++ beBytes 2 (s.rd Reg.FWD_CFG_PCP * 8192 + s.rd Reg.FWD_CFG_VID) else [])

/-- Table 9.3: the ports of frames the device originates, those with link up. -/
def State.originPorts (s : State) : List Nat :=
  (if s.rdB Reg.FWD_CFG_TOPO then [0] else [0, 1]).filter s.portUp

/-- R260: the egress ports whose queues have room for `n` more cells. -/
def State.roomAt (s : State) (n : Nat) (l : List Nat) : List Nat := l.filter fun e => s.portCells e + n ≤ s.qcap

/-- R243, R250, R260: the device originates a frame of a priority class on the given ports; `ingress` is that of a message it
answers in turn. A port whose queue is full loses it, and all do when no cell is free. -/
def State.originateOn (s : State) (ports : List Nat) (ingress : Option (Nat × Nat)) (body : List Byte) (prio : Nat) : State :=
  let k : Pkt := ⟨0, sealFrame body, true, ingress, prio, ports, [], 0⟩
  if ports.isEmpty || s.freeCells < k.cells then s else
    let room := s.roomAt k.cells ports
    let s := (ports.filter fun e => !room.contains e).foldl State.noCell s
    if room.isEmpty then s else s.storeFrame { k with egress := room }

/-- Table 9.3: the device originates a frame of a priority class. -/
def State.originate (s : State) (body : List Byte) (prio : Nat) : State := s.originateOn s.originPorts none body prio

/-- The rate of a port in Mb/s. -/
def State.portRate (s : State) (p : Nat) : Nat := modeRate (s.linkMode p)

/-- The frame may begin on port p before it has been received whole: the egress rate does not exceed the ingress rate. -/
def State.mayCut (s : State) (k : Pkt) (p : Nat) : Bool :=
  k.whole || match k.ingress with
    | some (i, _) => s.portRate p ≤ s.portRate i
    | none => true

/-- R250: the frame the port sends next: strict priority, arrival order within a class. -/
def State.nextPkt (s : State) (p : Nat) : Option Pkt :=
  (List.range 4).findSome? fun c => s.net.pkb.find? fun k => k.prio == c && k.egress.contains p && s.mayCut k p

/-- R243, R262: a PAUSE frame of the device. -/
def State.pauseFrame (s : State) (quanta : Nat) : List Byte :=
  sealFrame (s.etherHead 0x0180C2000001 ++ [0x88, 0x08, 0x00, 0x01] ++ beBytes 2 quanta)

/-- The kind of a frame's contents with the KLP identifiers in force (R282). -/
def State.kindOf (s : State) (f : List Byte) : EthKind :=
  frameKind (s.rd Reg.FWD_KLP_TYPE_ETHERTYPE) (s.rd Reg.FWD_KLP_TYPE_UDP_PORT) (s.rdB Reg.FWD_KLP_CFG_ETH_EN)
    (s.rdB Reg.FWD_KLP_CFG_UDP_EN) f

/-- What a link tap sees of a frame (R405). -/
def State.tapOf (s : State) (f : List Byte) (ok : Bool) : TapFrame :=
  ⟨f, ok, match s.kindOf f with
    | .klp o _ => some (o, (klpHdr (f.drop o)).length - 4)
    | _ => none⟩

/-- PTP event messages: Sync, Delay_Req, Pdelay_Req and Pdelay_Resp. -/
def ptpEvent (f : List Byte) (o : Nat) : Bool := byteAt f o % 16 ≤ 3

/-- Table 2.1: the timestamp that a port takes of a frame at an instant, where the frame is a PTP event message. -/
def State.eventStamp (s : State) (f : List Byte) (t : Nat) : Nat × State :=
  match ptpAt f with
  | some (o, _) => if ptpEvent f o then s.portStamp t else (t, s)
  | none => (t, s)

/-- R405: the first bytes of a frame, as LINK_TX presents them when its transmission starts: those that the port leaves as they are, and
at most 60 of them (log entry 140). -/
def txHead (f : List Byte) : List Byte :=
  f.take (match ptpAt f with
    | some (o, udp) => if ptpEvent f o then min 60 (match udp with
        | some u => u + 6
        | none => o + 8) else 60
    | none => 60)

/-- A port begins to send bytes that stand in `f`: a frame of the buffer, or a PAUSE frame. -/
def State.startTx (s : State) (p : Nat) (t : TxSt) (f : List Byte) : State :=
  (s.setPort p { s.port p with tx := some t }).cvuTapHead 2 p (s.tapOf (txHead f) true)

/-- A port begins to send a frame; the egress timestamp of an event message is taken now. -/
def State.beginTx (s : State) (p id : Nat) : State :=
  match s.pkt id with
  | none => s
  | some k =>
    let (t, s) := s.eventStamp k.bytes s.now
    (s.startTx p ⟨some id, 0, t, none⟩ k.bytes).updPkt id fun k =>
      { k with egress := k.egress.erase p, sending := k.sending ++ [p] }

/-- R250, R264: an egress port begins to send: its own PAUSE frames first, also while it is paused; then the queues. -/
def execTxQueueStart (at_ : Vt) (port : Fin 6) (s : State) : Host.Outcome State Fault Refusal :=
  let s := s.elapseTo at_
  let p := port.val
  .next (if !s.portReady p then s else
    match (s.port p).ownPause with
    | q :: rest => (s.setPort p { s.port p with ownPause := rest }).startTx p ⟨none, q, s.now, none⟩ (s.pauseFrame q)
    | [] => if s.isPaused p then s else match s.nextPkt p with
      | some k => s.beginTx p k.id
      | none => s)

/-- Bytes of a list replaced from an offset. -/
def patch (l : List Byte) (o : Nat) (new : List Byte) : List Byte := l.take o ++ new ++ l.drop (o + new.length)

/-- The signed value of a 64-bit field plus an amount, as eight bytes. -/
def addCorrection (old : Nat) (add : Int) : List Byte := beBytes 8 ((((old : Int) + add) % 2 ^ 64).toNat)

/-- R28, R31: a PTP message with an amount added to its correctionField, and the UDP checksum absent. -/
def correctedBody (body : List Byte) (o : Nat) (udp : Option Nat) (add : Int) : List Byte :=
  let body := patch body (o + 8) (addCorrection (beAt body (o + 8) 8) add)
  match udp with
  | some u => patch body (u + 6) [0, 0]
  | none => body

/-- A PTP timestamp: seconds and nanoseconds of an instant (IEEE 1588; log entry 120). -/
def ptpStamp (t : Nat) : List Byte := beBytes 6 (t / sec 1) ++ beBytes 4 (t % sec 1 / nsUnit)

/-- R29: what peer-delay adds to a forwarded Sync of the configured domain: the delay of the ingress link and its asymmetry. -/
def State.linkPart (s : State) (f : List Byte) (o i : Nat) : Int :=
  if s.rdB Reg.TIME_CFG_DELAY_MECH && byteAt f o % 16 == 0 && byteAt f (o + 4) == s.rd Reg.TIME_CFG_DOMAIN then
    (s.portDelay i : Int) + signed 32 (s.rd (Reg.TIME_ASYM_ASYM i)) else 0

/-- R28 to R31, R44: a frame as the egress port sends it: an event message that came in gains its residence time, between its two
timestamps, and a one-step Sync of the device takes its egress timestamp as the origin. -/
def State.corrected (s : State) (k : Pkt) (egressAt : Nat) : List Byte :=
  match ptpAt k.bytes with
  | some (o, udp) =>
    if !ptpEvent k.bytes o then k.bytes
    else match k.ingress with
      | some (i, t0) =>
        let body := correctedBody (frameBody k.bytes) o udp ((egressAt : Int) - t0 + s.linkPart k.bytes o i)
        body ++ (if fcsKind k.bytes = .good then fcsOf body else stompedFcs body)
      | none =>
        if byteAt k.bytes o % 16 = 0 then
          let body := patch (correctedBody (frameBody k.bytes) o udp (egressAt % nsUnit : Nat)) (o + 34) (ptpStamp egressAt)
          body ++ fcsOf body
        else k.bytes
  | none => k.bytes

/-- R263: a pause that waits for the frame in transmission begins to count. -/
def State.startPause (s : State) (p : Nat) : State :=
  match (s.port p).pause with
  | some (q, none) => s.setPort p { s.port p with pause := some (q, some s.time.uptime) }
  | _ => s

/-- R259: an egress port ends the transmission of a frame that has been received whole. -/
def State.endTx (s : State) (p : Nat) (t : TxSt) : State :=
  match t.cut, t.pkt with
  | some f, _ => (s.cvuTapRest 2 p (s.tapOf f false)).setPort p { s.port p with tx := none }
  | none, none => (s.cvuTapRest 2 p (s.tapOf (s.pauseFrame t.quanta) true)).setPort p { s.port p with tx := none }
  | none, some id =>
    match s.pkt id with
    | none => s.setPort p { s.port p with tx := none }
    | some k =>
      if !k.whole then s else
        let f := s.corrected k t.start
        let s := s.cvuTapRest 2 p (s.tapOf f (fcsKind f = .good))
        let s := s.setPort p { s.port p with tx := none }
        s.updPkt id fun k => { k with sending := k.sending.erase p }

/-- R259, R263: the end of a transmission, at an instant. -/
def execTxFrameDone (at_ : Vt) (port : Fin 6) (s : State) : Host.Outcome State Fault Refusal :=
  let s := s.elapseTo at_
  .next (match (s.port port.val).tx with
    | some t =>
      let s := s.endTx port.val t
      if (s.port port.val).tx.isNone then s.startPause port.val else s
    | none => s)

/-- R259: a local consumer, the pixel parser or the control core, releases the oldest frame it holds. -/
def execCellRelease (core : Bool) (s : State) : Host.Outcome State Fault Refusal :=
  let h := if core then 2 else 1
  .next (match s.net.pkb.find? fun k => k.holder == h with
    | some k => s.updPkt k.id Pkt.release
    | none => s)

/-- R259: at a control-core restart the Rook frees every cell the control core holds. -/
def State.freeCoreCells (s : State) : State :=
  s.setPkb (s.net.pkb.map fun k => if k.holder = 2 then k.release else k)

/-- R261: each SEND port sends its PAUSE again after half the pause time while free cells stay below XON. -/
def execFlowControlPauseResend (port : Fin 6) (s : State) : Host.Outcome State Fault Refusal :=
  .next (if s.net.flow then s.queuePause (s.rd Reg.FWD_QUANTA_QUANTA) port.val else s)

/-! ## PAUSE received (R262, R263) -/

/-- R263: an honoured PAUSE. -/
def State.pauseRx (s : State) (p q : Nat) : State :=
  if !s.rdB (Reg.LINK_PAUSE_RX p) then s
  else if q = 0 then (s.setPort p { s.port p with pause := none }).wr (Reg.LINK_STAT_PAUSED p) 0
  else
    let was := s.isPaused p
    let from_ := if was || (s.port p).tx.isNone then some s.time.uptime else none
    let s := (s.setPort p { s.port p with pause := some (q, from_) }).wr (Reg.LINK_STAT_PAUSED p) 1
    if was then s else s.raise Ev.PAUSE_RX p

/-- LINK_PAUSE.REMAIN: quanta remaining. -/
def State.pauseRemain (s : State) (p : Nat) : Nat :=
  match (s.port p).pause with
  | none => 0
  | some (q, none) => q
  | some (q, some t) =>
    let all := q * s.quantum p
    let gone := s.time.uptime - t
    (all - gone + (s.quantum p - 1)) / max 1 (s.quantum p)

/-- R263: a port's pause time has run out at an instant. -/
def execPauseExpiry (at_ : Vt) (port : Fin 6) (s : State) : Host.Outcome State Fault Refusal :=
  let s := s.elapseTo at_
  let p := port.val
  .next (if s.isPaused p && s.pauseRemain p == 0 then
      (s.setPort p { s.port p with pause := none }).wr (Reg.LINK_STAT_PAUSED p) 0
    else s)

/-! ## LPI (R265 to R268) -/

/-- R267: the instant at which the LPI window that holds now ends, WIN_START to WIN_START + WIN_LEN after a grid point; none outside
every window. Of windows that overlap, the last counts. -/
def State.lpiWindow (s : State) (p : Nat) : Option Nat :=
  let start := usec (s.rd (Reg.LINK_EEE_WIN_WIN_START p))
  let g := gridPoint (gridEpoch s) (gridPeriod s) (gridIndexAtOrBefore s (s.now - start))
  let e := g.toNat + start + usec (s.rd (Reg.LINK_EEE_WIN_WIN_LEN p))
  if start ≤ s.now ∧ 0 ≤ g ∧ s.now < e then some e else none

/-- R267: a frame that the device originates on a schedule is due on the port within a span, as far as the state shows: an EVENT
move waits whose records leave there, or a delay request is to be sent (DEDUCED, log entry 123). -/
def State.scheduledWithin (s : State) (p span : Nat) : Bool :=
  (s.originPorts.contains p && s.moves.any fun e => e.2.action == 9 && decide (e.2.inst * nsUnit ≤ s.now + span)) ||
    (s.measuresDelay p && s.time.delayNext.any fun d => d.1 == p && decide (d.2 ≤ s.time.uptime + span))

/-- The port's queues are empty and no frame is in transmission. -/
def State.portQuiet (s : State) (p : Nat) : Bool :=
  (s.port p).tx.isNone && (s.port p).ownPause.isEmpty && !s.net.pkb.any fun k => k.egress.contains p

/-- R265: LPI is supported and enabled in the current mode (LINK_STAT.EEE_ACT). -/
def State.eeeAct (s : State) (p : Nat) : Bool := modeEee (s.linkMode p) && s.rdB (Reg.LINK_EEE_EN p)

/-- R267: a transmitter enters LPI at an instant. `due`: a frame the device originates on a schedule that the state does not show,
such as Sync and Announce, is due on the port within TW + GUARD µs. -/
def execLpiEnter (at_ : Vt) (port : Fin 6) (due : Bool) (s : State) : Host.Outcome State Fault Refusal :=
  let s := s.elapseTo at_
  let p := port.val
  let span := usec (s.rd (Reg.LINK_EEE_TW p) + s.rd (Reg.LINK_EEE_GUARD p))
  .next (if s.portUp p && s.eeeAct p && s.rd (Reg.LINK_EEE_TW p) != 0 && s.portQuiet p && !due && !s.scheduledWithin p span &&
      (match s.lpiWindow p with
        | some e => s.now + span ≤ e
        | none => false) then s.wr (Reg.LINK_STAT_LPI_TX p) 1
    else s)

/-- R267: a transmitter leaves LPI TW µs before the window ends, or before a scheduled frame is due (`due`). -/
def execLpiExit (at_ : Vt) (port : Fin 6) (due : Bool) (s : State) : Host.Outcome State Fault Refusal :=
  let s := s.elapseTo at_
  let p := port.val
  let tw := usec (s.rd (Reg.LINK_EEE_TW p))
  .next (if s.rdB (Reg.LINK_STAT_LPI_TX p) && (due || s.scheduledWithin p tw || (match s.lpiWindow p with
        | some e => e ≤ s.now + tw
        | none => true)) then
      (s.wr (Reg.LINK_STAT_LPI_TX p) 0).setPort p { s.port p with wakeAt := s.time.uptime + tw }
    else s)

/-- R268: a frame arrives for a port in LPI. -/
def execLpiWakeFrame (at_ : Vt) (port : Fin 6) (s : State) : Host.Outcome State Fault Refusal :=
  .next ((s.elapseTo at_).lpiWake port.val)

/-- R265: the partner enters or leaves LPI. -/
def execPartnerLpi (port : Fin 6) (enter : Bool) (s : State) : Host.Outcome State Fault Refusal :=
  .next (if s.portUp port.val && modeEee (s.linkMode port.val) then s.wrB (Reg.LINK_STAT_LPI_RX port.val) enter else s)

/-! ## Flow-control levels and the ledger (R257, R261) -/

/-- R261: RESERVE < XOFF < XON ≤ 2,048. -/
def levelsOk (reserve xoff xon : Nat) : Bool := reserve < xoff && xoff < xon && xon ≤ 2048

/-- R261: a write to FWD_CFG; a RESERVE that breaks the order is ignored with CFG_REJ. The topology decides the ring state. -/
def State.fwdCfgWrite (s : State) (w : Word) : State :=
  let reserve := bitsOf w 20 8
  let ok := levelsOk reserve (s.rd Reg.FWD_XOFF_XOFF) (s.rd Reg.FWD_XOFF_XON)
  let keep := s.rd Reg.FWD_CFG_RESERVE
  let s := s.setReg Reg.FWD_CFG_RESERVE.addr (w &&& 0x0FFFFF7F)
  let s := if ok then s else (s.wr Reg.FWD_CFG_RESERVE keep).setW1c Reg.FWD_STAT_CFG_REJ
  s.ringEval

/-- R261: a write to FWD_XOFF. -/
def State.fwdXoffWrite (s : State) (w : Word) : State :=
  if levelsOk (s.rd Reg.FWD_CFG_RESERVE) (bitsOf w 0 12) (bitsOf w 12 12) then
    (s.setReg Reg.FWD_XOFF_XOFF.addr (w &&& 0x00FFFFFF)).flowCheck
  else s.setW1c Reg.FWD_STAT_CFG_REJ

/-- R257: a write of 1 to FWD_LEDGER.SNAP. -/
def State.ledgerSnap (s : State) : State :=
  let s := (s.wr Reg.FWD_LEDGER_FREE s.freeCells).wr Reg.FWD_LEDGER_QUEUED s.queuedCells
  (s.wr Reg.FWD_LEDGER_LOCKED s.lockedCells).wr Reg.FWD_LEDGER_COUNT (s.rd Reg.FWD_LEDGER_COUNT + 1)

/-! ## Duplicate windows (R252 to R254) -/

/-- What the duplicate window says of a packet. -/
inductive DupOutcome where
  | accept | dup | old
  deriving DecidableEq, Repr

/-- The signed 32-bit serial difference a − b. -/
def serialDiff (a b : Word) : Int := (a - b).toInt

/-- R252, R254: the window's verdict on seq `q`, and the window after it; the third part says that it restarted. -/
def DupWin.test (w : DupWin) (q : Word) : DupOutcome × DupWin × Bool :=
  let diff := serialDiff q w.top
  if 0 < diff then
    (.accept, { w with bits := (w.bits <<< diff.toNat) ||| 1, top := q, old := 0 }, false)
  else if -64 < diff then
    let k := (-diff).toNat
    if w.bits.getLsbD k then (.dup, { w with old := 0 }, false)
    else (.accept, { w with bits := w.bits ||| ((1 : BitVec 64) <<< k), old := 0 }, false)
  else if w.old = 7 then (.accept, { w with top := q, bits := 1, old := 0 }, true)
  else (.old, { w with old := w.old + 1 }, false)

/-- R252 to R254: the duplicate test of one checked packet of the stream (src, cls, session). -/
def State.dupTest (s : State) (src cls session : Nat) (seq : Word) : DupOutcome × State :=
  if !s.rdB Reg.FWD_CFG_DEDUP then (.accept, s) else
    let mine := fun w : DupWin => w.src == src && w.cls == cls && w.session == session
    let fresh : DupWin := ⟨src, cls, session, seq - 1, 0, 0, 0⟩
    let found := s.net.wins.find? mine
    let rest := s.net.wins.filter fun w => !mine w
    let evict := found.isNone && rest.length = 1024
    let rest := if evict then rest.drop 1 else rest
    let (o, w, restarted) := (found.getD fresh).test seq
    let s := { s with net := { s.net with wins := rest ++ [{ w with last := s.time.uptime }] } }
    let s := if evict then s.bump Reg.FWD_CNT1_WIN_EVICT else s
    let s := if restarted then s.bump Reg.FWD_CNT0_RESTART else s
    (o, match o with
      | .accept => s
      | .dup => s.bumpWrap Reg.FWD_DUP_CNT_DUP
      | .old => s.bump Reg.FWD_CNT0_OLD)

/-- R253: windows unused for AGE ms at an instant are freed. -/
def execDupWindowAge (at_ : Vt) (s : State) : Host.Outcome State Fault Refusal :=
  let s := s.elapseTo at_
  let age := msec (max 100 (s.rd Reg.FWD_DUP_AGE))
  .next { s with net := { s.net with wins := s.net.wins.filter fun w => s.time.uptime < w.last + age } }

end Sys2Proof.Machine
end

