-- ==== Sys2Proof/Machine/SealFmt.lean ====
section
/-! DEFINITION. The format of a Seal and of a firmware image as bytes (R436, R437, R439, R440). -/
namespace Sys2Proof.Machine

/-- The little-endian field of `n` bytes at an offset. -/
def leAt (l : List Byte) (off n : Nat) : Nat := leNat (slice l off n)

/-- A number rounded up to a multiple of 4. -/
def pad4 (n : Nat) : Nat := (n + 3) / 4 * 4

/-- Table 16.6: the Seal's magic and format are right. -/
def sealMagicOk (img : List Byte) : Bool := leAt img 0 4 == 0x49165EA1 && leAt img 4 2 == 1

/-- Table 16.6: the header fields. -/
def sealFlags (img : List Byte) : Nat := leAt img 6 2
def sealSigned (img : List Byte) : Bool := bitAt (sealFlags img) 0
def sealAutoArm (img : List Byte) : Bool := bitAt (sealFlags img) 1
def sealLength (img : List Byte) : Nat := leAt img 8 4
def sealCrc (img : List Byte) : Nat := leAt img 12 4
def sealGeneration (img : List Byte) : Nat := leAt img 16 4
def sealVledMax (img : List Byte) : Nat := leAt img 24 2
def sealLinePeak (img : List Byte) : Nat := leAt img 26 2

/-- The length is in range and a multiple of 4, and the image holds it. -/
def sealLengthOk (img : List Byte) : Bool :=
  64 ≤ sealLength img && sealLength img ≤ 262144 && sealLength img % 4 == 0 && sealLength img ≤ img.length

/-- The CRC-32C over bytes 16 to length − 1. -/
def sealCrcOf (img : List Byte) : Nat := crcOf crc32c (slice img 16 (sealLength img - 16))

/-- R443: the image has the Seal's magic. -/
def sealMarked (img : List Byte) : Bool := leAt img 0 4 == 0x49165EA1

/-- R443: magic and CRC are right, the CRC over the bytes that the length names. -/
def sealIntact (img : List Byte) : Bool :=
  sealMarked img && 16 ≤ sealLength img && sealLength img ≤ img.length && sealCrc img == sealCrcOf img

/-- Where the sections end: at the signature, or at the end of the Seal. -/
def sealEnd (img : List Byte) : Nat := sealLength img - (if sealSigned img then 64 else 0)

/-- A section: its type, the offset of its header and its data. -/
structure Sec where
  typ : Nat
  off : Nat
  data : List Byte
  deriving DecidableEq, Repr

/-- Runs of a u32 offset, a u32 count and that many bytes (FCM); none when the data does not divide into runs. -/
def fcmRuns : Nat → List Byte → Option (List (Nat × List Byte))
  | 0, d => if d.isEmpty then some [] else none
  | k + 1, d =>
    if d.isEmpty then some []
    else if d.length < 8 + leAt d 4 4 ∨ d.length < 8 then none
    else (fcmRuns k (d.drop (8 + leAt d 4 4))).map fun r => (leAt d 0 4, slice d 8 (leAt d 4 4)) :: r

/-- Runs of a u16 first entry, a u16 n and n u16 emitters (MEMBERS). -/
def memberRuns : Nat → List Byte → Option (List (Nat × List Nat))
  | 0, d => if d.isEmpty then some [] else none
  | k + 1, d =>
    if d.isEmpty then some []
    else
      let n := leAt d 2 2
      if d.length < 4 + 2 * n ∨ d.length < 4 then none
      else (memberRuns k (d.drop (4 + 2 * n))).map fun r => (leAt d 0 2, (List.range n).map fun i => leAt d (4 + 2 * i) 2) :: r

/-- Entries of `n` bytes. -/
def entries (n : Nat) (d : List Byte) : List (List Byte) := (List.range (d.length / n)).map fun i => slice d (n * i) n

/-- Entries whose length divides the data and whose index byte names one of 64 (log entry 60). -/
def indexedOk (n : Nat) (d : List Byte) : Bool := d.length % n == 0 && (entries n d).all fun e => byteAt e 0 < 64

/-- R440: the data length is one the section's type can have. -/
def secLenOk (typ : Nat) (d : List Byte) : Bool :=
  match typ with
  | 1 => d.length % 8 == 0
  | 2 => (fcmRuns d.length d).isSome
  | 3 => indexedOk 24 d
  | 4 => indexedOk 516 d
  | 5 => indexedOk 8 d
  | 6 => match memberRuns d.length d with
    | some r => r.all fun (first, es) => first + es.length ≤ 10240
    | none => false
  | 7 => 301 ≤ d.length && d.length == 301 + 2 * byteAt d 300
  | 8 => d.length == 4352
  | 9 => d.length == 132
  | _ => false

/-- R440: the sections from an offset to the end; on the left the offset of the first that is wrong. -/
def parseSecs : Nat → List Byte → Nat → List Sec → Nat ⊕ List Sec
  | 0, img, off, acc => if off = sealEnd img then .inr acc else .inl off
  | k + 1, img, off, acc =>
    if off = sealEnd img then .inr acc
    else
      let typ := leAt img off 2
      let n := leAt img (off + 4) 4
      let d := slice img (off + 8) n
      if sealEnd img < off + 8 + pad4 n ∨ (acc.any fun x => x.typ == typ) ∨ secLenOk typ d = false then .inl off
      else parseSecs k img (off + 8 + pad4 n) (acc ++ [⟨typ, off, d⟩])

/-- The sections of a Seal in order. -/
def sealSecs (img : List Byte) : Nat ⊕ List Sec := parseSecs 10 img 32 []

/-- The section of a type. -/
def secOf (l : List Sec) (typ : Nat) : Option Sec := l.find? fun x => x.typ == typ

/-- The data of a section of an image; empty without one. -/
def sealData (img : List Byte) (typ : Nat) : List Byte :=
  match sealSecs img with
  | .inr l => match secOf l typ with
    | some x => x.data
    | none => []
  | .inl _ => []

/-- R439: the bytes a Seal's signature covers. -/
def sealSignedBytes (img : List Byte) : List Byte := slice img 0 12 ++ slice img 20 (sealLength img - 64 - 20)

/-- Key k of an image's KEYS section, when its mask holds it (Table 16.7). -/
def sealKey (img : List Byte) (k : Nat) : Option (List Byte) :=
  let d := sealData img 9
  if k < 4 ∧ bitAt (byteAt d 1) k then some (slice d (4 + 32 * k) 32) else none

/-- Key k of the armed Seal. -/
def State.armedKey (s : State) (k : Nat) : Option (List Byte) := s.store.armed.bind fun img => sealKey img k

end Sys2Proof.Machine
end

