-- ==== Sys2Proof/Machine/Sha.lean ====
section
/-! DEFINITION. The cryptography the manual names (R311, R436, R437, R439): SHA-256, HMAC-SHA-256 and ECDSA over P-256, as
the public standards give them (log entry 40: PRESUMED). -/
namespace Sys2Proof.Machine

/-! ## SHA-256 -/

/-- The round constants. -/
def shaK : List Word :=
  [0x428A2F98, 0x71374491, 0xB5C0FBCF, 0xE9B5DBA5, 0x3956C25B, 0x59F111F1, 0x923F82A4, 0xAB1C5ED5] ++
  [0xD807AA98, 0x12835B01, 0x243185BE, 0x550C7DC3, 0x72BE5D74, 0x80DEB1FE, 0x9BDC06A7, 0xC19BF174] ++
  [0xE49B69C1, 0xEFBE4786, 0x0FC19DC6, 0x240CA1CC, 0x2DE92C6F, 0x4A7484AA, 0x5CB0A9DC, 0x76F988DA] ++
  [0x983E5152, 0xA831C66D, 0xB00327C8, 0xBF597FC7, 0xC6E00BF3, 0xD5A79147, 0x06CA6351, 0x14292967] ++
  [0x27B70A85, 0x2E1B2138, 0x4D2C6DFC, 0x53380D13, 0x650A7354, 0x766A0ABB, 0x81C2C92E, 0x92722C85] ++
  [0xA2BFE8A1, 0xA81A664B, 0xC24B8B70, 0xC76C51A3, 0xD192E819, 0xD6990624, 0xF40E3585, 0x106AA070] ++
  [0x19A4C116, 0x1E376C08, 0x2748774C, 0x34B0BCB5, 0x391C0CB3, 0x4ED8AA4A, 0x5B9CCA4F, 0x682E6FF3] ++
  [0x748F82EE, 0x78A5636F, 0x84C87814, 0x8CC70208, 0x90BEFFFA, 0xA4506CEB, 0xBEF9A3F7, 0xC67178F2]

/-- The initial hash value. -/
def shaInit : List Word := [0x6A09E667, 0xBB67AE85, 0x3C6EF372, 0xA54FF53A, 0x510E527F, 0x9B05688C, 0x1F83D9AB, 0x5BE0CD19]

/-- Rotate right. -/
def rotr (x : Word) (n : Nat) : Word := x.rotateRight n

/-- The message schedule: 48 more words after the block's 16; `w` runs newest first. -/
def shaSchedule : Nat → List Word → List Word
  | 0, w => w.reverse
  | n + 1, w =>
    let g := fun i => w.getD i 0
    let a := g 14
    let b := g 1
    let s0 := rotr a 7 ^^^ rotr a 18 ^^^ (a >>> 3)
    let s1 := rotr b 17 ^^^ rotr b 19 ^^^ (b >>> 10)
    shaSchedule n ((g 15 + s0 + g 6 + s1) :: w)

/-- One round over the eight working variables. -/
def shaRound (v : List Word) (kw : Word × Word) : List Word :=
  match v with
  | [a, b, c, d, e, f, g, h] =>
    let t1 := h + (rotr e 6 ^^^ rotr e 11 ^^^ rotr e 25) + ((e &&& f) ^^^ (~~~e &&& g)) + kw.1 + kw.2
    let t2 := (rotr a 2 ^^^ rotr a 13 ^^^ rotr a 22) + ((a &&& b) ^^^ (a &&& c) ^^^ (b &&& c))
    [t1 + t2, a, b, c, d + t1, e, f, g]
  | _ => v

/-- One 64-byte block. -/
def shaBlock (h : List Word) (block : List Byte) : List Word :=
  let w := (List.range 16).map fun i => BitVec.ofNat 32 (beAt block (4 * i) 4)
  let v := (shaK.zip (shaSchedule 48 w.reverse)).foldl shaRound h
  (h.zip v).map fun (a, b) => a + b

/-- The padded message. -/
def shaPad (m : List Byte) : List Byte :=
  m ++ [0x80] ++ List.replicate ((119 - m.length % 64) % 64) 0 ++ beBytes 8 (8 * m.length)

/-- SHA-256 of a byte string. -/
def sha256 (m : List Byte) : List Byte :=
  let p := shaPad m
  let h := (List.range (p.length / 64)).foldl (fun h i => shaBlock h (slice p (64 * i) 64)) shaInit
  h.flatMap fun w => beBytes 4 w.toNat

/-- HMAC-SHA-256. -/
def hmacSha256 (key m : List Byte) : List Byte :=
  let k := if 64 < key.length then sha256 key else key
  let k := k ++ List.replicate (64 - k.length) 0
  sha256 (k.map (· ^^^ 0x5C) ++ sha256 (k.map (· ^^^ 0x36) ++ m))

/-! ## ECDSA over P-256 -/

/-- The field's prime, the group's order, the curve's b and its base point. -/
def ecP : Nat := 2 ^ 256 - 2 ^ 224 + 2 ^ 192 + 2 ^ 96 - 1
def ecN : Nat := 0xFFFFFFFF00000000FFFFFFFFFFFFFFFFBCE6FAADA7179E84F3B9CAC2FC632551
def ecB : Nat := 0x5AC635D8AA3A93E7B3EBBD55769886BC651D06B0CC53B0F63BCE3C3E27D2604B
def ecGx : Nat := 0x6B17D1F2E12C4247F8BCE6E563A440F277037D812DEB33A0F4A13945D898C296
def ecGy : Nat := 0x4FE342E2FE1A7F9B8EE7EB4A7C0F9E162BCE33576B315ECECBB6406837BF51F5

/-- A power modulo m, over the exponent's bits from the highest of `n`. -/
def powMod (m b e : Nat) (n : Nat) : Nat :=
  (List.range n).reverse.foldl (fun r i => if e.testBit i then r * r % m * b % m else r * r % m) 1

/-- The inverse modulo a prime. -/
def invMod (m a : Nat) : Nat := powMod m (a % m) (m - 2) 256

/-- The sum of two points of the curve; none is the point at infinity. -/
def ecAdd : Option (Nat × Nat) → Option (Nat × Nat) → Option (Nat × Nat)
  | none, q => q
  | p, none => p
  | some (x1, y1), some (x2, y2) =>
    let line (num den : Nat) : Option (Nat × Nat) :=
      let l := num * invMod ecP den % ecP
      let x := (l * l + 2 * ecP - x1 - x2) % ecP
      some (x, (l * (x1 + ecP - x) + ecP - y1) % ecP)
    if x1 = x2 then
      if (y1 + y2) % ecP = 0 then none else line (3 * x1 * x1 + ecP - 3) (2 * y1)
    else line (y2 + ecP - y1) (x2 + ecP - x1)

/-- A multiple of a point. -/
def ecMul (k : Nat) (p : Option (Nat × Nat)) : Option (Nat × Nat) :=
  (List.range 256).reverse.foldl (fun r i => let d := ecAdd r r; if k.testBit i then ecAdd d p else d) none

/-- The point lies on the curve. -/
def ecOn (x y : Nat) : Bool :=
  x < ecP && y < ecP && y * y % ecP == (x * x * x + (ecP - 3) * x + ecB) % ecP

/-- ECDSA P-256 over SHA-256: the 64-byte signature r, s of a message verifies with the 64-byte public key x, y. -/
def ecdsaOk (key sig m : List Byte) : Bool :=
  let x := beAt key 0 32
  let y := beAt key 32 32
  let r := beAt sig 0 32
  let t := beAt sig 32 32
  0 < r && r < ecN && 0 < t && t < ecN && ecOn x y &&
    let w := invMod ecN t
    match ecAdd (ecMul (beNat (sha256 m) * w % ecN) (some (ecGx, ecGy))) (ecMul (r * w % ecN) (some (x, y))) with
    | some (px, _) => px % ecN == r
    | none => false

end Sys2Proof.Machine
end

