-- ==== Sys2Proof/Machine/Klp.lean ====
section
/-! DEFINITION. The Kystan Link Protocol (chapter 10): sessions, HELLO, packets the device originates, events and census
reports. -/
namespace Sys2Proof.Machine

/-! ## Sessions (R302, R303, R310) -/

/-- The sum of the grants of open sessions. -/
def State.granted (s : State) : Nat := s.klp.sessions.foldl (fun n e => n + e.2.grant) 0

/-- The open session a full handle names. -/
def State.sessionAt (s : State) (h : Nat) : Option Session :=
  (s.resolve 1 h).bind fun i => tabFind s.klp.sessions i

/-- Change an open session. -/
def State.setSession (s : State) (i : Nat) (x : Session) : State :=
  { s with klp := { s.klp with sessions := tabPut i x s.klp.sessions } }

/-- Change the session a full handle names, when it is open. -/
def State.updSession (s : State) (h : Nat) (f : Session → Session) : State :=
  match s.sessionAt h with
  | some x => s.setSession (h % 65536) (f x)
  | none => s

/-- The command came in this session. -/
def Origin.inSession (h : Nat) : Origin → Bool
  | .klp g _ _ _ _ => g == h
  | _ => false

/-- R303: close the session at an index. Its stream of REPLYs goes on with the refusals that carry its handle (R290). -/
def State.closeSession (s : State) (i : Nat) : State :=
  match tabFind s.klp.sessions i with
  | none => s
  | some x =>
    let h := s.handle 1 i
    let dead := (s.klp.subs.filter fun (e : Nat × Sub) => e.2.session == h).map (·.1)
    let s := dead.foldl (fun s b => { s with klp := { s.klp with subs := tabDrop s.klp.subs b } }.advanceGen 8 b) s
    { s with
      cmd := { s.cmd with parked := s.cmd.parked.filter fun (p : Parked) => !p.origin.inSession h }
      klp := { s.klp with
        sessions := tabDrop s.klp.sessions i
        out := s.klp.out.filter fun m => m.session != some h
        timed := s.klp.timed.filter fun t => !t.origin.inSession h
        streams := ((s.rd Reg.FWD_ADDR_NODE, 3, h), x.seqReply) :: s.klp.streams.filter fun e => e.1 != (s.rd Reg.FWD_ADDR_NODE, 3, h) } }.advanceGen 1 i

/-- Every session closes (R303, R475). -/
def State.closeSessions (s : State) : State := (s.klp.sessions.map (·.1)).foldl State.closeSession s

/-- R304: while the control core is down the idle timers stand still. -/
def State.idleNow (s : State) : Nat := s.rook.downAt.getD s.time.uptime

/-- FWD_SES_s.IDLE_S: whole seconds since the partner's last COMMAND or HELLO, saturating. -/
def State.idleS (s : State) (x : Session) : Nat := min 65535 ((s.idleNow - x.heard) / sec 1)

/-- R303: a COMMAND or HELLO from a node: the idle time of every session of which it is the partner starts anew. -/
def State.hearPartner (s : State) (src : Nat) : State :=
  { s with klp := { s.klp with sessions := s.klp.sessions.map fun (e : Nat × Session) =>
      (e.1, if e.2.partner = src then { e.2 with heard := s.idleNow } else e.2) } }

/-- R303: a session whose partner has been silent for SES_TMO seconds closes. -/
def execSessionIdleTimeout (at_ : Vt) (n : Fin 32) (s : State) : Host.Outcome State Fault Refusal :=
  let s := s.elapseTo at_
  .next (match tabFind s.klp.sessions n.val with
    | some x =>
      let tmo := s.rd Reg.FWD_KLP_CFG_SES_TMO
      if tmo ≠ 0 ∧ sec tmo ≤ s.idleNow - x.heard then s.closeSession n.val else s
    | none => s)

/-- R310, R327: a CREDIT command sets a new grant within what the pool can give; AVAIL stays 0 while more are outstanding. The
grant of a 2.0 session is fixed (Table 10.6). -/
def State.setGrant (s : State) (h want : Nat) : Nat × State :=
  match s.sessionAt h with
  | some x =>
    let g := if x.verMaj = 2 then x.grant else min want (x.grant + (128 - s.granted))
    (g, s.setSession (h % 65536) { x with grant := g, avail := g - x.outst })
  | none => (0, s)

/-- R309: an accepted command consumes one credit. -/
def Session.take (x : Session) : Session := { x with avail := x.avail - 1, outst := x.outst + 1 }

/-- R309, R310: a credit returns, or is retired while more are outstanding than granted. -/
def Session.giveBack (x : Session) : Session :=
  let out := x.outst - 1
  { x with outst := out, avail := if x.avail + out < x.grant then x.avail + 1 else x.avail }

/-! ## Packets the device originates (R284, R290) -/

/-- The one's-complement checksum of a byte string of even length. -/
def inetSum (b : List Byte) : Nat :=
  let total := (List.range (b.length / 2)).foldl (fun acc i => acc + beAt b (2 * i) 2) 0
  let fold := total % 65536 + total / 65536
  65535 - (fold % 65536 + fold / 65536)

/-- The EtherType of IPv4 and the IPv4 header of a UDP datagram of `len` bytes. The manual leaves TOS, identification, DF and TTL
open: free values (log entry 10). -/
def State.ipHead (s : State) (ip len : Nat) : List Byte × State :=
  let (v, s) := s.draw
  let ip0 := [0x45, BitVec.ofNat 8 v] ++ beBytes 2 (len + 20) ++ beBytes 2 (v / 2 ^ 8) ++
    beBytes 2 (v / 2 ^ 24 % 2 * 0x4000) ++ [BitVec.ofNat 8 (v / 2 ^ 25), 17]
  let addrs := beBytes 4 (s.rd Reg.FWD_IP_ADDR) ++ beBytes 4 ip
  ([0x08, 0x00] ++ ip0 ++ beBytes 2 (inetSum (ip0 ++ addrs)) ++ addrs, s)

/-- R284: the IPv4 and UDP headers before a packet. -/
def State.udpHead (s : State) (ip port : Nat) (packet : List Byte) : List Byte × State :=
  let len := packet.length + 8
  let (head, s) := s.ipHead ip len
  let udp0 := beBytes 2 (s.rd Reg.FWD_KLP_TYPE_UDP_PORT) ++ beBytes 2 port ++ beBytes 2 len
  let addrs := beBytes 4 (s.rd Reg.FWD_IP_ADDR) ++ beBytes 4 ip
  let data := addrs ++ [0, 17] ++ beBytes 2 len ++ udp0 ++ packet ++ (if packet.length % 2 = 1 then [0] else [])
  let sum := inetSum data
  (head ++ udp0 ++ beBytes 2 (if sum = 0 then 0xFFFF else sum), s)

/-- R284: the device may send a KLP packet to these addresses: NODE is set, and over UDP its IPv4 address too. -/
def State.canSend (s : State) (peer : ReplyTo) : Bool :=
  s.rd Reg.FWD_ADDR_NODE != 0 && (peer.udp.isNone || s.rd Reg.FWD_IP_ADDR != 0)

/-- R284: originate a KLP packet to the given addresses. -/
def State.sendKlp (s : State) (peer : ReplyTo) (h : KlpHdr) (body : List Byte) : State :=
  let p := klpPacket { h with src := s.rd Reg.FWD_ADDR_NODE, dst := peer.node } body
  let (head, s) : List Byte × State := match peer.udp with
    | some (ip, port) => s.udpHead ip port p
    | none => (beBytes 2 (s.rd Reg.FWD_KLP_TYPE_ETHERTYPE), s)
  s.originate (s.etherHead peer.mac ++ head ++ p) 2

/-- VT now in whole nanoseconds. -/
def State.nowNs (s : State) : Nat := s.now / nsUnit

/-- The header of a packet the device sends; addresses and checks are filled in on sending. -/
def outHdr (verMaj verMin cls seq session when_ frame : Nat) : KlpHdr :=
  ⟨verMaj, verMin, cls, 0, 0, 0, seq, session, when_, 0, 0, frame⟩

/-- R290: the number of an answer outside every open session in its stream, which the node, the class and the session field
name (R290). Consecutive numbers; the first of a stream that no session opened is a free value (log entry 10). -/
def State.streamSeq (s : State) (m : OutMsg) : Nat × State :=
  let key : Nat × Nat × Nat := (s.rd Reg.FWD_ADDR_NODE, m.cls, m.handle)
  let (v, t) : Nat × State := match s.klp.streams.lookup key with
    | some v => (v, s)
    | none => s.draw
  (v, if s.canSend m.peer then
    { t with klp := { t.klp with streams := (key, v + 1) :: t.klp.streams.filter fun e => e.1 != key } } else t)

/-- R290: the session whose stream numbers an answer: its own, and for a REPLY without one the open session that its session field names. -/
def State.streamOf (s : State) (m : OutMsg) : Option Nat :=
  if m.session.isNone && m.cls == 3 && (s.sessionAt m.handle).isSome then some m.handle else m.session

/-- R290, R309: an answer leaves: its number in its stream, and the credit it returns. -/
def State.sendOut (s : State) (m : OutMsg) : State :=
  let of_ := s.streamOf m
  let (seq, s) : Nat × State := match of_.bind s.sessionAt with
    | some x => (if m.cls = 3 then x.seqReply else 0, s)
    | none => s.streamSeq m
  let when_ := if m.cls = 7 then s.nowNs else m.when_
  let s := if s.canSend m.peer then s.sendKlp m.peer (outHdr m.verMaj m.verMin m.cls seq m.handle when_ m.tag) m.payload else s
  match of_ with
  | some h => s.updSession h fun (x : Session) =>
      let x := if m.cls = 3 && s.canSend m.peer then { x with seqReply := x.seqReply + 1 } else x
      if m.credit then x.giveBack else x
  | none => s

/-- An answer waits for transmission. -/
def State.queueOut (s : State) (m : OutMsg) : State := { s with klp := { s.klp with out := s.klp.out ++ [m] } }

/-- The REPLY of a command: opcode echo, status and data (R305). -/
def replyBody (op : Nat) (st : Status) (data : List Byte) : List Byte := beBytes 2 op ++ beBytes 2 st.code ++ data

/-- A transport refusal of a COMMAND (R302, R294, R296, R311): without a credit, in the stream and under the handle of the session
it is bound to (R289, R290), else outside every session, with the session field it carried. -/
def State.refuseCommand (s : State) (peer : ReplyTo) (session : Option Nat) (field tag op : Nat) (st : Status) : State :=
  let ver : Nat × Nat := match session.bind s.sessionAt with
    | some x => if st = Status.eVersion then (3, 1) else (x.verMaj, x.verMin)
    | none => (3, 1)
  s.queueOut ⟨session, ver.1, ver.2, 3, session.getD field, tag, s.nowNs, st, replyBody op st [], peer, false, .nothing⟩

/-! ## HELLO (R297 to R302) -/

/-- R299: the session version: the highest of 2.0, 3.0 and 3.1 in the range. -/
def helloVersion (lo hi : Nat × Nat) : Option (Nat × Nat) :=
  [((3, 1) : Nat × Nat), (3, 0), (2, 0)].find? fun v =>
    decide (lo.1 * 256 + lo.2 ≤ v.1 * 256 + v.2) && decide (v.1 * 256 + v.2 ≤ hi.1 * 256 + hi.2)

/-- Table 10.6: the capability bits a session version allows. -/
def versionCaps (v : Nat × Nat) : Nat := if v = (2, 0) then 0x30 else if v = (3, 0) then 0x37 else 0x3F

/-- R300: the capability bits of the device. -/
def State.deviceCaps (s : State) : Nat :=
  0x0F + (if s.rdB Reg.FWD_KLP_CFG_UDP_EN then 0x10 else 0) + (if 1518 < s.mtu then 0x20 else 0)

/-- SYS_UID. -/
def State.uid (s : State) : Nat := s.rd Reg.SYS_UID_UID_HI * 2 ^ 32 + s.rd Reg.SYS_UID_UID_LO

/-- The answer of Table 10.7. -/
def helloPayload (key : Nat) (st : Status) (lo hi : Nat × Nat) (index credits handle caps uid nonce : Nat) : List Byte :=
  [2, BitVec.ofNat 8 key] ++ beBytes 2 st.code ++ beBytes 1 lo.1 ++ beBytes 1 lo.2 ++ beBytes 1 hi.1 ++ beBytes 1 hi.2 ++
    beBytes 2 index ++ beBytes 2 credits ++ beBytes 4 handle ++ beBytes 8 caps ++ beBytes 8 uid ++ beBytes 8 nonce

/-- R301: a refused HELLO request. -/
def State.helloRefuse (s : State) (peer : ReplyTo) (tag index : Nat) (st : Status) : State :=
  s.queueOut ⟨none, 3, 1, 7, 0, tag, s.nowNs, st,
    helloPayload 0xFF st (2, 0) (3, 1) index 0 0 0 s.uid 0, peer, false, .nothing⟩

/-- R311, R313: a failed authentication is reported and counted. -/
def State.authFail (s : State) (src : Nat) : State := (s.raise Ev.AUTH_FAIL src).bump Reg.FWD_KLP_CNT1_AUTH

/-- SYS_STATE.STATE. -/
def State.devState (s : State) : Nat := s.rd Reg.SYS_STATE_STATE

/-- R438: RECOVERY. -/
def State.inRecovery (s : State) : Bool := s.devState == 7

/-- The key a request brings in force: one of the armed Seal, in a 3.x session and outside RECOVERY (R313, R438). -/
def State.helloKey (s : State) (key : Nat) (v : Nat × Nat) : Option Nat :=
  if s.inRecovery || v.1 = 2 || (s.armedKey key).isNone then none else some key

/-- R301: the index held by a session of another partner, and one held by this partner. -/
def State.heldByOther (s : State) (index src : Nat) : Bool :=
  match tabFind s.klp.sessions index with
  | some x => x.partner != src
  | none => false

def State.heldByOwn (s : State) (index src : Nat) : Bool :=
  match tabFind s.klp.sessions index with
  | some x => x.partner == src
  | none => false

/-- R301: the first status that refuses a request, once a common version is known; R302 closes a session of the sender at the
requested index first, so that its place and its grant are free. -/
def State.helloStatus (s : State) (src key index : Nat) (v : Nat × Nat) : Option Status :=
  let t := if s.heldByOwn index src then s.closeSession index else s
  if (32 ≤ index && index != 0xFFFF) || (4 ≤ key && key != 0xFF) then some .eParam
  else if s.rdB Reg.FWD_KLP_CFG_AUTH_REQ && !s.inRecovery && (s.helloKey key v).isNone then some .eAuth
  else if index != 0xFFFF && s.heldByOther index src then some .eState
  else if 32 ≤ t.klp.sessions.length || 128 ≤ t.granted then some .eNoSpace
  else none

/-- R300: open a session and answer. -/
def State.helloOpen (s : State) (peer : ReplyTo) (tag key index credits caps : Nat) (v : Nat × Nat) : State :=
  let s := if s.heldByOwn index peer.node then s.closeSession index else s
  let i := if index = 0xFFFF then (s.freeIndex 1).getD 0 else index
  let k := s.helloKey key v
  let nonce : BitVec 64 := if k.isSome then Config.nonce s.free else 0
  let s := if k.isSome then { s with free := s.free + 1 } else s
  let ask := if v.1 = 2 || credits = 0 then 8 else credits
  let grant := min (min ask 32) (128 - s.granted)
  let caps := caps &&& versionCaps v &&& s.deviceCaps
  let h := s.handle 1 i
  let s := s.setSession i ⟨peer.node, v.1, v.2, k, nonce, caps, peer, grant, grant, 0, s.time.uptime, none, 0, 0, 0, 0⟩
  s.queueOut ⟨some h, 3, 1, 7, h, tag, s.nowNs, .ok,
    helloPayload (k.getD 0xFF) .ok v v i grant h caps s.uid nonce.toNat, peer, false, .nothing⟩

/-- R298, R300, R301, R304: a HELLO packet delivered to the device. -/
def State.helloRx (s : State) (peer : ReplyTo) (tag : Nat) (p : List Byte) : State :=
  let index := if 10 ≤ p.length then beAt p 8 2 else 0xFFFF
  let key := byteAt p 1
  if p.isEmpty || byteAt p 0 ≠ 1 || s.devState ≤ 1 then s
  else if s.coreDown then s.helloRefuse peer tag index .eBusy
  else if p.length < 40 then s.helloRefuse peer tag index .eParam
  else match helloVersion (byteAt p 4, byteAt p 5) (byteAt p 6, byteAt p 7) with
    | none => s.helloRefuse peer tag index .eVersion
    | some v => match s.helloStatus peer.node key index v with
      | some .eAuth => (s.authFail peer.node).helloRefuse peer tag index .eAuth
      | some st => s.helloRefuse peer tag index st
      | none => s.helloOpen peer tag key index (beAt p 10 2) (beAt p 16 8) v

/-- R300: a HELLO request of a partner: its node, its addresses (over UDP its IPv4 address and port), the frame field and the
payload. -/
def execHello (at_ : Vt) (src : BitVec 12) (mac : BitVec 48) (udp : Option (Nat × Nat)) (tag : Word) (payload : List Byte)
    (s : State) : Host.Outcome State Fault Refusal :=
  .next (((s.elapseTo at_).hearPartner src.toNat).helloRx ⟨src.toNat, mac.toNat, udp⟩ tag.toNat payload)

/-! ## TIME packets (R314) -/

/-- R56: a FOLLOW announcement of grid point and period: the shadows are written, and the castling point applies them. -/
def State.followTake (s : State) (p : List Byte) : State :=
  let e := beAt p 4 8 * nsUnit + beAt p 2 2
  let t := beAt p 12 4 * nsUnit + beAt p 16 2
  let s := (s.hwWrSh Reg.TIME_GRID_EPOCH_EPOCH_LO (e / nsUnit)).hwWrSh Reg.TIME_GRID_EPOCH_EPOCH_HI (e / nsUnit / 2 ^ 32)
  let s := s.hwWrSh Reg.TIME_GRID_EPOCH_FRAC_FRAC e
  let s := (s.hwWrSh Reg.TIME_GRID_PERIOD_NS (t / nsUnit)).hwWrSh Reg.TIME_GRID_PERIOD_FRAC t
  { s with time := { s.time with followDue := some (e, t) } }

/-- The coming castling point: of the frame in progress, in blanking of the next one, and now while the scan engine is idle. -/
def State.castlingNext (s : State) : Nat :=
  if s.idle then s.now
  else if s.scan.inBlank then s.nextGrid s.now + gclkTime s s.geom.tAct
  else s.castlingAt

/-- Table 2.3: a FOLLOW announcement that the device ignores: its period lies outside the effective minimum to FRAME_MAX, or its
grid point less than T_VB_MIN after the coming castling point. -/
def State.followBad (s : State) (p : List Byte) : Bool :=
  let e := beAt p 4 8 * nsUnit + beAt p 2 2
  let t := beAt p 12 4 * nsUnit + beAt p 16 2
  !(decide (s.effMin ≤ t) && decide (t ≤ s.effMax)) || decide (e < s.castlingNext + s.tVbMin)

/-- R300, R314: whether an announcement is of the followed session, and whether that session has its TIME packets ignored. -/
def State.timeRx (s : State) (verMaj session : Nat) (p : List Byte) : State :=
  if verMaj ≠ 3 || byteAt p 0 ≠ 1 || p.length < 20 || !s.powered 2 then s
  else match s.sessionAt session with
    | some x =>
      if !bitAt x.caps 2 then s
      else if s.rd Reg.SCAN_MODE_MODE = 2 ∧ session = s.time.followHandle ∧ !s.followBad p then s.followTake p
      else s.bump Reg.TIME_CNT_FOLLOW_REJ
    | none => s.bump Reg.TIME_CNT_FOLLOW_REJ

/-- R314: a TIME packet: its major version, session field and payload. -/
def execTimePacket (verMaj : BitVec 8) (session : Word) (payload : List Byte) (s : State) : Host.Outcome State Fault Refusal :=
  .next (s.timeRx verMaj.toNat session.toNat payload)

/-! ## Events (R315, R487) -/

/-- Table 10.9: a record, 8 bytes long in a 2.0 session. -/
def EvRec.bytes (r : EvRec) (short : Bool) : List Byte :=
  beBytes 1 r.event ++ beBytes 1 ((if r.move then 1 else 0) + (if r.loss then 2 else 0)) ++ beBytes 2 r.number ++
    beBytes 4 r.data ++ (if short then [] else beBytes 8 r.vt)

/-- R315: the queued records of a subscription leave in one packet; the Rook holds them while the control core is down. -/
def State.deliverEvents (s : State) (i : Nat) : State :=
  match tabFind s.klp.subs i with
  | none => s
  | some b => match s.sessionAt b.session with
    | none => s
    | some x =>
      if s.coreDown || b.queue.isEmpty || !s.powered 0 || !s.canSend x.peer then s else
        let body := beBytes 2 b.queue.length ++ [0, 0] ++ b.queue.flatMap fun r => r.bytes (x.verMaj == 2)
        let s := { s with klp := { s.klp with subs := tabPut i { b with queue := [] } s.klp.subs } }
        let s := s.sendKlp x.peer (outHdr x.verMaj x.verMin 4 x.seqEvent b.session s.nowNs (s.handle 8 i)) body
        s.updSession b.session fun (x : Session) => { x with seqEvent := x.seqEvent + 1 }

/-- R315: the records of a subscription are sent within 1 ms of their raising. -/
def execEventDelivery (at_ : Vt) (sub : Fin 128) (s : State) : Host.Outcome State Fault Refusal :=
  .next ((s.elapseTo at_).deliverEvents sub.val)

/-! ## Census reports (R215, R316) -/

/-- Table 10.10: the header of a CENSUS payload. -/
def censusHead (kind part parts value frame : Nat) : List Byte :=
  beBytes 1 kind ++ [0] ++ beBytes 2 part ++ beBytes 2 parts ++ beBytes 2 value ++ beBytes 4 frame

/-- One CENSUS packet to a session. -/
def State.sendCensus (s : State) (i frame : Nat) (body : List Byte) : State :=
  match tabFind s.klp.sessions i with
  | some x =>
    if !s.canSend x.peer then s else
      let s := s.sendKlp x.peer (outHdr x.verMaj x.verMin 6 x.seqCensus (s.handle 1 i) s.nowNs frame) body
      s.updSession (s.handle 1 i) fun (x : Session) => { x with seqCensus := x.seqCensus + 1 }
  | none => s

/-- A word of the census map, as a KLP field. -/
def State.mapWord (s : State) (j : Nat) : List Byte := beBytes 4 (s.fcm32 (fcmCensus + 4 * j))

/-- R316: the MAP report in 12 parts of 256 words. -/
def State.sendMap (s : State) (i : Nat) : State :=
  (List.range 12).foldl (fun s p =>
    s.sendCensus i s.census.sweepFrame (censusHead 1 p 12 (s.rd Reg.CENSUS_STAT_SWEEP_MISSED) s.census.sweepFrame ++
      (List.range 256).flatMap fun j => s.mapWord (256 * p + j))) s

/-- The parts of a list, at most `n` of its elements in each. -/
def chunks {α : Type} (n : Nat) (l : List α) : List (List α) :=
  (List.range ((l.length + n - 1) / n)).map fun k => (l.drop (n * k)).take n

/-- R316: the CHANGES report of one frame, at most 256 records in a part. -/
def State.sendChanges (s : State) (frame : Nat) (l : List MapChange) (i : Nat) : State :=
  let parts := chunks 256 l
  (parts.zip (List.range parts.length)).foldl (fun s (c, p) =>
    s.sendCensus i frame (censusHead 2 p parts.length c.length frame ++
      c.flatMap fun m => beBytes 2 m.emitter ++ beBytes 1 m.old ++ beBytes 1 m.new)) s

/-- The sessions that take a kind of report: 0 MAP, 1 CHANGES (R297, R300). -/
def State.censusTakers (s : State) (kind : Nat) : List Nat :=
  (s.klp.sessions.filter fun (e : Nat × Session) => bitAt e.2.census kind && (kind == 0 || bitAt e.2.caps 3)).map (·.1)

/-- The oldest frame with changes to report that has ended and whose observations have all been applied: no more changes of it
can follow. -/
def State.changedFrame (s : State) : Option MapChange :=
  s.census.changes.find? fun c => decide (c.frame < s.census.frameNo) && !s.waiting.any (·.frame == c.frame)

/-- R215: after a sweep the whole map, and once for each frame the list of its changes, go to the subscribed sessions. Firmware
sends them at Floor 3. -/
def State.censusReport (s : State) : State :=
  if s.floor != 3 then s else
    let s := if s.census.sweepReport then
        { ((s.censusTakers 0).foldl State.sendMap s) with census := { s.census with sweepReport := false } }
      else s
    match s.changedFrame with
    | none => s
    | some m =>
      let mine := s.census.changes.filter (·.frame == m.frame)
      let s := (s.censusTakers 1).foldl (State.sendChanges · m.shown mine) s
      { s with census := { s.census with changes := s.census.changes.filter (·.frame != m.frame) } }

/-- R215: firmware sends the CENSUS packets that are due. -/
def execCensusReport (at_ : Vt) (s : State) : Host.Outcome State Fault Refusal := .next (s.elapseTo at_).censusReport

end Sys2Proof.Machine
end

