-- ==== Sys2Proof/Machine/Moves.lean ====
section
/-! DEFINITION. The move table (R61 to R70). -/
namespace Sys2Proof.Machine

/-- R61: action codes 0 and 0x0A to 0xFF are refused. -/
def moveActionOk (a : Nat) : Bool := 1 ≤ a && a ≤ 9

/-- R65: the lateness of a move, in 2^-16 ns. -/
def State.lateness (s : State) (inst : Nat) : Int := (s.now : Int) - inst * nsUnit

/-- MOVE_CFG.LATE_LIMIT in 2^-16 ns. -/
def State.lateLimit (s : State) : Nat := usec (s.rd Reg.MOVE_CFG_LATE_LIMIT)

/-- Table 2.5: what a move does when it runs, for a local instant. -/
def State.moveAct (s : State) (m : Move) (inst : Nat) : State :=
  let arg := m.arg.toNat
  match m.action.toNat with
  | 1 => s.flip m.arg
  | 2 => s.castleCommit arg
  | 3 => s.pawnsGo (arg % 256)
  | 4 => s.motifStep (arg % 256)
  | 5 => s.spwmUpdate inst (arg % 256)
  | 6 => s.pinMove m.arg true
  | 7 => s.pinMove m.arg false
  | 8 => s.cvuSnap (arg % 256)
  | 9 => s.raiseAs true (arg % 64) (arg / 256)
  | _ => s

/-- R65: a late move runs at once; `idx` is its entry, 0xFFFF without one. -/
def State.moveRunLate (s : State) (m : Move) (idx : Nat) : State :=
  ((s.raise Ev.MOVE_LATE (m.action.toNat + idx * 65536)).bump Reg.MOVE_CNT_LATE_CNT).moveAct m s.time.uptime

/-- R65: a move too late is dropped. -/
def State.moveDrop (s : State) (m : Move) (idx : Nat) : State :=
  (s.raise Ev.MOVE_DROP (m.action.toNat + idx * 65536)).bump Reg.MOVE_CNT_DROP_CNT

/-- R68: an entry is freed and its handle generation advanced. -/
def State.moveFree (s : State) (i : Nat) : State := { s with moves := tabDrop s.moves i }.advanceGen 6 i

/-- R65 to R67: the table takes a move of a valid action, runs or drops it, or refuses it. A waiting move takes the lowest free
entry (DESIGN CHOICE, log entry 106). The result is the status, the handle and the state. -/
def State.moveAdd (s : State) (m : Move) : Status × Nat × State :=
  let l := s.lateness m.inst
  if l ≤ 0 then
    match s.freeIndex 6 with
    | some i => (.ok, s.handle 6 i, { s with moves := tabPut i m s.moves })
    | none => (.eNoSpace, 0, (s.raise Ev.MOVE_FULL m.action.toNat).bump Reg.MOVE_CNT_FULL_CNT)
  else if l < s.lateLimit then (.ok, 0, s.moveRunLate m 0xFFFF)
  else (.eLate, 0, s.moveDrop m 0xFFFF)

/-- Table 2.5: the instant at which a waiting move acts: now where a step has passed over it, for a CASTLE move the first line-slot
boundary at or after its own (R126), for an SPWM_UPDATE move its own, else the first SYS cycle at or after it. -/
def State.moveActsAt (s : State) (m : Move) : Nat :=
  if m.passed then s.now else if m.action = 2 then s.slotBoundary (m.inst * nsUnit)
  else if m.action = 5 then m.inst * nsUnit else cycleAt (m.inst * nsUnit)

/-- The order in which moves that fall due together act: by SYS cycle, in a cycle a PIN_CLEAR last (R64), then by instant and by
entry. -/
def State.moveKey (s : State) (e : Nat × Move) : List Nat :=
  [(s.moveActsAt e.2 + sysCycle - 1) / sysCycle, if e.2.action = 7 then 1 else 0, e.2.inst, e.1]

/-- An entry put in its place among entries that stand in order. -/
def State.insertMove (s : State) (e : Nat × Move) : List (Nat × Move) → List (Nat × Move)
  | [] => [e]
  | f :: t => if listLt (s.moveKey e) (s.moveKey f) then e :: f :: t else f :: s.insertMove e t

/-- R65, R69: one examination of a move: one whose instant time has reached runs on time; one that a step has passed over is
examined with its new lateness. -/
def State.moveExamine (s : State) (e : Nat × Move) : State :=
  let late := s.lateness e.2.inst
  if !e.2.passed then (s.moveFree e.1).moveAct e.2 (s.time.uptime - (s.now - e.2.inst * nsUnit))
  else if late ≤ 0 then { s with moves := tabPut e.1 { e.2 with passed := false } s.moves }
  else if late < s.lateLimit then (s.moveFree e.1).moveRunLate e.2 e.1
  else (s.moveFree e.1).moveDrop e.2 e.1

/-- R64: the examination of a move whose SYS cycle may be another than that of the examination before it: the PIN_CLEARs of that cycle
prevail over its own PIN_SETs only. -/
def State.moveTurn (acc : Nat × State) (e : Nat × Move) : Nat × State :=
  let c := acc.2.moveActsAt e.2 / sysCycle
  let s := if c = acc.1 then acc.2 else { acc.2 with cycle := { acc.2.cycle with pinsClr := 0 } }
  (c, s.moveExamine e)

/-- R64, R65, R69: every waiting move whose instant has come, or has been passed over, is examined. -/
def State.movesDue (s : State) : State :=
  (((s.moves.filter fun e => s.moveActsAt e.2 ≤ s.now).foldr s.insertMove []).foldl State.moveTurn (s.now / sysCycle, s)).2

/-- R68: cancel the move a handle names; one that is due now runs. -/
def State.moveCancel (s : State) (h : Nat) : Status × State :=
  let s := s.movesDue
  match s.resolve 6 h with
  | some i => (.ok, s.moveFree i)
  | none => (.eHandle, s)

/-- R65: moves fall due at an instant. -/
def execMoveDue (at_ : Vt) (s : State) : Host.Outcome State Fault Refusal := .next (s.elapseTo at_).movesDue

/-- A boundary of unit n at an instant (R376, R380). The moves that are due act before it (Table 2.5). -/
def execSpwmBoundary (at_ : Vt) (n : Fin 8) (s : State) : Host.Outcome State Fault Refusal :=
  .next (let s := (s.elapseTo at_).movesDue
    if s.swRuns n.val then (s.swTripCheck n.val).swAtBoundary n.val else s)

/-- A midpoint of unit n at an instant (R376, R377, R383): only a CENTRE unit has one that acts. -/
def execSpwmMidpoint (at_ : Vt) (n : Fin 8) (s : State) : Host.Outcome State Fault Refusal :=
  .next (let s := (s.elapseTo at_).movesDue
    if s.swRuns n.val && s.swMidDue n.val then
      let s := s.swTripCheck n.val
      let s := s.setSw n.val { s.sw n.val with midDone := true }
      if s.swMidTransfers n.val then s.swInner n.val (s.swP n.val / 2) true true else s
    else s)

/-- R70: loss of PIX discards every move and advances every generation. -/
def State.movesLost (s : State) : State :=
  (List.range 256).foldl (fun s i => s.advanceGen 6 i) { s with moves := [] }

/-- The result words of MOVE_NEW. -/
def State.moveNewResult (s : State) (st : Status) (h : Option Nat) : State :=
  let s := (s.wr Reg.MOVE_NEW_STATUS st.code).wr Reg.MOVE_NEW_DONE 1
  match h with
  | some h => s.wr Reg.MOVE_NEW_HANDLE h
  | none => s

/-- R65: a write of 1 to MOVE_NEW.ADD adds the staged move. -/
def State.moveNewAdd (s : State) : State :=
  let act := s.rd Reg.MOVE_NEW_ACTION
  let m : Move := ⟨s.rd Reg.MOVE_NEW_VT_LO + s.rd Reg.MOVE_NEW_VT_HI * 2 ^ 32, BitVec.ofNat 8 act, BitVec.ofNat 32 (s.rd Reg.MOVE_NEW_ARG), false⟩
  if moveActionOk act then
    let (st, h, s) := s.moveAdd m
    s.moveNewResult st (some h)
  else s.moveNewResult .eParam (some 0)

/-- R68: a write of 1 to MOVE_NEW.CANCEL cancels the move named in ARG. -/
def State.moveNewCancel (s : State) : State :=
  let (st, s) := s.moveCancel (s.rd Reg.MOVE_NEW_ARG)
  s.moveNewResult st none

end Sys2Proof.Machine
end

