-- ==== Sys2Proof/Machine/Rook.lean ====
section
/-! DEFINITION. The Rook: device states, the dark-safe state, a control core that is down, debug and JTAG (R142, R304, R448,
R493 to R495), and the die comparator (R185). -/
namespace Sys2Proof.Machine

/-! ## Device states and the dark-safe state -/

/-- R38, R48, R142, R150: the scan engine goes idle, and what waited for its castling point applies at once. -/
def State.goIdle (s : State) : State :=
  let s := s.scanIdle
  if s.powered 2 then s.castleNow.stepNow.epochNow else s

/-- Table 17.4: GCK does not run, and no relock is in progress. -/
def State.gckStop (s : State) : State :=
  let s := (s.wr Reg.CLK_STAT_GCK_LOCK 0).wr Reg.SCAN_STAT_STATE 0
  { s with scan := { s.scan with relockFrom := none } }

/-- What a change of the device state stops: outside ARMED and FALLBACK the scan engine is idle (R142), outside READY, ARMED and
FALLBACK the pawns stop with their SAFE levels (R353, R373) and GCK does not run (Table 17.4). -/
def State.enterState (s : State) (st : Nat) : State :=
  let was := s.mirRuns
  let s := s.wr Reg.SYS_STATE_STATE st
  let s := if st = 5 ∨ st = 6 then s else s.goIdle
  let s := if 4 ≤ st ∧ st ≤ 6 then s else s.pawnsHalt.gckStop
  (s.mirFollow was).floorFall

/-- R493: enter the dark-safe state for a cause. -/
def State.darkEnter (s : State) (cause : Nat) : State :=
  let first := !s.rdB Reg.SYS_STATE_DARK_SAFE
  let was := s.mirRuns
  let s := { s with rook := { s.rook with dark := s.rook.dark ||| BitVec.ofNat 6 (2 ^ cause) } }
  let s := s.wr Reg.SYS_STATE_DARK_SAFE 1
  if first then ((s.goIdle.pawnsHalt).mirFollow was).floorFall else s

/-- R185, R525: a cause of the dark-safe state ends; with the last one the display may resume T_VB_MIN later. -/
def State.darkLeave (s : State) (cause : Nat) : State :=
  let was := s.mirRuns
  let d := s.rook.dark &&& ~~~ BitVec.ofNat 6 (2 ^ cause)
  let s := { s with rook := { s.rook with dark := d } }
  if d = 0 && s.rdB Reg.SYS_STATE_DARK_SAFE then
    let s := s.wr Reg.SYS_STATE_DARK_SAFE 0
    { (s.mirFollow was) with scan := { s.scan with notBefore := max s.scan.notBefore (s.now + s.tVbMin) } }
  else s

/-- A cause of the dark-safe state holds. -/
def State.darkFor (s : State) (cause : Nat) : Bool := bitAt s.rook.dark.toNat cause

/-- R185: the die reaches 115 °C. -/
def execDieTempWarn (at_ : Vt) (s : State) : Host.Outcome State Fault Refusal :=
  let s := s.elapseTo at_
  .next (if s.rdB Reg.SINK_DIE_WARN then s else (s.wr Reg.SINK_DIE_WARN 1).raise Ev.TJ_WARN (s.rd Reg.SINK_DIE_TJ))

/-- R185: the die falls below 110 °C. -/
def execDieTempWarnClear (s : State) : Host.Outcome State Fault Refusal := .next (s.wr Reg.SINK_DIE_WARN 0)

/-- R185: the die reaches 135 °C. -/
def execDieTempShutdown (at_ : Vt) (s : State) : Host.Outcome State Fault Refusal :=
  let s := s.elapseTo at_
  .next (if s.darkFor 0 then s else (s.darkEnter 0).raise Ev.TJ_SHUT 0)

/-- R185: the die has stayed below 105 °C for 10 s. -/
def execDieCoolResume (at_ : Vt) (s : State) : Host.Outcome State Fault Refusal :=
  let s := s.elapseTo at_
  .next (if s.darkFor 0 then (s.darkLeave 0).raise Ev.TJ_SHUT 1 else s)

/-! ## The control core down -/

/-- The control core stops: commands are answered E_BUSY (R304, R487), FLOOR falls. -/
def State.coreStop (s : State) : State :=
  let s := { s with rook := { s.rook with downAt := some (s.rook.downAt.getD s.time.uptime) } }
  (s.wr Reg.SYS_STATE_CORE_DOWN 1).floorFall

/-- The control core runs again: the idle timers of the sessions have stood still (R304), and timed commands whose instants
have passed are to be tested again (R307). -/
def State.coreRun (s : State) : State :=
  let lost := s.time.uptime - s.idleNow
  let s := { s with
    rook := { s.rook with downAt := none }
    klp := { s.klp with
      sessions := s.klp.sessions.map fun (e : Nat × Session) => (e.1, { e.2 with heard := e.2.heard + lost })
      timed := s.klp.timed.map fun (t : Timed) => { t with held := t.held || decide (t.inst * nsUnit ≤ s.now) } } }
  s.wr Reg.SYS_STATE_CORE_DOWN 0

/-- R259, R491: the Rook restarts the control core: it frees the cells the core holds and keeps the session table; the
watchdog count restarts. -/
def State.coreRestart (s : State) : State :=
  let s := (s.freeCoreCells.bump Reg.SYS_ROOK_STAT_RESTARTS).coreStop
  { s with rook := { s.rook with restarting := true, kickAt := s.time.uptime, wdogHeld := s.rook.wdogHeld.map fun _ => 0 } }

/-! ## Debug halt (R495, Table 18.3) -/

/-- The halt is in force. -/
def State.halted (s : State) : Bool := s.rdB Reg.SYS_DBG_HALTED

/-- R495: the first DEBUG access after a boot is reported. -/
def State.debugAccess (s : State) : State :=
  if s.rook.debugSeen || !s.powered 4 then s
  else { (s.raise Ev.DEBUG 2) with rook := { s.rook with debugSeen := true } }

/-- R495: a DEBUG access. -/
def execDebugAccess (s : State) : Host.Outcome State Fault Refusal :=
  .next ({ s.debugAccess with rook := { s.debugAccess.rook with jtag := if s.powered 4 then .debug else s.rook.jtag } })

/-- R495: a halt request: the core stops, the watchdog count is held, the SPWM units follow R394. -/
def execDebugHalt (at_ : Vt) (s : State) : Host.Outcome State Fault Refusal :=
  let s := s.elapseTo at_
  .next (if s.halted || !s.powered 4 then s else
    let s := s.debugAccess
    let s := { s with rook := { s.rook with jtag := .debug, wdogHeld := some (s.time.uptime - s.rook.kickAt) } }
    ((s.wr Reg.SYS_DBG_HALTED 1).coreStop.spwmHalt).raise Ev.DEBUG 1)

/-- R495: the halt ends. A restart in progress is not ended by it. -/
def execDebugRelease (at_ : Vt) (s : State) : Host.Outcome State Fault Refusal :=
  let s := s.elapseTo at_
  .next (if !s.halted then s else
    let s := { s with rook := { s.rook with kickAt := s.time.uptime - s.rook.wdogHeld.getD 0, wdogHeld := none } }
    let s := s.wr Reg.SYS_DBG_HALTED 0
    ((if s.rook.restarting || !s.powered 1 then s else s.coreRun).spwmRelease).raise Ev.DEBUG 0)

/-! ## JTAG (R494, R504) -/

/-- Shift an instruction into the JTAG port, which lies in IOX. -/
def State.jtagTo (s : State) (j : Jtag) : State := if s.powered 4 then { s with rook := { s.rook with jtag := j } } else s

/-- R504: IDCODE: the port shifts out SYS_ID; nothing else changes. -/
def execIdcode (s : State) : Host.Outcome State Fault Refusal := .next (s.jtagTo .idcode)

/-- R494: BYPASS. -/
def execBypass (s : State) : Host.Outcome State Fault Refusal := .next (s.jtagTo .bypass)

/-- The level that the device itself puts on a pin; none on an input, on a pin it releases, and where the state holds no level. -/
def State.ownLevel (s : State) (p : BsPin) : Option Bool :=
  let line := s.scan.pins
  let sw (u : Nat) := s.swLevels u (s.swPos u)
  let mir := s.mir.pads
  match p with
  | .la i => some (bitAt line.la.toNat i.val)
  | .len => some (line.len != s.rdB Reg.SCAN_LINEIF_LEN_POL)
  | .lblk => some (line.lblk != s.rdB Reg.SCAN_LINEIF_LBLK_POL)
  | .ldis i => some (bitAt line.ldis.toNat i.val != s.rdB Reg.SCAN_LINEIF_LDIS_POL)
  | .lsdi => some line.lsdi
  | .lsck => some line.lsck
  | .llat => some line.llat
  | .swA u => (sw u.val).map (·.1)
  | .swB u => (sw u.val).map (·.2)
  | .px i => s.pxDriven i.val
  | .mirD i => if mir.used ≤ i.val then some false else mir.d.map fun d => bitAt d i.val
  | .mirPclk => mir.pclk
  | .mirDe => mir.de
  | .mirHs => mir.hs
  | .mirVs => mir.vs
  | .mirCs => mir.cs
  | .mirWr => mir.wr
  | .ppsOut => some s.ppsOut
  | .svcIrq => if s.svcIrq then some false else none
  | .pbDe => some s.poll.driving
  | .trip _ | .vlsr | .vlsg | .tha | .thb | .mirTe | .pbTx | .pbRx | .svcSck | .svcCs | .svcIo _ | .qfSck | .qfCs | .qfIo _
  | .ppsIn | .genlockIn | .bootsel _ | .resetN | .wake => none

/-- The pins on which a signal can leave the device. -/
def pinDrives : BsPin → Bool
  | .trip _ | .vlsr | .vlsg | .tha | .thb | .mirTe | .pbRx | .svcSck | .svcCs | .ppsIn | .genlockIn | .bootsel _ | .resetN | .wake => false
  | _ => true

/-- R494: the level driven on a pin: under EXTEST by the boundary register, where the pin is one that the device can drive, else by the
device. -/
def State.pinLevel (s : State) (p : BsPin) : Option Bool :=
  if s.rook.jtag = .extest && pinDrives p then (s.rook.boundary.reverse.find? fun e => e.1 == p).map (·.2) else s.ownLevel p

/-- The pins of the boundary scan. -/
def scanPins : List BsPin :=
  [.len, .lblk, .lsdi, .lsck, .llat, .vlsr, .vlsg, .tha, .thb, .mirPclk, .mirDe, .mirHs, .mirVs, .mirTe, .mirCs, .mirWr, .pbTx, .pbRx,
    .pbDe, .svcSck, .svcCs, .svcIrq, .qfSck, .qfCs, .ppsIn, .ppsOut, .genlockIn, .resetN, .wake] ++
    (List.finRange 7).map .la ++ (List.finRange 4).map .ldis ++ (List.finRange 8).map .swA ++ (List.finRange 8).map .swB ++
    (List.finRange 8).map .trip ++ (List.finRange 32).map .px ++ (List.finRange 24).map .mirD ++ (List.finRange 4).map .svcIo ++
    (List.finRange 4).map .qfIo ++ (List.finRange 2).map .bootsel

/-- R494: the level that the boundary register captures at a pin: what drives it, or the board's where the state holds that; none for the
others, whose levels are free (log entry 172). -/
def State.pinSeen (s : State) (p : BsPin) : Option Bool :=
  match p with
  | .trip i => some (s.pwr.tripPins.getLsbD i.val)
  | .resetN => some (!s.pwr.resetN)
  | _ => s.pinLevel p

/-- R494: the boundary register captures the level of every pin. -/
def State.capturePins (s : State) : State :=
  let (v, s) := s.draw
  { s with rook := { s.rook with captured := scanPins.zipIdx.map fun e => (e.1, (s.pinSeen e.1).getD (bitAt v e.2)) } }

/-- R494: SAMPLE/PRELOAD: the boundary register captures the levels of the pins and is loaded with the cells given. The pins stay with the
device. -/
def execSamplePreload (cells : List (BsPin × Bool)) (s : State) : Host.Outcome State Fault Refusal :=
  .next (if s.powered 4 then
      let s := s.capturePins
      { s with rook := { s.rook with jtag := .sample, boundary := cells } }
    else s)

/-- R494: EXTEST: the dark-safe state first, then the boundary cells drive the pins, whose levels are captured. -/
def execExtest (s : State) : Host.Outcome State Fault Refusal :=
  .next (if s.powered 4 then ((s.darkEnter 3).jtagTo .extest).capturePins else s)

/-- R494: TRST_N ends EXTEST. -/
def execTrstN (s : State) : Host.Outcome State Fault Refusal :=
  .next (({ s with rook := { s.rook with jtag := .reset } }).darkLeave 3)

/-- The data register the JTAG port shifts out: SYS_ID under IDCODE (R504). -/
def State.jtagOut (s : State) : Option Word :=
  match s.rook.jtag with
  | .idcode | .reset => some (s.reg 0)
  | _ => none

end Sys2Proof.Machine
end

