-- ==== Sys2Proof/Machine/Objects.lean ====
section
/-! DEFINITION. The objects that handles name (R318, R332): their creation and removal. -/
namespace Sys2Proof.Machine

/-- The words +0x00 to +0x10 of PIPE_MAP_m. -/
def mapWordAddr (m k : Nat) : Nat := (Reg.PIPE_MAP_EN m).addr + 4 * k

/-- R331: the descriptor that an object was created with. -/
def State.describe (s : State) (cls i : Nat) (d : List Byte) : State :=
  { s with cmd := { s.cmd with descs := tabPut (cls * 65536 + i) d s.cmd.descs } }

/-- R331: an object's descriptor as created. -/
def State.descOf (s : State) (cls i : Nat) : List Byte := (tabFind s.cmd.descs (cls * 65536 + i)).getD []

/-- Table 11.5: a map object exists from now on, with the descriptor it was created with. -/
def State.mapName (s : State) (m : Nat) (d : List Byte) : State := (s.wr (Reg.PIPE_MAP_HANDLE m) (s.handle 2 m)).describe 2 m d

/-- R319: a map object is removed. -/
def State.mapRemove (s : State) (m : Nat) : State :=
  if s.objExists 2 m then (s.wr (Reg.PIPE_MAP_HANDLE m) 0).advanceGen 2 m else s

/-- Offset of host definition d (R226). -/
def defAt (d : Nat) : Nat := fcmMotifDef + 512 * d

/-- Write bytes into the FCM. -/
def State.fcmBytes (s : State) (o : Nat) (b : List Byte) : State := s.writeFcm o b.length fun a => b.getD (a - o) 0

/-- Table 11.5: a motif definition comes into being. -/
def State.motifName (s : State) (d : Nat) (b : List Byte) : State :=
  (s.wr (Reg.MOTIF_DEF_HANDLE_HANDLE d) (s.handle 3 d)).describe 3 d b

/-- Table 11.5: a motif definition is removed and its slot emptied. -/
def State.motifRemove (s : State) (d : Nat) : State :=
  if s.objExists 3 d then ((s.writeFcm (defAt d) 512 fun _ => 0).wr (Reg.MOTIF_DEF_HANDLE_HANDLE d) 0).advanceGen 3 d else s

/-- Table 11.5: a function group is written with ARM 0. -/
def State.groupCreate (s : State) (g policy base count : Nat) : State :=
  let s := s.setGrp g groupReset
  let s := (s.setReg (Reg.CENSUS_GRP_ARM g).addr 0).setReg (Reg.CENSUS_GRP_STATE g).addr 0
  let s := (s.wr (Reg.CENSUS_GRP_POLICY g) policy).wr (Reg.CENSUS_GRP_BASE g) base
  let s := (s.wr (Reg.CENSUS_GRP_COUNT g) count).wr (Reg.CENSUS_GRP_HANDLE g) (s.handle 4 g)
  s.describe 4 g (beBytes 1 policy ++ [0] ++ beBytes 2 base ++ beBytes 2 count ++ [0, 0])

/-- The words of CENSUS_GRP_g. -/
def groupWords (g : Nat) : List Nat := (List.range 5).map fun k => (Reg.CENSUS_GRP_ARM g).addr + 4 * k

/-- Table 11.5: a function group is removed and its slot emptied. -/
def State.groupRemove (s : State) (g : Nat) : State :=
  if s.objExists 4 g then
    (((groupWords g).foldl (fun s a => s.setReg a (regReset a)) s).setGrp g groupReset).advanceGen 4 g
  else s

/-- R339: words base to base + n − 1 become program p. -/
def State.progCreate (s : State) (p base n : Nat) : State :=
  { s with cmd := { s.cmd with progs := tabPut p (base, n) s.cmd.progs } }

/-- R441: a group's slot empties, whether an object was there or not. -/
def State.groupEmpty (s : State) (g : Nat) : State :=
  ((groupWords g).foldl (fun s a => s.setReg a (regReset a)) (s.groupRemove g)).setGrp g groupReset

/-- A pawn program is removed. -/
def State.progRemove (s : State) (p : Nat) : State :=
  if s.objExists 5 p then { s with cmd := { s.cmd with progs := tabDrop s.cmd.progs p } }.advanceGen 5 p else s

/-- A CVU context is removed. -/
def State.ctxRemove (s : State) (c : Nat) : State :=
  if s.objExists 7 c then { s with cmd := { s.cmd with ctxs := tabDrop s.cmd.ctxs c } }.advanceGen 7 c else s

/-- An event subscription is removed. -/
def State.subRemove (s : State) (b : Nat) : State :=
  if s.objExists 8 b then { s with klp := { s.klp with subs := tabDrop s.klp.subs b } }.advanceGen 8 b else s

/-- Every map, motif definition and function group and program goes (R441). -/
def State.mapsRemove (s : State) : State :=
  let s := (List.range 64).foldl State.mapRemove (s.mirMapLost s)
  { s with cmd := { s.cmd with mapDying := [] } }
def State.motifsRemove (s : State) : State := (List.range 64).foldl State.motifRemove s
def State.groupsRemove (s : State) : State := (List.range 64).foldl State.groupEmpty s
def State.progsRemove (s : State) : State := (List.range 16).foldl State.progRemove s

/-- R333: a map index is occupied from its DESTROY until the castling point at which its cleared EN applies. -/
def State.mapOccupied (s : State) (m : Nat) : Bool :=
  s.objExists 2 m || s.cmd.mapDying.any fun e => e.1 == m

end Sys2Proof.Machine
end

