-- ==== Sys2Proof/Machine/Boot.lean ====
section
/-! DEFINITION. Boot: OTP, boot flash, firmware slots and the boot ROM (R433 to R438). -/
namespace Sys2Proof.Machine

/-! ## OTP and boot flash -/

/-- An erased byte of boot flash. -/
def flashReset (_ : Nat) : Byte := 0xFF

/-- A byte of boot flash. -/
def State.flashByte (s : State) (o : Nat) : Byte := SMap.get flashReset s.store.flash o

/-- Bytes of boot flash. -/
def State.flashBytes (s : State) (o n : Nat) : List Byte := (List.range n).map fun i => s.flashByte (o + i)

/-- Write bytes of boot flash. -/
def State.setFlash (s : State) (o : Nat) (b : List Byte) : State :=
  { s with store := { s.store with flash := SMap.setRange flashReset s.store.flash o b.length fun a => b.getD (a - o) 0xFF } }

/-- A range of boot flash is erased. -/
def State.flashErased (s : State) (o n : Nat) : Bool :=
  s.store.flash.all fun e => decide (e.1 < o) || decide (o + n ≤ e.1)

/-! ## Boot record (R435) -/

/-- Offset of a boot-record copy. -/
def recordAt (c : Nat) : Nat := 4096 * c

/-- A copy's magic is right, and its generation. -/
def State.recordGen (s : State) (c : Nat) : Option Nat :=
  let b := s.flashBytes (recordAt c) 12
  if leAt b 0 4 = 0x4916B007 then some (leAt b 8 4) else none

/-- The copy in use: a right magic and the higher generation. -/
def State.recordCopy (s : State) : Option Nat :=
  match s.recordGen 0, s.recordGen 1 with
  | some a, some b => some (if a < b then 1 else 0)
  | some _, none => some 0
  | none, some _ => some 1
  | none, none => none

/-- The slot the boot ROM tries first. -/
def State.recordSlot (s : State) : Nat :=
  match s.recordCopy with
  | some c => leAt (s.flashBytes (recordAt c) 12) 4 4 % 2
  | none => 0

/-- R454: write a boot record naming a slot: the copy not in use takes the next generation (log entry 61). -/
def State.writeRecord (s : State) (slot : Nat) : State :=
  let (c, g) := match s.recordCopy with
    | some c => (1 - c, (s.recordGen c).getD 0 + 1)
    | none => (0, 1)
  s.setFlash (recordAt c) (leBytes 4 0x4916B007 ++ leBytes 4 slot ++ leBytes 4 g)

/-! ## Firmware slots (R436, R437) -/

/-- Offset and size of a slot in boot flash (Table 16.4). -/
def slotAt (k : Nat) : Nat := if k = 0 then 0x10000 else 0x90000
def slotSize : Nat := 524288

/-- KEY_HASH as 32 bytes, word 0 first, each word low byte first (log entry 61). -/
def State.keyHash (s : State) : List Byte := (List.range 8).flatMap fun i => leBytes 4 (s.otpWord i).toNat

/-- R437: test 1: magic, length and digest. -/
def State.slotDigestOk (s : State) (k : Nat) : Bool :=
  let h := s.flashBytes (slotAt k) 256
  let n := leAt h 8 4
  leAt h 0 4 == 0x49160F1A && 1 ≤ n && n ≤ 524032 && sha256 (s.flashBytes (slotAt k + 256) n) == slice h 16 32

/-- R437: test 2: the public key is the one of KEY_HASH, and the signature verifies with it. -/
def State.slotSignatureOk (s : State) (k : Nat) : Bool :=
  let h := s.flashBytes (slotAt k) 256
  !(s.store.otpBad.any fun i => decide (i < 8)) && sha256 (slice h 48 64) == s.keyHash &&
    ecdsaOk (slice h 48 64) (slice h 112 64) (slice h 0 112)

/-- The version of a slot's image. -/
def State.slotVersion (s : State) (k : Nat) : Nat := leAt (s.flashBytes (slotAt k) 8) 4 4

/-- R437: why a slot fails verification: 1 digest, 2 signature, 3 rollback, 4 erased; 0 when it passes. -/
def State.slotReason (s : State) (k : Nat) : Nat :=
  if s.flashErased (slotAt k) slotSize then 4
  else if !s.slotDigestOk k then 1
  else if !s.slotSignatureOk k then 2
  else if s.slotVersion k < (s.otpWord 8).toNat then 3
  else 0

/-! ## The boot ROM (Table 16.2) -/

/-- Everything at reset, but what lies outside the machine or in OTP and flash; LIMIT_BOOT is kept in AON (R492). Local time starts anew:
an ALW that has stopped counts nothing from there on. -/
def State.bootBase (s : State) : State :=
  let t := State.reset
  let t := { t with pending := s.pending, free := s.free,
                    store := { t.store with flash := s.store.flash, otp := s.store.otp, otpBad := s.store.otpBad,
                                            bootsel := s.store.bootsel },
                    pwr := { t.pwr with tripPins := s.pwr.tripPins, alwLost := s.pwr.alwLost.map fun _ => 0 } }
  t.wr Reg.SYS_ROOK_STAT_LIMIT_BOOT (s.rd Reg.SYS_ROOK_STAT_LIMIT_BOOT)

/-- FWD_MAC takes its reset value from OTP. -/
def State.otpMac (s : State) : State :=
  (s.wr Reg.FWD_MAC_MAC_LO (s.otpWord 11).toNat).wr Reg.FWD_MAC_MAC_HI (s.otpWord 12).toNat

/-- R4, R399: the mirrors of the supply straps; the reserved bit of the third word reads 0. -/
def State.otpStraps (s : State) : State :=
  (List.range 6).foldl (fun s j =>
    let mask : Word := if j % 3 = 2 then 0xBFFFFFFF else 0xFFFFFFFF
    s.setReg (0xE0410 + 0x10 * (j / 3) + 4 * (j % 3)) (s.otpWord (14 + j) &&& mask)) s

/-- Table 16.2 step 1: the registers mirrored from OTP. -/
def State.otpMirrors (s : State) : State :=
  let s := (s.wr Reg.SYS_UID_UID_LO (s.otpWord 9).toNat).wr Reg.SYS_UID_UID_HI (s.otpWord 10).toNat
  let s := s.otpMac.otpStraps
  let s := s.wr Reg.SEAL_MIN_VERSION_VERSION (s.otpWord 8).toNat
  (s.setReg Reg.SEAL_OTP_BOOT_LINK.addr (s.otpWord 13)).wrB Reg.SEAL_OTP_BOOT_PAR_OK s.store.otpBad.isEmpty

/-- Table 16.2 step 3: verify the chosen slot, then the other. A slot that is not tried has reason 0. -/
def State.bootSlots (s : State) (first : Nat) : State :=
  let fail (s : State) (k r : Nat) : State := s.wr (if k = 0 then Reg.SEAL_BOOT_FAIL_A else Reg.SEAL_BOOT_FAIL_B) r
  let run (s : State) (k : Nat) (back : Bool) : State :=
    { ((s.wr Reg.SEAL_BOOT_SLOT k).wrB Reg.SEAL_BOOT_ROLLBACK back) with store := { s.store with slotOk := true } }
  let r1 := s.slotReason first
  let s := fail s first r1
  if r1 = 0 then run s first false
  else
    let r2 := s.slotReason (1 - first)
    let s := fail s (1 - first) r2
    if r2 = 0 then run s (1 - first) true else s

/-- R459, R461, R467: the supplies hold the device from booting. -/
def State.supplyHeld (s : State) : Bool := s.pwr.aoDown || s.pwr.orderHold || s.pwr.down != 0

/-- A device held in reset: everything at reset, every switched domain without power. What holds it stays, and with it the cause of the
boot that follows (R467). -/
def State.heldInReset (s : State) : State :=
  let t := s.bootBase.wr Reg.PWR_DOMAIN_STAT 0
  { t with pwr := { t.pwr with resetN := s.pwr.resetN, aoDown := s.pwr.aoDown, orderHold := s.pwr.orderHold, down := s.pwr.down,
                               resetRail := s.pwr.resetRail } }.newCycle 3

/-- R433, R434: a boot: the boot ROM samples BOOTSEL, reads OTP, starts the self-supply units from their straps, and verifies a
slot. `rail` and `guard` are the cause for PWR_SUPV_STAT; `prefer` names the slot of a passing FW_SWAP in RECOVERY, which goes before
BOOTSEL and the boot record (R341, R438). While the supplies or RESET_N hold the device, it waits in reset, and the end of the hold begins
the boot (R459, R461, R467). -/
def State.boot (s : State) (rail : Nat) (guard_ : Bool) (prefer : Option Nat) : State :=
  if s.supplyHeld || s.pwr.resetN then s.heldInReset else
  let s := s.bootBase
  let s := (s.wr Reg.PWR_SUPV_STAT_RESET_RAIL rail).wrB Reg.PWR_SUPV_STAT_GUARD guard_
  let s := (s.wr Reg.SEAL_BOOT_BOOTSEL s.store.bootsel.toNat).wr Reg.CLK_STAT_SYS_LOCK 1
  let s := s.otpMirrors.strapsStart
  let s := match prefer with
    | some k => s.bootSlots k
    | none =>
      if s.store.bootsel = 1 then s
      else s.bootSlots (if s.store.bootsel = 2 then 1 else s.recordSlot)
  s.newCycle 3

/-- R433: the levels at the BOOTSEL pins as a boot begins. -/
def State.setBootsel (s : State) (b : BitVec 2) : State := { s with store := { s.store with bootsel := b } }

end Sys2Proof.Machine
end

