-- ==== Sys2Proof/Machine/Watch.lean ====
section
/-! DEFINITION. The watchdog, counted restarts and the swap on trial (R21, R454, R491, R492). -/
namespace Sys2Proof.Machine

/-! ## The restart count (R492) -/

/-- WDOG_CNT counts the restarts of the last 60 s. -/
def State.pruneRestarts (s : State) : State :=
  let l := s.rook.counted.filter fun t => decide (s.time.uptime < t + sec 60)
  { s with rook := { s.rook with counted := l } }.wr Reg.SYS_ROOK_STAT_WDOG_CNT (min 15 l.length)

/-- SYS_ROOK_CFG.LIMIT; 0 acts as 1. -/
def State.restartLimit (s : State) : Nat := max 1 (s.rd Reg.SYS_ROOK_CFG_LIMIT)

/-- This restart would bring WDOG_CNT to LIMIT. -/
def State.atLimit (s : State) : Bool := s.restartLimit ≤ s.pruneRestarts.rook.counted.length + 1

/-- One more counted restart. -/
def State.countRestart (s : State) : State :=
  let s := s.pruneRestarts
  { s with rook := { s.rook with counted := s.rook.counted ++ [s.time.uptime] } }.pruneRestarts

/-- R454: the Rook goes back to the slot before the swap on trial. -/
def State.swapBack (s : State) : State :=
  let slot := s.rd Reg.SEAL_BOOT_SLOT
  let s := (s.wr Reg.SEAL_BOOT_SLOT s.store.trialFrom).wr Reg.SEAL_BOOT_ROLLBACK 1
  (s.wr Reg.SEAL_BOOT_TRIAL 0).raise Ev.FW_SWAP (slot + 2)

/-- A restart has been counted, and one has begun, in the SYS cycle in progress. -/
def State.countedNow (s : State) : Bool := s.rook.counted.any fun t => decide (s.atStart.time.uptime ≤ t)
def State.restartedNow (s : State) : Bool := s.rook.restarting && !s.atStart.rook.restarting

/-- A restart under R491, an uncorrectable TCM word or a loss of CTL: a full boot at the limit, else a counted restart, into the
previous slot during a trial. `bootsel` are the levels that the boot would sample. Causes that meet in one SYS cycle make one restart
(R24; log entry 155). -/
def State.countedRestart (s : State) (bootsel : BitVec 2) : State :=
  if s.countedNow then s
  else if s.atLimit then ((s.wr Reg.SYS_ROOK_STAT_LIMIT_BOOT 1).setBootsel bootsel).boot 6 false none
  else if s.restartedNow then s.countRestart
  else
    let s := s.countRestart.coreRestart
    if s.rdB Reg.SEAL_BOOT_TRIAL then s.swapBack else s

/-! ## The watchdog (R491) -/

/-- SYS_ROOK_CFG.PERIOD in 10 ms; 0 acts as 1. -/
def State.wdogPeriod (s : State) : Nat := msec (10 * max 1 (s.rd Reg.SYS_ROOK_CFG_PERIOD))

/-- A write of SYS_ROOK_KICK: only 0x0000_5A5A restarts the count. -/
def State.kick (s : State) (w : Word) : State :=
  if w = 0x5A5A then
    { s with rook := { s.rook with kickAt := s.time.uptime, wdogHeld := s.rook.wdogHeld.map fun _ => 0 }
             cycle := { s.cycle with kicked := true } }
  else s

/-- R491: SYS_ROOK_KICK is written. -/
def execWatchdogKick (at_ : Vt) (w : Word) (s : State) : Host.Outcome State Fault Refusal := .next ((s.elapseTo at_).kick w)

/-- The count has run out at a local instant: it is held in a debug halt and in Sentry, and starts anew with each restart (log entry
50). -/
def State.countOut (s : State) (u : Nat) : Bool :=
  2 ≤ s.devState && s.rook.wdogHeld.isNone && !s.rook.restarting && s.rook.kickAt + s.wdogPeriod ≤ u

/-- R491, R24: the watchdog expires, also where another cause of the SYS cycle in progress has begun a restart just before. It expires
once in a cycle. -/
def State.wdogExpired (s : State) : Bool :=
  s.countOut s.time.uptime ||
    (s.restartedNow && s.rook.wdogHeld.isNone && !s.cycle.kicked && s.atStart.countOut s.time.uptime)

/-- R21: the action on expiry: FALLBACK requests the look with cause 3, which a frame ends only after the restart. -/
def State.wdogAction (s : State) : State :=
  if s.rdB Reg.SYS_ROOK_CFG_WDOG_ACTION && (s.devState == 5 || s.devState == 6) then
    { s with fallback := { s.fallback with restartDone := none } }.fbRequest 3
  else s

/-- R21, R491: the watchdog expires, and no kick of the cycle prevents it. -/
def State.expire (s : State) (bootsel : BitVec 2) : State :=
  if s.atLimit && !s.countedNow then s.countedRestart bootsel
  else
    let s := (s.countedRestart bootsel).wdogAction
    let s := { s with cycle := { s.cycle with kicked := true } }
    s.raise Ev.WDOG (s.rd Reg.SYS_ROOK_STAT_WDOG_CNT + 16 * s.rd Reg.SYS_ROOK_CFG_WDOG_ACTION)

/-- R492: a counted restart is 60 s old. -/
def execWdogRestartAgeOut (at_ : Vt) (s : State) : Host.Outcome State Fault Refusal := .next (s.elapseTo at_).pruneRestarts

/-! ## The swap on trial (R454) -/

/-- R454: the new firmware confirms: the boot record is written, in BRACE only after it. -/
def State.fwConfirm (s : State) : State :=
  if !s.rdB Reg.SEAL_BOOT_TRIAL then s
  else
    let slot := s.rd Reg.SEAL_BOOT_SLOT
    let s := s.wr Reg.SEAL_BOOT_TRIAL 0
    let s := if s.rdB Reg.SYS_STATE_BRACE then { s with store := { s.store with recordDue := some slot } } else s.writeRecord slot
    s.raise Ev.FW_SWAP slot

/-- R454: SEAL_BOOT.CONFIRM is written with 1. -/
def execFwConfirm (s : State) : Host.Outcome State Fault Refusal := .next s.fwConfirm

/-- R454: 400 ms have passed since the restart without a confirmation. -/
def execFwConfirmTimeout (at_ : Vt) (s : State) : Host.Outcome State Fault Refusal :=
  let s := s.elapseTo at_
  .next (if s.rdB Reg.SEAL_BOOT_TRIAL && s.store.trialAt + msec 400 ≤ s.time.uptime then s.coreRestart.swapBack else s)

end Sys2Proof.Machine
end

