-- ==== Sys2Proof/Machine/Power.lean ====
section
/-! DEFINITION. Supplies, BRACE, power domains, REF and ALW, and Sentry (R12 to R14, R433, R456 to R483). -/
namespace Sys2Proof.Machine

/-! ## Power domains (Table 1.3, R468, R469) -/

/-- Table 19.1: the domain of a register's block, in PWR_DOMAIN bit order; none for AON. Of SYS the SVC_* registers lie in IOX. -/
def domainOf (a : Nat) : Option Nat :=
  match blockOf a with
  | some .sys => if 0x100 ≤ a ∧ a < 0x10C then some 4 else none
  | some .link | some .fwd => some 0
  | some .time | some .pipe | some .grey | some .scan | some .motif | some .fcm => some 2
  | some .sink | some .census => some 3
  | some .pb | some .pawn | some .cvu | some .mir => some 4
  | some .spwm => some 5
  | _ => none

/-- R469: every register of a domain at its reset value. -/
def State.domainRegsReset (s : State) (d : Nat) : State :=
  let keep (e : Nat × Word) : Bool := domainOf e.1 != some d
  { s with regs := s.regs.filter keep, shadow := s.shadow.filter keep }

/-- Loss of PIX: the FCM with the census map, the boards, maps, definitions and moves are gone, and VT counts anew (R70, R194). -/
def State.pixLost (s : State) : State :=
  let cause := if bitAt s.pwr.restoreDue.toNat 2 then s.pwr.fbLost else if s.fbActive then s.rd Reg.MOTIF_FB_STAT_CAUSE else 0
  let s := (s.censusForget.mapsRemove.motifsRemove.movesLost).domainRegsReset 2
  { s with
    fcm := [], pipe := State.reset.pipe, scan := State.reset.scan, motif := []
    badWords := s.badWords.filter fun (e : Nat × Nat) => e.1 == 1 || e.1 == 2 || e.1 == 4
    time := { State.reset.time with uptime := s.time.uptime }
    fallback := { s.fallback with startDue := 0, endDue := false }
    pwr := { s.pwr with fbLost := cause } }

/-- Loss of DRV: the census and the function groups are gone (R194). What of the map has changed is still to report. -/
def State.drvLost (s : State) : State :=
  let now := ((List.range 64).filter fun g => s.objExists 4 g).map fun g =>
    (g, s.rd (Reg.CENSUS_GRP_POLICY g), s.rd (Reg.CENSUS_GRP_BASE g), s.rd (Reg.CENSUS_GRP_COUNT g), s.grpState g != 0)
  let lost := if bitAt s.pwr.restoreDue.toNat 3 then s.pwr.groupsLost.filter fun e => !now.any fun n => n.1 == e.1 else []
  let s := s.censusForget.groupsRemove.domainRegsReset 3
  let c := s.census
  { s with
    census := { State.reset.census with changes := c.changes, frameNo := c.frameNo, shown := c.shown, made := c.made }
    sink := { State.reset.sink with loops := s.sink.loops, hold := s.sink.hold }
    pwr := { s.pwr with groupsLost := lost ++ now } }

/-- Loss of IOX: pawns, CVUs, mirror, poll bus, mailbox, boot-flash and JTAG ports. -/
def State.ioxLost (s : State) : State :=
  let s := s.progsRemove.domainRegsReset 4
  { s with
    pawns := [], cvu := [], mir := State.reset.mir, poll := State.reset.poll
    cmd := { s.cmd with mboxIn := [], mboxOut := [], mboxNext := [], mboxDue := false }
    rook := { s.rook with jtag := .reset, captured := [], boundary := [], storeBad := [] } }

/-- R280: the node address on the poll bus: FWD_ADDR.NODE, or what it was last while NET is off or has still to be restored
(DESIGN CHOICE, log entry 126). -/
def State.pollNode (s : State) : Nat :=
  if s.powered 0 && !bitAt s.pwr.restoreDue.toNat 0 then s.rd Reg.FWD_ADDR_NODE else s.poll.node

/-- Table 17.1: the memories of a domain, by the codes of R488. -/
def memoriesOf (d : Nat) : List Nat :=
  match d with
  | 0 => [1]
  | 1 => [2]
  | 2 => [0, 3]
  | 3 => [4]
  | _ => []

/-- A domain loses its power or is held in reset. -/
def State.domainOff (s : State) (d : Nat) : State :=
  if !s.powered d then s else
    let conv := s.usesConverters
    let s := s.cvuDomainLost d
    let s := match d with
      | 0 => { (s.domainRegsReset 0) with
          net := { State.reset.net with nextId := s.net.nextId }, poll := { s.poll with node := s.pollNode } }
      | 1 => s.coreStop
      | 2 => s.pixLost
      | 3 => s.drvLost
      | 4 => s.ioxLost
      | _ => { (s.domainRegsReset 5) with spwm := [], sink := { s.sink with loops := [] } }
    let s := s.wr ⟨Reg.PWR_DOMAIN_STAT.addr, 8 + d, 1⟩ 0
    let s := { s with pwr := { s.pwr with restoreDue := s.pwr.restoreDue &&& ~~~ BitVec.ofNat 6 (2 ^ d) }
                      rook := { s.rook with scrubbed := s.rook.scrubbed.filter fun w => !(memoriesOf d).contains w.1 } }
    (if d = 2 ∨ d = 3 then s.darkEnter 4 else if d = 5 ∧ conv then s.darkEnter 5 else s).floorFall

/-- The dark-safe state of a lost domain ends when the domain is powered and its contents are restored (log entry 51). -/
def State.domainDarkEnd (s : State) : State :=
  let ready (d : Nat) : Bool := s.powered d && !bitAt s.pwr.restoreDue.toNat d
  let s := if s.darkFor 4 && ready 2 && ready 3 then s.darkLeave 4 else s
  if s.darkFor 5 && ready 5 then s.darkLeave 5 else s

/-- Table 17.1: the domains a rail takes with it. -/
def railDomains (r : Nat) : List Nat :=
  match r with
  | 0 => [0, 1, 2, 3, 4, 5]
  | 1 => [0, 1, 2]
  | 2 => [0]
  | 3 => [4]
  | _ => [3, 5]

/-- R459, R461, R467: a domain is held in reset. -/
def State.heldDomain (s : State) (d : Nat) : Bool :=
  s.pwr.resetN || s.pwr.aoDown || s.pwr.orderHold ||
    (List.range 5).any fun r => bitAt s.pwr.down.toNat r && (railDomains r).contains d

/-- R469: a domain that is not held is switched on with everything at reset; with a Seal armed, its contents wait for firmware. -/
def State.domainOn (s : State) (d : Nat) : State :=
  if s.powered d || s.heldDomain d then s else
    let s := s.wr ⟨Reg.PWR_DOMAIN_STAT.addr, 8 + d, 1⟩ 1
    let s := if d = 0 then s.otpMac else if d = 5 then s.otpStraps else s
    let s := if d = 1 ∧ !s.rook.restarting ∧ !s.halted then s.coreRun else s
    if d ≠ 1 ∧ s.store.armed.isSome then
      { s with pwr := { s.pwr with restoreDue := s.pwr.restoreDue ||| BitVec.ofNat 6 (2 ^ d) } }
    else s.domainDarkEnd

/-- R468: the order in which domains switch off; on is the reverse. -/
def offOrder : List Nat := [1, 0, 4, 5, 3, 2]

/-- R468: the domains of `names` are switched to the bits of `en`. -/
def State.domainSet (s : State) (names en : Nat) : State :=
  let s := s.wr Reg.PWR_DOMAIN_EN ((s.rd Reg.PWR_DOMAIN_EN &&& (63 - names % 64)) ||| (en &&& names) % 64)
  let s := (offOrder.filter fun d => bitAt names d && !bitAt en d).foldl State.domainOff s
  (offOrder.reverse.filter fun d => bitAt names d && bitAt en d).foldl State.domainOn s

/-- R468: a write to PWR_DOMAIN names every domain: a 0 to CTL is ignored, ones to FAULT clear it. -/
def State.domainWrite (s : State) (w : Word) : State :=
  (s.clearW1c Reg.PWR_DOMAIN_FAULT.addr (w &&& 0x3F0000)).domainSet 63 (w.toNat % 64 ||| 2)

/-- R468: PWR_DOMAIN is written. -/
def execDomainSwitch (at_ : Vt) (w : Word) (s : State) : Host.Outcome State Fault Refusal := .next ((s.elapseTo at_).domainWrite w)

/-- R13, R470: a switched domain is lost unexpectedly. CTL is switched on again and its core restarts (log entry 50). -/
def execDomainFault (at_ : Vt) (d : Fin 6) (bootsel : BitVec 2) (s : State) : Host.Outcome State Fault Refusal :=
  let s := s.elapseTo at_
  .next (if !s.powered d.val then s else
    let s := if d.val = 1 then s.countedRestart bootsel else s.domainOff d.val
    (s.setW1c ⟨Reg.PWR_DOMAIN_FAULT.addr, 16 + d.val, 1⟩).raise Ev.DOMAIN_FAULT d.val)

/-! ## BRACE (R460 to R466) -/

/-- Table 17.2: the warning level of a rail in mV; WARN_C above 8 acts as 8. -/
def State.warnMv (s : State) (r : Nat) : Nat := if r ≤ 1 then 840 + 5 * min 8 (s.rd Reg.PWR_SUPV_CFG_WARN_C) else 1680

/-- In Sentry the supervisors are disarmed, and RESET_N low or VDDAO below POR holds the device in reset. -/
def State.supervised (s : State) : Bool := s.devState != 0 && !s.pwr.resetN && !s.pwr.aoDown

/-- Table 17.3: what a warning on VDDIO or VDDA does besides. -/
def State.railEffects (s : State) (r : Nat) : State :=
  let s := if r = 3 ∨ r = 4 then
    { (s.wr Reg.PWR_SUPV_STAT_BLANKED 1) with scan := { s.scan with braceDark := true } } else s
  if r = 4 then
    (List.range 5).foldl (fun s c => s.wr (Reg.ADC_DATA_VALID c) 0) { s with sink := { s.sink with hold := true } }
  else s

/-- R463: a rail crosses its warning level. -/
def State.railWarn (s : State) (r : Nat) : State :=
  let bit := BitVec.ofNat 5 (2 ^ r)
  let first := !s.rdB Reg.SYS_STATE_BRACE
  let p := if first then { s.pwr with crossed := 0, lowest := [], unrecovered := 0 } else s.pwr
  let s := { s with pwr := { p with crossed := p.crossed ||| bit, unrecovered := p.unrecovered ||| bit } }
  let s := if first then
    { ((s.wr Reg.SYS_STATE_BRACE 1).wr Reg.PWR_SUPV_STAT_BRACE 1) with scan := { s.scan with braceHold := true } } else s
  let s := (s.wr ⟨Reg.PWR_SUPV_STAT_BELOW.addr, r, 1⟩ 1).setW1c ⟨Reg.PWR_SUPV_STAT_SEEN.addr, 8 + r, 1⟩
  (s.railEffects r).raise (if r ≤ 1 then Ev.BROWN_C else Ev.BROWN_A) r

/-- R467: a reset or guard crossing of the rail waits that falls in the same instant. -/
def State.resetComing (s : State) (at_ : Vt) (rail : Nat) : Bool :=
  s.pending.any fun c => match c with
    | .railReset a r => a == at_ && r.val == rail
    | .railGuard a r => a == at_ && r.val == rail
    | _ => false

/-- R463: a rail has stayed below its warning level for 0.5 µs. One that crosses its reset or guard level in the same instant, or has
crossed it, raises no warning (R467). -/
def execRailWarning (at_ : Vt) (rail : Fin 5) (s : State) : Host.Outcome State Fault Refusal :=
  let s := s.elapseTo at_
  .next (if !s.supervised || bitAt (s.rd Reg.PWR_SUPV_STAT_BELOW) rail.val || bitAt s.pwr.down.toNat rail.val ||
      s.resetComing at_ rail.val then s else s.railWarn rail.val)

/-- R462: MIN_RAIL and MIN_MV among the rails that have crossed: the one furthest below its own warning level, the lowest-numbered
of equal ones (log entry 52). -/
def State.brownUpdate (s : State) : State :=
  let depth (r v : Nat) : Int := (s.warnMv r : Int) - v
  let l := (List.range 5).filterMap fun r =>
    if bitAt s.pwr.crossed.toNat r then (tabFind s.pwr.lowest r).map fun v => (r, v) else none
  match l with
  | [] => s
  | e :: t =>
    let m := t.foldl (fun (b c : Nat × Nat) => if depth b.1 b.2 < depth c.1 c.2 then c else b) e
    (s.wr Reg.PWR_BROWN_MIN_RAIL m.1).wr Reg.PWR_BROWN_MIN_MV (m.2 / 10 * 10)

/-- R462: the supervisor ADC samples the five switched rails, in mV. BELOW follows a rail that is back above its level. -/
def execSupervisorAdcSample (vddc vdds vddh vddio vdda : BitVec 11) (s : State) : Host.Outcome State Fault Refusal :=
  .next (if !s.supervised || !s.rdB Reg.SYS_STATE_BRACE then s else
    let mv := [vddc.toNat, vdds.toNat, vddh.toNat, vddio.toNat, vdda.toNat]
    let low := (List.range 5).map fun r => (r, min (mv.getD r 0) ((tabFind s.pwr.lowest r).getD 2047))
    let s := { s with pwr := { s.pwr with lowest := low } }
    let s := (List.range 5).foldl (fun s r =>
      if s.warnMv r ≤ mv.getD r 0 then s.wr ⟨Reg.PWR_SUPV_STAT_BELOW.addr, r, 1⟩ 0 else s) s
    s.brownUpdate)

/-- R465: a rail has met its recovery condition of Table 17.2. -/
def execRailRecovery (at_ : Vt) (rail : Fin 5) (s : State) : Host.Outcome State Fault Refusal :=
  let s := s.elapseTo at_
  let s := s.wr ⟨Reg.PWR_SUPV_STAT_BELOW.addr, rail.val, 1⟩ 0
  .next { s with pwr := { s.pwr with unrecovered := s.pwr.unrecovered &&& ~~~ BitVec.ofNat 5 (2 ^ rail.val) } }

/-- R466: BRACE ends; the withheld boot-record write goes on, and the display resumes in the three steps of R466. -/
def State.braceEnd (s : State) : State :=
  let s := ((s.wr Reg.SYS_STATE_BRACE 0).wr Reg.PWR_SUPV_STAT_BRACE 0).wr Reg.PWR_SUPV_STAT_BLANKED 0
  let s := { s with
    sink := { s.sink with hold := false }
    scan := { s.scan with braceHold := s.scan.braceHold && !s.idle } }
  let s := match s.store.recordDue with
    | some k => { (s.writeRecord k) with store := { (s.writeRecord k).store with recordDue := none } }
    | none => s
  s.raise Ev.BROWN_CLEAR (s.rd Reg.PWR_BROWN_MIN_MV * 65536 + s.rd Reg.PWR_BROWN_MIN_RAIL)

/-- R466: every rail has met its recovery condition. -/
def execBraceEnd (at_ : Vt) (s : State) : Host.Outcome State Fault Refusal :=
  let s := s.elapseTo at_
  .next (if s.rdB Reg.SYS_STATE_BRACE && s.pwr.unrecovered == 0 then s.braceEnd else s)

/-! ## Reset and guard levels (R461, R467) -/

/-- R461, R467: the dark-safe state, and the rail's domains held in reset until it recovers. -/
def State.railDown (s : State) (r : Nat) (guard_ : Bool) : State :=
  let s := (railDomains r).foldl State.domainOff (s.darkEnter 1)
  { s with pwr := { s.pwr with resetRail := some (s.pwr.resetRail.getD (r, guard_)), down := s.pwr.down ||| BitVec.ofNat 5 (2 ^ r) } }

/-- R467: a rail crosses its reset level. -/
def execRailReset (at_ : Vt) (rail : Fin 5) (s : State) : Host.Outcome State Fault Refusal :=
  let s := s.elapseTo at_
  .next (if s.supervised then s.railDown rail.val false else s)

/-- R461: VDDC or VDDS crosses its guard level. -/
def execRailGuard (at_ : Vt) (rail : Fin 2) (s : State) : Host.Outcome State Fault Refusal :=
  let s := s.elapseTo at_
  .next (if s.supervised then s.railDown rail.val true else s)

/-- A boot that samples BOOTSEL. -/
def State.bootWith (s : State) (bootsel : BitVec 2) (rail : Nat) (guard_ : Bool) : State := (s.setBootsel bootsel).boot rail guard_ none

/-- R459, R461, R467: the rails of `rails` are in their windows, or have met their recovery condition. Once no rail holds the device, and
with every rail there where the order of R457 was not met, the boot of R433 begins. -/
def execSupplyRecovered (at_ : Vt) (rails : BitVec 5) (bootsel : BitVec 2) (s : State) : Host.Outcome State Fault Refusal :=
  let s := s.elapseTo at_
  let due := s.pwr.orderHold || s.pwr.resetRail.isSome
  let t := { s with pwr := { s.pwr with down := s.pwr.down &&& ~~~ rails, orderHold := s.pwr.orderHold && rails != 31 } }
  .next (if !due || t.supplyHeld || t.pwr.resetN then t else
    match t.pwr.resetRail with
    | some (r, g) => t.bootWith bootsel r g
    | none => t.bootWith bootsel 5 false)

/-! ## Power-on and RESET_N (R433) -/

/-- R433, R459: VDDAO has been above its POR release level for 1 ms; `rails` are the other five within their windows. With all of them and
RESET_N high the boot begins; else the switched domains are held. LIMIT_BOOT is lost with AON, and ALW starts anew. -/
def execPowerOnReset (bootsel : BitVec 2) (rails : BitVec 5) (s : State) : Host.Outcome State Fault Refusal :=
  let t := s.wr Reg.SYS_ROOK_STAT_LIMIT_BOOT 0
  let t := { t with pwr := { t.pwr with aoDown := false, orderHold := rails != 31, down := 0, resetRail := none, alwLost := none } }
  .next (if s.pwr.resetN || rails != 31 then t.heldInReset else t.bootWith bootsel 5 false)

/-- R433: RESET_N rises; the boot begins unless the supplies hold the device. -/
def execResetNRise (bootsel : BitVec 2) (s : State) : Host.Outcome State Fault Refusal :=
  let t := { s with pwr := { s.pwr with resetN := false } }
  .next (if s.supplyHeld then t else t.bootWith bootsel 6 false)

/-- R433: RESET_N falls: the device is held in reset until it rises. -/
def execResetNAssert (s : State) : Host.Outcome State Fault Refusal :=
  .next { s.heldInReset with pwr := { s.heldInReset.pwr with resetN := true } }

/-- Table 1.3: VDDAO falls below POR: the device resets, AON with it. -/
def execVddaoBelowPor (s : State) : Host.Outcome State Fault Refusal :=
  let t := (s.wr Reg.SYS_ROOK_STAT_LIMIT_BOOT 0).heldInReset
  .next { t with pwr := { t.pwr with aoDown := true } }

/-! ## REF and ALW (R473, R474) -/

/-- R473: REF has stopped. In Sentry it is stopped by intent. -/
def execRefLost (at_ : Vt) (s : State) : Host.Outcome State Fault Refusal :=
  let s := s.elapseTo at_
  .next (if s.pwr.refLost || s.devState == 0 then s else
    let s := s.darkEnter 2
    let s := (s.setW1c Reg.CLK_STAT_REF_LOST).gckStop
    { (s.raise Ev.GCK_UNLOCK (2 ^ 31)) with pwr := { s.pwr with refLost := true } })

/-- R473: REF has run again for 1 ms: the boot of R433, unless the supplies or RESET_N hold the device. -/
def execRefRestored (at_ : Vt) (bootsel : BitVec 2) (s : State) : Host.Outcome State Fault Refusal :=
  let s := s.elapseTo at_
  .next (if s.pwr.refLost then s.bootWith bootsel 6 false else s)

/-- R474: ALW has stopped; no row of the table lets it run again but a new power-on (log entry 144). -/
def execAlwLost (at_ : Vt) (s : State) : Host.Outcome State Fault Refusal :=
  let s := s.elapseTo at_
  .next { (s.setW1c Reg.CLK_STAT_ALW_LOST) with pwr := { s.pwr with alwLost := some (s.pwr.alwLost.getD s.time.uptime) } }

/-! ## Sentry (R475 to R481) -/

/-- R475: the steps of the entry. The armed Seal is the armed buffer's (log entry 53). With the supervisors disarmed and REF stopped by
intent, no rail and no REF that comes back boots the device (R478). -/
def State.sentryEnter (s : State) : State :=
  let s := s.closeSessions
  let s := { s with klp := { s.klp with timed := [] }
                    cmd := { s.cmd with parked := [] }
                    store := { s.store with armDue := none, run := [], disarmDue := false } }
  let tod := s.rdB Reg.TIME_STAT_TOD_VALID
  let vt := s.time.vt
  let s := { s with pwr := { s.pwr with
    retained := s.store.armed.map fun img => (img, crcOf crc32c img)
    todKept := tod, sentryAt := s.time.uptime, sentryVt := vt.toNat, sentry := 0, wakeSeen := 0,
    down := 0, resetRail := none, refLost := false } }
  let s := offOrder.foldl State.domainOff s
  let s := { s with time := { s.time with vt := vt } }
  let s := ((s.wr Reg.SYS_STATE_BRACE 0).wr Reg.PWR_SUPV_STAT_BRACE 0).wr Reg.PWR_SUPV_STAT_BLANKED 0
  let s := (s.wr Reg.PWR_SUPV_STAT_BELOW 0).wr Reg.CLK_STAT_SYS_LOCK 0
  s.enterState 0

/-- R474, R481: the time in Sentry that ALW has counted. -/
def State.sentryTime (s : State) : Nat := (s.pwr.alwLost.getD s.time.uptime) - s.pwr.sentryAt

/-- R477, R478, R480: the boot that a wake begins, with what Table 17.5 keeps; VT is extended by the time counted in Sentry (R481). -/
def State.wake (s : State) (bootsel : BitVec 2) (cause : Nat) : State :=
  let keep := [Reg.PWR_WAKE_PIN_EN.addr, Reg.PWR_ALARM_DELAY_S.addr, Reg.PWR_SUPV_CFG_WARN_C.addr, Reg.PWR_BROWN_MIN_MV.addr]
  let t := s.bootWith bootsel 6 false
  let t := keep.foldl (fun t a => t.setReg a (s.reg a)) t
  let t := { t with
    time := { t.time with vt := BitVec.ofNat 80 (s.pwr.sentryVt + s.sentryTime) }
    pwr := { t.pwr with retained := s.pwr.retained, waking := true } }
  let t := (t.wrB Reg.TIME_STAT_TOD_VALID s.pwr.todKept).wr Reg.PWR_WAKE_CAUSE cause
  t.raise Ev.WAKE cause

/-- R478: the WAKE pin is a wake source. -/
def State.pinArmed (s : State) : Bool := s.rdB Reg.PWR_WAKE_PIN_EN

/-- PWR_WAKE.PORT; 6 and 7 act as 0. -/
def State.wakePort (s : State) : Nat := let p := s.rd Reg.PWR_WAKE_PORT; if p < 6 then p else 0

/-- R478: signal energy on this port is a wake source. -/
def State.portArmed (s : State) (p : Nat) : Bool := s.rdB Reg.PWR_WAKE_LINK_EN && p == s.wakePort

/-- R478, R479: an armed source becomes active: in Sentry the device wakes; while a SENTRY command waits it is not lost, and wakes
the device as the entry completes. -/
def State.wakeSource (s : State) (bootsel : BitVec 2) (cause : Nat) : State :=
  if s.devState = 0 then s.wake bootsel cause
  else if s.pwr.sentry ≠ 0 ∧ s.pwr.wakeSeen = 0 then { s with pwr := { s.pwr with wakeSeen := cause } }
  else s

/-- R475, R479: SENTRY was answered, and the device enters Sentry; `pin` and `energy` are the wake inputs that are active as the
entry completes. -/
def execSentryEntry (at_ : Vt) (pin : Bool) (energy : BitVec 6) (bootsel : BitVec 2) (s : State) : Host.Outcome State Fault Refusal :=
  let s := s.elapseTo at_
  .next (if s.pwr.sentry = 2 ∧ 2 ≤ s.devState ∧ s.devState ≤ 6 then
    let seen := s.pwr.wakeSeen
    let s := s.sentryEnter
    if seen = 1 ∨ (pin ∧ s.pinArmed) then s.wake bootsel 1
    else if seen = 2 ∨ (List.range 6).any (fun p => bitAt energy.toNat p && s.portArmed p) then s.wake bootsel 2
    else s
  else s)

/-- R478: the WAKE pin has held its active level for 100 µs. -/
def execWakePin (at_ : Vt) (bootsel : BitVec 2) (s : State) : Host.Outcome State Fault Refusal :=
  let s := s.elapseTo at_
  .next (if s.pinArmed then s.wakeSource bootsel 1 else s)

/-- R478: a signal has been present on a port's receive pair for 20 µs. -/
def execLinkEnergy (at_ : Vt) (port : Fin 6) (bootsel : BitVec 2) (s : State) : Host.Outcome State Fault Refusal :=
  let s := s.elapseTo at_
  .next (if s.portArmed port.val then s.wakeSource bootsel 2 else s)

/-- R474, R478: DELAY_S seconds have passed since entry, counted on ALW. -/
def execAlarm (at_ : Vt) (bootsel : BitVec 2) (s : State) : Host.Outcome State Fault Refusal :=
  let s := s.elapseTo at_
  let d := s.rd Reg.PWR_ALARM_DELAY_S
  .next (if s.devState == 0 && s.rdB Reg.PWR_WAKE_ALARM_EN && d != 0 && s.pwr.alwLost.isNone &&
      sec d ≤ s.sentryTime then s.wake bootsel 3 else s)

end Sys2Proof.Machine
end

