-- ==== Sys2Proof/Machine/Replies.lean ====
section
/-! DEFINITION. Replies: how a command is answered on each transport, and what follows an answer (R275, R305, R309, R327, R340,
R344, R347). -/
namespace Sys2Proof.Machine

/-! ## What follows an answer -/

/-- R340: DOMAIN switches the masked domains to the values given. -/
def State.domainApply (s : State) (mask value : Nat) : State :=
  s.domainSet mask value

/-- R327, R340: what follows once a reply has started or been fetched. -/
def State.runAfter (s : State) (a : After) : State :=
  match a with
  | .nothing => s
  | .close h => if (s.sessionAt h).isSome then s.closeSession (h % 65536) else s
  | .nonce h v => s.updSession h fun (x : Session) => { x with nonce := v }
  | .sentry => { s with pwr := { s.pwr with sentry := 2 } }
  | .domains mask value => s.domainApply mask value
  | .boot slot => (s.boot 6 false (some slot)).raise Ev.FW_SWAP slot

/-! ## Posting a reply -/

/-- R347: a reply in the outbound mailbox buffer: RLEN and RDY. -/
def State.mboxPut (s : State) (st : Status) (body : List Byte) : State :=
  let out := SMap.setRange (fun _ => (0 : Byte)) s.cmd.mboxOut 0 body.length fun a => body.getD a 0
  let s := { s with cmd := { s.cmd with mboxOut := out, mboxStatus := st } }
  (s.wr Reg.SVC_STAT_RLEN body.length).wr Reg.SVC_MBOX_RDY 1

/-- R347: a first reply ends BUSY; a second one waits while BUSY or RDY is 1. What follows a reply follows its posting (log
entry 57). -/
def State.mboxReply (s : State) (owed : Bool) (st : Status) (body : List Byte) (after : After) : State :=
  if owed then ((s.wr Reg.SVC_MBOX_BUSY 0).mboxPut st body).runAfter after
  else if s.rdB Reg.SVC_MBOX_RDY || s.rdB Reg.SVC_MBOX_BUSY then
    { s with cmd := { s.cmd with mboxNext := s.cmd.mboxNext ++ [(st, body)] } }
  else s.mboxPut st body

/-- R305, R309, R344, R347: a reply with its opcode echo and status. -/
def State.postReply (s : State) (o : Origin) (op : Nat) (st : Status) (data : List Byte) (after : After) : State :=
  let body := replyBody op st data
  match o with
  | .klp h tag noReply owed peer =>
    match s.sessionAt h with
    | some x =>
      if noReply then s.runAfter after
      else s.queueOut ⟨some h, x.verMaj, x.verMin, 3, h, tag, s.nowNs, st, body, peer, owed, after⟩
    | none => s.runAfter after
  | .poll broadcast =>
    if broadcast then s.runAfter after
    else { s with poll := { s.poll with replies := s.poll.replies ++ [⟨st, body, after, s.time.uptime⟩] } }
  | .mbox owed => s.mboxReply owed st body after

/-- A COMMAND payload: opcode, whether plen is right, and the parameters (R305). A payload without an opcode echoes 0. -/
def cmdOpcode (b : List Byte) : Nat := if b.length < 2 then 0 else beAt b 0 2
def cmdPlenOk (b : List Byte) : Bool := 4 ≤ b.length && beAt b 2 2 == b.length - 4
def cmdParams (b : List Byte) : List Byte := b.drop 4

/-- R304: at the end of a restart, commands of the poll bus accepted and not completed before it are answered E_BUSY. -/
def State.localBusy (s : State) : State :=
  let cmds := s.poll.cmds
  let s := { s with poll := { s.poll with cmds := [] } }
  cmds.foldl (fun (s : State) c => s.postReply (.poll c.2) (cmdOpcode c.1) .eBusy [] .nothing) s

/-- R309: transmission of the oldest waiting answer starts. With NET off it waits. -/
def execReplySent (at_ : Vt) (s : State) : Host.Outcome State Fault Refusal :=
  let s := s.elapseTo at_
  .next (match s.klp.out with
    | m :: rest =>
      if s.powered 0 then (({ s with klp := { s.klp with out := rest } }).sendOut m).runAfter m.after else s
    | [] => s)

/-- R340: the oldest SENTRY or DOMAIN reply that has not been fetched on the poll bus for 10 ms lapses, and its change takes effect. -/
def execPollReplyLapse (at_ : Vt) (s : State) : Host.Outcome State Fault Refusal :=
  let s := s.elapseTo at_
  .next (match s.poll.replies.find? fun (r : PollReply) => r.after != .nothing && decide (r.ready + msec 10 ≤ s.time.uptime) with
    | some r => ({ s with poll := { s.poll with replies := s.poll.replies.erase r } }).runAfter r.after
    | none => s)

end Sys2Proof.Machine
end

