-- ==== Sys2Proof/Machine/Seal.lean ====
section
/-! DEFINITION. The configuration Seal: staging, the checks of Table 16.8 and the application of R441. -/
namespace Sys2Proof.Machine

/-! ## Staging and images (R442, R443) -/

/-- A byte of the staging buffer. -/
def stagedReset (_ : Nat) : Byte := 0
def State.stagedByte (s : State) (o : Nat) : Byte := SMap.get stagedReset s.store.staged o

/-- A granule of 64 bytes is marked as staged. -/
def State.marked (s : State) (g : Nat) : Bool := SMap.get (fun _ => false) s.store.marks g

/-- Something is staged since the last ARM or boot. -/
def State.anyStaged (s : State) : Bool := s.store.touched

/-- How many bytes of an image its header's length claims, within the buffer. -/
def imageSize (len : Nat) : Nat := max 64 (min 262144 len)

/-- The staged image, as long as its header says. -/
def State.stagedImage (s : State) : List Byte :=
  let len := leNat ((List.range 4).map fun i => s.stagedByte (8 + i))
  (List.range (imageSize len)).map s.stagedByte

/-- R442: every granule below length is marked. -/
def State.stagedWhole (s : State) (len : Nat) : Bool := (List.range ((len + 63) / 64)).all s.marked

/-- Offset of Seal copy c in boot flash (Table 16.4). -/
def sealCopyAt (c : Nat) : Nat := if c = 0 then 0x110000 else 0x150000

/-- The stored image of copy c, as long as its header says. -/
def State.sealCopy (s : State) (c : Nat) : List Byte :=
  s.flashBytes (sealCopyAt c) (imageSize (leNat (s.flashBytes (sealCopyAt c + 8) 4)))

/-- Of two copies with a property, the one of the higher generation. -/
def pickCopy (a b : List Byte) (p : List Byte → Bool) : Option Nat :=
  match p a, p b with
  | true, true => some (if sealGeneration a < sealGeneration b then 1 else 0)
  | true, false => some 0
  | false, true => some 1
  | false, false => none

/-- R443: the copy that is newest and passes its CRC. -/
def State.storedBest (s : State) : Option Nat := pickCopy (s.sealCopy 0) (s.sealCopy 1) sealIntact

/-- R443: the copy of the higher generation among those with the magic. -/
def State.storedMagic (s : State) : Option Nat := pickCopy (s.sealCopy 0) (s.sealCopy 1) sealMarked

/-- Write bytes into the staging buffer and mark the granules they touch. -/
def State.stage (s : State) (o : Nat) (b : List Byte) : State :=
  { s with store := { s.store with
      staged := SMap.setRange stagedReset s.store.staged o b.length fun a => b.getD (a - o) 0
      marks := SMap.setRange (fun _ => false) s.store.marks (o / 64) ((o + b.length + 63) / 64 - o / 64) fun _ => true
      touched := true } }

/-- R443: a stored copy in the staging buffer, with every granule of it marked; nothing counts as staged since the boot. -/
def State.stageCopy (s : State) (img : List Byte) : State :=
  let t := s.stage 0 img
  { t with store := { t.store with
      marks := SMap.setRange (fun _ => false) t.store.marks 0 4096 fun _ => true, touched := s.store.touched } }

/-! ## What a Seal may set (R440, R441) -/

/-- Table 16.8, 0x0106: the registers a REGS entry may name. -/
def sealOpen (a : Nat) : Bool :=
  match blockOf a with
  | some .time | some .clk | some .link | some .fwd | some .pipe | some .grey | some .scan | some .sink | some .spwm | some .mir => true
  | some .census => a == Reg.CENSUS_CFG_EN.addr || (0xB0004 ≤ a && a ≤ 0xB0008)
  | some .motif => a < 0xC0100 || a == Reg.MOTIF_FB_CFG_TIMEOUT.addr
  | some .sys => a == Reg.SVC_CFG_QUAD.addr || a == Reg.SYS_ROOK_CFG_WDOG_ACTION.addr
  | _ => false

/-- The RW and RWC bits of a register. -/
def cfgMask (a : Nat) : Nat := match regDefAt a with
  | some d => d.rw ||| d.rwc
  | none => 0

/-- A REGS entry names an open register and sets only RW and RWC bits (log entry 62). -/
def regEntryOk (a v : Nat) : Bool :=
  a / 2 % 2 == 0 && sealOpen (a / 4 * 4) && cfgMask (a / 4 * 4) != 0 && v &&& cfgMask (a / 4 * 4) == v

/-- The registers a Seal can set: open registers with RW or RWC bits. -/
def sealRegs : List Nat :=
  ([Block.sys, .clk, .time, .link, .fwd, .pipe, .grey, .scan, .sink, .census, .motif, .spwm, .mir].flatMap regDefsOf).flatMap fun d =>
    if d.rw ||| d.rwc = 0 then [] else ((List.range d.count).map fun i => d.base + i * d.stride).filter sealOpen

/-- The u32 pairs of a REGS section. -/
def regPairs (d : List Byte) : List (Nat × Nat) := (entries 8 d).map fun e => (leAt e 0 4, leAt e 4 4)

/-- The register words a section sets, in order. -/
def secWrites (x : Sec) : List (Nat × Nat) :=
  if x.typ = 1 then (regPairs x.data).map fun (a, v) => (a / 4 * 4, v)
  else if x.typ = 3 then (entries 24 x.data).flatMap fun e => (List.range 5).map fun k => (mapWordAddr (byteAt e 0) k, leAt e (4 + 4 * k) 4)
  else []

/-- The register words of a Seal in section order, the entries of REGS in order. -/
def sealWrites (l : List Sec) : List (Nat × Nat) := l.flatMap secWrites

/-- The RW and RWC bits a configuration gives a register: the last word that names it, else its reset value (R441). -/
def sealWord (w : List (Nat × Nat)) (a : Nat) : Nat :=
  (match w.reverse.find? fun e => e.1 == a with
    | some e => e.2
    | none => (regReset a).toNat) &&& cfgMask a

/-- A register word with its RW and RWC bits replaced. -/
def setCfg (a : Nat) (old : Word) (v : Nat) : Word := (old &&& ~~~ BitVec.ofNat 32 (cfgMask a)) ||| BitVec.ofNat 32 v

/-- Table 16.7: the FCM regions a Seal's runs may fill: calibration banks, transfer tables and placement table, host definitions,
user region, by offset and size. -/
def sealRegions : List (Nat × Nat) :=
  [(0x48000, 221184), (0x7E000, 131072), (0x9E000, 65536), (0x126000, 32768), (0x13E000, 221184), (0x174000, 49152)]

/-- A run lies within one of them. -/
def regionOk (o n : Nat) : Bool := sealRegions.any fun r => decide (r.1 ≤ o) && decide (o + n ≤ r.1 + r.2)

/-- Offset of the group member lists (Table 3.9): the census region after the map. -/
def memberAt : Nat := 0x139000

/-- The FCM contents of a Seal, over reset values (R441). -/
def State.sealFcm (s : State) (l : List Sec) : State :=
  let s := sealRegions.foldl (fun (s : State) r => s.writeFcm r.1 r.2 fun _ => 0) s
  let s := s.writeFcm memberAt 20480 fun _ => 0
  l.foldl (fun (s : State) x =>
    if x.typ = 2 then ((fcmRuns x.data.length x.data).getD []).foldl (fun (s : State) r => s.fcmBytes r.1 r.2) s
    else if x.typ = 4 then (entries 516 x.data).foldl (fun (s : State) e => s.fcmBytes (defAt (byteAt e 0)) (e.drop 4)) s
    else if x.typ = 6 then ((memberRuns x.data.length x.data).getD []).foldl (fun (s : State) r =>
      s.fcmBytes (memberAt + 2 * r.1) (r.2.flatMap fun e => leBytes 2 e)) s
    else s) s

/-- R229: the fallback section in the fallback definitions and descriptors; without one every descriptor has EN 0. -/
def State.fallbackCopy (s : State) (d : List Byte) : State :=
  let d := if d.isEmpty then List.replicate 4352 0 else d
  (s.fcmBytes 0x12E000 (d.take 4096)).fcmBytes 0x130000 (d.drop 4096)

/-- R441, R445: AUTH_REQ: of the last in section order of the KEYS section and of what REGS gives FWD_KLP_CFG, else its reset value. -/
def sealAuthReq (l : List Sec) : Bool :=
  let a := Reg.FWD_KLP_CFG_AUTH_REQ.addr
  l.foldl (fun (acc : Bool) x =>
    if x.typ = 9 then bitAt (byteAt x.data 0) 0
    else match (secWrites x).reverse.find? fun e => e.1 == a with
      | some e => bitAt e.2 2
      | none => acc) (bitAt (regReset a).toNat 2)

/-- R441: the configuration a Seal describes, as a state for the checks to read. -/
def State.sealConfig (s : State) (l : List Sec) : State :=
  let w := sealWrites l
  let s := sealRegs.foldl (fun (s : State) a =>
    let v := setCfg a (s.reg a) (sealWord w a)
    (s.setReg a v).setShReg a v) s
  let s := s.wrB Reg.FWD_KLP_CFG_AUTH_REQ (sealAuthReq l)
  let d := match secOf l 8 with
    | some x => x.data
    | none => []
  (s.sealFcm l).fallbackCopy d

/-! ## The checks (Table 16.8) -/

/-- Entries of GROUPS: index, policy, arm, BASE, COUNT. -/
structure SealGroup where
  idx : Nat
  policy : Nat
  arm : Bool
  base : Nat
  count : Nat
  deriving DecidableEq, Repr

/-- The groups of a Seal. -/
def sealGroups (l : List Sec) : List SealGroup :=
  match secOf l 5 with
  | some x => (entries 8 x.data).map fun e => ⟨byteAt e 0, byteAt e 1 % 2, byteAt e 2 != 0, leAt e 4 2, leAt e 6 2⟩
  | none => []

/-- The data of a section, empty without one. -/
def secData (l : List Sec) (typ : Nat) : List Byte := match secOf l typ with
  | some x => x.data
  | none => []

/-- A word of the PAWN section; 0 without one. -/
def pawnWord (d : List Byte) (o : Nat) : Nat := leAt d o 4

/-- The programs of the PAWN section: base and n. -/
def sealProgs (d : List Byte) : List (Nat × Nat) :=
  if d.isEmpty then [] else (List.range (byteAt d 300)).map fun i => (byteAt d (301 + 2 * i), byteAt d (302 + 2 * i))

/-- Two ranges (start, length) share an element. -/
def rangesMeet (a b : Nat × Nat) : Bool := a.1 < b.1 + b.2 && b.1 < a.1 + a.2

/-- Some two different elements of a list are in a relation. -/
def anyPair {α : Type} (r : α → α → Bool) : List α → Bool
  | [] => false
  | x :: t => t.any (r x) || anyPair r t

/-- R90: the footprint of a map: x, y, width, height. -/
def MapDesc.foot (d : MapDesc) : Nat × Nat × Nat × Nat :=
  if d.rot % 2 = 0 then (d.tx, d.ty, d.w, d.h) else (d.tx, d.ty, d.h, d.w)

/-- Two footprints share a pixel. -/
def footsMeet (a b : Nat × Nat × Nat × Nat) : Bool :=
  rangesMeet (a.1, a.2.2.1) (b.1, b.2.2.1) && rangesMeet (a.2.1, a.2.2.2) (b.2.1, b.2.2.2)

/-- The maps of a configuration. -/
def State.allMaps (t : State) : List MapDesc := (List.range 64).map t.mapDesc

/-- 0x0302: slots beyond the board, or a footprint outside the tile; RAW16 reaches emitters, not pixels (R93). -/
def State.mapBad (t : State) (d : MapDesc) : Bool :=
  let (x, y, w, h) := d.foot
  decide (49152 < d.base + d.slots) ||
    (if d.raw then decide (49152 < d.tx + d.pixels)
     else d.pixels != 0 && (decide (t.rd Reg.PIPE_CFG_TILE_W < x + w) || decide (t.rd Reg.PIPE_CFG_TILE_H < y + h)))

/-- 0x0303. -/
def State.mapsMeet (t : State) : Bool :=
  let on := t.allMaps.filter (·.en)
  anyPair (fun a b => rangesMeet (a.base, a.slots) (b.base, b.slots)) on ||
    anyPair (fun a b => footsMeet a.foot b.foot) (on.filter fun d => d.expect && !d.raw && d.pixels != 0)

/-- 0x0207: geometry beyond the sinks. -/
def State.geometryBad (t : State) : Bool :=
  let tw := t.rd Reg.PIPE_CFG_TILE_W
  let th := t.rd Reg.PIPE_CFG_TILE_H
  let lines := t.rd Reg.SCAN_GEOM_LINES
  if t.rdB Reg.PIPE_CFG_LAYOUT then
    (List.range 16384).any fun p =>
      let w := t.fcm32 (fcmPlace + 4 * p)
      bitAt w 31 && (decide (lines ≤ w % 128) ||
        decide (383 < w / 128 % 512 + ((if tw = 0 then 3 else t.pixelPrims (p % tw) (p / tw)) - 1) * (w / 65536 % 256)))
  else decide (384 < tw * t.layoutPrims * ((th + lines - 1) / lines))

/-- 0x0304: the selected bank is given whole and its CRC-32C is the one of PIPE_CAL_CRC_b. -/
def State.calBankBad (t : State) (l : List Sec) : Bool :=
  let b := t.rd Reg.PIPE_CAL_CFG_BANK
  let runs := ((fcmRuns (secData l 2).length (secData l 2)).getD [])
  let given (o : Nat) : Bool := runs.any fun r => decide (r.1 ≤ o) && decide (o < r.1 + r.2.length)
  let off := (List.range fcmCalSize).map (fcmCal b + ·)
  t.rdB Reg.PIPE_CAL_CFG_EN &&
    (!off.all given || crcOf crc32c (off.map t.fcmByte) != (t.reg (Reg.PIPE_CAL_CRC_CRC b).addr).toNat)

/-- 0x0401: the supply ratings. Currents count in units of 24 mA / 2^28 at full FF. -/
def State.ratingBad (t : State) (img : List Byte) : Bool :=
  let sum := (((List.range 384).filter t.bankOn).map (t.iEff 1024)).foldl (· + ·) 0
  decide (sealVledMax img < t.budget) || decide (sealLinePeak img * 2 ^ 28 < sum * 24)

/-- 0x0403: a table whose input the source uses is strictly descending. -/
def State.ntcBad (t : State) : Bool :=
  let src := t.tbSrc
  let bad (b : Bool) : Bool := (List.range 16).any fun j => t.ntcEntry b j ≤ t.ntcEntry b (j + 1)
  ((src == 1 || src == 3 || src == 4) && bad false) || ((src == 2 || src == 3 || src == 4) && bad true)

/-- 0x0502. -/
def State.groupBad (t : State) (g : SealGroup) : Bool :=
  g.count == 0 || decide (10240 < g.base + g.count) || (g.policy == 1 && decide (88 < t.measDelay)) ||
    (List.range g.count).any fun i => decide (t.rd Reg.SCAN_GEOM_LINES * 384 ≤ t.memberEntry (g.base + i))

/-- 0x0601: a definition of MOTIFS, or one of the eight of a fallback section, is not valid (R227). -/
def State.motifsBad (t : State) (l : List Sec) : Bool :=
  (entries 516 (secData l 4)).any (fun e => !(t.motifDef (defAt (byteAt e 0))).valid) ||
    (!(secData l 8).isEmpty && (List.range 8).any fun j => !(t.motifDef (0x12E000 + 512 * j)).valid)

/-- 0x0602: a fallback descriptor that is enabled has a region, and names one of FD0 to FD7. -/
def fallbackBad (fd : List Byte) : Bool :=
  !fd.isEmpty && (List.range 8).any fun i =>
    let e := EngDesc.ofWords (BitVec.ofNat 32 (leAt fd (4096 + 32 * i) 4)) 0 (BitVec.ofNat 32 (leAt fd (4104 + 32 * i) 4)) 0
    e.en && (e.w == 0 || e.h == 0 || decide (7 < leAt fd (4096 + 32 * i) 4 / 2 % 64))

/-- 0x0801: START, ENTRY and END of R364, and programs within the store. -/
def pawnRangeBad (d : List Byte) : Bool :=
  !d.isEmpty && ((List.range 8).any (fun n =>
    let w := pawnWord d (12 + 12 * n + 8)
    let start := w % 64
    let last := w / 256 % 64
    let entry := w / 65536 % 64
    !(start ≤ entry && entry ≤ last && last ≤ 47)) || (sealProgs d).any fun p => decide (48 < p.1 + p.2))

/-- 0x0802. -/
def pawnWindowBad (d : List Byte) : Bool :=
  !d.isEmpty && (List.range 8).any fun n =>
    let w := pawnWord d (12 + 12 * n + 4)
    decide (32 < w % 32 + w / 256 % 16)

/-- The first of a list that is in a relation with a later one. -/
def firstPair {α : Type} (r : α → α → Bool) : List α → Option α
  | [] => none
  | x :: t => if t.any (r x) then some x else firstPair r t

/-- The lowest-numbered map that fails a test. -/
def State.firstMap (t : State) (bad : MapDesc → Bool) : Option Nat := (List.range 64).find? fun m => bad (t.mapDesc m)

/-- 0x0303: the lowest-numbered map that shares with a later one. -/
def State.firstMeet (t : State) : Option Nat :=
  let on := (List.range 64).filter fun m => (t.mapDesc m).en
  let tile := on.filter fun m => (t.mapDesc m).expect && !(t.mapDesc m).raw && (t.mapDesc m).pixels != 0
  let a := firstPair (fun a b => rangesMeet ((t.mapDesc a).base, (t.mapDesc a).slots) ((t.mapDesc b).base, (t.mapDesc b).slots)) on
  a.orElse fun _ => firstPair (fun a b => footsMeet (t.mapDesc a).foot (t.mapDesc b).foot) tile

/-- The section that a map's descriptor comes from: the last whose words name it, MAPS where none does (DESIGN CHOICE, log entry 142). -/
def mapSection (l : List Sec) (m : Option Nat) : Nat :=
  match m with
  | some m => match l.reverse.find? fun x => (secWrites x).any fun e => (List.range 5).any fun k => e.1 == mapWordAddr m k with
    | some x => x.typ
    | none => 3
  | none => 3

/-- The configuration tests from 0x0201 on, in ascending code order: code, whether it fails, the section concerned. `t` is the
configuration, `s` the device. -/
def State.sealTests (s t : State) (img : List Byte) (l : List Sec) : List (Nat × Bool × Nat) :=
  let lines := t.rd Reg.SCAN_GEOM_LINES
  let period := periodOfRd t.rd
  [(0x0201, lines == 0 || decide (128 < lines), 1),
   (0x0202, !segOk t.rd, 1),
   (0x0203, !periodInRange period || !fitsRd t.rd period, 1),
   (0x0204, !phasesOk t.rd, 1),
   (0x0205, t.rd Reg.SCAN_GEOM_ORDER == 3 && !orderOk t.reg lines, 1),
   (0x0206, t.rd Reg.SCAN_LINEIF_MODE == 1 && t.rd Reg.SCAN_GEOM_ORDER != 0, 1),
   (0x0207, t.geometryBad, if t.rdB Reg.PIPE_CFG_LAYOUT then 2 else 1),
   (0x0301, t.allMaps.any fun d => !comboOk d.pattern d.format,
     mapSection l (t.firstMap fun d => !comboOk d.pattern d.format)),
   (0x0302, t.allMaps.any t.mapBad, mapSection l (t.firstMap t.mapBad)),
   (0x0303, t.mapsMeet, mapSection l t.firstMeet),
   (0x0304, t.calBankBad l, 2),
   (0x0305, !breakpointsOk t.reg, 1),
   (0x0401, t.ratingBad img, 1),
   (0x0402, !foldOk (t.reg Reg.SINK_FOLD_T_FOLD.addr), 1),
   (0x0403, t.ntcBad, 1),
   (0x0404, !(loopOk t.rd 0 (t.swP 0)) || !(loopOk t.rd 1 (t.swP 1)), 1),
   (0x0501, (sealGroups l).any fun g => g.policy == 1 && g.arm && !(t.rdB Reg.CENSUS_CFG_EN && t.rdB Reg.CENSUS_CFG_PROBE_SLOT), 5),
   (0x0502, (sealGroups l).any t.groupBad, 5),
   (0x0601, t.motifsBad l, if ((entries 516 (secData l 4)).any fun e => !(t.motifDef (defAt (byteAt e 0))).valid) then 4 else 8),
   (0x0602, fallbackBad (secData l 8), 8),
   (0x0701, (List.range 8).any fun n => !s.swStrap n && !t.swSetOk n (t.reg (swAddr n 0)) (t.reg (swAddr n 3)), 1),
   (0x0703, (sealWrites l).any fun e => (List.range 8).any fun n => s.swStrap n && decide (0xE0000 + 0x40 * n ≤ e.1) && decide (e.1 < 0xE0040 + 0x40 * n), 1),
   (0x0801, pawnRangeBad (secData l 7), 7),
   (0x0802, pawnWindowBad (secData l 7), 7),
   (0x0803, decide (16 < (sealProgs (secData l 7)).length) || anyPair rangesMeet (sealProgs (secData l 7)), 7),
   (0x0901, !levelsOk (t.rd Reg.FWD_CFG_RESERVE) (t.rd Reg.FWD_XOFF_XOFF) (t.rd Reg.FWD_XOFF_XON), 1),
   (0x0902, t.rdB Reg.FWD_KLP_CFG_AUTH_REQ && byteAt (secData l 9) 1 % 16 == 0, 9)]

/-- R439: the signature is present where OTP asks for it, and verifies with the public key of the running slot, whose hash is
KEY_HASH (log entry 61). -/
def State.sealSignatureOk (s : State) (img : List Byte) : Bool :=
  let key := s.flashBytes (slotAt (s.rd Reg.SEAL_BOOT_SLOT) + 48) 64
  if sealSigned img then
    sha256 key == s.keyHash && ecdsaOk key (slice img (sealLength img - 64) 64) (sealSignedBytes img)
  else !s.rdB Reg.SEAL_OTP_BOOT_SIG_REQ

/-- R447: the first code that fails and the offset of the section concerned divided by 4; code 0 is a pass. `whole` says that
no granule below length is unstaged. -/
def State.sealCheck (s : State) (img : List Byte) (whole : Bool) : Nat × Nat :=
  if !sealMagicOk img then (0x0101, 0)
  else if !sealLengthOk img || !whole then (0x0102, 0)
  else if sealCrc img != sealCrcOf img then (0x0103, 0)
  else if !s.sealSignatureOk img then (0x0104, 0)
  else match sealSecs img with
    | .inl off => (0x0105, off / 4)
    | .inr l =>
      let at_ (typ : Nat) : Nat := match secOf l typ with
        | some x => x.off / 4
        | none => 0
      if (regPairs (secData l 1)).any fun e => !regEntryOk e.1 e.2 then (0x0106, at_ 1)
      else if ((fcmRuns (secData l 2).length (secData l 2)).getD []).any fun r => !regionOk r.1 r.2.length then (0x0107, at_ 2)
      else match (s.sealTests (s.sealConfig l) img l).find? fun x => x.2.1 with
        | some x => (x.1, at_ x.2.2)
        | none => (0, 0)

/-- SEAL_CHECK_CODE after an evaluation. -/
def State.noteCheck (s : State) (r : Nat × Nat) : State :=
  (s.wr Reg.SEAL_CHECK_CODE_CODE r.1).wr Reg.SEAL_CHECK_CODE_OFFSET r.2

end Sys2Proof.Machine
end

