-- ==== Sys2Proof/Machine/Registers.lean ====
section
/-! DEFINITION. Register access as a whole (R2 to R6, R328, R346, R446, R499 to R503): what a read of each word returns, what a
write of each word does, and the rows that write a register of their own. -/
namespace Sys2Proof.Machine

/-! ## Locks (R400, R446) -/

/-- The registers mirrored from OTP. -/
def otpMirrored (a : Nat) : Bool :=
  a == 0x8 || a == 0xC || a == Reg.SEAL_OTP_BOOT_LINK.addr || a == Reg.SEAL_MIN_VERSION_VERSION.addr ||
    (List.range 6).any fun j => a == (Reg.SPWM_STRAP_EN (j / 3)).addr + 4 * (j % 3)

/-- R400: a register of a strap-owned unit; the other offsets of its range hold none (R5). -/
def State.strapLocked (s : State) (a : Nat) : Bool :=
  (regDefAt a).isSome && [6, 7].any fun n => s.swStrap n && decide (0xE0000 + 0x40 * n ≤ a) && decide (a < 0xE0040 + 0x40 * n)

/-- R446: the REGS entries with LOCK = 1 of the armed Seal hold in ARMED and FALLBACK. -/
def State.sealLocked (s : State) (a : Nat) : Bool := (s.devState == 5 || s.devState == 6) && s.store.locks.contains a

/-- A write of w to a word is locked. Of SPWM_TRIP_POL only the bits of strap-owned units are (log entry 54). -/
def State.locked (s : State) (a : Nat) (w : Word) : Bool :=
  otpMirrored a || s.strapLocked a || s.sealLocked a ||
    (a == Reg.SPWM_TRIP_POL_POL.addr &&
      (List.range 8).any fun k => s.tripStrap k && bitAt w.toNat k != bitAt (s.rd Reg.SPWM_TRIP_POL_POL) k)

/-! ## Reads -/

/-- A bit of a word. -/
def bitTo (i : Nat) (b : Bool) : Nat := if b then 2 ^ i else 0

/-- PERIOD, DUTY, DUTY_B and DT of an SPWM unit: a read returns the shadow (R383). -/
def spwmShadowed (a : Nat) : Bool :=
  decide (0xE0000 ≤ a) && decide (a < 0xE0200) && (a % 64 == 4 || a % 64 == 8 || a % 64 == 12 || a % 64 == 16)

/-- The stored word as a read returns it: RWC fields and SPWM timing from their shadows (R3). -/
def State.storedWord (s : State) (a : Nat) : Word :=
  if spwmShadowed a then s.shReg a
  else match regDefAt a with
    | some d => (s.reg a &&& ~~~ BitVec.ofNat 32 d.rwc) ||| (s.shReg a &&& BitVec.ofNat 32 d.rwc)
    | none => 0

/-- A word with a field replaced. -/
def putF (w : Word) (f : Fld) (v : Nat) : Word := withBits w f.lo f.len v

/-- FWD_SES_s (R310): the words of one session. -/
def State.sesWord (s : State) (i k : Nat) : Word :=
  match tabFind s.klp.sessions i with
  | none => 0
  | some x => BitVec.ofNat 32 (match k with
    | 0 => s.handle 1 i
    | 1 => (if x.key.isSome then 2 else 1) + bitTo 2 x.peer.udp.isSome + x.verMaj * 16 + x.verMin * 256 + x.partner * 65536
    | 2 => x.grant + x.avail * 256 + x.outst * 65536
    | _ => s.idleS x)

/-- PAWN_n_STATE, sampled in one access. -/
def State.pawnStateWord (s : State) (n : Nat) : Word :=
  let p := s.pawn n
  BitVec.ofNat 32 (p.pc + bitTo 6 p.run + p.wait * 2 ^ 7 + p.tx.length * 2 ^ 10 + p.rx.length * 2 ^ 13 +
    p.eFill * 2 ^ 16 + p.sFill * 2 ^ 22)

/-- The registers of pawn n that hold its state. -/
def State.pawnRegWord (s : State) (n off : Nat) (w : Word) : Word :=
  match off with
  | 0x0C => s.pawnStateWord n
  | 0x18 => (s.pawn n).emr
  | 0x1C => (s.pawn n).smr
  | 0x20 => (s.pawn n).cntA
  | 0x24 => (s.pawn n).cntB
  | _ => w

/-- PIPE_STAT. -/
def State.pipeStatWord (s : State) : Word :=
  let code := (List.range 3).foldl (fun acc i => acc + (s.board i).code * 4 ^ i) 0
  let held := (List.range 3).foldl (fun acc i => acc + bitTo (6 + i) (s.board i).held) 0
  let comp := match s.pipe.comp with
    | some c => if c.done then 3 else c.board.getD 3
    | none => 3
  BitVec.ofNat 32 (code + held + comp * 512)

/-- R275: the commands of the poll bus that wait, in its queue or for their turn. -/
def State.pollWaiting (s : State) : Nat :=
  s.poll.cmds.length + s.cmd.parked.countP fun p => match p.origin with
    | .poll _ => true
    | _ => false

/-- R215: a CENSUS report to a subscribed session is due. -/
def State.censusDue (s : State) : Bool :=
  s.floor == 3 && ((s.census.sweepReport && !(s.censusTakers 0).isEmpty) || (s.changedFrame.isSome && !(s.censusTakers 1).isEmpty))

/-- A command or a protocol message waits for the control core: events and census reports that it is to send are among them. -/
def State.coreMessages (s : State) : Bool :=
  s.censusDue || (s.klp.subs.any fun (e : Nat × Sub) => !e.2.queue.isEmpty) ||
  !s.poll.cmds.isEmpty || s.cmd.mboxDue || !s.cmd.parked.isEmpty || !s.klp.out.isEmpty || s.net.pkb.any fun k => k.holder == 2

/-- Work of the control core's own is due: an evaluation or a write of the Seal, a restore, a rewrite, a swap, or a timed command. -/
def State.coreWork (s : State) : Bool :=
  !s.store.run.isEmpty || s.store.write.isSome || s.store.swapDue.isSome || s.pwr.restoreDue != 0 || !s.rook.rewrite.isEmpty ||
    s.klp.timed.any fun x => x.held || decide (x.inst * nsUnit ≤ s.now)

/-- The control core runs firmware and has nothing to do (Table 17.4). -/
def State.coreIdle (s : State) : Bool := 2 ≤ s.devState && !s.coreDown && !s.coreMessages && !s.coreWork

/-- CLK_STAT. -/
def State.clkStatWord (s : State) (w : Word) : Word :=
  let lock := (List.range 6).foldl (fun acc p => acc + bitTo p (s.netLock p)) 0
  let w := putF w Reg.CLK_STAT_NET_LOCK lock
  let w := putF w Reg.CLK_STAT_SPW_RUN (s.rd Reg.SPWM_GSTAT_CLK_RUN)
  putF (putF w Reg.CLK_STAT_MIR_RUN (bitTo 0 s.mirRuns)) Reg.CLK_STAT_CORE_SLEEP (bitTo 0 s.coreIdle)

/-- SEAL_STAT, but for COPY. -/
def State.sealStatWord (s : State) (w : Word) : Word :=
  let f (b : List Byte → Bool) : Bool := match s.store.armed with
    | some img => b img
    | none => false
  let w := putF (putF w Reg.SEAL_STAT_BUSY (bitTo 0 (!s.store.run.isEmpty))) Reg.SEAL_STAT_STAGED (bitTo 0 s.anyStaged)
  let w := putF (putF w Reg.SEAL_STAT_ARMED_VALID (bitTo 0 s.store.armed.isSome)) Reg.SEAL_STAT_SIGNED (bitTo 0 (f sealSigned))
  putF (putF w Reg.SEAL_STAT_AUTO_ARM (bitTo 0 (f sealAutoArm))) Reg.SEAL_STAT_FLASH_BUSY (bitTo 0 s.store.write.isSome)

/-- Fields of AON and clock registers that are computed. IMMEDIATE reads 0 until the boot has ended (Table 19.2; DEDUCED, log entry
99). -/
def State.viewAon (s : State) (a : Nat) (w : Word) : Word :=
  if a = Reg.SYS_CASTLE_STAT_PENDING.addr then
    putF (w ||| BitVec.ofNat 32 s.scan.capturedMask.toNat) Reg.SYS_CASTLE_STAT_IMMEDIATE (bitTo 0 (2 ≤ s.devState && s.idle))
  else if a = Reg.SYS_STATE_STATE.addr then putF w Reg.SYS_STATE_FLOOR s.floor
  else if a = Reg.CLK_STAT_SYS_LOCK.addr then s.clkStatWord w
  else if a = 0x30010 then s.evtPend 0
  else if a = 0x30014 then s.evtPend 1
  else if a = Reg.SEAL_STAT_BUSY.addr then s.sealStatWord w
  else w

/-- Fields of NET registers that are computed. -/
def State.viewNet (s : State) (a : Nat) (w : Word) : Word :=
  if a < 0x56000 then
    let p := (a - 0x50000) / 0x1000
    if a % 0x1000 = 4 then putF w (Reg.LINK_STAT_EEE_ACT p) (bitTo 0 (s.eeeAct p))
    else if a % 0x1000 = 0x10 then putF w (Reg.LINK_PAUSE_REMAIN p) (s.pauseRemain p)
    else w
  else if a = Reg.FWD_FREE_CELLS.addr then BitVec.ofNat 32 s.freeCells
  else if a = Reg.FWD_QUEUED_CELLS.addr then BitVec.ofNat 32 s.liveQueued
  else if a = Reg.FWD_LOCKED_CELLS.addr then BitVec.ofNat 32 s.lockedCells
  else if a = Reg.FWD_DUP_AGE.addr then putF w Reg.FWD_DUP_IN_USE s.net.wins.length
  else if a = Reg.FWD_KLP_STAT_OPEN.addr then
    BitVec.ofNat 32 (s.klp.sessions.length + s.granted * 256 + s.klp.timed.length * 65536)
  else if 0x60200 ≤ a ∧ a < 0x60400 then s.sesWord ((a - 0x60200) / 16) (a % 16 / 4)
  else w

/-- Fields of PIX registers that are computed. -/
def State.viewPix (s : State) (a : Nat) (w : Word) : Word :=
  if a = Reg.TIME_STAT_SERVO.addr then putF w Reg.TIME_STAT_HOLD_S s.holdS
  else if a = Reg.MOVE_STAT_USED.addr then BitVec.ofNat 32 (s.moves.length + bitTo 9 (s.moves.length == 256))
  else if a = Reg.PIPE_STAT_BOARD_A.addr then s.pipeStatWord
  else if 0x7000C ≤ a ∧ a < 0x70018 then ((s.board ((a - 0x7000C) / 4)).frame).getD 0
  else w

/-- Fields of IOX registers that are computed. -/
def State.viewIox (s : State) (a : Nat) (w : Word) : Word :=
  if a = Reg.PB_STAT_TOKEN.addr then
    BitVec.ofNat 32 ((if s.time.uptime < s.poll.tokenEnd then w.toNat % 2 else 0) + s.pollWaiting * 2 + min 4 s.poll.replies.length * 16 + s.poll.events.length * 128)
  else if a = Reg.PAWN_STAT_RUNNING.addr then
    putF (putF w Reg.PAWN_STAT_RUNNING ((s.runningPawns.map (2 ^ ·)).sum)) Reg.PAWN_STAT_OVERLAP (bitTo 0 s.pawnOverlap)
  else if 0xD0100 ≤ a ∧ a < 0xD0300 then s.pawnRegWord ((a - 0xD0100) / 0x40) (a % 0x40) w
  else if a = Reg.MIR_STAT_STATE.addr then putF w Reg.MIR_STAT_SRC_LOST (bitTo 0 (!s.powered 2))
  else w

/-- Fields of SUP registers that are computed. -/
def State.viewSup (s : State) (a : Nat) (w : Word) : Word :=
  if a < 0xE0200 ∧ a % 0x40 = 0x1C then
    let n := (a - 0xE0000) / 0x40
    let w := putF w (Reg.SPWM_STAT_TRIP_ACTIVE n) (bitTo 0 (s.swAsserted n != 0))
    let w := putF (putF w (Reg.SPWM_STAT_TRIPPED n) (bitTo 0 (s.swTripped n))) (Reg.SPWM_STAT_STRAP n) (bitTo 0 (s.swStrap n))
    putF (putF w (Reg.SPWM_STAT_LOOP_OWNED n) (bitTo 0 (s.swLoopOwned n))) (Reg.SPWM_STAT_PINNED n) (bitTo 0 (s.swPinned n))
  else if a = Reg.SPWM_TRIP_POL_POL.addr then putF w Reg.SPWM_TRIP_POL_LEVEL s.tripLevel
  else if a = Reg.SPWM_PIN_LOCK_PIN.addr then
    putF (putF w Reg.SPWM_PIN_LOCK_PIN s.pwr.pinned.toNat) Reg.SPWM_PIN_LOCK_STEP1 (bitTo 0 s.pinOpen)
  else if a = Reg.SPWM_GSTAT_CLK_RUN.addr then putF w Reg.SPWM_GSTAT_DBG_HALT (bitTo 0 s.swHalted)
  else w

/-- What a read without side effects returns of a word whose block is powered. Offsets that no register occupies read 0 (R5). -/
def State.viewWord (s : State) (a : Nat) : Word :=
  let w := s.storedWord a
  match domainOf a with
  | none => s.viewAon a w
  | some 0 => s.viewNet a w
  | some 2 => if blockOf a = some .fcm then BitVec.ofNat 32 (s.fcm32 (a - 0x1000000)) else s.viewPix a w
  | some 4 => s.viewIox a w
  | some 5 => s.viewSup a w
  | _ => w

/-- The registers of byte-wide saturating counters, but for those with one instance per unit. -/
def byteCounters : List Nat :=
  [Reg.TIME_CNT_STEP_CNT.addr, Reg.MOVE_CNT_LATE_CNT.addr, Reg.PB_CNT0_CRC_ERR.addr, Reg.PB_CNT1_EV_LOST.addr, Reg.FWD_CNT0_STOMP.addr,
   Reg.FWD_CNT1_WIN_EVICT.addr, Reg.FWD_KLP_CNT0_HCHECK.addr, Reg.FWD_KLP_CNT1_ADDR.addr, Reg.PIPE_CNT0_LATE_PKT.addr,
   Reg.PIPE_CNT1_REJECT.addr, Reg.SCAN_CNT_STALL.addr, Reg.CENSUS_CNT_NEW_FAULT.addr]

/-- R500: the counter fields of the word at an address; none where it holds no counter that software may write. -/
def counterFlds (a : Nat) : List Fld :=
  let link := decide (0x50000 ≤ a ∧ a < 0x56000) && (a % 0x1000 == 0x20 || a % 0x1000 == 0x24)
  if a = Reg.EVT_ECC_CNT_CORR.addr then [Reg.EVT_ECC_CNT_CORR, Reg.EVT_ECC_CNT_UNCORR]
  else if a = Reg.FWD_DUP_CNT_DUP.addr then [Reg.FWD_DUP_CNT_DUP]
  else if a = Reg.MIR_CNT_FRAMES.addr then [Reg.MIR_CNT_FRAMES, Reg.MIR_CNT_SKIP, Reg.MIR_CNT_SELF]
  else if 0xE0000 ≤ a ∧ a < 0xE0200 ∧ a % 0x40 = 0x20 then
    let n := (a - 0xE0000) / 0x40
    [Reg.SPWM_CNT_SKIP n, Reg.SPWM_CNT_TRIPS n]
  else if 0xF0000 ≤ a ∧ a < 0xF0200 ∧ a % 0x40 = 0x3C then
    let n := (a - 0xF0000) / 0x40
    [Reg.CVU_CNT_WINDOWS n, Reg.CVU_CNT_MISMATCH n, Reg.CVU_CNT_ABANDONED n]
  else if byteCounters.contains a || link then (List.range 4).map fun k => ⟨a, 8 * k, 8⟩
  else []

/-- VALUE of a check-value unit: bytes of a window change it. -/
def cvuValue (a : Nat) : Bool := decide (0xF0000 ≤ a ∧ a < 0xF0200) && a % 0x40 == 0x28

/-- Words of RW and RWC fields that the hardware writes too, but for counters: PX_OUT, PX_OE and the shared flags of the pawns, the grid,
FWD_ADDR, LINK_EEE, GREY_PERF and CENSUS_GRP_g +0x00. -/
def hwWritten (a : Nat) : Bool :=
  [Reg.PAWN_PX_OUT_LEVEL.addr, Reg.PAWN_PX_OE_OE.addr, Reg.PAWN_FLAGS_FLAG.addr, 0x40020, 0x40024, 0x40028, 0x4002C, 0x40030,
    Reg.FWD_ADDR_NODE.addr, Reg.GREY_PERF_MAX.addr].contains a ||
    (decide (0x50000 ≤ a ∧ a < 0x56000) && a % 0x1000 == 8) || (decide (0xB1000 ≤ a ∧ a < 0xB1800) && a % 0x20 == 0)

/-- The bits of a word that only software writes, or that software has written in the SYS cycle in progress: its RW and RWC fields. -/
def State.ownBits (s : State) (a : Nat) : Word :=
  if !(counterFlds a).isEmpty || cvuValue a || (hwWritten a && !s.cycle.written.contains a) then 0
  else match regDefAt a with
    | some d => BitVec.ofNat 32 d.rw ||| BitVec.ofNat 32 d.rwc
    | none => 0

/-- The W1C bits of a word. -/
def w1cBits (a : Nat) : Word :=
  match regDefAt a with
  | some d => BitVec.ofNat 32 d.w1c
  | none => 0

/-- R500: what a read finds at an address: what software has written in the SYS cycle in progress, and else the value at its start (log
entry 11). A W1C bit that software has cleared in the cycle reads 0. -/
def State.seenWord (s : State) (a : Nat) : Word :=
  let now := s.viewWord a
  if blockOf a = some .fcm then now
  else
    let own := s.ownBits a
    (now &&& own) ||| (s.atStart.viewWord a &&& ~~~ own &&& (now ||| ~~~ w1cBits a))

/-- R501: a read of one word, with the effects of the reads that have any. What the board does at the PX pins is a free value. -/
def State.readWord (s : State) (a : Nat) : Word × State :=
  if a = Reg.TIME_VT_NS_LO.addr then s.readVt
  else if a = Reg.PAWN_PX_IN_IN.addr then
    let (v, s) := s.draw
    let (o, s) := s.draw
    (s.pxSeen ⟨BitVec.ofNat 32 v, BitVec.ofNat 32 o⟩, s)
  else if 0xD0100 ≤ a ∧ a < 0xD0300 ∧ a % 0x40 = 0x14 then s.pawnRxRead ((a - 0xD0100) / 0x40)
  else if 0xF0000 ≤ a ∧ a < 0xF0200 ∧ a % 0x40 = 0x2C then s.cvuReadResult ((a - 0xF0000) / 0x40)
  else (s.seenWord a, s)

/-! ## Writes -/

/-- What a counter field has counted in the SYS cycle in progress. -/
def State.counted (s : State) (f : Fld) : Nat :=
  ((s.cycle.counts.filter fun e => e.1 == f.addr && e.2.1 == f.lo).map fun e => e.2.2).sum

/-- The counters that wrap: FWD_DUP_CNT.DUP and MIR_CNT.FRAMES. -/
def countsRound (f : Fld) : Bool := f == Reg.FWD_DUP_CNT_DUP || f == Reg.MIR_CNT_FRAMES

/-- R500: a counter takes the written value, and the increments of the cycle after it. -/
def State.countOn (s : State) (a : Nat) (w : Word) : Word :=
  (counterFlds a).foldl (fun acc f =>
    let n := bitsOf w f.lo f.len + s.counted f
    putF acc f (if countsRound f then n else min n (2 ^ f.len - 1))) w

/-- R500: reads of the cycle that follow find the value written in a counter. -/
def State.noteCounter (s : State) (a : Nat) (w : Word) : State := if (counterFlds a).isEmpty then s else s.fixStart a w

/-- R3, R500: a write of a word whose fields have no further effect: RW in force, RWC in the shadow, W1C cleared but for bits set in
the SYS cycle of the write. -/
def State.plainWrite (s : State) (a : Nat) (w : Word) : State :=
  match regDefAt a with
  | none => s
  | some d =>
    let rw := BitVec.ofNat 32 d.rw
    let c := BitVec.ofNat 32 d.w1c
    let rwc := BitVec.ofNat 32 d.rwc
    let s := (s.setReg a ((s.reg a &&& ~~~ rw &&& ~~~ (c &&& w &&& ~~~ s.setNow a)) ||| (s.countOn a w &&& rw))).noteCounter a (w &&& rw)
    if d.rwc = 0 then s else s.setShReg a ((s.shReg a &&& ~~~ rwc) ||| (w &&& rwc))

/-- The function group whose range holds a member-list entry and which is not IDLE. -/
def State.entryHeld (s : State) (i : Nat) : Bool :=
  (List.range 64).any fun g =>
    let b := s.rd (Reg.CENSUS_GRP_BASE g)
    s.grpState g != 0 && decide (b ≤ i) && decide (i < b + s.rd (Reg.CENSUS_GRP_COUNT g))

/-- R98: bytes were written to a calibration bank: its PASS bit clears. -/
def State.calTouched (s : State) (o n : Nat) : State :=
  [0, 1].foldl (fun s b =>
    if o < fcmCal b + fcmCalSize ∧ fcmCal b < o + n then
      s.wr (if b = 0 then Reg.PIPE_CAL_CHK_PASS0 else Reg.PIPE_CAL_CHK_PASS1) 0 else s) s

/-- Bytes that an agent other than the pixel path writes to the FCM. -/
def State.fcmStore (s : State) (o : Nat) (b : List Byte) : State :=
  (s.fcmBytes o b).calTouched o b.length

/-- R212: a word of the member list: entries of a group that is not IDLE stay. -/
def State.memberWrite (s : State) (o : Nat) (w : Word) : State :=
  [0, 1].foldl (fun s k =>
    if s.entryHeld ((o - memberAt) / 2 + k) then s.setW1c Reg.CENSUS_STAT_LIST_REJ
    else s.fcmStore (o + 2 * k) (leBytes 2 (w.toNat / 65536 ^ k))) s

/-- R106, R194, R212, R228: a write through the FCM window. Grey planes, the fallback section and the census map ignore it. -/
def State.fcmWrite (s : State) (o : Nat) (w : Word) : State :=
  if fcmPlane 0 ≤ o ∧ o < fcmMotifLayer then s
  else if (0x12E000 ≤ o ∧ o < 0x12F000) ∨ (0x130000 ≤ o ∧ o < 0x130100) then s
  else if fcmCensus ≤ o ∧ o < memberAt then s
  else if memberAt ≤ o ∧ o < fcmCal 1 then s.memberWrite o w
  else s.fcmStore o (leBytes 4 w.toNat)

/-- R205, R212: a write to CENSUS_GRP_g +0x00: POLICY, which only IDLE lets change, then ARM. -/
def State.grpWrite0 (s : State) (g : Nat) (w : Word) : State :=
  let pol := bitsOf w 1 1
  let s := if s.grpState g = 0 then s.wr (Reg.CENSUS_GRP_POLICY g) pol
    else if s.rd (Reg.CENSUS_GRP_POLICY g) = pol then s else s.setW1c (Reg.CENSUS_GRP_CFG_REJ g)
  if bitAt w.toNat 0 then s.grpArmWrite g else s.grpDisarm g

/-- R212: a write to CENSUS_GRP_g +0x04: BASE and COUNT, which only IDLE lets write. -/
def State.grpWrite4 (s : State) (g : Nat) (w : Word) : State :=
  if s.grpState g = 0 then s.setReg (Reg.CENSUS_GRP_BASE g).addr (w &&& 0x3FFF3FFF)
  else s.setW1c (Reg.CENSUS_GRP_CFG_REJ g)

/-- R225, R231, R232: a write to MOTIF_CTRL. The look belongs to ARMED and FALLBACK. -/
def State.motifCtrlWrite (s : State) (w : Word) : State :=
  let s := s.motifStep (w.toNat % 256)
  let s := if bitAt w.toNat 8 && (s.devState == 5 || s.devState == 6) then s.fbOn else s
  if bitAt w.toNat 9 then s.fbOff else s

/-- R98: a write to PIPE_CAL_CHK: SEL and START. While a check runs it changes neither (DESIGN CHOICE, log entry 109). -/
def State.calChkWrite (s : State) (w : Word) : State :=
  if s.rdB Reg.PIPE_CAL_CHK_BUSY then s else
    let s := s.wr Reg.PIPE_CAL_CHK_SEL (bitsOf w 1 1)
    if bitAt w.toNat 0 then
      { (s.wr Reg.PIPE_CAL_CHK_BUSY 1) with rook := { s.rook with calCheck := some (bitsOf w 1 1) } }
    else s

/-- R347: the ACK of the reply in the outbound buffer: RDY clears, and a second reply that waits is posted. -/
def State.mboxAck (s : State) : State :=
  if !s.rdB Reg.SVC_MBOX_RDY then s else
    let s := s.wr Reg.SVC_MBOX_RDY 0
    match s.cmd.mboxNext with
    | (st, body) :: rest => { s with cmd := { s.cmd with mboxNext := rest } }.mboxPut st body
    | [] => s

/-- R347: a write to SVC_MBOX. A SEND waits for the control core. -/
def State.mboxWrite (s : State) (w : Word) : State :=
  let s := s.plainWrite Reg.SVC_MBOX_LEN.addr w
  let s := if bitAt w.toNat 17 then s.mboxAck else s
  if !bitAt w.toNat 16 then s
  else if s.rdB Reg.SVC_MBOX_BUSY || s.rdB Reg.SVC_MBOX_RDY then s.setW1c Reg.SVC_MBOX_OVERRUN
  else { (s.wr Reg.SVC_MBOX_BUSY 1) with cmd := { s.cmd with mboxDue := true } }

/-- R65, R68: a write to MOVE_NEW +0x10. One that sets both bits adds first, then cancels the move named in ARG (DESIGN CHOICE, log
entry 107). -/
def State.moveNewWrite (s : State) (w : Word) : State :=
  let s := if bitAt w.toNat 0 then s.moveNewAdd else s
  if bitAt w.toNat 1 then s.moveNewCancel else s

/-- R365, R366: a write to PAWN_CTRL. FLUSH sees the pawns that run at the write; STOP acts after it. -/
def State.pawnCtrlWrite (s : State) (w : Word) : State :=
  ((s.plainWrite 0xD0000 w).pawnsFlush (bitsOf w 16 8)).pawnsStop (w.toNat % 256)

/-- R59: a write to SCAN_MODE writes FOLLOW_SESSION. -/
def State.scanModeWrite (s : State) (w : Word) : State :=
  let s := s.plainWrite Reg.SCAN_MODE_MODE.addr w
  { s with time := { s.time with followWritten := true } }

/-- A write in the AON and IOX parts of SYS, in PWR, CLK, EVT and SEAL. -/
def State.writeAon (s : State) (a : Nat) (w : Word) : State :=
  if a = Reg.SYS_CASTLE_COMMIT.addr then s.castleCommit w.toNat
  else if a = 0x24 then s.kick w
  else if a = Reg.SVC_MBOX_LEN.addr then s.mboxWrite w
  else if a = Reg.PWR_DOMAIN_EN.addr then s.domainWrite w
  else if a = Reg.SEAL_BOOT_SLOT.addr then (if bitAt w.toNat 5 then s.fwConfirm else s)
  else s.plainWrite a w

/-- A write in LINK and FWD. -/
def State.writeNet (s : State) (a : Nat) (w : Word) : State :=
  if a < 0x56000 ∧ a % 0x1000 = 0 then s.linkModeWrite ((a - 0x50000) / 0x1000) w
  else if a = Reg.FWD_CFG_TOPO.addr then s.fwdCfgWrite w
  else if a = Reg.FWD_XOFF_XOFF.addr then s.fwdXoffWrite w
  else if a = Reg.FWD_LEDGER_SNAP.addr then (if bitAt w.toNat 0 then s.ledgerSnap else s)
  else s.plainWrite a w

/-- A write in TIME, MOVE, PIPE, GREY, SCAN, MOTIF and the FCM window. -/
def State.writePix (s : State) (a : Nat) (w : Word) : State :=
  if blockOf a = some .fcm then s.fcmWrite (a - 0x1000000) w
  else if a = Reg.TIME_CFG_SRC.addr then s.writeTimeCfg w
  else if a = Reg.MOVE_NEW_ADD.addr then s.moveNewWrite w
  else if a = Reg.PIPE_CTRL_FLUSH.addr then (if bitAt w.toNat 0 then s.flushBoards else s)
  else if a = Reg.PIPE_CAL_CHK_START.addr then s.calChkWrite w
  else if a = Reg.MOTIF_CTRL_STEP.addr then s.motifCtrlWrite w
  else if a = Reg.SCAN_MODE_MODE.addr then s.scanModeWrite w
  else s.plainWrite a w

/-- A write in SINK and CENSUS. -/
def State.writeDrv (s : State) (a : Nat) (w : Word) : State :=
  if a = Reg.CENSUS_CTRL_SWEEP.addr then
    let s := if bitAt w.toNat 1 then s.censusClear else s
    if bitAt w.toNat 0 then s.sweepStart else s
  else if 0xB1000 ≤ a ∧ a < 0xB1800 then
    let g := (a - 0xB1000) / 0x20
    match a % 0x20 with
    | 0 => s.grpWrite0 g w
    | 4 => s.grpWrite4 g w
    | 8 => let s := s.plainWrite a w
           if bitAt w.toNat 4 then s.grpAckWrite g else s
    | _ => s.plainWrite a w
  else if a = Reg.SINK_TB_CFG_SRC.addr then (s.plainWrite a w).tbChanged s
  else s.plainWrite a w

/-- The index of a mirror timing register for `mirTimingWrite`. -/
def mirTimingIdx (a : Nat) : Option Nat :=
  match a with
  | 0x100004 => some 0
  | 0x100008 => some 1
  | 0x10000C => some 2
  | 0x100010 => some 3
  | 0x100020 => some 4
  | _ => none

/-- A write in PAWN. -/
def State.writePawn (s : State) (a : Nat) (w : Word) : State :=
  if a = 0xD0000 then s.pawnCtrlWrite w
  else if a = 0xD0004 then s.pawnsGo (w.toNat % 256)
  else if a = Reg.PAWN_PX_OUT_LEVEL.addr ∨ a = Reg.PAWN_PX_OE_OE.addr then s.pxWrite a w
  else if 0xD0400 ≤ a ∧ a < 0xD04C0 then s.storeWrite ((a - 0xD0400) / 4) w
  else if 0xD0100 ≤ a ∧ a < 0xD0300 then
    let n := (a - 0xD0100) / 0x40
    match a % 0x40 with
    | 0 => s.pawnCfgWrite n 0 w
    | 4 => s.pawnCfgWrite n 4 w
    | 8 => s.pawnCfgWrite n 8 w
    | 0x10 => s.pawnTxWrite n w
    | _ => s.plainWrite a w
  else s.plainWrite a w

/-- A write in the poll bus, PAWN, CVU and MIR. -/
def State.writeIox (s : State) (a : Nat) (w : Word) : State :=
  match blockOf a with
  | some .pawn => s.writePawn a w
  | some .cvu =>
    let n := (a - 0xF0000) / 0x40
    let off := a % 0x40
    if off = 0 then s.cvuWriteCtrl n w
    else if off ≤ 0x20 ∨ off = 0x28 then s.cvuWriteCfg n off w
    else s.plainWrite a w
  | some .mir =>
    if a = Reg.MIR_CTRL_EN.addr then s.mirCtrlWrite w
    else match mirTimingIdx a with
      | some r => s.mirTimingWrite r w
      | none => s.plainWrite a w
  | _ => if a < 0x10000 then s.writeAon a w else s.plainWrite a w

/-- A write in SPWM, LOOP and ADC. -/
def State.writeSup (s : State) (a : Nat) (w : Word) : State :=
  if a < 0xE0200 then
    let n := (a - 0xE0000) / 0x40
    match a % 0x40 with
    | 0 => s.swCtrlWrite n w
    | 4 => s.swShadowWrite n 0 w
    | 8 => s.swShadowWrite n 1 w
    | 0xC => s.swShadowWrite n 2 w
    | 0x10 => s.swShadowWrite n 3 w
    | 0x14 => s.swConfigWrite n false w
    | 0x18 => let s := s.swConfigWrite n true w
              if bitAt w.toNat 8 then s.swClr n else s
    | _ => s.plainWrite a w
  else if a = Reg.SPWM_TRIP_POL_POL.addr then s.tripPolWrite w
  else if a = Reg.SPWM_PIN_LOCK_PIN.addr then s.pinLockWrite w
  else s.plainWrite a w

/-- The block of an address is powered. -/
def State.blockOn (s : State) (a : Nat) : Bool :=
  match domainOf a with
  | some d => s.powered d
  | none => true

/-- R5: a register, or a word of the FCM, stands at an address. -/
def occupied (a : Nat) : Bool := (regDefAt a).isSome || blockOf a == some .fcm

/-- A write of one word to a block that is powered; an offset that no register occupies ignores it (R5). -/
def State.writeWord (s : State) (a : Nat) (w : Word) : State :=
  if !occupied a then s else
  match domainOf a with
  | none => s.writeAon a w
  | some 0 => s.writeNet a w
  | some 2 => s.writePix a w
  | some 3 => s.writeDrv a w
  | some 4 => s.writeIox a w
  | _ => s.writeSup a w

/-- A write by software of the word `w` at an address, with the effect `f`: nothing where the block is off or the word is locked (R346,
R400, R446). A move that is due acts before it (R64), and reads that follow see it (R500). -/
def State.softWrite (s : State) (a : Nat) (w : Word) (f : State → State) : State :=
  let s := s.movesDue
  if s.blockOn a && !s.locked a w then (f s).seeWrite a else s

/-- A write that firmware or the service port makes. -/
def State.tryWrite (s : State) (a : Nat) (w : Word) : State := s.softWrite a w fun s => s.writeWord a w

/-- A write of ones to bits of a word, whose fields in `keep` keep their values. -/
def State.tryOnes (s : State) (a : Nat) (keep w : Word) : State := s.tryWrite a ((s.movesDue.reg a &&& keep) ||| w)

/-! ## Rows that write one register -/

/-- R3: a register write with no further effect of its own, or with that of its register. -/
def execRegisterWrite (at_ : Vt) (addr : Word) (w : Word) (s : State) : Host.Outcome State Fault Refusal :=
  .next ((s.elapseTo at_).tryWrite (addr.toNat / 4 * 4) w)

/-- R106: a write through the FCM window, at a word of it. -/
def execFcmWindowWrite (word : Fin 393216) (w : Word) (s : State) : Host.Outcome State Fault Refusal :=
  .next (s.tryWrite (0x1000000 + 4 * word.val) w)

/-- R43: a write to TIME_CFG. -/
def execTimeCfgWrite (w : Word) (s : State) : Host.Outcome State Fault Refusal := .next (s.tryWrite Reg.TIME_CFG_SRC.addr w)

/-- R239: a write to LINK_MODE. -/
def execLinkModeWrite (port : Fin 6) (w : Word) (s : State) : Host.Outcome State Fault Refusal :=
  .next (s.tryWrite (0x50000 + 0x1000 * port.val) w)

/-- R261: a write to FWD_XOFF (`xoff`) or to FWD_CFG. -/
def execFwdFlowCfgWrite (xoff : Bool) (w : Word) (s : State) : Host.Outcome State Fault Refusal :=
  .next (s.tryWrite (if xoff then Reg.FWD_XOFF_XOFF.addr else Reg.FWD_CFG_TOPO.addr) w)

/-- R257: a write of 1 to FWD_LEDGER.SNAP. -/
def execLedgerSnapshot (s : State) : Host.Outcome State Fault Refusal := .next (s.tryWrite Reg.FWD_LEDGER_SNAP.addr 1)

/-- R88: a write of 1 to PIPE_CTRL.FLUSH. -/
def execPipeFlush (s : State) : Host.Outcome State Fault Refusal := .next (s.tryWrite Reg.PIPE_CTRL_FLUSH.addr 1)

/-- R68: the write of CANCEL. -/
def execMoveNewCancel (s : State) : Host.Outcome State Fault Refusal :=
  .next (s.softWrite Reg.MOVE_NEW_ADD.addr 2 State.moveNewCancel)

/-- R420: a write to MIR_CTRL. -/
def execMirEnable (w : Word) (s : State) : Host.Outcome State Fault Refusal := .next (s.tryWrite Reg.MIR_CTRL_EN.addr w)

/-- The address of a mirror timing register, MIR_CLK, MIR_HTIM, MIR_VTIM, MIR_VBLANK and MIR_CMD. -/
def mirTimingAddr (r : Nat) : Nat := if r < 4 then 0x100004 + 4 * r else 0x100020

/-- R430: a write to MIR_CLK, MIR_HTIM, MIR_VTIM, MIR_VBLANK or MIR_CMD (0 to 4). -/
def execMirTimingWrite (r : Fin 5) (w : Word) (s : State) : Host.Outcome State Fault Refusal :=
  .next (s.tryWrite (mirTimingAddr r.val) w)

/-- R387: a register write to SPWM_n_CTRL. -/
def execSpwmCtrlWrite (n : Fin 8) (w : Word) (s : State) : Host.Outcome State Fault Refusal :=
  .next (s.tryWrite (0xE0000 + 0x40 * n.val) w)

/-- R383: a write to a unit's DUTY. -/
def execSpwmDutyWrite (n : Fin 8) (w : Word) (s : State) : Host.Outcome State Fault Refusal :=
  .next (s.tryWrite (0xE0008 + 0x40 * n.val) w)

/-- R390, R392: a write of 1 to SPWM_n_TRIP.CLR. -/
def execTripClr (n : Fin 8) (s : State) : Host.Outcome State Fault Refusal :=
  .next (s.softWrite (0xE0018 + 0x40 * n.val) 0x100 fun s => s.swClr n.val)

/-- R397: a register write to SPWM_PIN_LOCK. -/
def execPinLockWrite (w : Word) (s : State) : Host.Outcome State Fault Refusal :=
  .next (s.tryWrite Reg.SPWM_PIN_LOCK_PIN.addr w)

/-- R412: a write that sets EN of a check-value unit. -/
def execCvuEnable (n : Fin 8) (s : State) : Host.Outcome State Fault Refusal :=
  .next (s.tryOnes (Reg.CVU_CTRL_EN n.val).addr cvuCfgMask 1)

/-- R411, R413: a write that clears EN. -/
def execCvuDisable (n : Fin 8) (s : State) : Host.Outcome State Fault Refusal :=
  .next (s.tryOnes (Reg.CVU_CTRL_EN n.val).addr cvuCfgMask 0)

/-- R408: a write of 1 to CLOSE. -/
def execCvuClose (n : Fin 8) (s : State) : Host.Outcome State Fault Refusal :=
  .next (s.softWrite (Reg.CVU_CTRL_EN n.val).addr 0 fun s => s.cvuCloseRun n.val)

/-- The configuration registers of R413, by name. -/
def cvuCfgOffset (r : Fin 9) : Nat := match r.val with
  | 8 => 0x28
  | k => 0x04 + 4 * k

/-- R413: a write to a configuration register of a unit: TAP, POLY, INIT, XOROUT, WIN_START, WIN_LEN, TAG_LO, TAG_HI, VALUE. -/
def execCvuConfigWrite (n : Fin 8) (r : Fin 9) (w : Word) (s : State) : Host.Outcome State Fault Refusal :=
  .next (s.tryWrite (0xF0000 + 0x40 * n.val + cvuCfgOffset r) w)

/-- R365: a write of a mask to PAWN_CTRL.STOP. -/
def execPawnStop (mask : BitVec 8) (s : State) : Host.Outcome State Fault Refusal :=
  .next (s.tryOnes 0xD0000 0xFF00 (mask.setWidth 32))

/-- R366: a write of a mask to PAWN_CTRL.FLUSH. -/
def execPawnFlush (mask : BitVec 8) (s : State) : Host.Outcome State Fault Refusal :=
  .next (s.tryOnes 0xD0000 0xFF00 (mask.setWidth 32 <<< 16))

/-- R368: a register write to a store word. -/
def execPawnStoreWrite (w : Fin 48) (v : Word) (s : State) : Host.Outcome State Fault Refusal :=
  .next (s.tryWrite (0xD0400 + 4 * w.val) v)

/-- R369: a register write to CFG, PINS or PROG (0, 1, 2) of a pawn. -/
def execPawnConfigWrite (n : Fin 8) (r : Fin 3) (v : Word) (s : State) : Host.Outcome State Fault Refusal :=
  .next (s.tryWrite (0xD0100 + 0x40 * n.val + 4 * r.val) v)

/-- R371: a register write to PAWN_TXn. -/
def execPawnTxWrite (n : Fin 8) (v : Word) (s : State) : Host.Outcome State Fault Refusal :=
  .next (s.tryWrite (0xD0110 + 0x40 * n.val) v)

/-- R371: a read of PAWN_RXn. -/
def execPawnRxRead (n : Fin 8) (s : State) : Host.Outcome State Fault Refusal :=
  .next (if s.powered 4 then readWordGave (s.pawnRxRead n.val) else s)

/-- R98: a write of 1 to PIPE_CAL_CHK.START. -/
def execCalCheckStart (bank : Fin 2) (s : State) : Host.Outcome State Fault Refusal :=
  .next (s.tryWrite Reg.PIPE_CAL_CHK_START.addr (BitVec.ofNat 32 (1 + 2 * bank.val)))

/-- The CRC-32C of a calibration bank equals PIPE_CAL_CRC_b. -/
def State.calMatches (s : State) (b : Nat) : Bool :=
  crcOf crc32c ((List.range fcmCalSize).map fun i => s.fcmByte (fcmCal b + i)) == s.rd (Reg.PIPE_CAL_CRC_CRC b)

/-- R98: the check ends. -/
def execCalCheckDone (s : State) : Host.Outcome State Fault Refusal :=
  .next (match s.rook.calCheck with
    | some b =>
      let s := s.wrB (if b = 0 then Reg.PIPE_CAL_CHK_PASS0 else Reg.PIPE_CAL_CHK_PASS1) (s.calMatches b)
      { (s.wr Reg.PIPE_CAL_CHK_BUSY 0) with rook := { s.rook with calCheck := none } }
    | none => s)

/-- R214: a write of 1 to CENSUS_CTRL.SWEEP. -/
def execCensusSweepStart (s : State) : Host.Outcome State Fault Refusal := .next (s.tryWrite Reg.CENSUS_CTRL_SWEEP.addr 1)

/-- R213: a write of 1 to CENSUS_CTRL.CLEAR. -/
def execCensusClear (s : State) : Host.Outcome State Fault Refusal := .next (s.tryWrite Reg.CENSUS_CTRL_SWEEP.addr 2)

/-- R205: a write of 1 to ARM of a group. -/
def execGroupArmWrite (g : Fin 64) (s : State) : Host.Outcome State Fault Refusal :=
  .next (s.softWrite (Reg.CENSUS_GRP_POLICY g.val).addr 1 fun s => s.grpArmWrite g.val)

/-- R212: a write of 0 to ARM of a group. -/
def execGroupDisarmWrite (g : Fin 64) (s : State) : Host.Outcome State Fault Refusal :=
  .next (s.softWrite (Reg.CENSUS_GRP_POLICY g.val).addr 0 fun s => s.grpDisarm g.val)

/-- R211: a write of 1 to ACK of a group. -/
def execGroupAckWrite (g : Fin 64) (s : State) : Host.Outcome State Fault Refusal :=
  .next (s.softWrite (Reg.CENSUS_GRP_ACK g.val).addr 0x10 fun s => s.grpAckWrite g.val)

/-- R212: a write to the POLICY word (its ARM bit as in force) or to the BASE and COUNT word of a group. -/
def execGroupConfigWrite (g : Fin 64) (range : Bool) (w : Word) (s : State) : Host.Outcome State Fault Refusal :=
  .next (if range then s.tryWrite (Reg.CENSUS_GRP_BASE g.val).addr w
    else s.tryWrite (Reg.CENSUS_GRP_POLICY g.val).addr (withBits w 0 1 (if s.grpState g.val = 0 then 0 else 1)))

/-- R145: a write to SYS_CASTLE. -/
def execCastleCommit (mask : BitVec 9) (s : State) : Host.Outcome State Fault Refusal :=
  .next (s.tryWrite Reg.SYS_CASTLE_COMMIT.addr (mask.setWidth 32))

/-- R363: a write of a mask to PAWN_GO. -/
def execPawnGo (mask : BitVec 8) (s : State) : Host.Outcome State Fault Refusal := .next (s.tryWrite 0xD0004 (mask.setWidth 32))

/-- R225: a write to MOTIF_CTRL.STEP. -/
def execMotifStepWrite (mask : BitVec 8) (s : State) : Host.Outcome State Fault Refusal :=
  .next (s.tryWrite Reg.MOTIF_CTRL_STEP.addr (mask.setWidth 32))

/-- R231: a write of 1 to MOTIF_CTRL.FB_ON. -/
def execFbOnWrite (s : State) : Host.Outcome State Fault Refusal := .next (s.tryWrite Reg.MOTIF_CTRL_STEP.addr 0x100)

/-- R232: a write of 1 to MOTIF_CTRL.FB_OFF. -/
def execFbOffWrite (s : State) : Host.Outcome State Fault Refusal := .next (s.tryWrite Reg.MOTIF_CTRL_STEP.addr 0x200)

/-- R486: ones written to EVT_RAW word w clear their bits, but for events raised in the same cycle. -/
def execEvtRawClear (at_ : Vt) (w : Fin 2) (mask : Word) (s : State) : Host.Outcome State Fault Refusal :=
  .next ((s.elapseTo at_).tryWrite (Reg.EVT_RAW_RAW w.val).addr mask)

end Sys2Proof.Machine
end

