-- ==== Sys2Proof/Machine/Arm.lean ====
section
/-! DEFINITION. The Seal in force: its application (R441, R450), firmware start (R434, R443), entry to ARMED, DISARM, the results
of CHECK, ARM and SEAL_WRITE (R444, R447 to R453), the restoring of domains (R469) and the end of a core restart (R304). -/
namespace Sys2Proof.Machine

/-! ## Installing registers (R441) -/

/-- The reset value of a register; FWD_MAC has it from OTP (Table 16.3). -/
def State.resetWord (s : State) (a : Nat) : Word :=
  if a = Reg.FWD_MAC_MAC_LO.addr then s.otpWord 11
  else if a = Reg.FWD_MAC_MAC_HI.addr then s.otpWord 12
  else regReset a

/-- The RW and RWC bits that a Seal gives a register. -/
def State.sealValue (s : State) (w : List (Nat × Nat)) (a : Nat) : Nat :=
  if w.any fun e => e.1 == a then sealWord w a else (s.resetWord a).toNat &&& cfgMask a

/-- The configuration bits a register has now: RWC bits from the shadow. -/
def State.cfgNow (s : State) (a : Nat) : Nat := (s.storedWord a).toNat &&& cfgMask a

/-- A register's RW bits in force and RWC bits in the shadow. -/
def State.installPlain (s : State) (a v : Nat) : State :=
  match regDefAt a with
  | none => s
  | some d =>
    let s := s.setReg a ((s.reg a &&& ~~~ BitVec.ofNat 32 d.rw) ||| (BitVec.ofNat 32 v &&& BitVec.ofNat 32 d.rw))
    if d.rwc = 0 then s
    else s.setShReg a ((s.shReg a &&& ~~~ BitVec.ofNat 32 d.rwc) ||| (BitVec.ofNat 32 v &&& BitVec.ofNat 32 d.rwc))

/-- A register with effects of its own is written only where its value changes: one step leads from the old configuration to the
new (R326). The Seal's own values keep the order of R261; a GM_PPS from the Seal counts its 2 s from the boot (R46); and the Seal
writes FOLLOW_SESSION (R59). -/
def State.installReg (s : State) (w : List (Nat × Nat)) (a : Nat) : State :=
  let v := s.sealValue w a
  let word := BitVec.ofNat 32 v
  if a = Reg.TIME_CFG_SRC.addr then (if s.cfgNow a = v then s else s.setTimeCfg word)
  else if a = Reg.FWD_CFG_TOPO.addr then (if s.cfgNow a = v then s else (s.setReg a word).ringEval)
  else if a = Reg.FWD_XOFF_XOFF.addr then (s.setReg a word).flowCheck
  else if a = Reg.SCAN_MODE_MODE.addr then
    let s := s.installPlain a v
    { s with time := { s.time with followWritten := true } }
  else if ((0x50000 ≤ a ∧ a < 0x56000 ∧ a % 0x1000 = 0) ∨
      a = Reg.SINK_TB_CFG_SRC.addr ∨ a = Reg.SPWM_TRIP_POL_POL.addr ∨ (mirTimingIdx a).isSome) then
    if s.cfgNow a = v then s else s.writeWord a word
  else s.installPlain a v

/-- The registers of an SPWM unit: a unit whose configuration changes stops and starts anew, after SPWM_n_CNT has its value. -/
def State.installUnit (s : State) (w : List (Nat × Nat)) (n : Nat) : State :=
  let base := 0xE0000 + 0x40 * n
  let v (k : Nat) : Word := BitVec.ofNat 32 (s.sealValue w (base + k))
  let s := if s.swStrap n then s else s.installPlain (base + 0x20) (v 0x20).toNat
  let same := ([0, 0x14, 0x18].all fun k => s.cfgNow (base + k) == (v k).toNat) &&
    [4, 8, 0xC, 0x10].all fun k => s.reg (base + k) == v k && s.shReg (base + k) == v k
  if s.swStrap n || same then s else
    let s := if s.rdB (Reg.SPWM_CTRL_EN n) then s.swCtrlWrite n (s.reg base &&& ~~~ 1) else s
    let s := [4, 8, 0xC, 0x10].foldl (fun s k => s.setShReg (base + k) (v k)) s
    let s := [0x14, 0x18].foldl (fun s k => s.installPlain (base + k) (v k).toNat) s
    (s.swTripCheck n).swCtrlWrite n (v 0)

/-- An address belongs to the SPWM units' own registers. -/
def inUnits (a : Nat) : Bool := decide (0xE0000 ≤ a) && decide (a < 0xE0200)

/-- The registers of a Seal that satisfy a condition; MIR_CTRL comes last. -/
def State.installRegs (s : State) (w : List (Nat × Nat)) (keep : Nat → Bool) : State :=
  let rs := sealRegs.filter fun a => keep a && !inUnits a && a != Reg.MIR_CTRL_EN.addr
  let s := rs.foldl (fun s a => s.installReg w a) s
  let s := if keep 0xE0000 then (List.range 8).foldl (fun s n => s.installUnit w n) s else s
  if keep Reg.MIR_CTRL_EN.addr && s.cfgNow Reg.MIR_CTRL_EN.addr != s.sealValue w Reg.MIR_CTRL_EN.addr then
    s.mirCtrlWrite (BitVec.ofNat 32 (s.sealValue w Reg.MIR_CTRL_EN.addr)) else s

/-- R98: firmware checks both calibration banks after it has filled them. -/
def State.calCheckAll (s : State) : State :=
  (s.wrB Reg.PIPE_CAL_CHK_PASS0 (s.calMatches 0)).wrB Reg.PIPE_CAL_CHK_PASS1 (s.calMatches 1)

/-- The sections of an image that has passed its checks. -/
def secsOf (img : List Byte) : List Sec := match sealSecs img with
  | .inr l => l
  | .inl _ => []

/-- R446: the registers that the REGS entries with LOCK = 1 name. -/
def lockedBy (l : List Sec) : List Nat := ((regPairs (secData l 1)).filter fun e => e.1 % 2 == 1).map fun e => e.1 / 4 * 4

/-- R150, R441: the castles of what a Seal has put into the shadows; MIR only where its values change. -/
def State.sealCastle (s : State) (mask : Nat) : State :=
  let mir := [Reg.MIR_SRC_SRC.addr, Reg.MIR_WIN_POS_X0.addr, Reg.MIR_WIN_SIZE_W.addr].any fun a => s.shReg a != s.reg a
  s.castleCommit (if mir then mask else mask % 256)

/-- R441, R450: apply a Seal that has passed: objects go, registers and regions take the values of the complete
configuration, castles apply at once, and the image is in the armed buffer. -/
def State.sealApply (s : State) (img : List Byte) : State :=
  let l := secsOf img
  let w := sealWrites l
  let s := s.mapsRemove.motifsRemove.groupsRemove.progsRemove
  let s := s.installRegs w fun a => s.blockOn a
  let s := if s.powered 0 then s.wrB Reg.FWD_KLP_CFG_AUTH_REQ (sealAuthReq l) else s
  let s := if s.powered 2 then (s.sealFcm l).calCheckAll else s
  let s := s.sealCastle 0x1FF
  { s with store := { s.store with armed := some img, locks := lockedBy l } }

/-! ## FW_SWAP (R341, R452, R454) -/

/-- A CHECK or an ARM runs: its evaluation, or the wait of an ARM for its grid point (R452). -/
def State.evaluating (s : State) : Bool :=
  !s.store.run.isEmpty || (match s.store.armDue with
    | some d => !d.origins.isEmpty
    | none => false)

/-- R454: the control core restarts into the slot, on trial. -/
def State.swapTo (s : State) (slot : Nat) : State :=
  let s := { s with store := { s.store with trialFrom := s.rd Reg.SEAL_BOOT_SLOT, trialAt := s.time.uptime } }
  ((s.wr Reg.SEAL_BOOT_SLOT slot).wr Reg.SEAL_BOOT_TRIAL 1).coreRestart

/-- R341: FW_SWAP verifies the slot before anything else. One that has waited into BRACE is answered E_BUSY (R463). -/
def State.fwSwap (s : State) (slot : Nat) (o : Origin) : State :=
  let r := s.slotReason slot
  if s.brace then s.postReply o 0x0802 .eBusy [] .nothing
  else if r ≠ 0 then s.postReply o 0x0802 .eState (beBytes 2 r) .nothing
  else if s.inRecovery then s.postReply o 0x0802 .ok [] (.boot slot)
  else (s.postReply o 0x0802 .ok [] .nothing).swapTo slot

/-- R452: an FW_SWAP that waited proceeds. -/
def State.swapNext (s : State) : State :=
  match s.store.swapDue with
  | some (slot, o) => if s.evaluating then s else { s with store := { s.store with swapDue := none } }.fwSwap slot o
  | none => s

/-! ## Objects, pawns and the fallback section at entry to ARMED (R321, R374, R450) -/

/-- The maps and motif definitions of the armed Seal become objects. -/
def State.sealPixObjects (s : State) (l : List Sec) : State :=
  let words (e : List Byte) : List Byte := (List.range 5).flatMap fun k => beBytes 4 (leAt e (4 + 4 * k) 4)
  let s := (entries 24 (secData l 3)).foldl (fun (s : State) e => s.mapName (byteAt e 0) (words e)) s
  (entries 516 (secData l 4)).foldl (fun (s : State) e => s.motifName (byteAt e 0) (e.drop 4)) s

/-- The function groups of the armed Seal become objects, and each is then armed or left as `begin_` says. -/
def State.sealGroupObjects (s : State) (l : List Sec) (begin_ : SealGroup → State → State) : State :=
  (sealGroups l).foldl (fun (s : State) g => begin_ g (s.groupCreate g.idx g.policy g.base g.count)) s

/-- R374: the pawn section: store words, pawn registers, SAFE registers, then the start mask as one PAWN_GO. -/
def State.sealPawns (s : State) (l : List Sec) : State :=
  let d := secData l 7
  let s := s.pawnsStop 255
  let s := (s.setReg Reg.PAWN_PX_SAFE_OUT_SAFE.addr (BitVec.ofNat 32 (pawnWord d 4))).setReg
    Reg.PAWN_PX_SAFE_OE_SAFE.addr (BitVec.ofNat 32 (pawnWord d 8))
  let s := (List.range 8).foldl (fun s n =>
    let o := 12 + 12 * n
    let s := s.pawnCfgWrite n 0 (BitVec.ofNat 32 (pawnWord d o))
    let s := s.pawnCfgWrite n 4 (BitVec.ofNat 32 (if d.isEmpty then 0x100 else pawnWord d (o + 4)))
    s.pawnCfgWrite n 8 (BitVec.ofNat 32 (pawnWord d (o + 8)))) s
  let s := (List.range 48).foldl (fun s i => s.storePut i (BitVec.ofNat 32 (pawnWord d (108 + 4 * i)))) s
  let s := (sealProgs d).zipIdx.foldl (fun s (e : (Nat × Nat) × Nat) => s.progCreate e.2 e.1.1 e.1.2) s
  s.pawnsGo (byteAt d 0)

/-- R450: the device enters ARMED. -/
def State.armEnter (s : State) (img : List Byte) (d : ArmDue) : State :=
  let l := secsOf img
  let s := { s with store := { s.store with armDue := none, copying := true } }
  let s := (s.enterState 5).raise Ev.ARMED (leAt img 20 4)
  let s := if s.powered 2 then s.sealPixObjects l else s
  let s := if s.powered 3 then s.sealGroupObjects l (fun g s => if g.arm then s.grpArmWrite g.idx else s) else s
  let s := if s.powered 4 then s.sealPawns l else s
  let s := { s with
    fallback := { s.fallback with startDue := 0, endDue := false, timerFrom := s.time.uptime }
    scan := { s.scan with notBefore := max s.scan.notBefore s.now } }
  (d.origins.foldl (fun s o => s.postReply o 0x0403 .ok [] .nothing) s).swapNext

/-- R229: the Rook has copied the fallback section. -/
def execFallbackCopyDone (s : State) : Host.Outcome State Fault Refusal :=
  .next (if s.store.copying && s.powered 2 then
    let s := s.fallbackCopy (match s.store.armed with
      | some img => secData (secsOf img) 8
      | none => [])
    { (s.wr Reg.MOTIF_FB_STAT_LOADED 1) with store := { s.store with copying := false } }
  else s)

/-- R451: DISARM takes the device to READY: groups go IDLE, locks are released, the look ends with its state. -/
def State.disarm (s : State) : State :=
  let s := (List.range 64).foldl State.grpDisarm s
  let s := (s.wr Reg.MOTIF_FB_STAT_ACTIVE 0).wr Reg.MOTIF_FB_STAT_CAUSE 0
  let s := { s with
    store := { s.store with disarmDue := false, locks := [] }
    fallback := { s.fallback with startDue := 0, endDue := false } }
  s.enterState 4

/-- R451: the next grid point after DISARM. -/
def execDisarmAtGridPoint (at_ : Vt) (s : State) : Host.Outcome State Fault Refusal :=
  let s := s.elapseTo at_
  .next (if s.store.disarmDue && s.atGrid && (s.devState == 5 || s.devState == 6) then s.disarm else s)

/-! ## STALEMATE (R449) -/

/-- Entry to STALEMATE with a check code. -/
def State.stalemate (s : State) (code : Nat) : State :=
  let s := { s with store := { s.store with staleVt := s.nowNs } }
  (s.enterState 3).raise Ev.STALEMATE code

/-- R449: once per second, EV_STALEMATE in an EVENT packet to dst 0xFFFF with session 0. Its record number and seq count the
packets (log entry 55). -/
def State.beacon (s : State) : State :=
  let r : EvRec := ⟨Ev.STALEMATE, false, false, s.klp.beacons % 65536, (s.reg (Reg.EVT_DATA_DATA Ev.STALEMATE).addr).toNat, s.store.staleVt⟩
  let body := beBytes 2 1 ++ [0, 0] ++ r.bytes false
  let peer : ReplyTo := ⟨0xFFFF, 0xFFFFFFFFFFFF, none⟩
  let s := s.sendKlp peer (outHdr 3 1 4 s.klp.beacons 0 s.nowNs 0) body
  { s with klp := { s.klp with beacons := s.klp.beacons + 1 } }

/-- R449: a second has passed in STALEMATE. -/
def execStalemateBeacon (at_ : Vt) (s : State) : Host.Outcome State Fault Refusal :=
  let s := s.elapseTo at_
  .next (if s.devState == 3 && s.powered 0 && !s.coreDown && s.rd Reg.FWD_ADDR_NODE != 0 then s.beacon else s)

/-! ## Firmware start (R434, R438, R443) -/

/-- The ports take their OTP boot modes and the node address its OTP default (R438, R449), but for one that an ASSIGN has named since
the boot (R278). -/
def State.otpLinks (s : State) : State :=
  let s := (List.range 6).foldl (fun s p =>
    let m := bitsOf (s.reg Reg.SEAL_OTP_BOOT_LINK.addr) (3 * p) 3
    s.linkModeWrite p (withBits (s.reg (Reg.LINK_MODE_MODE p).addr) 0 3 m)) s
  if s.poll.assigned then s else s.wr Reg.FWD_ADDR_NODE (s.rd Reg.SEAL_OTP_BOOT_NODE)

/-- A Seal passes at boot: READY, and ARMED under AUTO_ARM. -/
def State.bootReady (s : State) (img : List Byte) : State :=
  let s := (s.noteCheck (0, 0)).sealApply img
  let s := { s with store := { s.store with
    armDue := if sealAutoArm img then some ⟨s.time.uptime, []⟩ else none } }
  s.enterState 4

/-- A Seal fails at boot, or there is none. -/
def State.bootStale (s : State) (r : Nat × Nat) : State := ((s.noteCheck r).otpLinks).stalemate r.1

/-- R480: the retention copy exists and passes its CRC-32C. -/
def State.warmCopy (s : State) : Option (List Byte) :=
  match s.pwr.retained with
  | some (img, crc) => if s.pwr.waking && crcOf crc32c img == crc then some img else none
  | none => none

/-- R443: a stored copy goes into the staging buffer with every granule marked, and is evaluated. -/
def State.bootStored (s : State) (c : Nat) : State :=
  let img := s.sealCopy c
  let s := (s.stageCopy img).wr Reg.SEAL_STAT_COPY c
  let r := s.sealCheck img true
  if r.1 = 0 then s.bootReady img else s.bootStale r

/-- R433, R443, R480: the Seal evaluation of a boot; under BOOTSEL 0b11 no Seal is read. -/
def State.bootSeal (s : State) : State :=
  if s.store.bootsel = 3 then (if s.pwr.waking then s.wr Reg.PWR_WAKE_WARM 0 else s).bootStale (0x0108, 0)
  else match s.warmCopy with
  | some img =>
    let s := (s.stageCopy img).wr Reg.PWR_WAKE_WARM 1
    let r := s.sealCheck img true
    if r.1 = 0 then s.bootReady img else s.bootStale r
  | none =>
    let s := if s.pwr.waking then s.wr Reg.PWR_WAKE_WARM 0 else s
    match s.storedBest, s.storedMagic with
      | some c, _ => s.bootStored c
      | none, some c => s.bootStored c
      | none, none => s.bootStale (0x0101, 0)

/-- R434: the boot ROM completes: RECOVERY when no slot was started, else firmware in LOADED and its Seal evaluation. -/
def execFirmwareStart (at_ : Vt) (s : State) : Host.Outcome State Fault Refusal :=
  let s := s.elapseTo at_
  .next (if s.devState != 1 || s.pwr.resetN || s.supplyHeld || !s.powered 1 then s else
    let s := { s with rook := { s.rook with kickAt := s.time.uptime } }
    if !s.store.slotOk then s.otpLinks.enterState 7
    else
      let s := (s.enterState 2).bootSeal
      { s with pwr := { s.pwr with waking := false, retained := none } })

/-! ## CHECK, ARM and SEAL_WRITE complete (R444, R447, R450) -/

/-- R337, R451: what an ARM evaluates: the staged image, else the Seal of the armed buffer, else the stored Seal; with the mark
test of R442. -/
def State.armImage (s : State) : List Byte × Bool :=
  if s.anyStaged then (s.stagedImage, s.stagedWhole (sealLength s.stagedImage))
  else match s.store.armed with
    | some img => (img, true)
    | none => (s.sealCopy ((s.storedBest.orElse fun _ => s.storedMagic).getD 0), true)

/-- A CHECK completes: the code, without a change of state. -/
def State.checkDone (s : State) (o : Origin) : State :=
  let img := s.stagedImage
  let r := s.sealCheck img (s.stagedWhole (sealLength img))
  (s.noteCheck r).postReply o 0x0402 (if r.1 = 0 then .ok else .eSeal) (beBytes 2 r.1) .nothing

/-- R442: an ARM that passes leaves nothing staged. -/
def State.unstage (s : State) : State := { s with store := { s.store with marks := [], touched := false } }

/-- R442, R450: an ARM completes its evaluation: the Seal is applied, or STALEMATE. Where the device has entered ARMED in the meantime
it is answered E_STATE: Table 16.9 has no transition for it (R448; log entry 154). -/
def State.armDone (s : State) (o : Origin) : State :=
  if !(s.devState == 3 || s.devState == 4) then s.postReply o 0x0403 .eState [] .nothing else
  let (img, whole) := s.armImage
  let r := s.sealCheck img whole
  let s := s.noteCheck r
  if r.1 = 0 then
    let s := (s.sealApply img).unstage.enterState 4
    let before := match s.store.armDue with
      | some d => d.origins
      | none => []
    { s with store := { s.store with armDue := some ⟨s.time.uptime, before ++ [o]⟩ } }
  else
    let s := { s with store := { s.store with armDue := none } }
    (s.stalemate r.1).postReply o 0x0403 .eSeal (beBytes 2 r.1) .nothing

/-- R444: the image with the generation above that of the newest valid copy, and its CRC-32C; and the copy to write. -/
def State.sealToStore (s : State) (img : List Byte) : List Byte × Nat :=
  let (g, c) := match s.storedBest with
    | some b => (sealGeneration (s.sealCopy b) + 1, 1 - b)
    | none => (1, 0)
  let tail := leBytes 4 g ++ img.drop 20
  (slice img 0 12 ++ leBytes 4 (crcOf crc32c tail) ++ tail, c)

/-! ## Stream loss (R20) -/

/-- R20, R233: no complete frame has been presented for STREAM_LOSS_TIMEOUT in ARMED. -/
def execStreamLossTimeout (at_ : Vt) (s : State) : Host.Outcome State Fault Refusal :=
  let s := s.elapseTo at_
  .next (if s.devState == 5 && !s.fbActive && s.fallback.startDue == 0 &&
      max s.fallback.timerFrom s.pipe.lastShown + s.streamLossTime ≤ s.time.uptime then
    (s.raise Ev.STREAM_LOST 0).fbRequest 1 else s)

/-! ## Restoring a domain (R469) -/

/-- The castle groups whose registers a domain holds. -/
def domainGroups (d : Nat) : Nat :=
  match d with
  | 2 => 0x0F
  | 3 => 0x30
  | 4 => 0x100
  | 5 => 0xC0
  | _ => 0

/-- What a domain holds besides registers. The function groups that stood when DRV was lost come back, those that CREATE made too, and
the ones that were not IDLE begin anew (R213; log entry 143). -/
def State.restoreContents (s : State) (l : List Sec) (d : Nat) : State :=
  let live := s.devState == 5 || s.devState == 6
  match d with
  | 2 =>
    let s := ((s.sealFcm l).fallbackCopy (secData l 8)).calCheckAll.wr Reg.MOTIF_FB_STAT_LOADED 1
    let s := if live then s.sealPixObjects l else s
    let s := { s with fallback := { s.fallback with startDue := if s.devState == 6 then s.pwr.fbLost else 0 } }
    if s.powered 3 then s.censusClear else s
  | 3 =>
    let lost := s.pwr.groupsLost
    let s := if live then s.sealGroupObjects l fun _ s => s else s
    let s := lost.foldl (fun (s : State) (e : Nat × Nat × Nat × Nat × Bool) =>
      let s := if s.objExists 4 e.1 then s else s.groupCreate e.1 e.2.1 e.2.2.1 e.2.2.2.1
      if e.2.2.2.2 then s.grpArm e.1 else s) s
    { s with pwr := { s.pwr with groupsLost := [] } }
  | 4 => if live then s.sealPawns l else s
  | _ => s

/-- R469: firmware has restored a domain from the armed Seal. -/
def execDomainRestore (at_ : Vt) (d : Fin 6) (s : State) : Host.Outcome State Fault Refusal :=
  let s := s.elapseTo at_
  .next (match s.store.armed with
    | some img =>
      if !bitAt s.pwr.restoreDue.toNat d.val || s.coreDown then s else
        let l := secsOf img
        let s := s.installRegs (sealWrites l) fun a => domainOf a == some d.val
        let s := if d.val = 3 then (s.sealCastle (domainGroups 3)).restoreContents l 3
          else (s.restoreContents l d.val).sealCastle (domainGroups d.val)
        ({ s with pwr := { s.pwr with restoreDue := s.pwr.restoreDue &&& ~~~ BitVec.ofNat 6 (2 ^ d.val) } }).domainDarkEnd
    | none => s)

/-! ## The end of a control-core restart (R304) -/

/-- R304: commands accepted and not completed before the restart are answered E_BUSY: those that wait for their turn, and an ARM that
waits for its grid point, which then is not entered (log entry 87). -/
def State.answerBusy (s : State) : State :=
  let runs := s.store.run
  let write := s.store.write
  let swap := s.store.swapDue
  let parked := s.cmd.parked
  let entering := match s.store.armDue with
    | some d => d.origins
    | none => []
  let s := { s with
    cmd := { s.cmd with parked := [] }
    store := { s.store with
      run := [], write := none, swapDue := none, armDue := if entering.isEmpty then s.store.armDue else none } }.localBusy
  let s := entering.foldl (fun (s : State) o => s.postReply o 0x0403 .eBusy [] .nothing) s
  let s := runs.foldl (fun (s : State) r =>
    s.postReply r.origin (if r.arm then 0x0403 else 0x0402) .eBusy [] .nothing) s
  let s := match write with
    | some o => s.postReply o 0x0405 .eBusy [] .nothing
    | none => s
  let s := match swap with
    | some (_, o) => s.postReply o 0x0802 .eBusy [] .nothing
    | none => s
  parked.foldl (fun (s : State) p => s.postReply p.origin p.opcode .eBusy [] .nothing) s

/-- R304: the control core has restarted; under a debug halt it stays stopped. -/
def execCoreRestartDone (at_ : Vt) (s : State) : Host.Outcome State Fault Refusal :=
  let s := s.elapseTo at_
  .next (if !s.rook.restarting then s else
    let s := { s with
      rook := { s.rook with restarting := false, kickAt := s.time.uptime }
      fallback := { s.fallback with restartDone := some s.now } }
    (if s.halted || !s.powered 1 then s else s.coreRun).answerBusy)

end Sys2Proof.Machine
end

