-- ==== Sys2Proof/Machine/Commands.lean ====
section
/-! DEFINITION. The opcodes of chapter 11: the parameters each takes, the statuses it answers in the order of R322, its reply data
and its effect. -/
namespace Sys2Proof.Machine

/-- What a command answers, with what follows the answer, and the state after it. No answer: it answers later. -/
abbrev CmdResult := Option (Status × List Byte × After) × State

/-- A command is refused: the status alone (R323). -/
def State.refuse (s : State) (st : Status) : CmdResult := (some (st, [], .nothing), s)

/-- A command is done, with its reply data. -/
def State.answer (s : State) (data : List Byte) : CmdResult := (some (.ok, data, .nothing), s)

/-- A command is done without reply data. -/
def State.done (s : State) : CmdResult := s.answer []

/-- Bytes of the parameters, sent as 0 when they are reserved (R322, R324). -/
def reserved (p : List Byte) (off n : Nat) : Bool := beAt p off n == 0

/-- The register word of a value a command carries big-endian. -/
def wordAt (p : List Byte) (off : Nat) : Word := BitVec.ofNat 32 (beAt p off 4)

/-- The session a command came in. -/
def Origin.session : Origin → Option Nat
  | .klp h _ _ _ _ => some h
  | _ => none

/-! ## Session (R327, R343) -/

/-- R343: HELLO on a local transport opens nothing. -/
def State.cmdHello (s : State) (o : Origin) (p : List Byte) : CmdResult :=
  let key := byteAt p 1
  let index := beAt p 8 2
  if byteAt p 0 ≠ 1 || (4 ≤ key && key != 0xFF) || (32 ≤ index && index != 0xFFFF) then s.refuse .eParam
  else if helloVersion (byteAt p 4, byteAt p 5) (byteAt p 6, byteAt p 7) ≠ some (3, 1) then s.refuse .eVersion
  else
    let i := match o with
      | .poll _ => 0x20
      | _ => 0x21
    s.answer (helloPayload 0xFF .ok (3, 1) (3, 1) i 0 (0x01010000 + i) s.deviceCaps s.uid 0)

/-- R327: BYE: the session closes after its reply. -/
def State.cmdBye (s : State) (o : Origin) (_p : List Byte) : CmdResult :=
  match o.session with
  | some h => (some (.ok, [], .close h), s)
  | none => s.refuse .eOpcode

/-- How many indexes of a class are free. -/
def State.freeCount (s : State) (cls : Nat) : Nat :=
  ((List.range (classSize cls)).filter fun i => !(if cls = 2 then s.mapOccupied i else s.objExists cls i)).length

/-- R327: CAPS. A local context has no credits. -/
def State.cmdCaps (s : State) (o : Origin) (_p : List Byte) : CmdResult :=
  let head : List Byte := match o.session.bind s.sessionAt with
    | some x => beBytes 1 x.verMaj ++ beBytes 1 x.verMin ++ beBytes 2 0 ++ beBytes 8 x.caps ++ beBytes 2 x.grant ++ beBytes 2 x.avail
    | none => beBytes 1 3 ++ beBytes 1 1 ++ beBytes 2 0 ++ beBytes 8 s.deviceCaps ++ beBytes 4 0
  s.answer (head ++ (List.range 8).flatMap fun k => beBytes 2 (s.freeCount (k + 1)))

/-- R327: CREDIT. -/
def State.cmdCredit (s : State) (o : Origin) (p : List Byte) : CmdResult :=
  let want := beAt p 0 2
  match o.session with
  | none => s.refuse .eOpcode
  | some h =>
    if want < 1 ∨ 32 < want then s.refuse .eParam
    else
      let (g, s) := s.setGrant h want
      (some (if g = want then .ok else .partially, beBytes 2 g, .nothing), s)

/-- R327: AUTH: a new nonce, in force after the reply. -/
def State.cmdAuth (s : State) (o : Origin) (_p : List Byte) : CmdResult :=
  match o.session with
  | none => s.refuse .eOpcode
  | some h =>
    if ((s.sessionAt h).bind (·.key)).isNone then s.refuse .eState
    else
      let v := Config.nonce s.free
      (some (.ok, beBytes 8 v.toNat, .nonce h v), { s with free := s.free + 1 })

/-! ## Register access (R328 to R330) -/

/-- R329, R499: an aligned range whose words all lie in blocks, and in powered ones. -/
def State.rangeOk (s : State) (a n : Nat) : Bool :=
  a % 4 == 0 && (List.range n).all fun i =>
    let x := (a + 4 * i) % 2 ^ 32
    (blockOf x).isSome && s.blockOn x

/-- R328: reads in ascending order, each with its effects. -/
def State.readWords (s : State) (a n : Nat) : List Byte × State :=
  (List.range n).foldl (fun (acc : List Byte × State) i =>
    let (w, t) := acc.2.readWord ((a + 4 * i) % 2 ^ 32)
    (acc.1 ++ leBytes 4 w.toNat, t)) ([], s)

/-- R328: REG_RD. -/
def State.cmdRegRd (s : State) (p : List Byte) : CmdResult :=
  let a := beAt p 0 4
  let n := beAt p 4 2
  if n < 1 || 252 < n || !reserved p 6 2 || !s.rangeOk a n then s.refuse .eParam
  else
    let (data, s) := s.readWords a n
    s.answer data

/-- The words of a REG_WR with their addresses, each word low byte first (R324). -/
def regWrites (p : List Byte) : List (Nat × Word) :=
  (List.range (beAt p 4 2)).map fun i => ((beAt p 0 4 + 4 * i) % 2 ^ 32, BitVec.ofNat 32 (leNat (slice p (8 + 4 * i) 4)))

/-- R329: REG_WR: every word of the range is checked before one is written. -/
def State.cmdRegWr (s : State) (p : List Byte) : CmdResult :=
  let a := beAt p 0 4
  let n := beAt p 4 2
  if n < 1 || 252 < n || !reserved p 6 2 || p.length < 8 + 4 * n || !s.rangeOk a n then s.refuse .eParam
  else if (regWrites p).any fun e => s.locked e.1 e.2 then s.refuse .eLocked
  else ((regWrites p).foldl (fun (s : State) e => s.tryWrite e.1 e.2) s).done

/-- R330: the word REG_RMW writes. -/
def rmwWord (old mask value : Word) : Word := (old &&& ~~~ mask) ||| (value &&& mask)

/-- R330, R348: REG_RMW. Mask and value are register words, low byte first (log entry 58). A W1C bit that the mask does not cover is
written back as it reads; with mask 0 nothing is covered and W1C fields are unchanged (log entry 59). -/
def State.cmdRegRmw (s : State) (p : List Byte) : CmdResult :=
  let a := beAt p 0 4
  if !s.rangeOk a 1 then s.refuse .eParam
  else
    let (old, t) := s.readWord a
    let mask : Word := BitVec.ofNat 32 (leNat (slice p 4 4))
    let keep : Word := if mask = 0 then ~~~ w1cBits a else ~~~ 0
    let w := rmwWord old mask (BitVec.ofNat 32 (leNat (slice p 8 4))) &&& keep
    if s.locked a w then s.refuse .eLocked
    else (t.tryWrite a w).answer (leBytes 4 old.toNat)

/-! ## Objects (R331 to R334) -/

/-- R333: the index a CREATE takes, or the status that refuses it. -/
def State.createIndex (s : State) (cls index : Nat) : Status ⊕ Nat :=
  let used (i : Nat) : Bool := if cls = 2 then s.mapOccupied i else s.objExists cls i
  if index = 0xFFFF then
    match (List.range (classSize cls)).find? fun i => !used i with
    | some i => .inr i
    | none => .inl .eNoSpace
  else if used index then .inl .eState
  else .inr index

/-- The shadows of a map take the five words of a CREATE. -/
def State.mapWrite (s : State) (m : Nat) (p : List Byte) : State :=
  (List.range 5).foldl (fun (s : State) k => s.plainWrite (mapWordAddr m k) (wordAt p (4 + 4 * k))) s

/-- R333: FORMAT and PATTERN combine, and the map's slots stay within a board. -/
def MapDesc.createOk (d : MapDesc) : Bool := comboOk d.pattern d.format && decide (d.slots + d.base ≤ 49152)

/-- R332: CREATE of a map. -/
def State.createMap (s : State) (m : Nat) (p : List Byte) (commit : Bool) : State :=
  let s := (s.mapWrite m p).mapName m (slice p 4 20)
  if commit then s.castleCommit 2 else s

/-- R332: CREATE of a motif definition. -/
def State.createMotif (s : State) (d : Nat) (p : List Byte) : State := 
  (s.fcmStore (defAt d) (slice p 4 512)).motifName d (slice p 4 512)

/-- R332: the configuration and VALUE of a unit are captured. -/
def State.createCtx (s : State) (c unit : Nat) : State :=
  let cfg := (List.range 9).map fun k => s.reg (0xF0000 + 0x40 * unit + 4 * k)
  { s with cmd := { s.cmd with ctxs := tabPut c ⟨unit, cfg, s.reg (Reg.CVU_VALUE_VALUE unit).addr⟩ s.cmd.ctxs } }

/-- R333: what CREATE tests in a descriptor. -/
def State.createOk (s : State) (cls : Nat) (p : List Byte) : Bool :=
  match cls with
  | 2 => 24 ≤ p.length && s.powered 2 && (mapDescOf (s.mapWrite 0 p).rdSh 0).createOk
  | 3 => 516 ≤ p.length && s.powered 2 && ((s.fcmBytes (defAt 0) (slice p 4 512)).motifDef (defAt 0)).valid
  | 4 => 12 ≤ p.length && s.powered 3 && byteAt p 4 ≤ 1 && reserved p 5 1 && reserved p 10 2 &&
      beAt p 6 2 + beAt p 8 2 ≤ 10240
  | 7 => 8 ≤ p.length && s.powered 4 && byteAt p 4 ≤ 7 && reserved p 5 3
  | 8 => 12 ≤ p.length
  | _ => false

/-- R332: the object comes into being at its index. -/
def State.createAt (s : State) (o : Origin) (cls i : Nat) (p : List Byte) : State :=
  match cls with
  | 2 => s.createMap i p (bitAt (byteAt p 1) 0)
  | 3 => s.createMotif i p
  | 4 => (s.groupCreate i (byteAt p 4) (beAt p 6 2) (beAt p 8 2)).seeWrite (Reg.CENSUS_GRP_POLICY i).addr
  | 7 => s.createCtx i (byteAt p 4)
  | _ => { s with klp := { s.klp with subs := tabPut i ⟨o.session.getD 0, beAt p 4 8, 0, false, []⟩ s.klp.subs } }

/-- R331 to R333: CREATE. -/
def State.cmdCreate (s : State) (o : Origin) (p : List Byte) : CmdResult :=
  let cls := byteAt p 0
  let index := beAt p 2 2
  if 2 ≤ byteAt p 1 || (classSize cls ≤ index && index != 0xFFFF) || !s.createOk cls p then s.refuse .eParam
  else match s.createIndex cls index with
    | .inl st => s.refuse st
    | .inr i => if cls = 8 ∧ o.session = none then s.refuse .eState
      else (s.createAt o cls i p).answer (beBytes 4 (s.handle cls i))

/-- R319, R320: the class and index a handle names, when it is valid for the command that names it. -/
def State.named (s : State) (o : Origin) (h : Nat) : Option (Nat × Nat) :=
  let cls := h / 2 ^ 24
  (s.resolve cls h).bind fun i =>
    if cls = 8 ∧ (tabFind s.klp.subs i).map (·.session) ≠ o.session then none else some (cls, i)

/-- R228: the enabled engines that name a definition. -/
def State.enginesNaming (s : State) (d : Nat) : Nat :=
  (List.range 8).foldl (fun acc i => acc + bitTo i ((s.hostEng i).en && (s.hostEng i).defn == d)) 0

/-- R334: DESTROY of a map: EN clears in the shadow, PIPE is committed, and the index stays occupied until that applies. -/
def State.destroyMap (s : State) (m : Nat) : State :=
  let s := (s.wrSh (Reg.PIPE_MAP_EN m) 0).mapRemove m
  { s with cmd := { s.cmd with mapDying := s.cmd.mapDying ++ [(m, false)] } }.castleCommit 2

/-- R334: a running pawn executes the range of a program. -/
def State.progBusy (s : State) (r : Nat × Nat) : Bool := (List.range r.2).any fun k => s.storeBusy (r.1 + k)

/-- R68, R334: DESTROY of a move acts as MOVE_CANCEL: a move that is due now runs, and its handle is gone. -/
def State.destroyMove (s : State) (o : Origin) (h : Nat) : CmdResult :=
  let s := s.movesDue
  match s.named o h with
  | some (_, i) => (s.moveFree i).done
  | none => s.refuse .eHandle

/-- R334: DESTROY. -/
def State.cmdDestroy (s : State) (o : Origin) (p : List Byte) : CmdResult :=
  let h := beAt p 0 4
  if h / 2 ^ 24 = 1 then s.refuse .eParam
  else match s.named o h with
    | none => s.refuse .eHandle
    | some (2, m) => (s.destroyMap m).done
    | some (3, d) => if s.enginesNaming d ≠ 0 then s.refuse .eState else (s.motifRemove d).done
    | some (4, g) => if s.grpState g ≠ 0 then (s.setW1c (Reg.CENSUS_GRP_CFG_REJ g)).refuse .eState else (s.groupRemove g).done
    | some (5, k) =>
      if ((tabFind s.cmd.progs k).map s.progBusy).getD false then s.refuse .eRunning else (s.progRemove k).done
    | some (6, _) => s.destroyMove o h
    | some (7, c) => (s.ctxRemove c).done
    | some (_, b) => (s.subRemove b).done

/-- Table 11.5: the descriptor as created and the class status words. Classes without a row give the handle alone (log
entry 64). -/
def State.queryData (s : State) (cls i : Nat) : List Byte :=
  match cls with
  | 2 => s.descOf 2 i ++ beBytes 4 (s.reg (mapWordAddr i 0)).toNat
  | 3 => s.descOf 3 i ++ beBytes 1 (s.enginesNaming i)
  | 4 => s.descOf 4 i ++ beBytes 4 (s.viewWord (Reg.CENSUS_GRP_STATE i).addr).toNat ++
      beBytes 4 (s.viewWord ((Reg.CENSUS_GRP_STATE i).addr + 4)).toNat
  | 7 => match tabFind s.cmd.ctxs i with
    | some c => beBytes 1 c.unit ++ [0, 0, 0] ++ (c.config.flatMap fun w => beBytes 4 w.toNat) ++ beBytes 4 c.value.toNat
    | none => []
  | 8 => match tabFind s.klp.subs i with
    | some b => beBytes 8 b.mask ++ beBytes 8 b.mask ++ beBytes 2 b.queue.length
    | none => []
  | _ => []

/-- R331: QUERY. -/
def State.cmdQuery (s : State) (o : Origin) (p : List Byte) : CmdResult :=
  match s.named o (beAt p 0 4) with
  | none => s.refuse .eHandle
  | some (cls, i) => s.answer (slice p 0 4 ++ s.queryData cls i)

/-- R331: LIST. -/
def State.cmdList (s : State) (p : List Byte) : CmdResult :=
  let cls := byteAt p 0
  if cls < 1 || 8 < cls || !reserved p 1 1 then s.refuse .eParam
  else
    let found := (List.range (classSize cls)).filter fun i => decide (beAt p 2 2 ≤ i) && s.objExists cls i
    let out := found.take 64
    let data := beBytes 2 out.length ++ beBytes 2 ((found.drop 64).headD 0xFFFF) ++ out.flatMap fun i => beBytes 4 (s.handle cls i)
    (some (if found.length ≤ 64 then .ok else .partially, data, .nothing), s)

/-- The CTRL word a RESTORE writes: EN 0 and RESUME 1 (R334). -/
def ctxCtrl (w : Word) : Word := w &&& 0xFFFFFFFE ||| BitVec.ofNat 32 (2 ^ (Reg.CVU_CTRL_RESUME 0).lo)

/-- R334: a context's configuration and value go back into a unit. -/
def State.ctxRestore (s : State) (unit : Nat) (c : CvuCtx) : State :=
  let s := s.cvuWriteCtrl unit (ctxCtrl (c.config.headD 0))
  let s := (c.config.drop 1).zipIdx.foldl (fun (s : State) e => s.cvuWriteCfg unit (4 + 4 * e.2) e.1) s
  s.cvuWriteCfg unit 0x28 c.value

/-- R334: RESTORE. -/
def State.cmdRestore (s : State) (p : List Byte) : CmdResult :=
  let unit := byteAt p 4
  if 8 ≤ unit || !reserved p 5 3 || !s.powered 4 then s.refuse .eParam
  else match (s.resolve 7 (beAt p 0 4)).bind fun i => tabFind s.cmd.ctxs i with
    | none => s.refuse .eHandle
    | some c => if s.rdB (Reg.CVU_CTRL_EN unit) then s.refuse .eRunning else (s.ctxRestore unit c).done

/-! ## Time (R335) -/

/-- R326, R335: the shadows of the grid, which reads of the SYS cycle then find written. -/
def State.gridWrite (s : State) (epoch frac period pfrac : Nat) : State :=
  let s := [Reg.TIME_GRID_EPOCH_EPOCH_LO, Reg.TIME_GRID_EPOCH_EPOCH_HI, Reg.TIME_GRID_EPOCH_FRAC_FRAC, Reg.TIME_GRID_PERIOD_NS,
    Reg.TIME_GRID_PERIOD_FRAC].foldl (fun (s : State) f => s.seeWrite f.addr) s
  let s := (s.wrSh Reg.TIME_GRID_EPOCH_EPOCH_LO epoch).wrSh Reg.TIME_GRID_EPOCH_EPOCH_HI (epoch / 2 ^ 32)
  ((s.wrSh Reg.TIME_GRID_EPOCH_FRAC_FRAC frac).wrSh Reg.TIME_GRID_PERIOD_NS period).wrSh Reg.TIME_GRID_PERIOD_FRAC pfrac

/-- R52, R335: GRID_SET. The frame that the period must hold is that of the shadows (log entry 65). -/
def State.cmdGridSet (s : State) (p : List Byte) : CmdResult :=
  let flags := beAt p 10 2
  let t := beAt p 12 4 * nsUnit + beAt p 16 2
  if 2 ≤ flags || !reserved p 18 2 || !s.powered 2 || !periodInRange t || !fitsRd s.rdSh t then s.refuse .eParam
  else
    let s := s.gridWrite (beAt p 0 8) (beAt p 8 2) (beAt p 12 4) (beAt p 16 2)
    (if flags = 1 then s.castleCommit 1 else s).done

/-- R335: MOVE_ADD. -/
def State.cmdMoveAdd (s : State) (p : List Byte) : CmdResult :=
  if !moveActionOk (byteAt p 8) || !reserved p 9 3 || !s.powered 2 then s.refuse .eParam
  else
    let (st, h, t) := s.moveAdd ⟨beAt p 0 8, BitVec.ofNat 8 (byteAt p 8), wordAt p 12, false⟩
    if st = .eNoSpace then t.refuse st else (some (st, beBytes 4 h, .nothing), t)

/-- R335: MOVE_CANCEL. -/
def State.cmdMoveCancel (s : State) (p : List Byte) : CmdResult :=
  if !s.powered 2 then s.refuse .eParam
  else
    let (st, t) := s.moveCancel (beAt p 0 4)
    t.refuse st

/-- R45, R335: TOD_SET. -/
def State.cmdTodSet (s : State) (p : List Byte) : CmdResult :=
  let ns := beAt p 0 8
  if !s.powered 2 || (s.timeSrc == 1 && ns % 1000000000 != 0) then s.refuse .eParam
  else if s.timeSrc = 0 then s.refuse .eState
  else (s.todSet ns).done

/-! ## Seal (R337) -/

/-- R337: STAGE. -/
def State.cmdStage (s : State) (p : List Byte) : CmdResult :=
  let off := beAt p 0 4
  let n := beAt p 4 2
  if n < 1 || 1008 < n || !reserved p 6 2 || p.length < 8 + n || 262144 < off + n then s.refuse .eParam
  else if s.evaluating then s.refuse .eBusy
  else (s.stage off (slice p 8 n)).done

/-- An evaluation starts, or waits for those before it (R306). -/
def State.sealRun (s : State) (arm : Bool) (o : Origin) : State := { s with store := { s.store with run := s.store.run ++ [⟨arm, o⟩] } }

/-- R337: CHECK answers when its evaluation ends. -/
def State.cmdCheck (s : State) (o : Origin) (_p : List Byte) : CmdResult := (none, s.sealRun false o)

/-- The first reply of a command has gone. -/
def Origin.paid : Origin → Origin
  | .klp h tag noReply _ peer => .klp h tag noReply false peer
  | .mbox _ => .mbox false
  | .poll b => .poll b

/-- The command's first reply is still to come, or it sends none. -/
def Origin.fresh : Origin → Bool
  | .klp _ _ noReply owed _ => owed || noReply
  | .mbox owed => owed
  | .poll _ => true

/-- R337: ARM answers DONE_LATER, unless an acceptance has done so (R307), and its final status later. -/
def State.cmdArm (s : State) (o : Origin) (_p : List Byte) : CmdResult :=
  (if o.fresh then some (.doneLater, [], .nothing) else none, s.sealRun true o.paid)

/-- R451: DISARM waits for its grid point. -/
def State.cmdDisarm (s : State) (_p : List Byte) : CmdResult := ({ s with store := { s.store with disarmDue := true } }).done

/-- R337, R444: SEAL_WRITE answers when the copy has been verified. -/
def State.cmdSealWrite (s : State) (o : Origin) (_p : List Byte) : CmdResult :=
  if s.brace || s.store.write.isSome then s.refuse .eBusy
  else if s.store.armed.isNone then s.refuse .eState
  else (none, { s with store := { s.store with write := some o } })

/-- R445: an image with the key bytes of its KEYS section as 0. -/
def keyless (img : List Byte) : List Byte :=
  match sealSecs img with
  | .inr l => match secOf l 9 with
    | some x => patch img (x.off + 12) (List.replicate 128 0)
    | none => img
  | .inl _ => img

/-- R337: SEAL_READ. Without an armed Seal no byte exists. -/
def State.cmdSealRead (s : State) (p : List Byte) : CmdResult :=
  let off := beAt p 0 4
  let n := beAt p 4 2
  if n < 1 || 1008 < n || !reserved p 6 2 then s.refuse .eParam
  else
    let img := keyless (s.store.armed.getD [])
    (some (if off + n ≤ img.length then .ok else .partially, slice img off n, .nothing), s)

/-! ## Census and function groups (R338) -/

/-- R214, R338: SWEEP. -/
def State.cmdSweep (s : State) (_p : List Byte) : CmdResult := if s.powered 3 then s.sweepStart.done else s.refuse .eParam

/-- R338: CENSUS_SUB. -/
def State.cmdCensusSub (s : State) (o : Origin) (p : List Byte) : CmdResult :=
  let kinds := byteAt p 0
  match o.session with
  | none => s.refuse .eOpcode
  | some h =>
    let caps := ((s.sessionAt h).map (·.caps)).getD 0
    if 4 ≤ kinds || !reserved p 1 3 || (bitAt kinds 1 && !bitAt caps 3) then s.refuse .eParam
    else (s.updSession h fun (x : Session) => { x with census := kinds }).done

/-- R338: MAP_READ. -/
def State.cmdMapRead (s : State) (p : List Byte) : CmdResult :=
  let first := beAt p 0 2
  let n := beAt p 2 2
  if n < 1 || 252 < n || 3072 < first + n || !s.powered 2 then s.refuse .eParam
  else s.answer ((List.range n).flatMap fun k => s.mapWord (first + k))

/-- R212, R338: one member-list entry; an entry within a group that is not IDLE stays (log entry 66). -/
def State.memberPut (s : State) (i e : Nat) : State :=
  if s.entryHeld i then s.setW1c Reg.CENSUS_STAT_LIST_REJ else s.fcmStore (memberAt + 2 * i) (leBytes 2 e)

/-- R338: GROUP_MEMBERS. -/
def State.cmdGroupMembers (s : State) (p : List Byte) : CmdResult :=
  let first := beAt p 4 2
  let n := beAt p 6 2
  if n < 1 || 504 < n || p.length < 8 + 2 * n || !s.powered 2 || !s.powered 3 then s.refuse .eParam
  else match s.resolve 4 (beAt p 0 4) with
    | none => s.refuse .eHandle
    | some g =>
      if s.rd (Reg.CENSUS_GRP_COUNT g) < first + n then s.refuse .eParam
      else if s.grpState g ≠ 0 then s.refuse .eState
      else
        let base := s.rd (Reg.CENSUS_GRP_BASE g) + first
        ((List.range n).foldl (fun (s : State) k => s.memberPut (base + k) (beAt p (8 + 2 * k) 2)) s).done

/-- R203 to R205: GROUP_ARM. -/
def State.cmdGroupArm (s : State) (p : List Byte) : CmdResult :=
  match s.resolve 4 (beAt p 0 4) with
  | none => s.refuse .eHandle
  | some g =>
    if s.grpState g ≠ 0 then s.refuse .eState
    else if !s.armSlack g then (s.raise Ev.PROBE_NO_SLACK g).refuse .eState
    else if !s.armParams g then s.refuse .eParam
    else (s.grpArm g).done

/-- R212: GROUP_DISARM. -/
def State.cmdGroupDisarm (s : State) (p : List Byte) : CmdResult :=
  match s.resolve 4 (beAt p 0 4) with
  | none => s.refuse .eHandle
  | some g => (s.grpDisarm g).done

/-- R211: GROUP_ACK. -/
def State.cmdGroupAck (s : State) (p : List Byte) : CmdResult :=
  match s.resolve 4 (beAt p 0 4) with
  | none => s.refuse .eHandle
  | some g => if s.ackOk g then (s.grpBegin g).done else s.refuse .eState

/-! ## Pawns (R339) -/

/-- R339: PROG_LOAD. -/
def State.cmdProgLoad (s : State) (p : List Byte) : CmdResult :=
  let s := s.movesDue
  let base := byteAt p 0
  let n := byteAt p 1
  let words := (List.range n).map fun k => beAt p (4 + 4 * k) 4
  if n < 1 || 48 < base + n || !reserved p 2 2 || p.length < 4 + 4 * n || (words.any fun w => 2 ^ 20 ≤ w) || !s.powered 4 then
    s.refuse .eParam
  else if s.progBusy (base, n) then s.refuse .eRunning
  else if s.cmd.progs.any fun e => rangesMeet e.2 (base, n) then s.refuse .eState
  else match s.freeIndex 5 with
    | none => s.refuse .eNoSpace
    | some k =>
      let s := words.zipIdx.foldl (fun (s : State) e => s.storePut (base + e.2) (BitVec.ofNat 32 e.1)) s
      (s.progCreate k base n).answer (beBytes 4 (s.handle 5 k))

/-- R339, R363: GO. -/
def State.cmdGo (s : State) (p : List Byte) : CmdResult :=
  if !reserved p 1 3 || !s.powered 4 then s.refuse .eParam else (s.pawnsGo (byteAt p 0)).done

/-- R339, R365: STOP. -/
def State.cmdStop (s : State) (p : List Byte) : CmdResult :=
  if !reserved p 1 3 || !s.powered 4 then s.refuse .eParam else (s.pawnsStop (byteAt p 0)).done

/-- R339: PUSH. -/
def State.cmdPush (s : State) (p : List Byte) : CmdResult :=
  let k := byteAt p 0
  let n := byteAt p 1
  if 8 ≤ k || n < 1 || 4 < n || !reserved p 2 2 || p.length < 4 + 4 * n || !s.powered 4 then s.refuse .eParam
  else
    let m := min n (4 - (s.pawn k).tx.length)
    let s := s.setPawn k { s.pawn k with tx := (s.pawn k).tx ++ (List.range m).map fun i => wordAt p (4 + 4 * i) }
    (some (if m = n then .ok else .partially, beBytes 1 m, .nothing), s)

/-- R339: PULL. -/
def State.cmdPull (s : State) (p : List Byte) : CmdResult :=
  let k := byteAt p 0
  let n := byteAt p 1
  if 8 ≤ k || n < 1 || 4 < n || !reserved p 2 2 || !s.powered 4 then s.refuse .eParam
  else if s.tbPawnSource k then s.refuse .eState
  else
    let out := (s.pawn k).rx.take n
    (s.setPawn k { s.pawn k with rx := (s.pawn k).rx.drop n }).answer
      (beBytes 1 out.length ++ [0, 0, 0] ++ out.flatMap fun w => beBytes 4 w.toNat)

/-! ## Power (R340) -/

/-- R452: what ARMs run, wait for their turn or wait for their grid point is given up, with no final reply. -/
def State.armCancel (s : State) : State :=
  { s with store := { s.store with run := s.store.run.filter fun r => !r.arm, armDue := none } }

/-- R340, R452: SENTRY. -/
def State.cmdSentry (s : State) (_p : List Byte) : CmdResult := (some (.ok, [], .sentry), s.armCancel)

/-- R340: WAKE_CFG. -/
def State.cmdWakeCfg (s : State) (p : List Byte) : CmdResult :=
  let k := byteAt p 0
  if 8 ≤ k || 6 ≤ byteAt p 1 || !reserved p 2 2 then s.refuse .eParam
  else
    let s := (s.wr Reg.PWR_WAKE_PIN_EN k).wr Reg.PWR_WAKE_LINK_EN (k / 2)
    (((s.wr Reg.PWR_WAKE_ALARM_EN (k / 4)).wr Reg.PWR_WAKE_PORT (byteAt p 1)).wr Reg.PWR_ALARM_DELAY_S (beAt p 4 4)).done

/-- The domains powered, as a mask. -/
def State.poweredMask (s : State) : Nat := (List.range 6).foldl (fun acc d => acc + bitTo d (s.powered d)) 0

/-- R340: DOMAIN: its reply gives the domains powered after the switch. -/
def State.cmdDomain (s : State) (p : List Byte) : CmdResult :=
  let mask := byteAt p 0
  let value := byteAt p 1
  let off (d : Nat) : Bool := bitAt mask d && !bitAt value d
  if 64 ≤ mask || 64 ≤ value || !reserved p 2 2 || off 1 then s.refuse .eParam
  else if (off 2 || off 3) && (s.devState == 5 || s.devState == 6) then s.refuse .eState
  else (some (.ok, beBytes 1 ((s.poweredMask &&& (63 - mask)) ||| (value &&& mask)), .domains mask value), s)

/-! ## Firmware (R341) -/

/-- The slot that is running; RECOVERY runs none (R438). -/
def State.runningSlot (s : State) : Option Nat := if s.inRecovery then none else some (s.rd Reg.SEAL_BOOT_SLOT)

/-- R341: FW_WRITE. -/
def State.cmdFwWrite (s : State) (p : List Byte) : CmdResult :=
  let slot := byteAt p 0
  let n := beAt p 2 2
  let off := beAt p 4 4
  if 2 ≤ slot || !reserved p 1 1 || n < 1 || 1008 < n || p.length < 8 + n || slotSize < off + n || !s.powered 4 then
    s.refuse .eParam
  else if s.runningSlot = some slot then s.refuse .eRunning
  else if s.brace || s.store.write.isSome then s.refuse .eBusy
  else (s.setFlash (slotAt slot + off) (slice p 8 n)).done

/-- R325, R341, R452: FW_SWAP. It waits while a CHECK or an ARM runs, a further one behind it (R306). -/
def State.cmdFwSwap (s : State) (o : Origin) (p : List Byte) : CmdResult :=
  let slot := byteAt p 0
  if 2 ≤ slot || !reserved p 1 3 || !s.powered 4 then s.refuse .eParam
  else if s.brace then s.refuse .eBusy
  else
    let r := s.slotReason slot
    if r ≠ 0 then (some (.eState, beBytes 2 r, .nothing), s)
    else if !s.evaluating then (none, s.fwSwap slot o)
    else if s.store.swapDue.isSome then (none, { s with cmd := { s.cmd with parked := s.cmd.parked ++ [⟨o, 0x0802, true, p⟩] } })
    else (none, { s with store := { s.store with swapDue := some (slot, o) } })

/-- R341: one slot of FW_INFO. -/
def State.slotInfo (s : State) (k : Nat) : List Byte :=
  let r := s.slotReason k
  let state : Byte := if r = 4 then 0 else if r = 0 then 1 else 2
  [state, if s.runningSlot = some k then 1 else 0, 0, 0] ++ beBytes 4 (if r = 4 then 0 else s.slotVersion k)

/-- R341: FW_INFO. -/
def State.cmdFwInfo (s : State) (_p : List Byte) : CmdResult := s.answer (s.slotInfo 0 ++ s.slotInfo 1)

/-! ## Fallback and motifs (R342) -/

/-- R231: FB_ON. -/
def State.cmdFbOn (s : State) (_p : List Byte) : CmdResult := if s.powered 2 then s.fbOn.done else s.refuse .eParam

/-- R232: FB_OFF. -/
def State.cmdFbOff (s : State) (_p : List Byte) : CmdResult := if s.fbOffOk then s.fbOff.done else s.refuse .eState

/-- R225: MOTIF_STEP. -/
def State.cmdMotifStep (s : State) (p : List Byte) : CmdResult :=
  if !reserved p 1 3 || !s.powered 2 then s.refuse .eParam else (s.motifStep (byteAt p 0)).done

/-- R342: FB_STATUS. -/
def State.cmdFbStatus (s : State) (_p : List Byte) : CmdResult :=
  if s.powered 2 then s.answer (beBytes 4 (s.viewWord Reg.MOTIF_FB_STAT_ACTIVE.addr).toNat) else s.refuse .eParam

/-! ## The opcode tables -/

/-- One row of Tables 11.2 to 11.12: the states of its States column, the length of its fixed parameters, and its Local
column. -/
structure OpRow where
  states : List Nat
  len : Nat
  poll : Bool
  mbox : Bool
  deriving DecidableEq, Repr

/-- The letters of R325 by number: 2 LOADED, 3 STALEMATE, 4 READY, 5 ARMED, 6 FALLBACK, 7 RECOVERY. -/
def stAll : List Nat := [2, 3, 4, 5, 6, 7]
def stLSRAF : List Nat := [2, 3, 4, 5, 6]
def stSRAF : List Nat := [3, 4, 5, 6]
def stRAF : List Nat := [4, 5, 6]

/-- The row of an opcode. -/
def opRow (op : Nat) : Option OpRow :=
  match op with
  | 0x0001 => some ⟨stAll, 40, true, true⟩
  | 0x0002 => some ⟨stAll, 0, false, false⟩
  | 0x0003 => some ⟨stAll, 0, true, true⟩
  | 0x0004 => some ⟨stAll, 2, false, false⟩
  | 0x0005 => some ⟨stAll, 0, false, false⟩
  | 0x0101 => some ⟨stAll, 8, true, true⟩
  | 0x0102 => some ⟨stAll, 8, true, true⟩
  | 0x0103 => some ⟨stAll, 12, true, true⟩
  | 0x0201 => some ⟨stRAF, 4, false, true⟩
  | 0x0202 => some ⟨stRAF, 4, false, true⟩
  | 0x0203 => some ⟨stSRAF, 4, true, true⟩
  | 0x0204 => some ⟨stSRAF, 4, true, true⟩
  | 0x0205 => some ⟨stRAF, 8, false, true⟩
  | 0x0301 => some ⟨stRAF, 20, false, true⟩
  | 0x0302 => some ⟨stRAF, 16, false, true⟩
  | 0x0303 => some ⟨stRAF, 4, false, true⟩
  | 0x0304 => some ⟨stLSRAF, 8, false, true⟩
  | 0x0401 => some ⟨stLSRAF, 8, true, true⟩
  | 0x0402 => some ⟨stLSRAF, 0, true, true⟩
  | 0x0403 => some ⟨[3, 4], 0, true, true⟩
  | 0x0404 => some ⟨[5, 6], 0, true, true⟩
  | 0x0405 => some ⟨stRAF, 0, true, true⟩
  | 0x0406 => some ⟨stRAF, 8, true, true⟩
  | 0x0501 => some ⟨stRAF, 0, true, true⟩
  | 0x0502 => some ⟨stRAF, 4, false, false⟩
  | 0x0503 => some ⟨stRAF, 4, true, true⟩
  | 0x0504 => some ⟨stRAF, 8, false, true⟩
  | 0x0505 => some ⟨stRAF, 4, true, true⟩
  | 0x0506 => some ⟨stRAF, 4, true, true⟩
  | 0x0507 => some ⟨stRAF, 4, true, true⟩
  | 0x0601 => some ⟨stRAF, 4, false, true⟩
  | 0x0602 => some ⟨stRAF, 4, false, true⟩
  | 0x0603 => some ⟨stRAF, 4, false, true⟩
  | 0x0604 => some ⟨stRAF, 4, false, true⟩
  | 0x0605 => some ⟨stRAF, 4, false, true⟩
  | 0x0701 => some ⟨stLSRAF, 0, true, true⟩
  | 0x0702 => some ⟨stLSRAF, 8, true, true⟩
  | 0x0703 => some ⟨stLSRAF, 4, true, true⟩
  | 0x0801 => some ⟨stAll, 8, true, true⟩
  | 0x0802 => some ⟨stAll, 4, true, true⟩
  | 0x0803 => some ⟨stAll, 0, true, true⟩
  | 0x0901 => some ⟨[5, 6], 0, true, true⟩
  | 0x0902 => some ⟨[5, 6], 0, true, true⟩
  | 0x0903 => some ⟨stRAF, 4, false, true⟩
  | 0x0904 => some ⟨stSRAF, 0, true, true⟩
  | _ => none

/-- What an opcode does, its state and length tested. -/
def State.runOp (s : State) (o : Origin) (op : Nat) (p : List Byte) : CmdResult :=
  match op with
  | 0x0001 => s.cmdHello o p
  | 0x0002 => s.cmdBye o p
  | 0x0003 => s.cmdCaps o p
  | 0x0004 => s.cmdCredit o p
  | 0x0005 => s.cmdAuth o p
  | 0x0101 => s.cmdRegRd p
  | 0x0102 => s.cmdRegWr p
  | 0x0103 => s.cmdRegRmw p
  | 0x0201 => s.cmdCreate o p
  | 0x0202 => s.cmdDestroy o p
  | 0x0203 => s.cmdQuery o p
  | 0x0204 => s.cmdList p
  | 0x0205 => s.cmdRestore p
  | 0x0301 => s.cmdGridSet p
  | 0x0302 => s.cmdMoveAdd p
  | 0x0303 => s.cmdMoveCancel p
  | 0x0304 => s.cmdTodSet p
  | 0x0401 => s.cmdStage p
  | 0x0402 => s.cmdCheck o p
  | 0x0403 => s.cmdArm o p
  | 0x0404 => s.cmdDisarm p
  | 0x0405 => s.cmdSealWrite o p
  | 0x0406 => s.cmdSealRead p
  | 0x0501 => s.cmdSweep p
  | 0x0502 => s.cmdCensusSub o p
  | 0x0503 => s.cmdMapRead p
  | 0x0504 => s.cmdGroupMembers p
  | 0x0505 => s.cmdGroupArm p
  | 0x0506 => s.cmdGroupDisarm p
  | 0x0507 => s.cmdGroupAck p
  | 0x0601 => s.cmdProgLoad p
  | 0x0602 => s.cmdGo p
  | 0x0603 => s.cmdStop p
  | 0x0604 => s.cmdPush p
  | 0x0605 => s.cmdPull p
  | 0x0701 => s.cmdSentry p
  | 0x0702 => s.cmdWakeCfg p
  | 0x0703 => s.cmdDomain p
  | 0x0801 => s.cmdFwWrite p
  | 0x0802 => s.cmdFwSwap o p
  | 0x0803 => s.cmdFwInfo p
  | 0x0901 => s.cmdFbOn p
  | 0x0902 => s.cmdFbOff p
  | 0x0903 => s.cmdMotifStep p
  | 0x0904 => s.cmdFbStatus p
  | _ => s.refuse .eOpcode

/-- R322, R344: the transport carries the opcode. Over KLP the HELLO class serves for HELLO (R327). -/
def OpRow.carried (r : OpRow) (op : Nat) : Origin → Bool
  | .klp _ _ _ _ _ => op != 1
  | .poll _ => r.poll
  | .mbox _ => r.mbox

/-- R322: the tests from E_OPCODE on, in their order, and the opcode. `plenOk`: plen equals the payload size minus 4 (R305). -/
def State.perform (s : State) (o : Origin) (op : Nat) (plenOk : Bool) (p : List Byte) : CmdResult :=
  match opRow op with
  | none => s.refuse .eOpcode
  | some r =>
    if !r.carried op o then s.refuse .eOpcode
    else if !r.states.contains s.devState then s.refuse .eState
    else if !plenOk || p.length < r.len then s.refuse .eParam
    else s.runOp o op p

/-- A command's result becomes its reply. -/
def State.settle (o : Origin) (op : Nat) (r : CmdResult) : State :=
  match r.1 with
  | some (st, data, after) => r.2.postReply o op st data after
  | none => r.2

/-- A command runs now. -/
def State.runCommand (s : State) (o : Origin) (op : Nat) (plenOk : Bool) (p : List Byte) : State :=
  State.settle o op (s.perform o op plenOk p)

/-! ## Commands in order (R306) -/

/-- Two commands came in one session, or on one local transport. -/
def Origin.together : Origin → Origin → Bool
  | .klp h _ _ _ _, .klp h' _ _ _ _ => h == h'
  | .poll _, .poll _ => true
  | .mbox _, .mbox _ => true
  | _, _ => false

/-- R306: two commands stand in one order of arrival: all sessions have one, each local transport its own. -/
def Origin.oneOrder : Origin → Origin → Bool
  | .klp _ _ _ _ _, .klp _ _ _ _ _ => true
  | o, o' => o.together o'

/-- Commands that have started and not completed: a CHECK or an ARM, a SEAL_WRITE, an FW_SWAP that waits. -/
def State.started (s : State) : List Origin :=
  (s.store.run.map (·.origin)) ++ (match s.store.armDue with
    | some d => d.origins
    | none => []) ++ s.store.write.toList ++ s.store.swapDue.toList.map (·.2)

/-- Opcodes with a rule of their own for the time that another command takes, while it takes it: SENTRY cancels an ARM (R452), STAGE
is answered E_BUSY during an evaluation (R337), SEAL_WRITE and FW_WRITE during a SEAL_WRITE (Tables 11.7, 11.11). -/
def State.cutsIn (s : State) (op : Nat) : Bool :=
  match op with
  | 0x0701 => s.evaluating
  | 0x0401 => s.evaluating
  | 0x0405 => s.store.write.isSome
  | 0x0801 => s.store.write.isSome
  | _ => false

/-- R306: a command waits for one of its session that has started (log entry 127), and for every one that arrived before it and
waits for its turn. -/
def State.mustWait (s : State) (o : Origin) (op : Nat) : Bool :=
  (s.started.any (·.together o) && !s.cutsIn op) ||
    (s.store.swapDue.toList.map (·.2) ++ s.cmd.parked.map (·.origin)).any (·.oneOrder o)

/-- R306: an untimed command runs in its turn; one that a restart of the control core comes before waits for its end (R304). -/
def State.takeCommand (s : State) (o : Origin) (op : Nat) (plenOk : Bool) (p : List Byte) : State :=
  if s.coreDown || s.mustWait o op then { s with cmd := { s.cmd with parked := s.cmd.parked ++ [⟨o, op, plenOk, p⟩] } }
  else s.runCommand o op plenOk p

/-- R306: commands whose turn has come run, in order of acceptance. -/
def State.unpark (s : State) : State :=
  if s.coreDown then s
  else s.cmd.parked.foldl (fun (s : State) p => s.takeCommand p.origin p.opcode p.plenOk p.params) { s with cmd := { s.cmd with parked := [] } }

/-! ## CHECK, ARM and SEAL_WRITE end (R444, R447, R450) -/

/-- R450, R453: the first grid point at least 1 ms after the application, outside BRACE, and, for an ARM, outside a restart of the
control core (R304). -/
def execArmedEntry (at_ : Vt) (s : State) : Host.Outcome State Fault Refusal :=
  let s := s.elapseTo at_
  .next (match s.store.armDue, s.store.armed with
    | some d, some img =>
      if s.devState == 4 && d.from_ + msec 1 ≤ s.time.uptime && s.atGrid && !s.brace && (d.origins.isEmpty || !s.coreDown) then
        (s.armEnter img d).unpark
      else s
    | _, _ => s)

/-- R447: the evaluation that runs ends. -/
def execSealCheckDone (at_ : Vt) (s : State) : Host.Outcome State Fault Refusal :=
  let s := s.elapseTo at_
  .next (match s.store.run with
    | r :: rest =>
      if s.coreDown then s else
        let s := { s with store := { s.store with run := rest } }
        (if r.arm then s.armDone r.origin else s.checkDone r.origin).swapNext.unpark
    | [] => s)

/-- R444: the copy has been written and verified. -/
def execSealWriteDone (at_ : Vt) (s : State) : Host.Outcome State Fault Refusal :=
  let s := s.elapseTo at_
  .next (match s.store.write, s.store.armed with
    | some o, some img =>
      if s.brace || s.coreDown || !s.powered 4 then s else
        let (b, c) := s.sealToStore img
        let s := (s.setFlash (sealCopyAt c) b).wr Reg.SEAL_STAT_COPY c
        (({ s with store := { s.store with write := none } }).postReply o 0x0405 .ok [] .nothing).unpark
    | _, _ => s)

/-! ## Timed commands (R307) -/

/-- Statuses with which a command has passed its tests. -/
def Status.passes : Status → Bool
  | .ok | .doneLater | .partially => true
  | _ => false

/-- R307: lateness against an instant, in 2^-16 ns. -/
def State.lateBy (s : State) (inst : Nat) : Int := (s.now : Int) - inst * nsUnit

/-- R300: the session's caps allow timed commands. -/
def State.timedAllowed (s : State) (o : Origin) : Bool :=
  ((o.session.bind s.sessionAt).map fun (x : Session) => bitAt x.caps 0).getD false

/-- R307: a timed command that passed its tests: its lateness decides. -/
def State.timeCommand (s : State) (o : Origin) (op inst : Nat) (p : List Byte) : State :=
  let l := s.lateBy inst
  if l ≤ 0 then
    if 64 ≤ s.klp.timed.length then s.postReply o op .eNoSpace [] .nothing
    else
      ({ s with klp := { s.klp with timed := s.klp.timed ++ [(⟨o.paid, op, p, inst, false⟩ : Timed)] } }).postReply o op .doneLater [] .nothing
  else if l < s.lateLimit then s.runCommand o op true p
  else s.postReply o op .eLate [] .nothing

/-- R300, R307: a timed command: every test is made at acceptance, on a copy. -/
def State.acceptTimed (s : State) (o : Origin) (op inst : Nat) (plenOk : Bool) (p : List Byte) : State :=
  let trial := s.perform o op (plenOk && s.timedAllowed o) p
  match trial.1 with
  | some (st, data, after) => if st.passes then s.timeCommand o op inst p else trial.2.postReply o op st data after
  | none => s.timeCommand o op inst p

/-- Timed commands in the order of their instants, equal ones in order of acceptance (R306). -/
def insertTimed (t : Timed) : List Timed → List Timed
  | [] => [t]
  | u :: rest => if t.inst ≤ u.inst then t :: u :: rest else u :: insertTimed t rest

/-- R307: a due command: one whose instant passed while the core was down is dropped when it is too late. -/
def State.runTimed (s : State) (t : Timed) : State :=
  if t.held && decide ((s.lateLimit : Int) ≤ s.lateBy t.inst) then s.postReply t.origin t.opcode .eLate [] .nothing
  else s.runCommand t.origin t.opcode true t.params

/-- R306, R307: the pending commands whose instants have come run, in the order of R306. -/
def State.timedDue (s : State) : State :=
  let now := s.now
  let due (t : Timed) : Bool := decide (t.inst * nsUnit ≤ now)
  let l := (s.klp.timed.filter due).foldr insertTimed []
  l.foldl (fun (s : State) t => if (s.klp.timed.contains t) then
    { s with klp := { s.klp with timed := s.klp.timed.erase t } }.runTimed t else s) s

/-- R307, R326: pending timed commands whose instants have come run, unless the control core is down. -/
def State.commandsFirst (s : State) : State := if s.coreDown || s.devState < 2 then s else s.timedDue

/-- R65: the write of ADD. Commands of its cycle add their moves first (R64). -/
def execMoveNewAdd (s : State) : Host.Outcome State Fault Refusal :=
  .next (s.commandsFirst.softWrite Reg.MOVE_NEW_ADD.addr 1 State.moveNewAdd)

/-- R307: pending timed commands fall due. -/
def execTimedCommandDue (at_ : Vt) (s : State) : Host.Outcome State Fault Refusal :=
  let s := s.elapseTo at_
  .next s.commandsFirst

/-! ## Commands from their transports (R302 to R312, R343, R347) -/

/-- The COMMAND payload of an opcode with its parameters. -/
def cmdPayload (op : Nat) (p : List Byte) : List Byte := beBytes 2 op ++ beBytes 2 p.length ++ p

/-- R304, R307 to R309: a COMMAND that has passed its checks, bound to session `h` and authenticated. `to`: where its replies go. -/
def State.acceptCommand (s : State) (h : Nat) (x : Session) (tag : Nat) (noReply : Bool) (when_ : Nat) (peer : ReplyTo)
    (b : List Byte) : State :=
  let op := cmdOpcode b
  let s := s.hearPartner x.partner
  if !noReply && x.avail == 0 then (s.bump Reg.FWD_KLP_CNT1_CREDIT).refuseCommand peer (some h) h tag op .eCredit
  else if s.coreDown then (if noReply then s else s.refuseCommand peer (some h) h tag op .eBusy)
  else
    let s := if noReply then s else s.updSession h Session.take
    let o : Origin := .klp h tag noReply (!noReply) peer
    if x.verMaj = 3 ∧ when_ ≠ 0 then s.acceptTimed o op when_ (cmdPlenOk b) (cmdParams b)
    else s.takeCommand o op (cmdPlenOk b) (cmdParams b)

/-- R343, R347: a mailbox command runs; while the control core is down, hardware answers E_BUSY. -/
def State.mboxRun (s : State) (b : List Byte) : State :=
  let s := { s with cmd := { s.cmd with mboxDue := false } }
  let len := s.rd Reg.SVC_MBOX_LEN
  let bad := len < 4 ∨ 1024 < len
  if s.coreDown then s.postReply (.mbox true) (if bad then 0 else cmdOpcode b) .eBusy [] .nothing
  else if bad then s.postReply (.mbox true) 0 .eParam [] .nothing
  else s.takeCommand (.mbox true) (cmdOpcode b) (cmdPlenOk b) (cmdParams b)

/-- The bytes of the inbound buffer that LEN covers. -/
def State.mboxCommand (s : State) : List Byte :=
  (List.range (min 1024 (s.rd Reg.SVC_MBOX_LEN))).map fun i => SMap.get (fun _ => (0 : Byte)) s.cmd.mboxIn i

/-- R347: the mailbox command that waits runs. In SENTRY and BOOT no command is answered (R325). -/
def State.mboxServe (s : State) : State :=
  if s.cmd.mboxDue && s.powered 4 && decide (2 ≤ s.devState) then s.mboxRun s.mboxCommand else s

/-- R347: service software writes a command into the inbound buffer and sends it. -/
def State.mboxSubmit (s : State) (b : List Byte) : State :=
  let s := s.cvuTapWord 6 0 (BitVec.ofNat 32 (b.length % 2048 + 2 ^ 16))
  if s.rdB Reg.SVC_MBOX_BUSY || s.rdB Reg.SVC_MBOX_RDY then s.setW1c Reg.SVC_MBOX_OVERRUN
  else
    let buf := SMap.setRange (fun _ => (0 : Byte)) s.cmd.mboxIn 0 (min 1024 b.length) fun a => b.getD a 0
    let s := { s with cmd := { s.cmd with mboxIn := buf, mboxDue := true } }
    ((s.wr Reg.SVC_MBOX_LEN b.length).wr Reg.SVC_MBOX_BUSY 1).mboxServe

/-- R275: a command of the poll bus's queue runs. -/
def State.pollRun (s : State) (b : List Byte) (broadcast : Bool) : State :=
  s.takeCommand (.poll broadcast) (cmdOpcode b) (cmdPlenOk b) (cmdParams b)

/-- R275, R306, R325: the oldest command of the poll bus's queue runs when its turn has come. -/
def State.pollServe (s : State) : State :=
  if s.coreDown || !s.powered 4 || s.devState < 2 then s else
    match s.poll.cmds with
    | (b, broadcast) :: rest =>
      if s.mustWait (.poll broadcast) (cmdOpcode b) then s else { s with poll := { s.poll with cmds := rest } }.pollRun b broadcast
    | [] => s

/-- A command of chapter 11, by the transport it comes on. -/
def State.commandVia (s : State) (via : Via) (op : Nat) (p : List Byte) : State :=
  let b := cmdPayload op p
  match via with
  | .session i tag noReply when_ =>
    match tabFind s.klp.sessions i.val with
    | some x => if s.devState < 2 || !s.powered 0 then s else
        s.acceptCommand (s.handle 1 i.val) x tag.toNat noReply when_.toNat x.peer b
    | none => s
  | .poll =>
    if s.coreDown || !s.powered 4 || s.devState < 2 then s else
      match s.poll.cmds with
      | (c, f) :: rest =>
        if c = b then { s with poll := { s.poll with cmds := rest } }.pollRun b f
        else if 4 ≤ s.pollWaiting then s.bump Reg.PB_CNT0_OVERRUN
        else s.pollRun b false
      | [] => if 4 ≤ s.pollWaiting then s.bump Reg.PB_CNT0_OVERRUN else s.pollRun b false
  | .mbox => if s.powered 4 then s.mboxSubmit b else s

/-! ## The rows of the opcode tables -/

/-- R343: HELLO as an opcode. -/
def execHelloOpcode (via : Via) (params : List Byte) (s : State) : Host.Outcome State Fault Refusal :=
  .next (s.commandVia via 0x0001 params)

/-- R327: BYE. -/
def execBye (via : Via) (params : List Byte) (s : State) : Host.Outcome State Fault Refusal :=
  .next (s.commandVia via 0x0002 params)

/-- R327: CAPS. -/
def execCaps (via : Via) (params : List Byte) (s : State) : Host.Outcome State Fault Refusal :=
  .next (s.commandVia via 0x0003 params)

/-- R327: CREDIT. -/
def execCredit (via : Via) (params : List Byte) (s : State) : Host.Outcome State Fault Refusal :=
  .next (s.commandVia via 0x0004 params)

/-- R327: AUTH. -/
def execAuth (via : Via) (params : List Byte) (s : State) : Host.Outcome State Fault Refusal :=
  .next (s.commandVia via 0x0005 params)

/-- R328: REG_RD. -/
def execRegRd (via : Via) (params : List Byte) (s : State) : Host.Outcome State Fault Refusal :=
  .next (s.commandVia via 0x0101 params)

/-- R329: REG_WR. -/
def execRegWr (via : Via) (params : List Byte) (s : State) : Host.Outcome State Fault Refusal :=
  .next (s.commandVia via 0x0102 params)

/-- R330: REG_RMW. -/
def execRegRmw (via : Via) (params : List Byte) (s : State) : Host.Outcome State Fault Refusal :=
  .next (s.commandVia via 0x0103 params)

/-- R332: CREATE. -/
def execCreate (via : Via) (params : List Byte) (s : State) : Host.Outcome State Fault Refusal :=
  .next (s.commandVia via 0x0201 params)

/-- R334: DESTROY. -/
def execDestroy (via : Via) (params : List Byte) (s : State) : Host.Outcome State Fault Refusal :=
  .next (s.commandVia via 0x0202 params)

/-- R331: QUERY. -/
def execQuery (via : Via) (params : List Byte) (s : State) : Host.Outcome State Fault Refusal :=
  .next (s.commandVia via 0x0203 params)

/-- R331: LIST. -/
def execList (via : Via) (params : List Byte) (s : State) : Host.Outcome State Fault Refusal :=
  .next (s.commandVia via 0x0204 params)

/-- R334: RESTORE. -/
def execRestore (via : Via) (params : List Byte) (s : State) : Host.Outcome State Fault Refusal :=
  .next (s.commandVia via 0x0205 params)

/-- R335: GRID_SET. -/
def execGridSet (via : Via) (params : List Byte) (s : State) : Host.Outcome State Fault Refusal :=
  .next (s.commandVia via 0x0301 params)

/-- R335: MOVE_ADD. -/
def execMoveAdd (via : Via) (params : List Byte) (s : State) : Host.Outcome State Fault Refusal :=
  .next (s.commandVia via 0x0302 params)

/-- R68: MOVE_CANCEL. -/
def execMoveCancel (via : Via) (params : List Byte) (s : State) : Host.Outcome State Fault Refusal :=
  .next (s.commandVia via 0x0303 params)

/-- R45: TOD_SET. -/
def execTodSet (via : Via) (params : List Byte) (s : State) : Host.Outcome State Fault Refusal :=
  .next (s.commandVia via 0x0304 params)

/-- R337: STAGE. -/
def execStage (via : Via) (params : List Byte) (s : State) : Host.Outcome State Fault Refusal :=
  .next (s.commandVia via 0x0401 params)

/-- R447: CHECK. -/
def execCheck (via : Via) (params : List Byte) (s : State) : Host.Outcome State Fault Refusal :=
  .next (s.commandVia via 0x0402 params)

/-- R450: ARM. -/
def execArm (via : Via) (params : List Byte) (s : State) : Host.Outcome State Fault Refusal :=
  .next (s.commandVia via 0x0403 params)

/-- R451: DISARM. -/
def execDisarm (via : Via) (params : List Byte) (s : State) : Host.Outcome State Fault Refusal :=
  .next (s.commandVia via 0x0404 params)

/-- R444: SEAL_WRITE. -/
def execSealWrite (via : Via) (params : List Byte) (s : State) : Host.Outcome State Fault Refusal :=
  .next (s.commandVia via 0x0405 params)

/-- R337: SEAL_READ. -/
def execSealRead (via : Via) (params : List Byte) (s : State) : Host.Outcome State Fault Refusal :=
  .next (s.commandVia via 0x0406 params)

/-- R214: SWEEP. -/
def execSweep (via : Via) (params : List Byte) (s : State) : Host.Outcome State Fault Refusal :=
  .next (s.commandVia via 0x0501 params)

/-- R338: CENSUS_SUB. -/
def execCensusSub (via : Via) (params : List Byte) (s : State) : Host.Outcome State Fault Refusal :=
  .next (s.commandVia via 0x0502 params)

/-- R338: MAP_READ. -/
def execMapRead (via : Via) (params : List Byte) (s : State) : Host.Outcome State Fault Refusal :=
  .next (s.commandVia via 0x0503 params)

/-- R338: GROUP_MEMBERS. -/
def execGroupMembers (via : Via) (params : List Byte) (s : State) : Host.Outcome State Fault Refusal :=
  .next (s.commandVia via 0x0504 params)

/-- R205: GROUP_ARM. -/
def execGroupArm (via : Via) (params : List Byte) (s : State) : Host.Outcome State Fault Refusal :=
  .next (s.commandVia via 0x0505 params)

/-- R212: GROUP_DISARM. -/
def execGroupDisarm (via : Via) (params : List Byte) (s : State) : Host.Outcome State Fault Refusal :=
  .next (s.commandVia via 0x0506 params)

/-- R211: GROUP_ACK. -/
def execGroupAck (via : Via) (params : List Byte) (s : State) : Host.Outcome State Fault Refusal :=
  .next (s.commandVia via 0x0507 params)

/-- R339: PROG_LOAD. -/
def execProgLoad (via : Via) (params : List Byte) (s : State) : Host.Outcome State Fault Refusal :=
  .next (s.commandVia via 0x0601 params)

/-- R363: GO. -/
def execGo (via : Via) (params : List Byte) (s : State) : Host.Outcome State Fault Refusal :=
  .next (s.commandVia via 0x0602 params)

/-- R365: STOP. -/
def execStop (via : Via) (params : List Byte) (s : State) : Host.Outcome State Fault Refusal :=
  .next (s.commandVia via 0x0603 params)

/-- R339: PUSH. -/
def execPush (via : Via) (params : List Byte) (s : State) : Host.Outcome State Fault Refusal :=
  .next (s.commandVia via 0x0604 params)

/-- R339: PULL. -/
def execPull (via : Via) (params : List Byte) (s : State) : Host.Outcome State Fault Refusal :=
  .next (s.commandVia via 0x0605 params)

/-- R340: SENTRY. -/
def execSentry (via : Via) (params : List Byte) (s : State) : Host.Outcome State Fault Refusal :=
  .next (s.commandVia via 0x0701 params)

/-- R340: WAKE_CFG. -/
def execWakeCfg (via : Via) (params : List Byte) (s : State) : Host.Outcome State Fault Refusal :=
  .next (s.commandVia via 0x0702 params)

/-- R340: DOMAIN. -/
def execDomain (via : Via) (params : List Byte) (s : State) : Host.Outcome State Fault Refusal :=
  .next (s.commandVia via 0x0703 params)

/-- R341: FW_WRITE. -/
def execFwWrite (via : Via) (params : List Byte) (s : State) : Host.Outcome State Fault Refusal :=
  .next (s.commandVia via 0x0801 params)

/-- R454: FW_SWAP. -/
def execFwSwap (via : Via) (params : List Byte) (s : State) : Host.Outcome State Fault Refusal :=
  .next (s.commandVia via 0x0802 params)

/-- R341: FW_INFO. -/
def execFwInfo (via : Via) (params : List Byte) (s : State) : Host.Outcome State Fault Refusal :=
  .next (s.commandVia via 0x0803 params)

/-- R231: FB_ON. -/
def execFbOn (via : Via) (params : List Byte) (s : State) : Host.Outcome State Fault Refusal :=
  .next (s.commandVia via 0x0901 params)

/-- R232: FB_OFF. -/
def execFbOff (via : Via) (params : List Byte) (s : State) : Host.Outcome State Fault Refusal :=
  .next (s.commandVia via 0x0902 params)

/-- R225: MOTIF_STEP. -/
def execMotifStep (via : Via) (params : List Byte) (s : State) : Host.Outcome State Fault Refusal :=
  .next (s.commandVia via 0x0903 params)

/-- R342: FB_STATUS. -/
def execFbStatus (via : Via) (params : List Byte) (s : State) : Host.Outcome State Fault Refusal :=
  .next (s.commandVia via 0x0904 params)

end Sys2Proof.Machine
end

