-- ==== Sys2Proof/Machine/Ecc.lean ====
section
/-! DEFINITION. ECC and scrubbing (R104, R229, R488 to R490, Tables 4.4, 7.4 and 18.2). -/
namespace Sys2Proof.Machine

/-- An instant lies at least a limit after the last raise. -/
def rateOk (last : Option Nat) (now limit : Nat) : Bool := match last with
  | some t => t + limit ≤ now
  | none => true

/-- R488: a corrected word is counted, and reported at most once per 10 ms. -/
def State.eccCorrected (s : State) (m w : Nat) : State :=
  let s := s.bump Reg.EVT_ECC_CNT_CORR
  if rateOk s.rook.lastCorr s.time.uptime (msec 10) then
    { s with rook := { s.rook with lastCorr := some s.time.uptime } }.raise Ev.ECC_CORR (m + 256 * w)
  else s

/-- R488: an uncorrectable word is counted and recorded, and reported at most once per 1 ms. -/
def State.eccReport (s : State) (m w : Nat) : State :=
  let s := ((s.bump Reg.EVT_ECC_CNT_UNCORR).wr Reg.EVT_ECC_STAT_MEM m).wr Reg.EVT_ECC_STAT_WORD w
  if rateOk s.rook.lastUncorr s.time.uptime (msec 1) then
    { s with rook := { s.rook with lastUncorr := some s.time.uptime } }.raise Ev.ECC_UNCORR (m + 256 * w)
  else s

/-- The word stays bad until it is written. -/
def State.eccBad (s : State) (m w : Nat) : State :=
  if s.badWords.contains (m, w) then s else { s with badWords := s.badWords ++ [(m, w)] }

/-- R490: the regions whose reported words firmware rewrites from the armed Seal. -/
def rewritten (o : Nat) : Bool := sealRegions.any fun r => r.1 != fcmUser && decide (r.1 ≤ o) && decide (o < r.1 + r.2)

/-- R490: a word for firmware to rewrite. -/
def State.eccRewriteDue (s : State) (w : Nat) : State :=
  if rewritten (4 * w) && !s.rook.rewrite.contains (0, w) then
    { s with rook := { s.rook with rewrite := s.rook.rewrite ++ [(0, w)] } }
  else s

/-- Table 18.2: an uncorrectable FCM word. Boards, calibration, transfer tables, placement table, grey planes and definitions are
handled by the compositions and the line slots that read the word. -/
def State.eccFcm (s : State) (w : Nat) : State :=
  let o := 4 * w
  let s := ((s.eccBad 0 w).floorFall).eccRewriteDue w
  if fallbackWord (0, w) then s.fallbackAgain
  else if censusWord (0, w) then s.eccCensusWord o
  else s

/-- Table 18.2: the frame of a bad PKB cell is discarded and its cells freed at once; ports that send it end it with a stomped FCS. -/
def State.eccPkb (s : State) (id : Nat) : State :=
  let s := (List.range 6).foldl (fun s p =>
    let x := s.port p
    match x.rx with
    | some r => if r.pkt = some id then s.setPort p { x with rx := some { r with pkt := none } } else s
    | none => s) s
  match s.pkt id with
  | some k => (k.sending.foldl (fun s e => s.cutTx k.bytes e) s).updPkt id fun (k : Pkt) =>
      { k with egress := [], sending := [], holder := 0, whole := true }
  | none => s

/-- Table 18.2: what an uncorrectable word does. -/
def State.eccAct (s : State) (m w frame : Nat) (bootsel : BitVec 2) : State :=
  match m with
  | 0 => s.eccFcm w
  | 1 => s.eccPkb frame
  | 2 => s.countedRestart bootsel
  | 3 => s.eccCoverage w
  | _ => s

/-- R488: an access finds a bad word: single-bit errors are corrected, double-bit errors act as Table 18.2 gives. `frame` is the
frame whose cell it is, for the PKB, and `bootsel` the levels that a boot at the restart limit samples. A word that the scrubber has
reported is not reported again as its next use finds it (R489; log entry 145). -/
def execEccError (at_ : Vt) (memory : Fin 5) (word : BitVec 24) (double : Bool) (frame : Nat) (bootsel : BitVec 2) (s : State) :
    Host.Outcome State Fault Refusal :=
  let s := s.elapseTo at_
  .next (if double then
      let (seen, s) := s.scrubTake fun w => w == (memory.val, word.toNat)
      (if seen.isEmpty then s.eccReport memory.val word.toNat else s).eccAct memory.val word.toNat frame bootsel
    else s.eccCorrected memory.val word.toNat)

/-- R489: a word that the scrubber has reported waits for its next use. -/
def State.scrubNote (s : State) (m w : Nat) : State :=
  if s.rook.scrubbed.contains (m, w) then s else { s with rook := { s.rook with scrubbed := s.rook.scrubbed ++ [(m, w)] } }

/-- R489: a pass of the scrubber, with the bad words it finds: memory, word and whether it is uncorrectable. An uncorrectable
word is reported now and handled at its next use: by the composition or the frame start that reads it, or by the access of an
ECC_ERROR. -/
def execScrubPass (at_ : Vt) (found : List (Nat × Nat × Bool)) (s : State) : Host.Outcome State Fault Refusal :=
  let s := s.elapseTo at_
  .next (if !s.rdB Reg.EVT_ECC_CFG_SCRUB_EN || s.brace then s else
    found.foldl (fun (s : State) (f : Nat × Nat × Bool) =>
      if f.2.2 then
        let s := (s.eccReport f.1 f.2.1).scrubNote f.1 f.2.1
        if f.1 = 0 then ((s.eccBad 0 f.2.1).floorFall).eccRewriteDue f.2.1 else s
      else s.eccCorrected f.1 f.2.1) s)

/-- A word index lies in calibration bank b. -/
def inBank (b w : Nat) : Bool := decide (fcmCal b ≤ 4 * w) && decide (4 * w < fcmCal b + fcmCalSize)

/-- R490: firmware rewrites the reported words from the armed Seal, and checks a rewritten calibration bank. Words of a bank whose
check has to wait for another check wait with it. -/
def State.eccRewrite (s : State) (img : List Byte) : State :=
  let t := State.reset.sealFcm (secsOf img)
  let busy := s.rdB Reg.PIPE_CAL_CHK_BUSY
  let first := s.rook.rewrite.any fun (e : Nat × Nat) => inBank 0 e.2
  let wait (e : Nat × Nat) : Bool := (busy && (inBank 0 e.2 || inBank 1 e.2)) || (first && inBank 1 e.2)
  let ws := s.rook.rewrite.filter fun e => !wait e
  let s := { s with rook := { s.rook with rewrite := s.rook.rewrite.filter wait } }
  let s := ws.foldl (fun (s : State) (e : Nat × Nat) => s.fcmStore (4 * e.2) (leBytes 4 (t.fcm32 (4 * e.2)))) s
  [0, 1].foldl (fun s b =>
    if ws.any fun (e : Nat × Nat) => inBank b e.2 then s.calChkWrite (BitVec.ofNat 32 (1 + 2 * b)) else s) s

/-- R490: within 20 ms of a report. -/
def execEccRewrite (at_ : Vt) (s : State) : Host.Outcome State Fault Refusal :=
  let s := s.elapseTo at_
  .next (match s.store.armed with
    | some img => if s.rook.rewrite.isEmpty || s.coreDown || !s.powered 2 then s else s.eccRewrite img
    | none => s)

end Sys2Proof.Machine
end

