-- ==== Sys2Proof/Machine/Poll.lean ====
section
/-! DEFINITION. The poll bus (R269 to R280). -/
namespace Sys2Proof.Machine

/-- Table 9.5: a frame. -/
def pollFrame (typ addr seq : Nat) (payload : List Byte) : List Byte :=
  let b := beBytes 1 typ ++ beBytes 2 addr ++ beBytes 1 seq ++ beBytes 2 payload.length ++ payload
  [0xC9] ++ b ++ beBytes 2 (crcOf crc16 b)

/-- The same frame with another seq (R279). -/
def pollReseq (f : List Byte) (seq : Nat) : List Byte :=
  pollFrame (byteAt f 1) (beAt f 2 2) seq (slice f 7 (beAt f 5 2))

/-- The poll bus is served: IOX is powered and PB_CFG.EN is 1. -/
def State.pollOn (s : State) : Bool := s.powered 4 && s.rdB Reg.PB_CFG_EN

/-- A frame without error has been received (R279); the bus is no longer driven. -/
def State.pollHeard (s : State) : State := { s with poll := { s.poll with clean := true, driving := false } }

/-- The device sends a frame. -/
def State.pollSend (s : State) (f : List Byte) : State :=
  { s with poll := { s.poll with sent := f, driving := true, identing := false } }

/-- The device answers a POLL, and keeps the frame for a retry (R274). -/
def State.pollAnswer (s : State) (f : List Byte) : State :=
  { s.pollSend f with poll := { (s.pollSend f).poll with answer := some f } }

/-- R273: a frame is for this device: it carries its node address, or, where `all`, broadcast. -/
def State.pollMine (s : State) (addr : Nat) (all : Bool) : Bool :=
  (s.pollNode != 0 && addr == s.pollNode) || (all && addr == 0xFFFF)

/-- R277, R315: the pending events as an EVENT payload of the 3.1 layout. -/
def State.pollEvents (s : State) : List Byte :=
  beBytes 2 s.poll.events.length ++ [0, 0] ++ s.poll.events.flatMap fun r => r.bytes false

/-- The EVENT frame that carries every pending event. -/
def State.pollEventFrame (s : State) (seq : Nat) : List Byte := pollFrame 4 s.pollNode seq s.pollEvents

/-- The pending events have gone into a frame. -/
def State.pollEventsGone (s : State) : State := { s with poll := { s.poll with events := [] } }

/-- Table 9.6: the STATUS payload. -/
def State.pollStatus (s : State) : List Byte :=
  beBytes 1 s.devState ++ beBytes 1 s.floor ++ beBytes 1 s.poll.replies.length ++
    beBytes 1 s.poll.events.length ++ beBytes 2 (s.rd Reg.SEAL_CHECK_CODE_CODE) ++ [0, 0]

/-- R274: what a new POLL is answered with; what a fetched reply brings about follows (R340). -/
def State.pollChoose (s : State) (seq : Nat) : State :=
  let node := s.pollNode
  match s.poll.replies with
  | r :: rest => ({ s with poll := { s.poll with replies := rest } }.pollAnswer (pollFrame 3 node seq r.payload)).runAfter r.after
  | [] =>
    if s.rdB Reg.PB_CFG_EV_EN && !s.poll.events.isEmpty then s.pollEventsGone.pollAnswer (s.pollEventFrame seq)
    else s.pollAnswer (pollFrame 6 node seq s.pollStatus)

/-- R274, R279: a POLL for this device: a retry repeats the answer to the previous POLL; another is answered with an abandoned
frame first, the oldest one. -/
def State.pollRx (s : State) (seq : Nat) : State :=
  let retry := s.poll.lastPoll == some seq
  let old := s.poll.answer
  let s := { s with poll := { s.poll with lastPoll := some seq } }
  match retry, old, s.poll.abandoned with
  | true, some f, a => { s with poll := { s.poll with abandoned := a.erase f } }.pollAnswer f
  | _, _, g :: rest => { s with poll := { s.poll with abandoned := rest } }.pollAnswer (pollReseq g seq)
  | _, _, [] => s.pollChoose seq

/-- R274: a POLL. -/
def execPoll (at_ : Vt) (addr : BitVec 16) (seq : BitVec 8) (s : State) : Host.Outcome State Fault Refusal :=
  let s := s.elapseTo at_
  .next (if !s.pollOn then s
    else if s.pollMine addr.toNat false then s.pollHeard.pollRx seq.toNat else s.pollHeard)

/-- R275: a COMMAND for this device. While the control core is down it is answered E_BUSY (R304); in SENTRY and BOOT not at all
(R325). -/
def State.pollCommand (s : State) (seq : Nat) (b : List Byte) (broadcast : Bool) : State :=
  if s.poll.lastCmd == some seq then s
  else
    let s := { s with poll := { s.poll with lastCmd := some seq } }
    if s.devState < 2 then s
    else if s.coreDown then s.postReply (.poll broadcast) (cmdOpcode b) .eBusy [] .nothing
    else if 4 ≤ s.pollWaiting then s.bump Reg.PB_CNT0_OVERRUN
    else { s with poll := { s.poll with cmds := s.poll.cmds ++ [(b, broadcast)] } }

/-- R275: a COMMAND frame. -/
def execPollBusCommand (at_ : Vt) (addr : BitVec 16) (seq : BitVec 8) (payload : List Byte) (s : State) :
    Host.Outcome State Fault Refusal :=
  let s := s.elapseTo at_
  .next (if !s.pollOn then s
    else if s.pollMine addr.toNat true then s.pollHeard.pollCommand seq.toNat payload (addr == 0xFFFF)
    else s.pollHeard)

/-- Table 9.5: a hold time, in units of 10 µs. -/
def holdTime (hold : Nat) : Nat := usec (10 * hold)

/-- R276: a TOKEN: its hold time begins, and with events pending, one EVENT frame is sent at once. It answers no POLL. -/
def execToken (at_ : Vt) (addr : BitVec 16) (seq : BitVec 8) (hold : BitVec 16) (s : State) : Host.Outcome State Fault Refusal :=
  let s := s.elapseTo at_
  .next (if !s.pollOn then s
    else if s.pollMine addr.toNat false then
      let s := s.pollHeard.wrB Reg.PB_STAT_TOKEN (hold != 0)
      let s := { s with poll := { s.poll with tokenEnd := s.time.uptime + holdTime hold.toNat } }
      if s.poll.events.isEmpty || hold == 0 then s else s.pollEventsGone.pollSend (s.pollEventFrame seq.toNat)
    else s.pollHeard)

/-- R276: the token lapses once its hold time has passed. -/
def execTokenLapse (at_ : Vt) (s : State) : Host.Outcome State Fault Refusal :=
  let s := s.elapseTo at_
  .next (if s.powered 4 && s.poll.tokenEnd ≤ s.time.uptime then s.wr Reg.PB_STAT_TOKEN 0 else s)

/-- R278: IDENT. -/
def State.pollIdent (s : State) (seq : Nat) : State :=
  let node := s.pollNode
  let s := s.pollSend (pollFrame 8 node seq (beBytes 8 s.uid ++ beBytes 2 node))
  { s with poll := { s.poll with identing := true } }

/-- R278: the slot of an answer: the next min(4, 64 − L) bits of the identifier after an L-bit prefix. -/
def discoverSlot (uid l : Nat) : Nat :=
  let n := min 4 (64 - l)
  uid / 2 ^ (64 - l - n) % 2 ^ n

/-- R278: a DISCOVER with an L-bit prefix. -/
def execDiscover (at_ : Vt) (seq : BitVec 8) (len : BitVec 8) (pre : BitVec 64) (s : State) : Host.Outcome State Fault Refusal :=
  let s := s.elapseTo at_
  let l := len.toNat
  .next (if !s.pollOn then s
    else if l ≤ 64 ∧ s.uid / 2 ^ (64 - l) = pre.toNat / 2 ^ (64 - l) then
      let s := s.pollHeard.pollIdent seq.toNat
      { s with poll := { s.poll with slot := discoverSlot s.uid l } }
    else s.pollHeard)

/-- R278: an ASSIGN; a node address is 12 bits. FWD_ADDR lies in NET, and IOX keeps the address while that is off. -/
def execAssign (at_ : Vt) (seq : BitVec 8) (ident : BitVec 64) (node : BitVec 16) (s : State) :
    Host.Outcome State Fault Refusal :=
  let s := s.elapseTo at_
  .next (if !s.pollOn then s
    else if ident.toNat = s.uid then
      let s := s.pollHeard
      let s := { s with poll := { s.poll with node := node.toNat % 4096, assigned := true } }
      (if s.powered 0 then s.hwWr Reg.FWD_ADDR_NODE node.toNat else s).pollIdent seq.toNat
    else s.pollHeard)

/-- R273, R279: a frame is discarded for its crc, or for its len, a gap or its type. -/
def execPollBusFrameError (crc : Bool) (s : State) : Host.Outcome State Fault Refusal :=
  .next (if !s.pollOn then s
    else
      let first := s.poll.clean
      let s := { s with poll := { s.poll with clean := false, driving := false } }
      let s := s.bump (if crc then Reg.PB_CNT0_CRC_ERR else Reg.PB_CNT0_FRAMING)
      if first then s.raise Ev.POLLBUS 1 else s)

/-- R279: the frames to send again, once the one being sent is abandoned: the answer to a POLL stands first, the EVENT of a TOKEN
last; an IDENT, which answers in a slot of its DISCOVER, is not sent again (DEDUCED, log entry 92). -/
def State.pollAbandoned (s : State) : List (List Byte) :=
  if s.poll.identing then s.poll.abandoned
  else if s.poll.answer == some s.poll.sent then s.poll.sent :: s.poll.abandoned
  else s.poll.abandoned ++ [s.poll.sent]

/-- R279: a character returned by PB_RX differs from the one sent. -/
def execCollision (at_ : Vt) (s : State) : Host.Outcome State Fault Refusal :=
  let s := s.elapseTo at_
  .next (if s.pollOn && s.poll.driving then
    let s := { s with poll := { s.poll with driving := false, abandoned := s.pollAbandoned } }
    (s.bump Reg.PB_CNT0_COLLISION).raise Ev.POLLBUS 0
  else s)

end Sys2Proof.Machine
end

