-- ==== Sys2Proof/Machine/Ptp.lean ====
section
/-! DEFINITION. The PTP messages that the device sends (chapter 02): delay requests and peer-delay exchanges (R34), Announce and Sync
as grandmaster, and the answers to Delay_Req and Pdelay_Req (R29, R44). The manual points to IEEE 1588-2019 for their layouts
(PRESUMED, log entry 120). -/
namespace Sys2Proof.Machine

/-- The device's clockIdentity: FWD_MAC widened with FF-FE. -/
def State.clockId (s : State) : List Byte := (beBytes 6 s.fwdMac).take 3 ++ [0xFF, 0xFE] ++ (beBytes 6 s.fwdMac).drop 3

/-- The sourcePortIdentity of a port. -/
def State.portIdentity (s : State) (p : Nat) : List Byte := s.clockId ++ beBytes 2 (p + 1)

/-- What a PTP message of the device holds beyond its common fields: messageType, sequenceId, correctionField, flagField,
logMessageInterval, and the bytes after the header. -/
structure PtpBody where
  type : Nat
  seq : Nat
  corr : Int
  flags : Nat
  interval : Nat
  tail : List Byte
  deriving DecidableEq, Repr

/-- The controlField of a messageType. -/
def ptpControl (type : Nat) : Nat := if type = 0 then 0 else if type = 1 then 1 else if type = 9 then 3 else 5

/-- A message with its 34-byte header, as port `p` sends it. -/
def State.ptpMessage (s : State) (p : Nat) (m : PtpBody) : List Byte :=
  beBytes 1 m.type ++ [0x12] ++ beBytes 2 (34 + m.tail.length) ++ beBytes 1 (s.rd Reg.TIME_CFG_DOMAIN) ++ [0] ++ beBytes 2 m.flags ++
    addCorrection 0 m.corr ++ beBytes 4 0 ++ s.portIdentity p ++ beBytes 2 m.seq ++ beBytes 1 (ptpControl m.type) ++
    beBytes 1 m.interval ++ m.tail

/-- The Ethernet and IPv4 multicast addresses of PTP messages: those of peer-delay, and of all others. -/
def ptpMac (udp peer : Bool) : Nat :=
  if udp then (if peer then 0x01005E00006B else 0x01005E000181) else if peer then 0x0180C200000E else 0x011B19000000
def ptpIp (peer : Bool) : Nat := if peer then 0xE000006B else 0xE0000181

/-- R27, R243, R250: port `p` sends a message over one transport; over UDP only with an IPv4 address of its own (R284). `ingress` is
that of a Pdelay_Req answered, whose turnaround the port adds. -/
def State.ptpSend (s : State) (p : Nat) (udp : Bool) (ingress : Option (Nat × Nat)) (m : PtpBody) : State :=
  let event := decide (m.type ≤ 3)
  let peer := m.type == 2 || m.type == 3
  let msg := s.ptpMessage p m
  if !s.portUp p || (udp && s.rd Reg.FWD_IP_ADDR == 0) then s
  else
    let (head, s) : List Byte × State := if udp then
        let (h, s) := s.ipHead (ptpIp peer) (msg.length + 8)
        let port := if event then 319 else 320
        (h ++ beBytes 2 port ++ beBytes 2 port ++ beBytes 2 (msg.length + 8) ++ [0, 0], s)
      else ([0x88, 0xF7], s)
    s.originateOn [p] ingress (s.etherHead (ptpMac udp peer) ++ head ++ msg) (if event then 0 else 3)

/-- The transports that the device sends over (Table 2.1). -/
def State.ptpTransports (s : State) : List Bool := [false, true].filter s.ptpOver

/-- The next sequenceId of a messageType on a port. -/
def State.ptpNext (s : State) (p type : Nat) : Nat × State :=
  let n := tabGet 0 s.time.ptpSeq (16 * p + type)
  (n, { s with time := { s.time with ptpSeq := tabSet 0 s.time.ptpSeq (16 * p + type) ((n + 1) % 65536) } })

/-- A message of the device's own, over the given transports. -/
def State.ptpOwn (s : State) (p type flags interval : Nat) (tail : List Byte) (carriers : List Bool) : State :=
  let (n, s) := s.ptpNext p type
  carriers.foldl (fun s udp => s.ptpSend p udp none ⟨type, n, 0, flags, interval, tail⟩) s

/-- R34: a Delay_Req over the transport in which the port hears its grandmaster, or a Pdelay_Req. -/
def State.sendDelayReq (s : State) (p : Nat) : State :=
  if s.rdB Reg.TIME_CFG_DELAY_MECH then s.ptpOwn p 2 0 0x7F (beBytes 10 0 ++ beBytes 10 0) s.ptpTransports
  else
    let carriers := match s.heardPorts.find? fun e => e.1 == p with
      | some e => [e.2.udp]
      | none => s.ptpTransports
    s.ptpOwn p 1 0 0x7F (beBytes 10 0) carriers

/-- R34: a delay measurement of a port becomes its current one. -/
def State.setDelay (s : State) (p d next : Nat) : State :=
  let s := { s with time := { s.time with delay := (p, d) :: s.time.delay.filter fun e => e.1 != p
                                          delayNext := (p, next) :: s.time.delayNext.filter fun e => e.1 != p } }
  if s.rd Reg.TIME_STAT_PORT = p then s.setTimePort p else s

/-- R34: the exchange on a port is due: the interval since the last one has passed. -/
def State.delayDue (s : State) (p : Nat) : Bool := !s.time.delayNext.any fun e => e.1 == p && decide (s.time.uptime < e.2)

/-- R34: the device sends a delay request on a qualifying port at its interval, and the answer gives the delay (2^-16 ns). -/
def execDelayMeasurement (at_ : Vt) (port : Fin 6) (delay : BitVec 48) (logInterval : BitVec 8) (s : State) :
    Host.Outcome State Fault Refusal :=
  let s := s.elapseTo at_
  let p := port.val
  .next (if s.measuresDelay p && s.delayDue p then
      (s.sendDelayReq p).setDelay p delay.toNat (s.time.uptime + logTime logInterval)
    else s)

/-- R44: the bytes of the device's Announce after the header; what the manual does not state of them is free (log entry 120). -/
def State.announceTail (s : State) : List Byte × State :=
  let (v, s) := s.draw
  (beBytes 10 0 ++ beBytes 2 v ++ [0] ++ beBytes 1 (s.rd Reg.TIME_GM_PRIO1) ++ beBytes 1 s.clockClass ++ beBytes 3 (v / 2 ^ 16) ++
    beBytes 1 (s.rd Reg.TIME_GM_PRIO2) ++ s.clockId ++ beBytes 2 0 ++ beBytes 1 (v / 2 ^ 40), s)

/-- R44: Announce and one-step Sync on one port; flags and intervals are free values. -/
def State.gmSend (s : State) (p : Nat) : State :=
  let (v, s) := s.draw
  let (tail, s) := s.announceTail
  (s.ptpOwn p 11 (v % 256) (v / 2 ^ 8 % 256) tail s.ptpTransports).ptpOwn p 0 0 (v / 2 ^ 16 % 256) (beBytes 10 0) s.ptpTransports

/-- R44: the grandmaster's Announce and Sync on GM_PORTS. -/
def execGmSyncAnnounce (at_ : Vt) (s : State) : Host.Outcome State Fault Refusal :=
  let s := s.elapseTo at_
  .next (if s.timeSrc == 1 && !s.ptpDeaf then (maskIdx 6 (s.rd Reg.TIME_GM_GM_PORTS)).foldl State.gmSend s else s)

/-- A PTP message in a frame that the device takes: multicast, of the configured domain, over a transport in use (Table 2.1). -/
def State.ptpTakes (s : State) (f : List Byte) (o : Nat) (udp : Bool) : Bool :=
  s.ptpMine ⟨udp, byteAt f 0 % 2 == 0, BitVec.ofNat 8 (byteAt f (o + 4)), 0⟩

/-- R44: the device answers a Delay_Req on the ports on which it is grandmaster. -/
def State.answersDelay (s : State) (p : Nat) : Bool :=
  s.timeSrc == 1 && !s.rdB Reg.TIME_CFG_DELAY_MECH && bitAt (s.rd Reg.TIME_GM_GM_PORTS) p

/-- R44: the Delay_Resp: the ingress instant, with its fraction taken from the correction that the request brought. -/
def State.delayResp (s : State) (p : Nat) (udp : Bool) (at_ : Nat) (msg : List Byte) : State :=
  let corr := (BitVec.ofNat 64 (beAt msg 8 8)).toInt - (at_ % nsUnit : Nat)
  s.ptpSend p udp none ⟨9, beAt msg 30 2, corr, 0, 0x7F, ptpStamp at_ ++ slice msg 20 10⟩

/-- R29, R44: the Pdelay_Resp, one-step: the egress port adds the turnaround to the correction. -/
def State.pdelayResp (s : State) (p : Nat) (udp : Bool) (at_ : Nat) (msg : List Byte) : State :=
  s.ptpSend p udp (some (p, at_)) ⟨3, beAt msg 30 2, (BitVec.ofNat 64 (beAt msg 8 8)).toInt, 0, 0x7F, beBytes 10 0 ++ slice msg 20 10⟩

/-- Table 9.2 row 3: a PTP message reaches the time function, which answers Delay_Req and, under peer-delay, Pdelay_Req (R29, R44).
Sync, Announce and the answers to the device's own requests are the commands PTP_SYNC, PTP_ANNOUNCE and DELAY_MEASUREMENT
(log entry 89). `at_` is the ingress instant. -/
def State.ptpRx (s : State) (p : Nat) (f : List Byte) (at_ : Nat) : State :=
  match ptpAt f with
  | none => s
  | some (o, udp) =>
    let msg := (frameBody f).drop o
    if !s.ptpTakes f o udp.isSome || msg.length < 34 then s
    else if byteAt msg 0 % 16 = 1 ∧ s.answersDelay p then s.delayResp p udp.isSome at_ msg
    else if byteAt msg 0 % 16 = 2 ∧ s.rdB Reg.TIME_CFG_DELAY_MECH then s.pdelayResp p udp.isSome at_ msg
    else s

end Sys2Proof.Machine
end

