-- ==== Sys2Proof/Machine/Receive.lean ====
section
/-! DEFINITION. Frames from the link ports: classification (R240 to R242), cut-through (R249), the end of a frame (R244 to R248,
R260, R262), the reception of KLP packets (R293), and what firmware does with frames of its own. -/
namespace Sys2Proof.Machine

/-! ## Classification (Table 9.2, Table 9.3) -/

/-- What the forwarding core decides from the first 64 bytes: the row of Table 9.2, local delivery, the egress ports and the
priority class (R250). -/
structure Class where
  row : Nat
  loc : Bool
  egress : List Nat
  prio : Nat
  deriving DecidableEq, Repr

/-- Table 9.3: egress ports by topology, the ingress port left out. -/
def State.topoPorts (s : State) (p : Nat) : List Nat :=
  if s.rdB Reg.FWD_CFG_TOPO then (if p = 0 then [1, 2, 3, 4, 5] else [0])
  else if p = 0 then [1, 2, 3, 4, 5] else if p = 1 then [0, 2, 3, 4, 5] else [0, 1]

/-- R242: what a branch port takes of KLP packets to a destination. -/
def State.branchKlp (s : State) (b dst : Nat) : Bool :=
  (s.rd (Reg.FWD_BRANCH_LO b) ≤ dst && dst ≤ s.rd (Reg.FWD_BRANCH_HI b)) ||
    (0x1000 ≤ dst && dst ≤ 0x10FF && s.rdB (Reg.FWD_BRANCH_GRP_ALL b)) || (dst == 0xFFFF && s.rdB (Reg.FWD_BRANCH_BCAST b))

/-- R241, R242: the egress ports with link up, of a frame that `take` lets onto a branch. -/
def State.egressOf (s : State) (p : Nat) (take : Nat → Bool) : List Nat :=
  (s.topoPorts p).filter fun e =>
    s.portUp e && (e < 2 || 2 ≤ p || (s.rdB (Reg.FWD_BRANCH_EN (e - 2)) && take (e - 2)))

/-- R240 row 6: the device is a member of a group. -/
def State.inGroup (s : State) (dst : Nat) : Bool :=
  0x1000 ≤ dst && dst ≤ 0x10FF && bitAt (s.rd (Reg.FWD_GROUP_MEMBER ((dst - 0x1000) / 32))) (dst % 32)

/-- R29: the peer-delay messages, which a port terminates. -/
def peerDelay (t : Nat) : Bool := t == 2 || t == 3 || t == 10

/-- Rows 4 to 7 of Table 9.2. -/
def State.classKlp (s : State) (p : Nat) (f : List Byte) (o : Nat) : Class :=
  let h := klpHdr (f.drop o)
  let node := s.rd Reg.FWD_ADDR_NODE
  let prio := if h.cls = 1 ∨ h.cls = 5 then 1 else 2
  if node ≠ 0 ∧ h.src = node then ⟨4, false, [], prio⟩
  else if node ≠ 0 ∧ h.dst = node then ⟨5, true, [], prio⟩
  else
    let mine := s.inGroup h.dst || h.dst == 0xFFFF
    ⟨if mine then 6 else 7, mine, s.egressOf p fun b => s.branchKlp b h.dst, prio⟩

/-- R240: the first row of Table 9.2 that matches. R29 has each port terminate the peer-delay messages, under the heading of peer-to-peer
delay: under request-response they are forwarded like other PTP messages (DESIGN CHOICE, log entry 137). -/
def State.frameClass (s : State) (p : Nat) (f : List Byte) : Class :=
  let flood (row : Nat) (loc : Bool) : Class := ⟨row, loc, if s.rdB Reg.FWD_CFG_OTHER then s.egressOf p fun _ => true else [], 3⟩
  match s.kindOf f with
  | .macControl => ⟨1, false, [], 3⟩
  | .reserved => ⟨2, true, [], 3⟩
  | .ptp o _ =>
    let t := byteAt f o % 16
    ⟨3, true, if s.rdB Reg.TIME_CFG_DELAY_MECH && peerDelay t then [] else s.egressOf p fun _ => true, if t ≤ 3 then 0 else 3⟩
  | .klp o _ => s.classKlp p f o
  | .other =>
    if beAt f 0 6 = s.fwdMac then ⟨8, true, [], 3⟩
    else if beAt f 0 6 = 0xFFFFFFFFFFFF then flood 9 true
    else flood 10 false

/-! ## The 64th byte (R249, R260) -/

/-- R249: the port starts to send at the 64th byte. -/
def State.cutThrough (s : State) (prio ingress e : Nat) : Bool :=
  s.portReady e && (s.port e).ownPause.isEmpty && !s.isPaused e && s.portRate e ≤ s.portRate ingress &&
    !s.net.pkb.any fun k => decide (k.prio ≤ prio) && k.egress.contains e

/-- R260: a received frame may take `n` more cells. -/
def State.mayTake (s : State) (n : Nat) : Bool := n == 0 || s.rd Reg.FWD_CFG_RESERVE + n ≤ s.freeCells

/-- R249, R260: the first 64 bytes of a frame that goes somewhere are stored, and the ports that can start do. A frame with room at no
port and no local use is not stored. -/
def State.storeHead (s : State) (p : Nat) (head : List Byte) (c : Class) : State :=
  if !s.mayTake 1 then
    let s := s.setPort p { s.port p with rx := some ⟨s.now, none, true⟩ }
    (s.noCell p).rxDiscard p 4
  else
    let room := s.roomAt 1 c.egress
    let lost := c.egress.filter fun e => !room.contains e
    if room.isEmpty && !c.loc then lost.foldl State.noCell (s.setPort p { s.port p with rx := some ⟨s.now, none, true⟩ }) else
    let cut := room.filter (s.cutThrough c.prio p)
    let id := s.net.nextId
    let (at_, s) := s.eventStamp head (s.now - s.quantum p)
    let s := s.storeFrame ⟨0, head, false, some (p, at_), c.prio, room, [], 0⟩
    let s := s.setPort p { s.port p with rx := some ⟨s.now, some id, false⟩ }
    let s := lost.foldl State.noCell s
    cut.foldl (fun s e => s.beginTx e id) s

/-- R240, R244: a frame's 64th byte has arrived. -/
def State.classifyHead (s : State) (p : Nat) (head : List Byte) : State :=
  let c := s.frameClass p head
  let s := if c.row = 4 then s.bump Reg.FWD_CNT1_LOOP else s
  if c.egress.isEmpty && !c.loc then s.setPort p { s.port p with rx := some ⟨s.now, none, false⟩ }
  else s.storeHead p head c

/-- R240: the forwarding core classifies a frame at its 64th byte. -/
def execFrameClassify (at_ : Vt) (port : Fin 6) (head : List Byte) (s : State) : Host.Outcome State Fault Refusal :=
  let s := s.elapseTo at_
  .next (if s.portUp port.val && (s.port port.val).rx.isNone && head.length == 64 then
      (s.cvuTapHead 1 port.val (s.tapOf head true)).classifyHead port.val head
    else s)

/-! ## Local delivery of KLP packets (Table 10.5) -/

/-- R295: a failed check is reported at most once per 100 ms. -/
def State.checkMismatch (s : State) (p cls : Nat) (payload : Bool) : State :=
  let due := match s.klp.lastMis with
    | none => true
    | some t => t + msec 100 ≤ s.time.uptime
  if due then
    ({ s with klp := { s.klp with lastMis := some s.time.uptime } }).raise Ev.CHECK_MISMATCH (cls + bitTo 8 payload + p * 2 ^ 9)
  else s

/-- R284: where the answers to a packet go. -/
def replyTo (f : List Byte) (udp : Option Nat) (src : Nat) : ReplyTo :=
  ⟨src, beAt f 6 6, udp.map fun u => (beAt f (u - 8) 4, beAt f u 2)⟩

/-- R302: the open session a COMMAND is bound to: by its full handle, or by index where dst is a group or broadcast. -/
def State.boundTo (s : State) (h : KlpHdr) : Option (Nat × Session) :=
  let full := if h.dst < 0x1000 then h.session else s.handle 1 (h.session % 65536)
  (s.sessionAt full).bind fun x => if x.partner = h.src then some (full, x) else none

/-- R311: the tag of a COMMAND. -/
def commandTag (key nonce head payload : List Byte) : List Byte := (hmacSha256 key (nonce ++ head ++ payload)).take 16

/-- R311: authentication of a COMMAND in its session. -/
def State.authOk (s : State) (x : Session) (flagged : Bool) (head payload tag : List Byte) : Bool :=
  match x.key with
  | none => !flagged
  | some k => match s.armedKey k with
    | some key => flagged && tag == commandTag key (beBytes 8 x.nonce.toNat) head payload
    | none => false

/-- R312: the seq is newer than that of the last command accepted. -/
def Session.newer (x : Session) (seq : Word) : Bool := match x.lastSeq with
  | some l => 0 < serialDiff seq l
  | none => true

/-- R302, R309, R311, R312: a COMMAND that has passed steps 1 to 8. `body` holds the payload and any tag. -/
def State.commandRx (s : State) (peer : ReplyTo) (h : KlpHdr) (head body : List Byte) : State :=
  let flagged := bitAt h.flags 0
  let noReply := bitAt h.flags 1
  let payload := if flagged then body.take (body.length - 16) else body
  let op := cmdOpcode payload
  match s.boundTo h with
  | none => if noReply then s else s.refuseCommand peer none h.session h.frame op .eHandle
  | some (full, x) =>
    if !s.authOk x flagged head payload (body.drop (body.length - 16)) then
      let s := s.authFail h.src
      if noReply then s else s.refuseCommand peer (some full) h.session h.frame op .eAuth
    else
      let seq := BitVec.ofNat 32 h.seq
      if x.key.isSome && !x.newer seq then s.bump Reg.FWD_KLP_CNT1_REPLAY
      else
        let takes := (noReply || x.avail != 0) && !s.coreDown
        let s := if takes then s.updSession full fun (x : Session) => { x with lastSeq := some seq } else s
        s.acceptCommand full x h.frame noReply h.when_ peer payload

/-- R294, R296: a refusal of a COMMAND before it is bound; the stream is that of its session when that is the sender's. -/
def State.refuseEarly (s : State) (peer : ReplyTo) (h : KlpHdr) (payload : List Byte) (st : Status) : State :=
  if h.cls ≠ 2 ∨ bitAt h.flags 1 = true ∨ s.devState < 2 then s
  else s.refuseCommand peer ((s.boundTo h).map (·.1)) h.session h.frame (cmdOpcode payload) st

/-- Step 9 of Table 10.5: the class decides. The number is the local user that holds the frame: 1 the pixel parser, 2 the control
core. -/
def State.deliverClass (s : State) (peer : ReplyTo) (h : KlpHdr) (head body : List Byte) : Nat × State :=
  match h.cls with
  | 1 => if s.powered 2 then (1, s.pixelPacket h.when_ (BitVec.ofNat 32 h.frame) body) else (0, s)
  | 2 => if s.devState < 2 then (0, s) else (2, s.commandRx peer h head body)
  | 5 => (0, s.timeRx h.verMaj h.session body)
  | 7 => (2, s.helloRx peer h.frame body)
  | _ => (0, s)

/-- R296: the major versions whose layouts the device reads. -/
def majorOk (v : Nat) : Bool := v == 2 || v == 3

/-- R293: steps 7 to 9: version, duplicate window, class. -/
def State.deliverChecked (s : State) (peer : ReplyTo) (h : KlpHdr) (head body : List Byte) : Nat × State :=
  let s := if majorOk h.verMaj then s else s.bump Reg.FWD_KLP_CNT0_VERSION
  if !majorOk h.verMaj && h.cls != 7 then (0, s.refuseEarly peer h body .eVersion)
  else
    let (v, s) := s.dupTest h.src h.cls h.session (BitVec.ofNat 32 h.seq)
    if v = .accept then s.deliverClass peer h head body else (0, s)

/-- R293: the tests of Table 10.5 from step 2 on, for a packet at offset `o` of a frame that passed step 1. A datagram too short to hold
hcheck counts in FORMAT (DESIGN CHOICE, log entry 170). -/
def State.deliverKlp (s : State) (p : Nat) (f : List Byte) (o : Nat) (udp : Option Nat) : Nat × State :=
  let pkt := (frameBody f).drop o
  let h := klpHdr pkt
  let body := slice pkt 32 (h.length - 4)
  let peer := replyTo f udp h.src
  if (match udp with
      | some u => isFragment f || !udpOk f u
      | none => false) || pkt.length < 28 then (0, s.bump Reg.FWD_KLP_CNT0_FORMAT)
  else if h.hcheck ≠ hcheckOf pkt then (0, (s.bump Reg.FWD_KLP_CNT0_HCHECK).checkMismatch p h.cls false)
  else if h.length < (if bitAt h.flags 0 then 20 else 4) ∨ pkt.length < 32 + h.length then (0, s.bump Reg.FWD_KLP_CNT0_FORMAT)
  else if h.src < 1 ∨ 0xFFF < h.src then (0, s.bump Reg.FWD_KLP_CNT1_ADDR)
  else if h.cls ≠ 2 ∧ h.flags % 4 ≠ 0 then (0, s.bump Reg.FWD_KLP_CNT0_FORMAT)
  else
    let s := if h.cls = 2 ∨ h.cls = 7 then s.hearPartner h.src else s
    if beAt pkt (28 + h.length) 4 ≠ pcheckOf h body then
      (0, ((s.bump Reg.FWD_KLP_CNT0_PCHECK).checkMismatch p h.cls true).refuseEarly peer h body .eCheck)
    else s.deliverChecked peer h (pkt.take 32) body

/-! ## Frames to firmware (R266, R284) -/

/-- R284: firmware answers ARP requests for FWD_IP (RFC 826; log entry 67). -/
def State.arpRx (s : State) (f : List Byte) : State :=
  let (t, o) := etherType f
  let ip := s.rd Reg.FWD_IP_ADDR
  if t = 0x0806 ∧ slice f o 8 = [0, 1, 8, 0, 6, 4, 0, 1] ∧ ip ≠ 0 ∧ beAt f (o + 24) 4 = ip then
    s.originate (s.etherHead (beAt f 6 6) ++ [8, 6, 0, 1, 8, 0, 6, 4, 0, 2] ++ beBytes 6 s.fwdMac ++ beBytes 4 ip ++
      slice f (o + 8) 10) 3
  else s

/-- The EEE TLV of an LLDP frame (IEEE 802.3, OUI 00-12-0F, subtype 5): the partner's transmit and receive Tw in µs. -/
def lldpTw : Nat → List Byte → Option (Nat × Nat)
  | 0, _ => none
  | k + 1, l =>
    let n := beAt l 0 2 % 512
    if l.length < 2 ∨ beAt l 0 2 = 0 then none
    else if beAt l 0 2 / 512 = 127 ∧ slice l 2 4 = [0x00, 0x12, 0x0F, 0x05] ∧ 8 ≤ n then some (beAt l 6 2, beAt l 8 2)
    else lldpTw k (l.drop (2 + n))

/-- R266: the device's half of the negotiation: an LLDP frame with its EEE TLV, which echoes the partner's values. What the manual does
not state of it is free (PRESUMED layout, log entry 67). -/
def State.lldpSend (s : State) (p : Nat) (theirs : Nat × Nat) : State :=
  let (v, s) := s.draw
  let chassis := [0x02, 0x07, 0x04] ++ beBytes 6 s.fwdMac
  let port := [0x04, 0x02, 0x07] ++ beBytes 1 p
  let eee := [0xFE, 0x0E, 0x00, 0x12, 0x0F, 0x05] ++ beBytes 2 (s.rd (Reg.LINK_EEE_TW p)) ++ beBytes 2 v ++ beBytes 2 (v / 2 ^ 16) ++
    beBytes 2 theirs.1 ++ beBytes 2 theirs.2
  if s.portUp p then
    s.originateOn [p] none (s.etherHead 0x0180C200000E ++ [0x88, 0xCC] ++ chassis ++ port ++ [0x06, 0x02] ++ beBytes 2 (v / 2 ^ 32) ++ eee ++
      [0, 0]) 3
  else s

/-- R266: firmware writes the transmit Tw that LLDP settles to LINK_EEE.TW, and answers with its own values (log entry 67). -/
def State.lldpRx (s : State) (p : Nat) (f : List Byte) : State :=
  let (t, o) := etherType f
  if t = 0x88CC then match lldpTw 64 (f.drop o) with
    | some tw => (s.hwWr (Reg.LINK_EEE_TW p) (min 1023 tw.2)).lldpSend p tw
    | none => s
  else s

/-- The ingress instant of the frame in reception on a port. -/
def State.rxInstant (s : State) (p : Nat) : Nat :=
  match (((s.port p).rx.bind (·.pkt)).bind s.pkt).bind (·.ingress) with
  | some (_, t) => t
  | none => s.now

/-- Rows 2, 3, 8 and 9: the control core takes the frame, when it runs. -/
def State.firmwareRx (s : State) (p : Nat) (f : List Byte) : Nat × State :=
  if s.coreDown || s.devState < 2 then (0, s) else (2, ((s.arpRx f).lldpRx p f).ptpRx p f (s.rxInstant p))

/-! ## The end of a frame (R244 to R248, R260, R262) -/

/-- R262: a MAC Control frame. -/
def State.macControlRx (s : State) (p : Nat) (f : List Byte) : State :=
  let o := (etherType f).2
  let dst := beAt f 0 6
  if beAt f o 2 = 1 ∧ (dst = 0x0180C2000001 ∨ dst = s.fwdMac) then (s.bump (Reg.LINK_CNT1_PAUSE_RX p)).pauseRx p (beAt f (o + 2) 2)
  else (s.bump (Reg.LINK_CNT1_MACCTL_OTHER p)).rxDiscard p 5

/-- R255: the frames that keep a trunk delivering. -/
def State.ringFrame (s : State) (f : List Byte) : Bool :=
  match s.kindOf f with
  | .klp o _ =>
    let pkt := (frameBody f).drop o
    let h := klpHdr pkt
    32 ≤ pkt.length && (h.cls == 1 || h.cls == 2 || h.cls == 5) && h.hcheck == hcheckOf pkt
  | .ptp o _ =>
    let t := byteAt f o % 16
    (t == 0 || t == 11) && byteAt f (o + 4) == s.rd Reg.TIME_CFG_DOMAIN && beAt f 6 6 != s.fwdMac
  | _ => false

/-- R259: the frame is not used: ports that have not started it drop it, and those that send it end it as `bytes`. -/
def State.spoil (s : State) (id : Option Nat) (bytes : List Byte) : State :=
  match id with
  | some id => s.updPkt id fun k => { k with bytes := bytes, whole := true, egress := [], holder := 0 }
  | none => s

/-- How many ports send the frame in reception. -/
def State.sendingPorts (s : State) (id : Option Nat) : Nat :=
  match id.bind s.pkt with
  | some k => k.sending.length
  | none => 0

/-- R260: how many more cells a frame needs to hold `bytes`: none where no port sends it. -/
def State.growth (s : State) (id : Option Nat) (bytes : List Byte) : Nat :=
  match id.bind s.pkt with
  | some k => if k.sending.isEmpty then 0 else { k with bytes := bytes }.cells - k.cells
  | none => 0

/-- R248, R260: the rest of a frame finds no cells: ports that send it end it with a stomped FCS. -/
def State.noCellEnd (s : State) (p : Nat) (id : Option Nat) (f : List Byte) : State :=
  ((s.countStomp (s.sendingPorts id)).spoil id (stomped (f.take 60))).noCell p

/-- R260: a port that sends a frame and finds its queue full stops with a stomped FCS. -/
def State.stopTx (s : State) (id : Nat) (f : List Byte) (e : Nat) : State :=
  let s := (s.noCell e).cutTx f e
  s.updPkt id fun k => { k with sending := k.sending.erase e }

/-- R260: `n` more cells would overfill the queue of a port. -/
def State.tooFull (s : State) (n e : Nat) : Bool := decide (s.qcap < s.portCells e + n)

/-- R260: the ports that send a frame and whose queues `n` more cells of it would overfill stop. -/
def State.stopFull (s : State) (k : Pkt) (n : Nat) (f : List Byte) : State :=
  (k.sending.filter (s.tooFull n)).foldl (fun s e => s.stopTx k.id f e) s

/-- R260: ports whose queues a whole frame of `n` more cells would overfill lose it; those that have begun stop. -/
def State.trimQueues (s : State) (k : Pkt) (n : Nat) (f : List Byte) : State :=
  let full := k.egress.filter (s.tooFull n)
  ((full.foldl State.noCell s).updPkt k.id fun k => { k with egress := k.egress.filter fun e => !full.contains e }).stopFull k n f

/-- R245 to R247, R260: a frame that is not used ends where its forwarding has started, as `bytes` where the cells for them are
there, at the ports whose queues have room for them. `count` says that the stomped FCS is the device's own. -/
def State.endBad (s : State) (p : Nat) (id : Option Nat) (bytes : List Byte) (count : Bool) : State :=
  let n := s.growth id bytes
  if s.mayTake n then
    let s := match id.bind s.pkt with
      | some k => s.stopFull k n bytes
      | none => s
    (if count then s.countStomp (s.sendingPorts id) else s).spoil id bytes
  else if count then (s.noCellEnd p id bytes).rxDiscard p 4
  else s.noCellEnd p id bytes

/-- The local user of a good frame, and what delivery does. -/
def State.deliver (s : State) (p : Nat) (f : List Byte) : Nat × State :=
  let c := s.frameClass p f
  match c.row, s.kindOf f with
  | 3, _ => s.firmwareRx p f
  | 5, .klp o udp => s.deliverKlp p f o udp
  | 6, .klp o udp => s.deliverKlp p f o udp
  | 2, _ => s.firmwareRx p f
  | 8, _ => s.firmwareRx p f
  | 9, _ => s.firmwareRx p f
  | _, _ => (0, s)

/-- R247: a good frame: it is stored whole, waits at the ports that have not started it, and is delivered. -/
def State.goodFrame (s : State) (p : Nat) (f : List Byte) : State :=
  let s := if p < 2 && s.ringFrame f then s.ringMark p else s
  if s.kindOf f = .macControl then s.macControlRx p f
  else match ((s.port p).rx.bind (·.pkt)).bind s.pkt with
    | none => s
    | some k =>
      let n := { k with bytes := f }.cells - k.cells
      if !s.mayTake n then (s.noCellEnd p (some k.id) f).rxDiscard p 4
      else
        let s := s.trimQueues k n f
        let (holder, s) := s.deliver p f
        s.updPkt k.id fun k => { k with bytes := f, whole := true, holder := holder }

/-- R245, R246: what a stomped frame leaves as: one above MTU is cut to it. -/
def State.cutStomped (s : State) (f : List Byte) : List Byte := if s.mtu < f.length then stomped (f.take (s.mtu - 4)) else f

/-- R244 to R248: the end of a frame of at least 64 bytes whose head has been classified. A stomped one is counted in STOMP_RX only,
whatever its length. -/
def State.frameEnd (s : State) (p : Nat) (f : List Byte) : State :=
  let id := (s.port p).rx.bind (·.pkt)
  let n := s.sendingPorts id
  if fcsKind f = .stomped then (s.bump (Reg.LINK_CNT0_STOMP_RX p)).endBad p id (s.cutStomped f) false
  else if s.mtu < f.length then
    let s := (s.bump (Reg.LINK_CNT0_OVERSIZE p)).endBad p id (stomped (f.take (s.mtu - 4))) true
    if n = 0 then s.rxDiscard p 2 else s
  else if fcsKind f = .wrong then
    let s := (s.bump (Reg.LINK_CNT0_FCS_ERR p)).endBad p id (stomped (frameBody f)) true
    if n = 0 then s.rxDiscard p 3 else s
  else s.goodFrame p f

/-- A frame has been received whole on a port with link up. -/
def State.frameRx (s : State) (p : Nat) (f : List Byte) : State :=
  let ok := 64 ≤ f.length && f.length ≤ s.mtu && fcsKind f = .good
  let s := if (s.port p).rx.isSome && decide (64 ≤ f.length) then s.cvuTapRest 1 p (s.tapOf f ok) else s.cvuTapFrame 1 p (s.tapOf f ok)
  let s :=
    if f.length < 64 then
      if fcsKind f = .stomped then s.bump (Reg.LINK_CNT0_STOMP_RX p) else (s.bump (Reg.LINK_CNT0_RUNT p)).rxDiscard p 1
    else
      let s := if (s.port p).rx.isNone then s.classifyHead p (f.take 64) else s
      s.frameEnd p f
  s.setPort p { s.port p with rx := none }

/-- R244 to R248, R293: a frame ends on a port; its bytes run from the destination address to the FCS. -/
def execFrameReceived (at_ : Vt) (port : Fin 6) (frame : List Byte) (s : State) : Host.Outcome State Fault Refusal :=
  let s := s.elapseTo at_
  .next (if s.portUp port.val then s.frameRx port.val frame else s)

/-- R79: a PIXEL packet that has passed Table 10.5: its when and frame fields and its payload. -/
def execPixelPacket (at_ : Vt) (when_ : BitVec 64) (frame : Word) (payload : List Byte) (s : State) :
    Host.Outcome State Fault Refusal :=
  let s := s.elapseTo at_
  .next (if s.powered 0 && s.powered 2 then s.pixelPacket when_.toNat frame payload else s)

end Sys2Proof.Machine
end

