-- ==== Sys2Proof/Machine/Service.lean ====
section
/-! DEFINITION. The service SPI port (R345 to R347): register transactions, the mailbox buffers, SEND and ACK. -/
namespace Sys2Proof.Machine

/-- Address of word k of a transaction: bits [1:0] of its address are ignored, and it advances by 4 (R345, R346). -/
def svcAddr (addr : Word) (k : Nat) : Nat := (addr.toNat / 4 * 4 + 4 * k) % 2 ^ 32

/-- R346: SVC_CFG.DUMMY is 16 or more: every FCM word is ready. -/
def State.dummyEnough (s : State) : Bool := 16 ≤ s.rd Reg.SVC_CFG_DUMMY

/-- R346: one word of a register read: 0 with OFF_ERR where the domain is off, 0 with LATE_RD where an FCM word comes too late. -/
def State.svcRead (s : State) (a : Nat) (late : Bool) : Word × State :=
  if !s.blockOn a then (0, s.setW1c Reg.SVC_STAT_OFF_ERR)
  else if late && !s.dummyEnough && blockOf a == some .fcm then (0, s.setW1c Reg.SVC_STAT_LATE_RD)
  else s.readWord a

/-- R345, R405: `n` words of a read transaction, each seen by the taps. -/
def State.svcReads (s : State) (addr : Word) (n : Nat) (late : List Nat) : List Byte × State :=
  (List.range n).foldl (fun (acc : List Byte × State) k =>
    let (w, t) := acc.2.svcRead (svcAddr addr k) (late.contains k)
    (acc.1 ++ leBytes 4 w.toNat, t.cvuTapWord 7 0 w)) ([], s)

/-- R345: transaction 0xA1: `count` words; `late` names the FCM words that are not ready when the dummy clocks end.
A command due at the same instant writes first (R326). -/
def execSvcRegisterRead (at_ : Vt) (addr : Word) (count : BitVec 16) (late : List Nat) (s : State) :
    Host.Outcome State Fault Refusal :=
  let s := (s.elapseTo at_).commandsFirst
  .next (if s.powered 4 then
    let (data, s) := s.svcReads addr count.toNat late
    s.readGave data
  else s)

/-- R346: one word of a register write: ignored with OFF_ERR where the domain is off, without a flag where it is locked. -/
def State.svcWrite (s : State) (a : Nat) (w : Word) : State :=
  if s.blockOn a then s.tryWrite a w else s.setW1c Reg.SVC_STAT_OFF_ERR

/-- R345, R405: transaction 0xA2. A command due at the same instant writes first (R326). A word passes on the tap before its write acts:
the one that holds a CLOSE belongs to the window being closed (R416). -/
def execSvcRegisterWrite (at_ : Vt) (addr : Word) (words : List Word) (s : State) : Host.Outcome State Fault Refusal :=
  let s := (s.elapseTo at_).commandsFirst
  .next (if s.powered 4 then
    words.zipIdx.foldl (fun (s : State) e => (s.cvuTapWord 6 0 e.1).svcWrite (svcAddr addr e.2) e.1) s
  else s)

/-- R347: bytes into the inbound buffer; offsets above 1,023 ignore them (R346). -/
def State.mboxStore (s : State) (off : Nat) (b : List Byte) : State :=
  if s.rdB Reg.SVC_MBOX_BUSY || s.rdB Reg.SVC_MBOX_RDY then s.setW1c Reg.SVC_MBOX_OVERRUN
  else
    let n := min b.length (1024 - off)
    { s with cmd := { s.cmd with mboxIn := SMap.setRange (fun _ => (0 : Byte)) s.cmd.mboxIn off n fun a => b.getD (a - off) 0 } }

/-- R345, R347: transaction 0xA5. -/
def execMailboxWrite (at_ : Vt) (offset : Word) (bytes : List Byte) (s : State) : Host.Outcome State Fault Refusal :=
  let s := s.elapseTo at_
  .next (if s.powered 4 then s.mboxStore offset.toNat bytes else s)

/-- R346: a byte of the outbound buffer; offsets above 1,023 read 0. -/
def State.mboxByte (s : State) (o : Nat) : Byte := if o < 1024 then SMap.get (fun _ => (0 : Byte)) s.cmd.mboxOut o else 0

/-- R345, R347: transaction 0xA6. -/
def execMailboxRead (at_ : Vt) (offset : Word) (count : BitVec 16) (s : State) : Host.Outcome State Fault Refusal :=
  let s := s.elapseTo at_
  .next (if s.powered 4 then s.readGave ((List.range count.toNat).map fun k => s.mboxByte (offset.toNat + k)) else s)

/-- R346: SVC_CS rises before the last bit of a word (transactions 0xA1 and 0xA2), or the opcode byte is none of Table 11.13. -/
def execSvcFrameError (opcode : BitVec 8) (s : State) : Host.Outcome State Fault Refusal :=
  .next (if s.powered 4 && (opcode == 0xA1 || opcode == 0xA2) then s.setW1c Reg.SVC_STAT_FRAME_ERR else s)

/-- R347: a write of LEN and 1 to SEND, which the SVC_WR taps see (R405); the command runs. -/
def execMailboxSend (at_ : Vt) (len : BitVec 11) (s : State) : Host.Outcome State Fault Refusal :=
  let s := s.elapseTo at_
  let w := BitVec.ofNat 32 (len.toNat + 2 ^ 16)
  .next (if s.powered 4 then ((s.cvuTapWord 6 0 w).mboxWrite w).mboxServe else s)

/-- R347: a write of 1 to ACK, beside the LEN that SVC_MBOX holds (log entry 167). -/
def execMailboxAck (at_ : Vt) (s : State) : Host.Outcome State Fault Refusal :=
  let s := s.elapseTo at_
  .next (if s.powered 4 then (s.cvuTapWord 6 0 (BitVec.ofNat 32 (s.rd Reg.SVC_MBOX_LEN + 2 ^ 17))).mboxAck else s)

end Sys2Proof.Machine
end

