-- ==== Sys2Proof/Machine/Expiry.lean ====
section
/-! DEFINITION. The watchdog's expiry, which a kick of its SYS cycle prevents, whatever path the kick takes (R491). -/
namespace Sys2Proof.Machine

/-- The instant that a row carries. -/
def rowInstant (c : Instr) : Option Vt :=
  match c with
  | .firmwareStart at_ | .armedEntry at_ | .disarmAtGridPoint at_ | .stalemateBeacon at_ | .fwConfirmTimeout at_
    | .sealWriteDone at_ | .coreRestartDone at_ | .watchdogKick at_ _ | .watchdogExpiry at_ _ | .streamLossTimeout at_
    | .domainFault at_ _ _ | .railWarning at_ _ | .braceEnd at_ | .railReset at_ _ | .railGuard at_ _ | .supplyRecovered at_ _ _
    | .domainSwitch at_ _ | .domainRestore at_ _ | .refLost at_ | .refRestored at_ _ | .alwLost at_ | .sentryEntry at_ _ _ _
    | .wakePin at_ _ | .linkEnergy at_ _ _ | .alarm at_ _ | .dieTempWarn at_ | .dieTempShutdown at_ | .dieCoolResume at_
    | .eccError at_ _ _ _ _ _ | .eccRewrite at_ | .ptpAnnounce at_ _ _ _ _ | .delayMeasurement at_ _ _ _ | .gmSyncAnnounce at_
    | .ppsInEdge at_ | .ppsMissing at_ | .ppsOut at_ | .genlockInEdge at_ _ | .timeVtRead at_ | .frameStart at_
    | .frameMaxRepeat at_ | .castleSetup at_ | .castlingPoint at_ | .compositionStart at_ | .frameDeadline at_
    | .compositionDone at_ | .gckUnlock at_ | .gckRelock at_ | .gckLockTimeout at_ | .tbPawnStale at_ | .pixelPacket at_ _ _ _
    | .frameClassify at_ _ _ | .frameReceived at_ _ _ | .pauseExpiry at_ _ | .txQueueStart at_ _ | .txFrameDone at_ _
    | .dupWindowAge at_ | .ringDeliveryTimeout at_ | .lpiEnter at_ _ _ | .lpiExit at_ _ _ | .lpiWakeFrame at_ _ | .poll at_ _ _
    | .pollBusCommand at_ _ _ _ | .token at_ _ _ _ | .tokenLapse at_ | .discover at_ _ _ _ | .assign at_ _ _ _ | .collision at_
    | .pollReplyLapse at_ | .timedCommandDue at_ | .replySent at_ | .eventDelivery at_ _ | .censusReport at_
    | .sessionIdleTimeout at_ _ | .svcRegisterRead at_ _ _ _ | .svcRegisterWrite at_ _ _ | .mailboxWrite at_ _ _
    | .mailboxRead at_ _ _ | .mailboxSend at_ _ | .mailboxAck at_ | .moveDue at_ | .drive at_ _ _ | .emit at_ _ _
    | .sample at_ _ _ _ | .load at_ _ _ | .store at_ _ _ | .await at_ _ _ _ _ _ | .branch at_ _ _ _ | .loop at_ _ _
    | .count at_ _ _ | .signal at_ _ _ | .pawnStall at_ _ | .spwmBoundary at_ _ | .spwmMidpoint at_ _ | .spwLock at_
    | .spwClockStop at_ | .tripAssert at_ _ | .tripDeassert at_ _ | .pinLockLapse at_ | .mirrorFrameStart at_
    | .mirrorSelfStart at_ | .mirTe at_ | .mirClockLock at_ | .evtRawClear at_ _ _ | .debugHalt at_ | .debugRelease at_
    | .registerWrite at_ _ _ | .railRecovery at_ _ | .mirrorLine at_ | .mirCommandWriteDone at_ | .sealCheckDone at_
    | .wdogRestartAgeOut at_ => some at_
  | _ => none

/-- A row takes place in the SYS cycle in progress: it carries no instant (log entry 11), or one that the cycle holds. -/
def State.inCycle (s : State) (c : Instr) : Bool :=
  match rowInstant c with
  | some a => a.toNat ≤ s.now || (s.time.uptime + (a.toNat - s.now)) / sysCycle == s.time.uptime / sysCycle
  | none => true

/-- What a row does that may write SYS_ROOK_KICK: a kick, a register write of its own, by the service port or by a command, and the
commands that the mailbox, a frame or their instant bring. -/
def State.writerRow (s : State) (c : Instr) : Option (Host.Outcome State Fault Refusal) :=
  match c with
  | .watchdogKick a w => some (execWatchdogKick a w s)
  | .registerWrite a addr w => some (execRegisterWrite a addr w s)
  | .svcRegisterWrite a addr words => some (execSvcRegisterWrite a addr words s)
  | .regWr via p => some (execRegWr via p s)
  | .regRmw via p => some (execRegRmw via p s)
  | .mailboxSend a len => some (execMailboxSend a len s)
  | .frameReceived a port f => some (execFrameReceived a port f s)
  | .timedCommandDue a => some (execTimedCommandDue a s)
  | _ => none

/-- A row writes the kick. -/
def State.kicksIn (s : State) (c : Instr) : Bool :=
  match s.writerRow c with
  | some (.next t) => t.cycle.kicked
  | _ => false

/-- R491: a kick has come in the SYS cycle in progress, or waits in the queue and falls in it. -/
def State.kickComing (s : State) : Bool :=
  s.cycle.kicked || (s.pending.takeWhile s.inCycle).any s.kicksIn

/-- R21, R491: the watchdog expires; a kick in the cycle of expiry prevents it. -/
def execWatchdogExpiry (at_ : Vt) (bootsel : BitVec 2) (s : State) : Host.Outcome State Fault Refusal :=
  let s := s.elapseTo at_
  .next (if !s.wdogExpired || s.kickComing then s else s.expire bootsel)

end Sys2Proof.Machine
end

