-- ==== Sys2Proof/Machine/Dispatch.lean ====
section
/-! DEFINITION. One arm per command. -/
namespace Sys2Proof.Machine

/-- The effect of a command on everything but the queue. -/
def exec (i : Instr) (s : State) : Host.Outcome State Fault Refusal :=
  match i with
  | .powerOnReset bootsel rails => Sys2Proof.Machine.execPowerOnReset bootsel rails s
  | .resetNRise bootsel => Sys2Proof.Machine.execResetNRise bootsel s
  | .firmwareStart at_ => Sys2Proof.Machine.execFirmwareStart at_ s
  | .armedEntry at_ => Sys2Proof.Machine.execArmedEntry at_ s
  | .fallbackCopyDone => Sys2Proof.Machine.execFallbackCopyDone s
  | .disarmAtGridPoint at_ => Sys2Proof.Machine.execDisarmAtGridPoint at_ s
  | .stalemateBeacon at_ => Sys2Proof.Machine.execStalemateBeacon at_ s
  | .fwConfirm => Sys2Proof.Machine.execFwConfirm s
  | .fwConfirmTimeout at_ => Sys2Proof.Machine.execFwConfirmTimeout at_ s
  | .sealWriteDone at_ => Sys2Proof.Machine.execSealWriteDone at_ s
  | .coreRestartDone at_ => Sys2Proof.Machine.execCoreRestartDone at_ s
  | .watchdogKick at_ w => Sys2Proof.Machine.execWatchdogKick at_ w s
  | .watchdogExpiry at_ bootsel => Sys2Proof.Machine.execWatchdogExpiry at_ bootsel s
  | .streamLossTimeout at_ => Sys2Proof.Machine.execStreamLossTimeout at_ s
  | .domainFault at_ d bootsel => Sys2Proof.Machine.execDomainFault at_ d bootsel s
  | .railWarning at_ rail => Sys2Proof.Machine.execRailWarning at_ rail s
  | .braceEnd at_ => Sys2Proof.Machine.execBraceEnd at_ s
  | .railReset at_ rail => Sys2Proof.Machine.execRailReset at_ rail s
  | .railGuard at_ rail => Sys2Proof.Machine.execRailGuard at_ rail s
  | .supplyRecovered at_ rails bootsel => Sys2Proof.Machine.execSupplyRecovered at_ rails bootsel s
  | .domainSwitch at_ w => Sys2Proof.Machine.execDomainSwitch at_ w s
  | .domainRestore at_ d => Sys2Proof.Machine.execDomainRestore at_ d s
  | .refLost at_ => Sys2Proof.Machine.execRefLost at_ s
  | .refRestored at_ bootsel => Sys2Proof.Machine.execRefRestored at_ bootsel s
  | .alwLost at_ => Sys2Proof.Machine.execAlwLost at_ s
  | .sentryEntry at_ pin energy bootsel => Sys2Proof.Machine.execSentryEntry at_ pin energy bootsel s
  | .wakePin at_ bootsel => Sys2Proof.Machine.execWakePin at_ bootsel s
  | .linkEnergy at_ port bootsel => Sys2Proof.Machine.execLinkEnergy at_ port bootsel s
  | .alarm at_ bootsel => Sys2Proof.Machine.execAlarm at_ bootsel s
  | .dieTempWarn at_ => Sys2Proof.Machine.execDieTempWarn at_ s
  | .dieTempShutdown at_ => Sys2Proof.Machine.execDieTempShutdown at_ s
  | .dieCoolResume at_ => Sys2Proof.Machine.execDieCoolResume at_ s
  | .irefFault microamps => Sys2Proof.Machine.execIrefFault microamps s
  | .eccError at_ memory word double frame bootsel => Sys2Proof.Machine.execEccError at_ memory word double frame bootsel s
  | .scrubPass at_ found => Sys2Proof.Machine.execScrubPass at_ found s
  | .eccRewrite at_ => Sys2Proof.Machine.execEccRewrite at_ s
  | .ptpSync at_ port head ingress origin corr followUp => Sys2Proof.Machine.execPtpSync at_ port head ingress origin corr followUp s
  | .ptpAnnounce at_ port head dataset steps => Sys2Proof.Machine.execPtpAnnounce at_ port head dataset steps s
  | .delayMeasurement at_ port delay logInterval => Sys2Proof.Machine.execDelayMeasurement at_ port delay logInterval s
  | .syncLoss others => Sys2Proof.Machine.execSyncLoss others s
  | .gmSyncAnnounce at_ => Sys2Proof.Machine.execGmSyncAnnounce at_ s
  | .ppsInEdge at_ => Sys2Proof.Machine.execPpsInEdge at_ s
  | .ppsMissing at_ => Sys2Proof.Machine.execPpsMissing at_ s
  | .ppsOut at_ => Sys2Proof.Machine.execPpsOut at_ s
  | .genlockInEdge at_ falling => Sys2Proof.Machine.execGenlockInEdge at_ falling s
  | .genlockLoss => Sys2Proof.Machine.execGenlockLoss s
  | .timeCfgWrite w => Sys2Proof.Machine.execTimeCfgWrite w s
  | .timeVtRead at_ => Sys2Proof.Machine.execTimeVtRead at_ s
  | .frameStart at_ => Sys2Proof.Machine.execFrameStart at_ s
  | .frameMaxRepeat at_ => Sys2Proof.Machine.execFrameMaxRepeat at_ s
  | .lineSlot fetched vcol => Sys2Proof.Machine.execLineSlot fetched vcol s
  | .subframeRecord => Sys2Proof.Machine.execSubframeRecord s
  | .censusObservationApply n => Sys2Proof.Machine.execCensusObservationApply n s
  | .castleSetup at_ => Sys2Proof.Machine.execCastleSetup at_ s
  | .castlingPoint at_ => Sys2Proof.Machine.execCastlingPoint at_ s
  | .compositionStart at_ => Sys2Proof.Machine.execCompositionStart at_ s
  | .frameDeadline at_ => Sys2Proof.Machine.execFrameDeadline at_ s
  | .compositionDone at_ => Sys2Proof.Machine.execCompositionDone at_ s
  | .gckUnlock at_ => Sys2Proof.Machine.execGckUnlock at_ s
  | .gckRelock at_ => Sys2Proof.Machine.execGckRelock at_ s
  | .gckLockTimeout at_ => Sys2Proof.Machine.execGckLockTimeout at_ s
  | .castleCommit mask => Sys2Proof.Machine.execCastleCommit mask s
  | .tbSample => Sys2Proof.Machine.execTbSample s
  | .tbPawnStale at_ => Sys2Proof.Machine.execTbPawnStale at_ s
  | .adcConversion c code => Sys2Proof.Machine.execAdcConversion c code s
  | .loopSample k code => Sys2Proof.Machine.execLoopSample k code s
  | .pixelPacket at_ when_ frame payload => Sys2Proof.Machine.execPixelPacket at_ when_ frame payload s
  | .timePacket verMaj session payload => Sys2Proof.Machine.execTimePacket verMaj session payload s
  | .hello at_ src mac udp tag payload => Sys2Proof.Machine.execHello at_ src mac udp tag payload s
  | .frameClassify at_ port head => Sys2Proof.Machine.execFrameClassify at_ port head s
  | .frameReceived at_ port frame => Sys2Proof.Machine.execFrameReceived at_ port frame s
  | .pauseExpiry at_ port => Sys2Proof.Machine.execPauseExpiry at_ port s
  | .txQueueStart at_ port => Sys2Proof.Machine.execTxQueueStart at_ port s
  | .txFrameDone at_ port => Sys2Proof.Machine.execTxFrameDone at_ port s
  | .cellRelease core => Sys2Proof.Machine.execCellRelease core s
  | .flowControlPauseResend port => Sys2Proof.Machine.execFlowControlPauseResend port s
  | .dupWindowAge at_ => Sys2Proof.Machine.execDupWindowAge at_ s
  | .ringDeliveryTimeout at_ => Sys2Proof.Machine.execRingDeliveryTimeout at_ s
  | .linkUp port fec refused => Sys2Proof.Machine.execLinkUp port fec refused s
  | .linkDown port fault => Sys2Proof.Machine.execLinkDown port fault s
  | .linkModeWrite port w => Sys2Proof.Machine.execLinkModeWrite port w s
  | .lpiEnter at_ port due => Sys2Proof.Machine.execLpiEnter at_ port due s
  | .lpiExit at_ port due => Sys2Proof.Machine.execLpiExit at_ port due s
  | .lpiWakeFrame at_ port => Sys2Proof.Machine.execLpiWakeFrame at_ port s
  | .fwdFlowCfgWrite xoff w => Sys2Proof.Machine.execFwdFlowCfgWrite xoff w s
  | .ledgerSnapshot => Sys2Proof.Machine.execLedgerSnapshot s
  | .poll at_ addr seq => Sys2Proof.Machine.execPoll at_ addr seq s
  | .pollBusCommand at_ addr seq payload => Sys2Proof.Machine.execPollBusCommand at_ addr seq payload s
  | .token at_ addr seq hold => Sys2Proof.Machine.execToken at_ addr seq hold s
  | .tokenLapse at_ => Sys2Proof.Machine.execTokenLapse at_ s
  | .discover at_ seq len pre => Sys2Proof.Machine.execDiscover at_ seq len pre s
  | .assign at_ seq ident node => Sys2Proof.Machine.execAssign at_ seq ident node s
  | .pollBusFrameError crc => Sys2Proof.Machine.execPollBusFrameError crc s
  | .collision at_ => Sys2Proof.Machine.execCollision at_ s
  | .pollReplyLapse at_ => Sys2Proof.Machine.execPollReplyLapse at_ s
  | .timedCommandDue at_ => Sys2Proof.Machine.execTimedCommandDue at_ s
  | .replySent at_ => Sys2Proof.Machine.execReplySent at_ s
  | .eventDelivery at_ sub => Sys2Proof.Machine.execEventDelivery at_ sub s
  | .censusReport at_ => Sys2Proof.Machine.execCensusReport at_ s
  | .sessionIdleTimeout at_ n => Sys2Proof.Machine.execSessionIdleTimeout at_ n s
  | .helloOpcode via params => Sys2Proof.Machine.execHelloOpcode via params s
  | .bye via params => Sys2Proof.Machine.execBye via params s
  | .caps via params => Sys2Proof.Machine.execCaps via params s
  | .credit via params => Sys2Proof.Machine.execCredit via params s
  | .auth via params => Sys2Proof.Machine.execAuth via params s
  | .regRd via params => Sys2Proof.Machine.execRegRd via params s
  | .regWr via params => Sys2Proof.Machine.execRegWr via params s
  | .regRmw via params => Sys2Proof.Machine.execRegRmw via params s
  | .create via params => Sys2Proof.Machine.execCreate via params s
  | .destroy via params => Sys2Proof.Machine.execDestroy via params s
  | .query via params => Sys2Proof.Machine.execQuery via params s
  | .list via params => Sys2Proof.Machine.execList via params s
  | .restore via params => Sys2Proof.Machine.execRestore via params s
  | .gridSet via params => Sys2Proof.Machine.execGridSet via params s
  | .moveAdd via params => Sys2Proof.Machine.execMoveAdd via params s
  | .moveCancel via params => Sys2Proof.Machine.execMoveCancel via params s
  | .todSet via params => Sys2Proof.Machine.execTodSet via params s
  | .stage via params => Sys2Proof.Machine.execStage via params s
  | .check via params => Sys2Proof.Machine.execCheck via params s
  | .arm via params => Sys2Proof.Machine.execArm via params s
  | .disarm via params => Sys2Proof.Machine.execDisarm via params s
  | .sealWrite via params => Sys2Proof.Machine.execSealWrite via params s
  | .sealRead via params => Sys2Proof.Machine.execSealRead via params s
  | .sweep via params => Sys2Proof.Machine.execSweep via params s
  | .censusSub via params => Sys2Proof.Machine.execCensusSub via params s
  | .mapRead via params => Sys2Proof.Machine.execMapRead via params s
  | .groupMembers via params => Sys2Proof.Machine.execGroupMembers via params s
  | .groupArm via params => Sys2Proof.Machine.execGroupArm via params s
  | .groupDisarm via params => Sys2Proof.Machine.execGroupDisarm via params s
  | .groupAck via params => Sys2Proof.Machine.execGroupAck via params s
  | .progLoad via params => Sys2Proof.Machine.execProgLoad via params s
  | .go via params => Sys2Proof.Machine.execGo via params s
  | .stop via params => Sys2Proof.Machine.execStop via params s
  | .push via params => Sys2Proof.Machine.execPush via params s
  | .pull via params => Sys2Proof.Machine.execPull via params s
  | .sentry via params => Sys2Proof.Machine.execSentry via params s
  | .wakeCfg via params => Sys2Proof.Machine.execWakeCfg via params s
  | .domain via params => Sys2Proof.Machine.execDomain via params s
  | .fwWrite via params => Sys2Proof.Machine.execFwWrite via params s
  | .fwSwap via params => Sys2Proof.Machine.execFwSwap via params s
  | .fwInfo via params => Sys2Proof.Machine.execFwInfo via params s
  | .fbOn via params => Sys2Proof.Machine.execFbOn via params s
  | .fbOff via params => Sys2Proof.Machine.execFbOff via params s
  | .motifStep via params => Sys2Proof.Machine.execMotifStep via params s
  | .fbStatus via params => Sys2Proof.Machine.execFbStatus via params s
  | .svcRegisterRead at_ addr count late => Sys2Proof.Machine.execSvcRegisterRead at_ addr count late s
  | .svcRegisterWrite at_ addr words => Sys2Proof.Machine.execSvcRegisterWrite at_ addr words s
  | .mailboxWrite at_ offset bytes => Sys2Proof.Machine.execMailboxWrite at_ offset bytes s
  | .mailboxRead at_ offset count => Sys2Proof.Machine.execMailboxRead at_ offset count s
  | .svcFrameError opcode => Sys2Proof.Machine.execSvcFrameError opcode s
  | .mailboxSend at_ len => Sys2Proof.Machine.execMailboxSend at_ len s
  | .mailboxAck at_ => Sys2Proof.Machine.execMailboxAck at_ s
  | .moveNewAdd => Sys2Proof.Machine.execMoveNewAdd s
  | .moveNewCancel => Sys2Proof.Machine.execMoveNewCancel s
  | .moveDue at_ => Sys2Proof.Machine.execMoveDue at_ s
  | .pipeFlush => Sys2Proof.Machine.execPipeFlush s
  | .calCheckStart bank => Sys2Proof.Machine.execCalCheckStart bank s
  | .calCheckDone => Sys2Proof.Machine.execCalCheckDone s
  | .fcmWindowWrite word w => Sys2Proof.Machine.execFcmWindowWrite word w s
  | .censusSweepStart => Sys2Proof.Machine.execCensusSweepStart s
  | .censusClear => Sys2Proof.Machine.execCensusClear s
  | .groupArmWrite g => Sys2Proof.Machine.execGroupArmWrite g s
  | .groupDisarmWrite g => Sys2Proof.Machine.execGroupDisarmWrite g s
  | .groupAckWrite g => Sys2Proof.Machine.execGroupAckWrite g s
  | .groupConfigWrite g range w => Sys2Proof.Machine.execGroupConfigWrite g range w s
  | .motifStepWrite mask => Sys2Proof.Machine.execMotifStepWrite mask s
  | .fbOnWrite => Sys2Proof.Machine.execFbOnWrite s
  | .fbOffWrite => Sys2Proof.Machine.execFbOffWrite s
  | .pawnGo mask => Sys2Proof.Machine.execPawnGo mask s
  | .pawnStop mask => Sys2Proof.Machine.execPawnStop mask s
  | .pawnFlush mask => Sys2Proof.Machine.execPawnFlush mask s
  | .pawnStoreWrite w v => Sys2Proof.Machine.execPawnStoreWrite w v s
  | .pawnConfigWrite n r v => Sys2Proof.Machine.execPawnConfigWrite n r v s
  | .pawnTxWrite n v => Sys2Proof.Machine.execPawnTxWrite n v s
  | .pawnRxRead n => Sys2Proof.Machine.execPawnRxRead n s
  | .drive at_ n upset => Sys2Proof.Machine.execDrive at_ n upset s
  | .emit at_ n upset => Sys2Proof.Machine.execEmit at_ n upset s
  | .sample at_ n upset px => Sys2Proof.Machine.execSample at_ n upset px s
  | .load at_ n upset => Sys2Proof.Machine.execLoad at_ n upset s
  | .store at_ n upset => Sys2Proof.Machine.execStore at_ n upset s
  | .await at_ n upset px rose fell => Sys2Proof.Machine.execAwait at_ n upset px rose fell s
  | .branch at_ n upset px => Sys2Proof.Machine.execBranch at_ n upset px s
  | .loop at_ n upset => Sys2Proof.Machine.execLoop at_ n upset s
  | .count at_ n upset => Sys2Proof.Machine.execCount at_ n upset s
  | .signal at_ n upset => Sys2Proof.Machine.execSignal at_ n upset s
  | .pawnStall at_ n => Sys2Proof.Machine.execPawnStall at_ n s
  | .spwmBoundary at_ n => Sys2Proof.Machine.execSpwmBoundary at_ n s
  | .spwmMidpoint at_ n => Sys2Proof.Machine.execSpwmMidpoint at_ n s
  | .spwmDutyWrite n w => Sys2Proof.Machine.execSpwmDutyWrite n w s
  | .spwmCtrlWrite n w => Sys2Proof.Machine.execSpwmCtrlWrite n w s
  | .spwLock at_ => Sys2Proof.Machine.execSpwLock at_ s
  | .spwClockStop at_ => Sys2Proof.Machine.execSpwClockStop at_ s
  | .tripAssert at_ k => Sys2Proof.Machine.execTripAssert at_ k s
  | .tripDeassert at_ k => Sys2Proof.Machine.execTripDeassert at_ k s
  | .tripClr n => Sys2Proof.Machine.execTripClr n s
  | .pinLockWrite w => Sys2Proof.Machine.execPinLockWrite w s
  | .pinLockLapse at_ => Sys2Proof.Machine.execPinLockLapse at_ s
  | .cvuEnable n => Sys2Proof.Machine.execCvuEnable n s
  | .cvuDisable n => Sys2Proof.Machine.execCvuDisable n s
  | .cvuClose n => Sys2Proof.Machine.execCvuClose n s
  | .cvuConfigWrite n r w => Sys2Proof.Machine.execCvuConfigWrite n r w s
  | .cvuResultRead n => Sys2Proof.Machine.execCvuResultRead n s
  | .mirrorFrameStart at_ => Sys2Proof.Machine.execMirrorFrameStart at_ s
  | .mirrorSelfStart at_ => Sys2Proof.Machine.execMirrorSelfStart at_ s
  | .mirTe at_ => Sys2Proof.Machine.execMirTe at_ s
  | .mirTeMissing => Sys2Proof.Machine.execMirTeMissing s
  | .mirEnable w => Sys2Proof.Machine.execMirEnable w s
  | .mirTimingWrite r w => Sys2Proof.Machine.execMirTimingWrite r w s
  | .mirClockLock at_ => Sys2Proof.Machine.execMirClockLock at_ s
  | .evtRawClear at_ w mask => Sys2Proof.Machine.execEvtRawClear at_ w mask s
  | .debugHalt at_ => Sys2Proof.Machine.execDebugHalt at_ s
  | .debugRelease at_ => Sys2Proof.Machine.execDebugRelease at_ s
  | .idcode => Sys2Proof.Machine.execIdcode s
  | .bypass => Sys2Proof.Machine.execBypass s
  | .samplePreload cells => Sys2Proof.Machine.execSamplePreload cells s
  | .extest => Sys2Proof.Machine.execExtest s
  | .trstN => Sys2Proof.Machine.execTrstN s
  | .registerWrite at_ addr w => Sys2Proof.Machine.execRegisterWrite at_ addr w s
  | .dieTempWarnClear => Sys2Proof.Machine.execDieTempWarnClear s
  | .vddaoBelowPor => Sys2Proof.Machine.execVddaoBelowPor s
  | .resetNAssert => Sys2Proof.Machine.execResetNAssert s
  | .partnerLpi port enter => Sys2Proof.Machine.execPartnerLpi port enter s
  | .supervisorAdcSample vddc vdds vddh vddio vdda => Sys2Proof.Machine.execSupervisorAdcSample vddc vdds vddh vddio vdda s
  | .railRecovery at_ rail => Sys2Proof.Machine.execRailRecovery at_ rail s
  | .spwClockIdleStop => Sys2Proof.Machine.execSpwClockIdleStop s
  | .mirrorLine at_ => Sys2Proof.Machine.execMirrorLine at_ s
  | .mirCommandWriteDone at_ => Sys2Proof.Machine.execMirCommandWriteDone at_ s
  | .sealCheckDone at_ => Sys2Proof.Machine.execSealCheckDone at_ s
  | .wdogRestartAgeOut at_ => Sys2Proof.Machine.execWdogRestartAgeOut at_ s
  | .debugAccess => Sys2Proof.Machine.execDebugAccess s

end Sys2Proof.Machine
end

