-- ==== Sys2Proof/Machine/Tick.lean ====
section
/-! DEFINITION. What the block does while no command waits: one SYS cycle of its own clock (log entry 21). -/
namespace Sys2Proof.Machine

/-- R41: the ticks that a frequency estimate of `f` (2^-16 ppm) has added to VT after `u` of local time. -/
def freqGain (f : Int) (u : Nat) : Int := u * f / (nsUnit * 1000000)

/-- The VT counter runs: its domain is powered, REF is present and no reset is held; in Sentry ALW counts for it (R481). -/
def State.vtRuns (s : State) : Bool :=
  if s.devState = 0 then s.pwr.alwLost.isNone else s.powered 2 && !s.pwr.refLost && !s.pwr.resetN

/-- R25, R41: the clocks after a SYS cycle; under FREE the rate is nominal (R43). -/
def State.tickTime (s : State) : State :=
  let u := s.time.uptime
  let f := if s.rd Reg.TIME_CFG_SRC = 3 then 0 else s.time.freq
  let d := (sysCycle : Int) + (freqGain f (u + sysCycle) - freqGain f u)
  let s := { s with time := { s.time with uptime := u + sysCycle } }
  if s.vtRuns then s.setVt (((s.now : Int) + d) % 2 ^ 80).toNat else s

/-- R354, Table 18.3: the rate accumulators of the pawns that run and are not frozen. The instruction that an edge runs is a command. -/
def State.tickPawns (s : State) : State := { s with pawns := s.pawnsRun 1 }

/-- R19: FLOOR may rise when the cycle that began at VT `t` reaches a grid point. -/
def State.tickFloor (s : State) (t : Nat) : State := { s with time := { s.time with floor := s.floorAcross t s.now } }

/-- R275, R306, R347: the control core takes the commands whose turn has come, then the mailbox's, else the oldest of the poll bus. -/
def State.tickServe (s : State) : State :=
  let s := s.unpark
  if s.cmd.mboxDue then s.mboxServe else s.pollServe

/-- R389, R397: a TRIP input whose blanking has ended trips its units, and a pin-lock sequence lapses. -/
def State.tickSup (s : State) : State := if s.powered 5 then s.swTripAll.pinLapse else s

/-- One SYS cycle. -/
def State.idleTick (s : State) : State := ((s.tickTime.tickPawns.tickFloor s.now).newCycle 1).tickSup.tickServe

end Sys2Proof.Machine
end

