-- ==== Sys2Proof/Safety.lean ====
section
/-! DEFINITION. The terms in which claims about the block are stated. -/
namespace Sys2Proof.Machine

/-- The FCM is in its canonical form: offsets strictly rising, no listed byte equal to what an unlisted one reads as. -/
abbrev Memory.wf (m : List Host.Cell) : Bool := SMap.wf fcmReset m

/-- The sparse parts of the state that software sees as words or bytes are in their canonical forms, so that equal contents
are equal data. -/
def State.wf (s : State) : Bool := SMap.wf regReset s.regs && SMap.wf regReset s.shadow && Memory.wf s.fcm

/-- The outcome is a next state that satisfies `P`. -/
def Answers (o : Host.Outcome State Fault Refusal) (P : State → Prop) : Prop := ∃ t, o = .next t ∧ P t

/-- Every register keeps the bits in force it had, but those that satisfy `p` (address, bit). -/
def State.RegsKept (p : Nat → Nat → Prop) (s t : State) : Prop :=
  ∀ a i, ¬p a i → (t.reg a).getLsbD i = (s.reg a).getLsbD i

/-- Every shadow keeps its value, but those whose address satisfies `p`. -/
def State.ShadowsKept (p : Nat → Prop) (s t : State) : Prop := ∀ a, ¬p a → t.shReg a = s.shReg a

/-- Every byte of the FCM outside the offsets that satisfy `p` reads as before. -/
def State.FcmKept (p : Nat → Prop) (s t : State) : Prop := ∀ o, ¬p o → t.fcmByte o = s.fcmByte o

/-- A write that software makes of the word `w` at `a` is taken in state `d`: the block is powered and the word is not locked (R346,
R400, R446). -/
def State.admits (d : State) (a : Nat) (w : Word) : Prop := d.blockOn a = true ∧ d.locked a w = false

/-- The bits that raising event `n` may write: its EVT_RAW bit, its EVT_DATA, and the poll bus's count of lost events. -/
def raiseBit (n a i : Nat) : Prop :=
  (a = (Reg.EVT_RAW_RAW (n / 32)).addr ∧ i = n % 32) ∨ a = (Reg.EVT_DATA_DATA n).addr ∨
    (a = Reg.PB_CNT1_EV_LOST.addr ∧ i < 8)

/-- `s` with the registers of `t`, its records of events (R315, R277) and its notes of the SYS cycle in progress (R500): all that
writing registers and raising events moves. Frames name with it what else a command changes. -/
def State.withRecords (s t : State) : State :=
  { s with regs := t.regs, cycle := t.cycle, klp := { s.klp with subs := t.klp.subs },
           poll := { s.poll with events := t.poll.events, evNumber := t.poll.evNumber, evLost := t.poll.evLost } }

/-- The bits of some fields and those that raising some events may write. -/
def touched (fields : List Fld) (events : List Nat) (a i : Nat) : Prop :=
  (∃ f ∈ fields, a = f.addr ∧ f.lo ≤ i ∧ i < f.lo + f.len) ∨ ∃ n ∈ events, raiseBit n a i

/-- The frame of a command that took `s` to `t`: `t` is `u`, a copy of `s` with named parts of `t`, and of the registers only
bits of the listed fields and those of the listed events may have changed. -/
def State.Changed (s t : State) (fields : List Fld) (events : List Nat) (u : State) : Prop :=
  t = u ∧ State.RegsKept (touched fields events) s t

/-- Event `n` has been raised last with `data`: its EVT_RAW bit is 1 and EVT_DATA holds the data (R484). -/
def State.Raised (t : State) (n data : Nat) : Prop :=
  t.rd ⟨(Reg.EVT_RAW_RAW (n / 32)).addr, n % 32, 1⟩ = 1 ∧ t.rd (Reg.EVT_DATA_DATA n) = data % 2 ^ 32

/-- What a check-value unit on the FCM_WR tap may write as bytes of the FCM are written (R405, R408, R410). -/
def fcmTapFields : List Fld := (List.range 8).flatMap fun n =>
  [Reg.CVU_VALUE_VALUE n, Reg.CVU_STAT_OPEN n, Reg.CVU_STAT_PART n, Reg.CVU_STAT_MISMATCH n, Reg.CVU_CNT_MISMATCH n,
   Reg.CVU_RESULT_RESULT n, Reg.CVU_SNAP_SNAP n, Reg.CVU_RINFO_WINDOW n, Reg.CVU_RINFO_SHORT n, Reg.CVU_RINFO_MISMATCH n]

/-- Where no unit is on the FCM_WR tap of `s`, the check-value units are in `t` as they were. -/
def State.TapsKept (s t : State) : Prop :=
  (∀ n : Nat, n < 8 → s.cvuOn n 5 0 = false) → t.cvu = s.cvu ∧ ∀ f ∈ fcmTapFields, t.rd f = s.rd f

/-- What a check-value unit may write as the window it has open on a link tap is cut short (R411). -/
def cutFields : List Fld := (List.range 8).flatMap fun n => [Reg.CVU_STAT_OPEN n, Reg.CVU_STAT_PART n, Reg.CVU_CNT_ABANDONED n]

/-- The open windows of the units that `on` marks have been abandoned and counted, and nothing else has happened to a unit (R411). -/
def State.TapsCut (s t : State) (on : Nat → Bool) : Prop :=
  (∀ n : Nat, n < 8 → on n = true → s.rdB (Reg.CVU_STAT_OPEN n) = true → t.rd (Reg.CVU_STAT_OPEN n) = 0 ∧ t.rd (Reg.CVU_STAT_PART n) = 0 ∧
    t.rd (Reg.CVU_CNT_ABANDONED n) = min (s.rd (Reg.CVU_CNT_ABANDONED n) + 1) (2 ^ (Reg.CVU_CNT_ABANDONED n).len - 1)) ∧
  (∀ n : Nat, n < 8 → on n = false ∨ s.rdB (Reg.CVU_STAT_OPEN n) = false →
    ∀ f ∈ [Reg.CVU_STAT_OPEN n, Reg.CVU_STAT_PART n, Reg.CVU_CNT_ABANDONED n], t.rd f = s.rd f) ∧
  ((∀ n : Nat, n < 8 → on n = false) → t.cvu = s.cvu)

/-! ## Venue time (chapter 02) -/

/-- Table 2.2: the servo's state after one valid measurement of `off` (2^-16 ns), from its state and its two run counts. -/
def servoAfter (servo lockRun lostRun : Nat) (off : Int) : Nat :=
  if servo = 2 then (if 1000 * nsUnit < off.natAbs ∧ 3 ≤ lostRun then 1 else 2)
  else if servo = 1 then (if off.natAbs ≤ 100 * nsUnit ∧ 15 ≤ lockRun then 2 else 1)
  else 1

/-- A valid offset measurement of `off` took `s` to `t` (R36, R38): TIME_OFFSET reports it in whole ns, and the servo has moved
as Table 2.2 says, with EV_TIME_LOCK as it enters LOCKED, EV_TIME_LOST as it leaves it, and no event else. A servo that is not LOCKED steps VT by an offset beyond STEP_LIMIT, at once while the display does not run,
else at a castling point; apart from a step, only the servo's registers, its events and the new rate have changed. -/
def State.Measured (s t : State) (off : Int) : Prop :=
  let beyond : Prop := s.servo ≠ 2 ∧ usec (max 1 (s.rd Reg.TIME_CFG_STEP_LIMIT)) < off.natAbs
  t.rd Reg.TIME_OFFSET_OFFSET = saturate 32 (off / nsUnit) ∧
  t.servo = servoAfter s.servo s.time.lockRun s.time.lostRun off ∧
  (s.servo ≠ 2 → t.servo = 2 → t.Raised Ev.TIME_LOCK (s.rd Reg.TIME_STAT_PORT)) ∧
  (s.servo = 2 → t.servo = 1 → t.Raised Ev.TIME_LOST 0) ∧
  (¬(beyond ∧ s.idle = true) → t.servo = s.servo ∨ s.servo ≠ 2 ∧ t.servo = 1 → t.klp = s.klp ∧ t.poll = s.poll) ∧
  (¬(beyond ∧ s.idle = true) → t.time.vt = s.time.vt ∧
    s.Changed t [Reg.TIME_OFFSET_OFFSET, Reg.TIME_STAT_SERVO, Reg.TIME_STAT_HOLD_S] [Ev.TIME_LOCK, Ev.TIME_LOST]
      { s.withRecords t with time := t.time, free := t.free }) ∧
  (beyond → s.idle = false → t.time.stepDue = some (-off)) ∧
  (beyond → s.idle = true → (t.now : Int) = ((s.now : Int) - off) % 2 ^ 80 ∧ t.Raised Ev.TIME_STEP (saturate 32 (-off / nsUnit)) ∧
    t.scan.notBefore = t.now + s.tVbMin ∧
    s.Changed t [Reg.TIME_OFFSET_OFFSET, Reg.TIME_STAT_SERVO, Reg.TIME_STAT_HOLD_S, Reg.TIME_CNT_STEP_CNT, Reg.PIPE_CNT1_LATE_FRAME]
      [Ev.TIME_STEP, Ev.FRAME_LATE] { s.withRecords t with time := t.time, scan := t.scan, moves := t.moves, pipe := t.pipe })

/-! ## Castling (chapter 05) -/

/-- Nothing waits for the scan engine to go idle: no castle group is pending or captured, and no step and no genlock epoch waits
for its castling point (R38, R48, R150). -/
def State.quiet (s : State) : Prop :=
  s.rd Reg.SYS_CASTLE_STAT_PENDING % 256 = 0 ∧ s.scan.capturedMask = 0 ∧ s.time.stepDue = none ∧ s.time.epochDue = none

/-- In `t` every RWC bit of a register of the groups of `mask` has the value that `f` gives, and of any other group the one it
had in `s`. -/
def State.Castled (s t : State) (mask : Nat) (f : Nat → Word) : Prop :=
  ∀ a d g, regDefAt a = some d → d.group = some g →
    t.reg a &&& BitVec.ofNat 32 d.rwc = (if bitAt mask g.bit then f a else s.reg a) &&& BitVec.ofNat 32 d.rwc

/-! ## Frames the device sends (chapter 09) -/

/-- The fields and the event that handing a frame to ports may write: a port in LPI wakes, a full queue or buffer loses the frame,
and the free cells may fall to XOFF (R260, R261, R268). -/
def sendFields : List Fld :=
  Reg.FWD_CNT0_NOCELL :: (List.range 6).flatMap fun p => [Reg.LINK_STAT_LPI_TX p, Reg.LINK_CNT1_LPI_LATE p, Reg.LINK_CNT1_NOCELL p]

/-- A whole frame with this body, of one priority class, waits in the queue of port `p` (R243, R250). -/
def State.Queued (t : State) (p prio : Nat) (body : List Byte) : Prop :=
  ∃ k ∈ t.net.pkb, k.whole = true ∧ k.egress = [p] ∧ k.prio = prio ∧ k.bytes = sealFrame body

/-- The message `m` of the device waits on port `p` for one transport, as state `e` makes it: over Ethernet, or over UDP/IPv4 with
the two ports of PTP and no UDP checksum; what the manual leaves open of the IPv4 header is free (log entries 10, 120). -/
def State.PtpQueued (e t : State) (p prio : Nat) (udp : Bool) (m : PtpBody) : Prop :=
  let peer := m.type == 2 || m.type == 3
  let port := if m.type ≤ 3 then 319 else 320
  let msg := e.ptpMessage p m
  ∃ n : Nat, t.Queued p prio (e.etherHead (ptpMac udp peer) ++ (if udp then
    ({ e with free := n }.ipHead (ptpIp peer) (msg.length + 8)).1 ++ beBytes 2 port ++ beBytes 2 port ++ beBytes 2 (msg.length + 8) ++ [0, 0]
    else [0x88, 0xF7]) ++ msg)

/-! ## Pawns (chapter 12) -/

/-- The word at pawn n's program counter. -/
def State.pawnWord (s : State) (n : Nat) : Nat := s.rd (Reg.PAWN_STORE_WORD (s.pawn n).pc)

/-- Pawn n runs, is not frozen, and a valid instruction of opcode `op` stands at its program counter, its parity good (R356,
R359). -/
def State.AtInstr (s : State) (n op : Nat) : Prop :=
  (s.pawn n).run = true ∧ s.pawnFrozen = false ∧ (s.pawn n).pc ∉ s.rook.storeBad ∧ s.pawnWord n / 65536 = op ∧ op < 10 ∧ pawnOperandOk op (s.pawnWord n % 4096) = true ∧
    s.pawnTargetOk n op (s.pawnWord n % 4096) = true

/-- Pawn n has completed the instruction at its program counter in state `s`, leaving `q`, and goes on at `pc`: its delay runs,
no other pawn has changed, and apart from the pawns the state is `u` (R358). -/
def State.PawnDone (s t : State) (n pc : Nat) (q : PawnSt) (u : State) : Prop :=
  t.pawn n = { q with pc := pc, wait := if s.pawnWord n / 4096 % 16 = 0 then 0 else 4, awaitPx := none, stalled := false } ∧
    (∀ m, m ≠ n → t.pawn m = s.pawn m) ∧ t = { u with pawns := t.pawns }

/-! ## Commands (chapter 11) -/

/-- One row of Tables 11.2 to 11.12: the opcode, the command, the states of its States column (2 LOADED to 7 RECOVERY), the
length of its fixed parameters, and whether KLP, the poll bus and the mailbox carry it. -/
structure CommandRow where
  op : Nat
  cmd : Via → List Byte → Instr
  states : List Nat
  len : Nat
  klp : Bool
  poll : Bool
  mbox : Bool

/-- Tables 11.2 and 11.3. -/
def commandRows1 : List CommandRow :=
  [⟨0x0001, .helloOpcode, [2, 3, 4, 5, 6, 7], 40, false, true, true⟩,
   ⟨0x0002, .bye, [2, 3, 4, 5, 6, 7], 0, true, false, false⟩,
   ⟨0x0003, .caps, [2, 3, 4, 5, 6, 7], 0, true, true, true⟩,
   ⟨0x0004, .credit, [2, 3, 4, 5, 6, 7], 2, true, false, false⟩,
   ⟨0x0005, .auth, [2, 3, 4, 5, 6, 7], 0, true, false, false⟩,
   ⟨0x0101, .regRd, [2, 3, 4, 5, 6, 7], 8, true, true, true⟩,
   ⟨0x0102, .regWr, [2, 3, 4, 5, 6, 7], 8, true, true, true⟩,
   ⟨0x0103, .regRmw, [2, 3, 4, 5, 6, 7], 12, true, true, true⟩]

/-- Tables 11.4 and 11.6. -/
def commandRows2 : List CommandRow :=
  [⟨0x0201, .create, [4, 5, 6], 4, true, false, true⟩,
   ⟨0x0202, .destroy, [4, 5, 6], 4, true, false, true⟩,
   ⟨0x0203, .query, [3, 4, 5, 6], 4, true, true, true⟩,
   ⟨0x0204, .list, [3, 4, 5, 6], 4, true, true, true⟩,
   ⟨0x0205, .restore, [4, 5, 6], 8, true, false, true⟩,
   ⟨0x0301, .gridSet, [4, 5, 6], 20, true, false, true⟩,
   ⟨0x0302, .moveAdd, [4, 5, 6], 16, true, false, true⟩,
   ⟨0x0303, .moveCancel, [4, 5, 6], 4, true, false, true⟩,
   ⟨0x0304, .todSet, [2, 3, 4, 5, 6], 8, true, false, true⟩]

/-- Table 11.7. -/
def commandRows3 : List CommandRow :=
  [⟨0x0401, .stage, [2, 3, 4, 5, 6], 8, true, true, true⟩,
   ⟨0x0402, .check, [2, 3, 4, 5, 6], 0, true, true, true⟩,
   ⟨0x0403, .arm, [3, 4], 0, true, true, true⟩,
   ⟨0x0404, .disarm, [5, 6], 0, true, true, true⟩,
   ⟨0x0405, .sealWrite, [4, 5, 6], 0, true, true, true⟩,
   ⟨0x0406, .sealRead, [4, 5, 6], 8, true, true, true⟩]

/-- Table 11.8. -/
def commandRows4 : List CommandRow :=
  [⟨0x0501, .sweep, [4, 5, 6], 0, true, true, true⟩,
   ⟨0x0502, .censusSub, [4, 5, 6], 4, true, false, false⟩,
   ⟨0x0503, .mapRead, [4, 5, 6], 4, true, true, true⟩,
   ⟨0x0504, .groupMembers, [4, 5, 6], 8, true, false, true⟩,
   ⟨0x0505, .groupArm, [4, 5, 6], 4, true, true, true⟩,
   ⟨0x0506, .groupDisarm, [4, 5, 6], 4, true, true, true⟩,
   ⟨0x0507, .groupAck, [4, 5, 6], 4, true, true, true⟩]

/-- Table 11.9. -/
def commandRows5 : List CommandRow :=
  [⟨0x0601, .progLoad, [4, 5, 6], 4, true, false, true⟩,
   ⟨0x0602, .go, [4, 5, 6], 4, true, false, true⟩,
   ⟨0x0603, .stop, [4, 5, 6], 4, true, false, true⟩,
   ⟨0x0604, .push, [4, 5, 6], 4, true, false, true⟩,
   ⟨0x0605, .pull, [4, 5, 6], 4, true, false, true⟩]

/-- Tables 11.10 to 11.12. -/
def commandRows6 : List CommandRow :=
  [⟨0x0701, .sentry, [2, 3, 4, 5, 6], 0, true, true, true⟩,
   ⟨0x0702, .wakeCfg, [2, 3, 4, 5, 6], 8, true, true, true⟩,
   ⟨0x0703, .domain, [2, 3, 4, 5, 6], 4, true, true, true⟩,
   ⟨0x0801, .fwWrite, [2, 3, 4, 5, 6, 7], 8, true, true, true⟩,
   ⟨0x0802, .fwSwap, [2, 3, 4, 5, 6, 7], 4, true, true, true⟩,
   ⟨0x0803, .fwInfo, [2, 3, 4, 5, 6, 7], 0, true, true, true⟩,
   ⟨0x0901, .fbOn, [5, 6], 0, true, true, true⟩,
   ⟨0x0902, .fbOff, [5, 6], 0, true, true, true⟩,
   ⟨0x0903, .motifStep, [4, 5, 6], 4, true, false, true⟩,
   ⟨0x0904, .fbStatus, [3, 4, 5, 6], 0, true, true, true⟩]

/-- Tables 11.2 to 11.12. -/
def commandRows : List CommandRow :=
  commandRows1 ++ commandRows2 ++ commandRows3 ++ commandRows4 ++ commandRows5 ++ commandRows6

/-- A transport carries a row. -/
def CommandRow.on (row : CommandRow) : Via → Bool
  | .session _ _ _ _ => row.klp
  | .poll => row.poll
  | .mbox => row.mbox

/-- The COMMAND payload `b` comes on `via`, is accepted and not timed: where its replies go, and the state in which its opcode
runs (R275, R303, R304, R309, R325, R347). -/
def State.takenIn (s : State) (via : Via) (b : List Byte) : Option (Origin × State) :=
  if s.coreDown = true ∨ s.devState < 2 then none else
    match via with
    | .session i tag noReply when_ =>
      match tabFind s.klp.sessions i.val with
      | some x =>
        let h := s.handle 1 i.val
        if s.powered 0 = true ∧ (noReply = true ∨ x.avail ≠ 0) ∧ (x.verMaj = 3 → when_ = 0) ∧ b.length ≤ 9600 then
          some (.klp h tag.toNat noReply (!noReply) x.peer,
            if noReply then s.hearPartner x.partner else (s.hearPartner x.partner).updSession h Session.take)
        else none
      | none => none
    | .poll =>
      if s.powered 4 = true ∧ b.length ≤ 1024 then
        if (s.poll.cmds.head?.map (·.1)) = some b then
          some (.poll ((s.poll.cmds.head?.map (·.2)).getD false), { s with poll := { s.poll with cmds := s.poll.cmds.tail } })
        else if s.pollWaiting < 4 then some (.poll false, s)
        else none
      else none
    | .mbox =>
      if s.powered 4 = true ∧ s.rd Reg.SVC_MBOX_BUSY = 0 ∧ s.rd Reg.SVC_MBOX_RDY = 0 ∧ b.length ≤ 1024 then
        let buf := SMap.setRange (fun _ => (0 : Byte)) s.cmd.mboxIn 0 b.length fun a => b.getD a 0
        let s := s.cvuTapWord 6 0 (BitVec.ofNat 32 (b.length + 2 ^ 16))
        some (.mbox true, { (s.wr Reg.SVC_MBOX_LEN b.length).wr Reg.SVC_MBOX_BUSY 1 with cmd := { s.cmd with mboxIn := buf, mboxDue := false } })
      else none

/-- The row of an opcode takes in a command with parameters `p`: its transport carries it, the device is in a state of its States
column, the parameters have the row's length (R322), and no command that came earlier keeps it waiting (R306). -/
def State.served (s : State) (op : Nat) (via : Via) (p : List Byte) : Option (Origin × State) :=
  match commandRows.find? fun r => r.op == op with
  | some row =>
    if row.on via = true ∧ s.devState ∈ row.states ∧ row.len ≤ p.length then
      (s.takenIn via (cmdPayload op p)).filter fun x => !x.2.mustWait x.1 op
    else none
  | none => none

/-- Command `c` in state `s` completes: the state is then `u`, with the reply to `o` of the opcode, the status and the data
on its way (R305), and `after` to follow when the reply has gone. -/
def State.GivesThen (s : State) (c : Instr) (o : Origin) (op : Nat) (st : Status) (data : List Byte) (after : After) (u : State) :
    Prop := exec c s = .next (u.postReply o op st data after)

/-- A command completes with a reply after which nothing follows. -/
def State.Gives (s : State) (c : Instr) (o : Origin) (op : Nat) (st : Status) (data : List Byte) (u : State) : Prop :=
  s.GivesThen c o op st data .nothing u

end Sys2Proof.Machine
end

