-- ==== Sys2Proof/Certificates/Slice0/Obligations.lean ====
section
/-! DEFINITION. The statements for the provers. -/
section
open Sys2Proof Sys2Proof.Machine

/-- A step runs the command at the front of the queue. For every command c and every state s, the step of s with c put at the
front of its queue is exec of c on s with the queue's rest, which is s. (Derived from 95 What each step holds.) -/
def Obligations.StepRunsFrontCommand : Prop :=
  ∀ (c : Instr) (s : State), step (s.withFront c) = exec c s

/-- On an empty queue one SYS cycle of 2 ns passes. With no command waiting in the queue, in the mailbox, on the poll bus or for its
turn, a step answers a next state: local time has grown by 2 ns, and where SUP is off, or no TRIP input is asserted and no pin
lock is begun, nothing moves but the clocks, the pawns' rate accumulators and the floor reached, in a new cycle. While PIX is powered, REF runs and no reset is held, VT has advanced by 2 ns
where no frequency estimate corrects it or SRC is FREE; otherwise it stands still. A running pawn's accumulator that is not
frozen has grown by RATE (0 acts as 2^24) modulo 2^24. That an empty queue means one SYS cycle is the model's own choice (log
entry 21). (Derived from 02 Venue Time (R25, R41, R43), 10 Commands (R306), 11 Commands (R347), 09 The poll bus (R275), 12 Rate (R354), 13 Trip (R389), 13 Pin lock (R397).) -/
def Obligations.IdleStepIsOneSysCycle : Prop :=
  ∀ s : State, s.pending = [] → s.cmd.mboxDue = false → s.poll.cmds = [] → s.cmd.parked = [] →
    Answers (step s) fun t =>
      t.time.uptime = s.time.uptime + 2 * nsUnit ∧
      (s.vtRuns = false → t.time.vt = s.time.vt) ∧
      (s.vtRuns = true → s.time.freq = 0 ∨ s.timeSrc = 3 → t.now = (s.now + 2 * nsUnit) % 2 ^ 80) ∧
      (∀ n : Nat, (s.pawn n).run = true → s.pawnFrozen = false → (t.pawn n).acc =
        ((s.pawn n).acc + (if s.rd (Reg.PAWN_CFG_RATE n) = 0 then 2 ^ 24 else s.rd (Reg.PAWN_CFG_RATE n))) % 2 ^ 24) ∧
      (s.powered 5 = false ∨ s.tripLevel = 0 ∧ s.rd Reg.SPWM_PIN_LOCK_STEP1 = 0 →
        s.Changed t [] [] { s.withRecords t with time := t.time, pawns := t.pawns })

/-- Every command keeps the canonical forms of registers, shadows and FCM and leaves the queue's rest alone. For every state
whose register file, shadow file and FCM are in canonical form (addresses strictly rising, no entry equal to what an
unlisted address reads as), and every command in front, a step that answers a next state leaves those forms canonical, and
its queue is the old queue without its front command. The sparse representation is the model's own. (Derived from 95 What
each step holds, 19 Register index (R503), 03 FCM (R105).) -/
def Obligations.EveryStepKeepsQueueAndCanonicalForms : Prop :=
  ∀ s t : State, s.wf = true → step s = .next t → t.wf = true ∧ t.pending = s.pending.tail

/-- Every command completes: a step never faults and is never refused. For every state, a step answers a next state. What the
manual refuses is answered with a status, dropped and counted, or ignored, and the block goes on. (Derived from 95 What
each step holds, 10 Commands and replies (R305), 19 Blocks (R498, R499).) -/
def Obligations.NoCommandEverStopsTheBlock : Prop :=
  ∀ s : State, Answers (step s) fun _ => True

/-- Sync, PPS_IN and GENLOCK_IN edges: a valid measurement writes TIME_OFFSET, moves the servo as Table 2.2 says with its events, and
steps VT only as R38 allows. Under SRC = PTP with the control core up, a multicast Sync of the configured domain over a transport in use
with a logSyncInterval of -7 to 0 lets the best port that delivers Sync be chosen; on the chosen port it is the measurement of
its ingress timestamp (within 0.8 ns, free) less its origin timestamp, the port's delay and TIME_ASYM and the correctionFields
of Sync and Follow_Up, and on another port nothing more happens; any other Sync changes only the time. An accepted PPS_IN edge
sets PPS_IN_OK, and under GM_PPS is the measurement against the second that TOD_SET gave, counted on, else against the nearest
whole second; a rejected edge only counts. Under GENLOCK an edge of the selected polarity is the measurement of its point
against the nearest predicted grid point; beyond 0.1 % of the period it only counts, and the first accepted one of an ACQUIRE
measures 0, and its point waits as the new epoch while the display runs, and becomes the epoch at once, with EV_GRID_CHANGE and
the next frame T_VB_MIN later at the earliest, while it does not. When a PPS_IN edge is expected (log entry 70), from
when genlock points are predicted (116) and the rate steered to (12) are the model's readings. (Derived from 02 The servo (Table
2.2, R36, R38), 02 PTP (R27, R30, R33, R35), 02 Grandmaster, PPS and genlock (R44, R45, R46, R48).) -/
def Obligations.MeasurementMovesServoByTable22 : Prop :=
  ∀ (s : State) (at_ : Vt), let e := s.elapseTo at_
    (∀ (port : Fin 6) (h : PtpHead) (ingress origin : Vt) (corr : BitVec 64) (fu : Option (BitVec 64)),
      let taken : Prop := e.timeSrc = 0 ∧ e.coreDown = false ∧ e.ptpOver h.udp = true ∧ h.unicast = false ∧
        h.ptpDomain.toNat = e.rd Reg.TIME_CFG_DOMAIN ∧ -7 ≤ h.logInterval.toInt ∧ h.logInterval.toInt ≤ 0
      let c := { e with time := { e.time with syncDead := e.time.syncDead.filter (· != port.val) } }.choosePort
      (taken → c.rd Reg.TIME_STAT_PORT = port.val → Answers (exec (.ptpSync at_ port h ingress origin corr fu) s) fun t =>
        ∃ d : Nat, d < 52429 ∧ { c with free := c.free + 1 }.Measured t ((ingress.toNat : Int) - d - origin.toNat - c.portDelay port.val -
          signed 32 (e.rd (Reg.TIME_ASYM_ASYM port.val)) - corr.toInt - (match fu with | some x => x.toInt | none => 0))) ∧
      (taken → c.rd Reg.TIME_STAT_PORT ≠ port.val → exec (.ptpSync at_ port h ingress origin corr fu) s = .next c) ∧
      (¬taken → exec (.ptpSync at_ port h ingress origin corr fu) s = .next e)) ∧
    (let seen := { e.wr Reg.TIME_STAT_PPS_IN_OK 1 with time := { e.time with ppsFrom := e.time.uptime, ppsAbsent := false } }
      let second : Nat := match e.time.todDue, e.time.todRef with
        | some n, _ => sec n
        | none, some (t0, u0) => t0 + nearestSecond (e.time.uptime - u0)
        | none, none => nearestSecond e.now
      (e.timeSrc = 1 → e.ppsUnexpected = false → Answers (exec (.ppsInEdge at_) s) fun t =>
        { seen with time := { seen.time with todDue := none, todRef := t.time.todRef } }.Measured t ((e.now : Int) - second) ∧
        t.rd Reg.TIME_STAT_PPS_IN_OK = 1 ∧
        (e.time.todDue ≠ none → t.time.todRef = some (second, e.time.uptime))) ∧
      (e.timeSrc ≠ 1 → exec (.ppsInEdge at_) s = .next seen) ∧
      (e.timeSrc = 1 → e.ppsUnexpected = true → exec (.ppsInEdge at_) s = .next (e.bump Reg.TIME_CNT_PPS_REJ))) ∧
    (∀ falling : Bool,
      let point : Int := e.now + signed 24 (e.rd Reg.TIME_GENLOCK_OFFSET) * nsUnit
      let base := e.time.epochDue.getD (gridEpoch e)
      let per := gridPeriod e
      let off := point - gridPoint base per (gridIndexAtOrAfter base per (point - per / 2))
      let first : Prop := e.servo = 0 ∨ e.servo = 3 ∨ e.servo = 1 ∧ e.time.genTaken = false
      let far : Prop := e.servo ≠ 0 ∧ per < off.natAbs * 1000
      (e.timeSrc ≠ 2 ∨ falling ≠ e.rdB Reg.TIME_CFG_GENLOCK_EDGE → exec (.genlockInEdge at_ falling) s = .next e) ∧
      (e.timeSrc = 2 → falling = e.rdB Reg.TIME_CFG_GENLOCK_EDGE →
        (far → exec (.genlockInEdge at_ falling) s = .next (e.bump Reg.TIME_CNT_GENLOCK_REJ)) ∧
        (¬far → ¬first → Answers (exec (.genlockInEdge at_ falling) s) (e.Measured · off)) ∧
        (¬far → first → e.idle = false → Answers (exec (.genlockInEdge at_ falling) s) fun t =>
          e.Measured t 0 ∧ t.time.genTaken = true ∧ t.time.epochDue = some point.toNat) ∧
        (¬far → first → e.idle = true → Answers (exec (.genlockInEdge at_ falling) s) fun t =>
          t.rd Reg.TIME_OFFSET_OFFSET = 0 ∧ t.servo = servoAfter e.servo e.time.lockRun e.time.lostRun 0 ∧
          t.time.genTaken = true ∧ t.time.vt = e.time.vt ∧ gridEpoch t = point.toNat % 2 ^ 80 ∧
          t.Raised Ev.GRID_CHANGE 0 ∧ t.scan.notBefore = e.now + e.tVbMin ∧
          e.Changed t [Reg.TIME_OFFSET_OFFSET, Reg.TIME_STAT_SERVO, Reg.TIME_STAT_HOLD_S, Reg.TIME_GRID_EPOCH_EPOCH_LO,
            Reg.TIME_GRID_EPOCH_EPOCH_HI, Reg.TIME_GRID_EPOCH_FRAC_FRAC] [Ev.TIME_LOCK, Ev.GRID_CHANGE]
            { e.withRecords t with time := t.time, scan := t.scan, pipe := t.pipe, free := t.free, shadow := t.shadow })))

/-- A measurement interval without a measurement: the LOSS_N count, the change of port, HOLDOVER. Under PTP with the control
core up, or under GM_PPS or GENLOCK, an interval without a valid measurement adds one to the count; under FREE, and under PTP
with the core down, nothing happens. Below LOSS_N (0 and 1 act as 2) nothing else happens. At LOSS_N, under PTP with another
port that hears a grandmaster, delivers Sync and has a current delay measurement, the device changes to the best of them and
keeps its servo state; otherwise a LOCKED servo goes to HOLDOVER and raises EV_TIME_LOST and a servo in ACQUIRE goes to
HOLDOVER without an event. The loss of GENLOCK_IN counts as LOSS_N intervals: a LOCKED servo goes to HOLDOVER with EV_TIME_LOST, one in
ACQUIRE without, and another one stays. Two seconds without an accepted PPS_IN edge clear
PPS_IN_OK and, under GM_PPS, raise EV_PPS_MISSING once for the absence; before that nothing happens. (Derived from 02 The servo
(Table 2.2, R35, R42), 02 Grandmaster, PPS and genlock (R46, R48).) -/
def Obligations.MissingMeasurementsLeadToHoldover : Prop :=
  ∀ (s : State) (others : BitVec 6),
    let n := s.time.missed + 1
    let others' := s.time.announce.filter fun e => (s.linkUp e.1 && decide (s.time.uptime < e.2.until_)) && (bitAt others.toNat e.1 &&
      e.1 != s.rd Reg.TIME_STAT_PORT && s.time.delay.any (fun d => d.1 == e.1))
    (s.timeSrc = 3 ∨ s.timeSrc = 0 ∧ s.coreDown = true → exec (.syncLoss others) s = .next s) ∧
    (s.timeSrc = 0 ∧ s.coreDown = false ∨ s.timeSrc = 1 ∨ s.timeSrc = 2 →
      (n < max 2 (s.rd Reg.TIME_CFG_LOSS_N) →
        exec (.syncLoss others) s = .next { s with time := { s.time with missed := n } }) ∧
      (max 2 (s.rd Reg.TIME_CFG_LOSS_N) ≤ n → s.timeSrc ≠ 0 ∨ others' = [] →
        Answers (exec (.syncLoss others) s) fun t =>
          (s.servo = 2 → t.servo = 3 ∧ t.Raised Ev.TIME_LOST 0) ∧ (s.servo = 1 → t.servo = 3 ∧ t.klp = s.klp) ∧
          (s.servo = 0 ∨ s.servo = 3 → t.servo = s.servo) ∧ t.time.vt = s.time.vt ∧ t.time.freq = s.time.freq ∧
          s.Changed t [Reg.TIME_STAT_SERVO] [Ev.TIME_LOST] { s.withRecords t with time := t.time }) ∧
      (max 2 (s.rd Reg.TIME_CFG_LOSS_N) ≤ n → s.timeSrc = 0 → others' ≠ [] →
        Answers (exec (.syncLoss others) s) fun t =>
          t.rd Reg.TIME_STAT_PORT = bestPort others' % 8 ∧ t.servo = s.servo ∧ t.time.missed = 0 ∧ t.time.vt = s.time.vt ∧
          s.Changed t [Reg.TIME_STAT_PORT, Reg.TIME_PATH_DELAY_NS, Reg.TIME_PATH_DELAY_FRAC] [] { s.withRecords t with time := t.time })) ∧
    (s.timeSrc = 2 → s.servo = 2 →
      Answers (exec .genlockLoss s) fun t => t.servo = 3 ∧ t.Raised Ev.TIME_LOST 0 ∧
        s.Changed t [Reg.TIME_STAT_SERVO] [Ev.TIME_LOST] { s.withRecords t with time := t.time }) ∧
    (s.timeSrc = 2 → s.servo = 1 →
      Answers (exec .genlockLoss s) fun t => t.servo = 3 ∧ t.klp = s.klp ∧ t.poll = s.poll ∧
        s.Changed t [Reg.TIME_STAT_SERVO] [] { s.withRecords t with time := t.time }) ∧
    (s.timeSrc = 2 → s.servo = 0 ∨ s.servo = 3 →
      exec .genlockLoss s = .next { s with time := { s.time with missed := max 2 (s.rd Reg.TIME_CFG_LOSS_N) } }) ∧
    (s.timeSrc ≠ 2 → exec .genlockLoss s = .next s) ∧
    (∀ at_ : Vt, let e := s.elapseTo at_
      (e.time.uptime < e.time.ppsFrom + sec 2 → exec (.ppsMissing at_) s = .next e) ∧
      (e.time.ppsFrom + sec 2 ≤ e.time.uptime → Answers (exec (.ppsMissing at_) s) fun t =>
        t.rd Reg.TIME_STAT_PPS_IN_OK = 0 ∧ (e.timeSrc = 1 → t.time.ppsAbsent = true) ∧
        (e.timeSrc = 1 → e.time.ppsAbsent = false → t.Raised Ev.PPS_MISSING 0) ∧
        (e.timeSrc ≠ 1 ∨ e.time.ppsAbsent = true → t.klp = e.klp ∧ t.poll = e.poll) ∧
        e.Changed t [Reg.TIME_STAT_PPS_IN_OK] [Ev.PPS_MISSING]
          { e.withRecords t with time := { e.time with ppsAbsent := t.time.ppsAbsent } }))

/-- Announce, delay measurements and the grandmaster's own messages. Under SRC = PTP with the control core up, an Announce that the
device takes is kept for its port until three of its intervals have passed, and TIME_STAT.PORT names the port whose data set
is best, with fewer stepsRemoved next and the lower port last, of those with link up whose Announce has not lapsed (a port left
for want of Sync only where no other is heard). Once its interval has passed, a delay exchange runs on each port with link up
under peer-delay, and under request-response on each that hears the chosen grandmaster: the device queues its request, over
every transport in use under peer-delay and over that of the grandmaster heard under request-response, and the delay becomes that port's current one, which TIME_PATH_DELAY reports for the chosen port. Under GM_PPS with the core up the
device queues an Announce with PRIO1, PRIO2 and its clockClass, and a one-step Sync, on each port of GM_PORTS, over every
transport in use; over UDP it sends only with an IPv4 address of its own. The lapse (log
entry 119), the frames' fields that the manual leaves to IEEE 1588 (120) and the ports that exchange (122) are the model's.
(Derived from 02 PTP (R27, R29, R33, R34, Table 2.1), 02 Grandmaster, PPS and genlock (R44), 09 Queues (R243, R250).) -/
def Obligations.PtpMessagesChoosePortAndKeepDelays : Prop :=
  ∀ (s : State) (at_ : Vt), s.coreDown = false → let e := s.elapseTo at_
    (∀ (port : Fin 6) (h : PtpHead) (ds : List Nat) (steps : Nat), s.timeSrc = 0 → e.ptpOver h.udp = true → h.unicast = false →
      h.ptpDomain.toNat = s.rd Reg.TIME_CFG_DOMAIN → Answers (exec (.ptpAnnounce at_ port h ds steps) s) fun t =>
        let heard := t.time.announce.filter fun x => s.linkUp x.1 && decide (e.time.uptime < x.2.until_)
        let live := heard.filter fun x => !e.time.syncDead.contains x.1
        t.time.announce = tabSet ⟨[], 0, false, 0⟩ e.time.announce port.val
          ⟨ds, steps, h.udp, e.time.uptime + 3 * logTime h.logInterval⟩ ∧
        t.rd Reg.TIME_STAT_PORT = bestPort (if live = [] then heard else live) % 8 ∧
        e.Changed t [Reg.TIME_STAT_PORT, Reg.TIME_PATH_DELAY_NS, Reg.TIME_PATH_DELAY_FRAC] []
          { e.withRecords t with time := { e.time with announce := t.time.announce } }) ∧
    (∀ (port : Fin 6) (d : BitVec 48) (iv : BitVec 8), s.linkUp port.val = true →
      s.rdB Reg.TIME_CFG_DELAY_MECH = true ∨ s.timeSrc = 0 ∧ e.hearsChosen port.val = true →
      (∀ u : Nat, (port.val, u) ∈ e.time.delayNext → u ≤ e.time.uptime) →
      Answers (exec (.delayMeasurement at_ port d iv) s) fun t =>
        t.time.delay = (port.val, d.toNat) :: e.time.delay.filter (fun x => x.1 != port.val) ∧
        (port.val, e.time.uptime + logTime iv) ∈ t.time.delayNext ∧
        (s.rd Reg.TIME_STAT_PORT = port.val → t.rd Reg.TIME_PATH_DELAY_NS = d.toNat / nsUnit % 2 ^ 24) ∧
        (s.powered 0 = true → 2 ≤ e.freeCells → e.portCells port.val + 2 ≤ e.qcap →
          ∀ udp : Bool, e.ptpOver udp = true → (udp = true → s.rd Reg.FWD_IP_ADDR ≠ 0) →
          (s.rdB Reg.TIME_CFG_DELAY_MECH = true → e.PtpQueued t port.val 0 udp
            ⟨2, tabGet 0 e.time.ptpSeq (16 * port.val + 2), 0, 0, 0x7F, List.replicate 20 0⟩) ∧
          (s.rdB Reg.TIME_CFG_DELAY_MECH = false →
            (e.heardPorts.find? (fun x => x.1 == port.val)).map (·.2.udp) = some udp → e.PtpQueued t port.val 0 udp
            ⟨1, tabGet 0 e.time.ptpSeq (16 * port.val + 1), 0, 0, 0x7F, List.replicate 10 0⟩)) ∧
        e.Changed t (Reg.TIME_PATH_DELAY_NS :: Reg.TIME_PATH_DELAY_FRAC :: sendFields) [Ev.BUF_LOW]
          { e.withRecords t with time := t.time, net := t.net, free := t.free }) ∧
    (s.timeSrc = 1 → Answers (exec (.gmSyncAnnounce at_) s) fun t =>
      (24 ≤ e.freeCells → ∀ p : Fin 6, bitAt (s.rd Reg.TIME_GM_GM_PORTS) p.val = true → s.portUp p.val = true →
        e.portCells p.val + 4 ≤ e.qcap → ∀ udp : Bool, e.ptpOver udp = true → (udp = true → s.rd Reg.FWD_IP_ADDR ≠ 0) →
        (∃ flags interval a b c : Nat, e.PtpQueued t p.val 3 udp
          ⟨11, tabGet 0 e.time.ptpSeq (16 * p.val + 11), 0, flags, interval, beBytes 10 0 ++ beBytes 2 a ++ [0] ++
            beBytes 1 (s.rd Reg.TIME_GM_PRIO1) ++ beBytes 1 (if s.servo = 2 ∧ s.rdB Reg.TIME_STAT_TOD_VALID = true then 6
              else if s.servo = 3 ∧ s.time.heldGood = true then 7 else 248) ++ beBytes 3 b ++
            beBytes 1 (s.rd Reg.TIME_GM_PRIO2) ++ e.clockId ++ beBytes 2 0 ++ beBytes 1 c⟩) ∧
        (∃ interval : Nat, e.PtpQueued t p.val 0 udp
          ⟨0, tabGet 0 e.time.ptpSeq (16 * p.val), 0, 0, interval, List.replicate 10 0⟩)) ∧
      e.Changed t sendFields [Ev.BUF_LOW] { e.withRecords t with time := t.time, net := t.net, free := t.free })

/-- A write of TIME_CFG, a read of TIME_VT, the PPS_OUT pulse and TOD_SET. With PIX powered and TIME_CFG not locked, after the moves that
are due a write of TIME_CFG that changes SRC or DOMAIN puts the servo in FREE, chooses no port and raises EV_TIME_LOST if it was LOCKED; a write that changes neither leaves
the servo state; VT and the frequency estimate keep their values, and a pulse that PPS_GATE then forbids ends. A read of
TIME_VT's first word returns the low 32 bits of the whole nanoseconds and latches the upper bits and the fraction. Within 2 ns
of a whole VT second PPS_OUT, when enabled and not gated by a servo in FREE or ACQUIRE, is high for OUT_WIDTH µs (0 acts as 1,
above 999,999 as 999,999) of local time; otherwise the command changes nothing but the time. TOD_SET under GM_PPS keeps the
second that the next edge carries, and under GENLOCK and FREE loads VT, the frame in progress keeping its place in time; both set TOD_VALID; under PTP it answers
E_STATE. That
its load is no step is the model's reading (log entry 105). (Derived from 02 The servo (R43), 02 Grandmaster, PPS and genlock
(R45, R47), 19 Coherent reads (R501), 11 TOD_SET (R335).) -/
def Obligations.TimeConfigurationVtReadAndPpsOutput : Prop :=
  ∀ (s : State) (at_ : Vt), let e := s.elapseTo at_
    (∀ w : Word, let d := s.movesDue
      d.admits Reg.TIME_CFG_SRC.addr w → Answers (exec (.timeCfgWrite w) s) fun t =>
        t.reg Reg.TIME_CFG_SRC.addr = w &&& 0xFF7F7F1F ∧ t.time.vt = d.time.vt ∧ t.time.freq = d.time.freq ∧
        (t.timeSrc ≠ d.timeSrc ∨ t.rd Reg.TIME_CFG_DOMAIN ≠ d.rd Reg.TIME_CFG_DOMAIN →
          t.servo = 0 ∧ t.rd Reg.TIME_STAT_PORT = 7 ∧ (d.servo = 2 → t.Raised Ev.TIME_LOST 0)) ∧
        (t.timeSrc = d.timeSrc ∧ t.rd Reg.TIME_CFG_DOMAIN = d.rd Reg.TIME_CFG_DOMAIN →
          t.servo = d.servo ∧ t.time = { d.time with ppsLowAt := t.time.ppsLowAt }) ∧
        (t.rdB Reg.TIME_CFG_PPS_GATE = true → t.servo ≤ 1 → t.ppsOut = false) ∧
        d.Changed t [⟨Reg.TIME_CFG_SRC.addr, 0, 32⟩, Reg.TIME_STAT_SERVO, Reg.TIME_STAT_PORT, Reg.TIME_STAT_HOLD_S,
          Reg.TIME_PATH_DELAY_NS, Reg.TIME_PATH_DELAY_FRAC] [Ev.TIME_LOST] { d.withRecords t with time := t.time }) ∧
    (s.powered 2 = true →
      Answers (exec (.timeVtRead at_) s) fun t =>
        leNat t.cmd.readOut = e.now / nsUnit % 2 ^ 32 ∧ t.rd Reg.TIME_VT_NS_HI = e.now / nsUnit / 2 ^ 32 ∧
        t.rd Reg.TIME_VT_FRAC = e.now % nsUnit ∧
        e.Changed t [Reg.TIME_VT_NS_LO, Reg.TIME_VT_NS_HI, Reg.TIME_VT_FRAC] []
          { e.withRecords t with cmd := { e.cmd with readOut := t.cmd.readOut } }) ∧
    (let blocked : Prop := s.rdB Reg.TIME_CFG_PPS_OUT_EN = false ∨ s.rdB Reg.TIME_CFG_PPS_GATE = true ∧ s.servo ≤ 1
      let near : Prop := ((e.now : Int) - nearestSecond e.now).natAbs ≤ 2 * nsUnit
      (¬blocked → near → Answers (exec (.ppsOut at_) s) fun t => t.ppsOut = true ∧
        t = { e with time := { e.time with
          ppsLowAt := e.time.uptime + usec (min 999999 (max 1 (s.rd Reg.TIME_PPS_OUT_WIDTH))) } }) ∧
      (blocked ∨ ¬near → exec (.ppsOut at_) s = .next e)) ∧
    (∀ (via : Via) (p : List Byte) (o : Origin) (u : State), s.served 0x0304 via p = some (o, u) → u.powered 2 = true →
      (u.timeSrc = 0 → s.Gives (.todSet via p) o 0x0304 .eState [] u) ∧
      (u.timeSrc = 1 → beAt p 0 8 % 1000000000 = 0 → s.Gives (.todSet via p) o 0x0304 .ok []
        ({ u with time := { u.time with todDue := some (beAt p 0 8 / 1000000000) } }.wr Reg.TIME_STAT_TOD_VALID 1)) ∧
      (2 ≤ u.timeSrc →
        let v : Nat := beAt p 0 8 * nsUnit
        let shift := fun x : Int => x + v - u.now
        s.Gives (.todSet via p) o 0x0304 .ok [] ({ u with
          time := { u.time with vt := BitVec.ofNat 80 v }
          scan := { u.scan with frameStart := shift u.scan.frameStart, blankFrom := shift u.scan.blankFrom,
                                notBefore := (shift u.scan.notBefore).toNat }
          moves := u.moves.map fun (x : Nat × Move) =>
            (x.1, { x.2 with passed := x.2.passed || decide (u.now < x.2.inst * nsUnit ∧ x.2.inst * nsUnit < v) }) }.wr Reg.TIME_STAT_TOD_VALID 1)))

/-- MOVE_NEW and the opcodes MOVE_ADD and MOVE_CANCEL take, run, drop or refuse a move by its lateness, and free the entry a
handle names. With PIX powered and MOVE_NEW not locked, after the timed commands (for an ADD, R64) and the moves that are due have run: a staged move of an action code outside 1 to 9 gets E_PARAM and changes nothing but the result
words; a move that is not late goes into the lowest free entry, whose handle is answered; with no free entry it gets E_NOSPACE,
EV_MOVE_FULL and a count; an EVENT move late by less than LATE_LIMIT raises EV_MOVE_LATE and its own event and counts; a move
late by LATE_LIMIT or more gets E_LATE with handle 0, EV_MOVE_DROP and a count, full table or not. A cancel, after the moves
that are due have run, frees exactly the entry its handle names and advances its generation, and answers E_HANDLE when no
waiting move has that handle. MOVE_NEW.DONE is set each time. The codes of the statuses are free values (log entry 10), and the
lowest free entry is the model's choice (106). (Derived from 02 Moves (R61, R64, R65, R66, R67, R68), 11 Handles (R318, R319), 11
MOVE_ADD and MOVE_CANCEL (R335).) -/
def Obligations.MoveNewHandlesLatenessByR65 : Prop :=
  (∀ s : State, let d := s.commandsFirst.movesDue
    let act := d.rd Reg.MOVE_NEW_ACTION
    let inst : Nat := d.rd Reg.MOVE_NEW_VT_LO + d.rd Reg.MOVE_NEW_VT_HI * 2 ^ 32
    let late : Int := (d.now : Int) - inst * nsUnit
    let limit : Int := usec (d.rd Reg.MOVE_CFG_LATE_LIMIT)
    let arg := d.rd Reg.MOVE_NEW_ARG
    let words := [Reg.MOVE_NEW_STATUS, Reg.MOVE_NEW_DONE, Reg.MOVE_NEW_HANDLE]
    (d.admits Reg.MOVE_NEW_ADD.addr 1 →
    (act = 0 ∨ 9 < act →
      Answers (exec .moveNewAdd s) fun t =>
        t.rd Reg.MOVE_NEW_STATUS = Status.eParam.code ∧ t.rd Reg.MOVE_NEW_DONE = 1 ∧
        d.Changed t words [] (d.withRecords t)) ∧
    (1 ≤ act → act ≤ 9 → late ≤ 0 →
      (∀ i : Nat, d.freeIndex 6 = some i →
        Answers (exec .moveNewAdd s) fun t =>
          t.moves = tabPut i ⟨inst, BitVec.ofNat 8 act, BitVec.ofNat 32 arg, false⟩ d.moves ∧
          t.rd Reg.MOVE_NEW_STATUS = Status.ok.code ∧ t.rd Reg.MOVE_NEW_DONE = 1 ∧
          t.rd Reg.MOVE_NEW_HANDLE = d.handle 6 i ∧ d.Changed t words [] { d.withRecords t with moves := t.moves }) ∧
      (d.freeIndex 6 = none →
        Answers (exec .moveNewAdd s) fun t =>
          t.rd Reg.MOVE_NEW_STATUS = Status.eNoSpace.code ∧ t.rd Reg.MOVE_NEW_DONE = 1 ∧ t.Raised Ev.MOVE_FULL act ∧
          t.rd Reg.MOVE_CNT_FULL_CNT = min (d.rd Reg.MOVE_CNT_FULL_CNT + 1) 255 ∧
          d.Changed t (Reg.MOVE_CNT_FULL_CNT :: words) [Ev.MOVE_FULL] (d.withRecords t))) ∧
    (act = 9 → 0 < late → late < limit → arg % 64 ≠ Ev.MOVE_LATE →
      Answers (exec .moveNewAdd s) fun t =>
        t.rd Reg.MOVE_NEW_STATUS = Status.ok.code ∧ t.rd Reg.MOVE_NEW_HANDLE = 0 ∧ t.rd Reg.MOVE_NEW_DONE = 1 ∧
        t.Raised Ev.MOVE_LATE (9 + 0xFFFF * 65536) ∧ t.Raised (arg % 64) (arg / 256) ∧
        t.rd Reg.MOVE_CNT_LATE_CNT = min (d.rd Reg.MOVE_CNT_LATE_CNT + 1) 255 ∧
        d.Changed t (Reg.MOVE_CNT_LATE_CNT :: words) [Ev.MOVE_LATE, arg % 64] (d.withRecords t)) ∧
    (1 ≤ act → act ≤ 9 → 0 < late → limit ≤ late →
      Answers (exec .moveNewAdd s) fun t =>
        t.rd Reg.MOVE_NEW_STATUS = Status.eLate.code ∧ t.rd Reg.MOVE_NEW_DONE = 1 ∧ t.Raised Ev.MOVE_DROP (act + 0xFFFF * 65536) ∧
        t.rd Reg.MOVE_NEW_HANDLE = 0 ∧ t.rd Reg.MOVE_CNT_DROP_CNT = min (d.rd Reg.MOVE_CNT_DROP_CNT + 1) 255 ∧
        d.Changed t (Reg.MOVE_CNT_DROP_CNT :: words) [Ev.MOVE_DROP] (d.withRecords t))) ∧
    (let d := s.movesDue
      let arg := d.rd Reg.MOVE_NEW_ARG
      d.admits Reg.MOVE_NEW_ADD.addr 2 →
      (∀ i : Nat, d.resolve 6 arg = some i →
        Answers (exec .moveNewCancel s) fun t =>
          t.moves = d.moves.filter (fun e => e.1 != i) ∧ t.gen 6 i = (if d.gen 6 i = 255 then 1 else d.gen 6 i + 1) ∧
          t.rd Reg.MOVE_NEW_STATUS = Status.ok.code ∧ t.rd Reg.MOVE_NEW_DONE = 1 ∧
          d.Changed t words [] { d.withRecords t with moves := t.moves, gens := t.gens }) ∧
      (d.resolve 6 arg = none →
        Answers (exec .moveNewCancel s) fun t =>
          t.rd Reg.MOVE_NEW_STATUS = Status.eHandle.code ∧ t.rd Reg.MOVE_NEW_DONE = 1 ∧ d.Changed t words [] (d.withRecords t)))) ∧
  (∀ (s : State) (via : Via) (p : List Byte) (o : Origin) (u : State), u.powered 2 = true →
    (let late : Int := (u.now : Int) - beAt p 0 8 * nsUnit
      let limit : Int := usec (u.rd Reg.MOVE_CFG_LATE_LIMIT)
      s.served 0x0302 via p = some (o, u) → 1 ≤ byteAt p 8 → byteAt p 8 ≤ 9 → beAt p 9 3 = 0 →
      (late ≤ 0 → ∀ i : Nat, u.freeIndex 6 = some i → s.Gives (.moveAdd via p) o 0x0302 .ok (beBytes 4 (u.handle 6 i))
        { u with moves := tabPut i ⟨beAt p 0 8, BitVec.ofNat 8 (byteAt p 8), BitVec.ofNat 32 (beAt p 12 4), false⟩ u.moves }) ∧
      (late ≤ 0 → u.freeIndex 6 = none → s.Gives (.moveAdd via p) o 0x0302 .eNoSpace []
        ((u.raise Ev.MOVE_FULL (byteAt p 8)).bump Reg.MOVE_CNT_FULL_CNT)) ∧
      (0 < late → limit ≤ late → s.Gives (.moveAdd via p) o 0x0302 .eLate (beBytes 4 0)
        ((u.raise Ev.MOVE_DROP (byteAt p 8 + 0xFFFF * 65536)).bump Reg.MOVE_CNT_DROP_CNT))) ∧
    (let d := u.movesDue;
      s.served 0x0303 via p = some (o, u) →
      (∀ i : Nat, d.resolve 6 (beAt p 0 4) = some i → s.Gives (.moveCancel via p) o 0x0303 .ok []
        ({ d with moves := d.moves.filter fun e => e.1 != i }.advanceGen 6 i)) ∧
      (d.resolve 6 (beAt p 0 4) = none → s.Gives (.moveCancel via p) o 0x0303 .eHandle [] d)))

/-- MOVE_DUE: the waiting moves whose instants have come act in their order and free their entries. For a table of any moves that
no VT step has passed over: those that are due, a CASTLE move at the first line-slot boundary, an SPWM_UPDATE move at its instant and
another move at the first SYS cycle at or after its instant, leave the table in the order of their SYS cycles, in one cycle a PIN_CLEAR
last, then of their instants and entries, each freed with its handle's generation advanced before its action; the PIN_CLEARs of a cycle
prevail over the PIN_SETs of no other one; the others stay. One due move does what Table 2.5 says: FLIP gives its frame the frame start it selects as target, whether or not a
board holds it; CASTLE adds its mask to the pending groups, and after the setup instant LATE is set and EV_CASTLE_LATE raised; PAWN_GO
starts the pawns of its mask, as a write of the mask would; MOTIF_STEP adds a step to each enabled engine of its mask; SPWM_UPDATE
updates the units of its mask; PIN_SET and PIN_CLEAR drive the masked pins high or low as outputs, and where the pins hold their SAFE values count each
as a conflict; CVU_SNAP captures the running value of each enabled unit of its mask; EVENT raises its event with its data. An
EVENT move that a step has passed over is examined with its new lateness: dropped with
EV_MOVE_DROP when it is late by LATE_LIMIT or more, run with EV_MOVE_LATE when it is late by less, and waiting again when it is
not late. A write of a pin register in the move's SYS cycle prevails, and the order of moves of one cycle but for R64 is the model's (log entries 11 and 106).
(Derived from 02 Moves (Table 2.5, R61, R63, R64, R65, R68, R69), 05 Castling (R147, R149), 07 Motifs (R225), 14 Snap (R415).) -/
def Obligations.DueMovesActAndLeaveTheTable : Prop :=
  ∀ (s : State) (at_ : Vt), let e := s.elapseTo at_
    let actsIn := fun (u : State) (m : Move) => if m.action = 2 then u.slotBoundary (m.inst * nsUnit)
      else if m.action = 5 then m.inst * nsUnit else cycleAt (m.inst * nsUnit)
    let acts := actsIn e
    let turn := fun (u : State) (last now : Nat) => if now = last then u.cycle else { u.cycle with pinsClr := 0 }
    let local_ := fun (u : State) (inst : Nat) => u.time.uptime - (u.now - inst * nsUnit)
    let key := fun (x : Nat × Move) => [(acts x.2 + sysCycle - 1) / sysCycle, if x.2.action = 7 then 1 else 0, x.2.inst, x.1]
    (∀ l : List (Nat × Move), (∀ x ∈ s.moves, x.2.passed = false) → l.Perm (s.moves.filter fun x => acts x.2 ≤ e.now) →
      l.Pairwise (fun x y => listLt (key x) (key y) = true) →
      exec (.moveDue at_) s = .next (l.foldl (fun (t : Nat × State) x =>
        let c := actsIn t.2 x.2 / sysCycle
        let u := { t.2 with cycle := turn t.2 t.1 c }
        (c, (u.moveFree x.1).moveAct x.2 (local_ u x.2.inst))) (e.now / sysCycle, e)).2) ∧
    (∀ (i inst : Nat) (act : Byte) (arg : Word),
      let gone := { e with moves := [], cycle := turn e (e.now / sysCycle) (acts ⟨inst, act, arg, false⟩ / sysCycle) }.advanceGen 6 i
      s.moves = [(i, ⟨inst, act, arg, false⟩)] →
      (e.now < acts ⟨inst, act, arg, false⟩ → exec (.moveDue at_) s = .next e) ∧
      (acts ⟨inst, act, arg, false⟩ ≤ e.now →
        (act = 1 → (∀ k : Nat, k < 3 → (e.board k).frame ≠ some arg) → Answers (exec (.moveDue at_) s) fun t =>
          t.pipe.flips = e.pipe.flips ++ [(arg, gone.flipStart)] ∧
          t = { gone with pipe := { gone.pipe with flips := t.pipe.flips, known := t.pipe.known } } ∧
          ∀ k : Known, e.knownFrame arg = some k → t.knownFrame arg = some { k with target := some gone.flipStart, pres := none }) ∧
        (act = 1 → ∀ k : Nat, k < 3 → (e.board k).frame = some arg → (∀ j : Nat, j < k → (e.board j).frame ≠ some arg) →
          ((e.board k).showing = true ∨ e.composing k = true → exec (.moveDue at_) s = .next gone) ∧
          ((e.board k).showing = false → e.composing k = false → Answers (exec (.moveDue at_) s) fun t =>
            t.pipe.flips = e.pipe.flips ++ [(arg, gone.flipStart)] ∧ (t.board k).target = some gone.flipStart ∧
            (t.board k).pres = none ∧ (∀ j : Nat, j ≠ k → t.board j = e.board j) ∧
            t = { gone with pipe := { gone.pipe with flips := t.pipe.flips, known := t.pipe.known, boards := t.pipe.boards } })) ∧
        (act = 2 → arg.toNat % 512 = 0 → exec (.moveDue at_) s = .next gone) ∧
        (act = 2 → arg.toNat % 512 ≠ 0 → bitAt arg.toNat 8 = false → e.idle = false →
          let asked := gone.wr Reg.SYS_CASTLE_STAT_PENDING (gone.rd Reg.SYS_CASTLE_STAT_PENDING ||| arg.toNat % 512)
          (e.scan.setupDone = false → e.scan.inBlank = false → exec (.moveDue at_) s = .next asked) ∧
          (e.scan.setupDone = true ∨ e.scan.inBlank = true → Answers (exec (.moveDue at_) s) fun t =>
            t.rd Reg.SYS_CASTLE_STAT_LATE = 1 ∧
            t.Raised Ev.CASTLE_LATE (asked.rd Reg.SYS_CASTLE_STAT_PENDING ||| e.scan.capturedMask.toNat) ∧
            asked.Changed t [Reg.SYS_CASTLE_STAT_LATE] [Ev.CASTLE_LATE] (asked.withRecords t))) ∧
        (act = 3 → exec (.moveDue at_) s = .next (gone.pawnsGo (arg.toNat % 256))) ∧
        (act = 4 → Answers (exec (.moveDue at_) s) fun t =>
          (∀ n : Nat, n < 8 → t.rd (Reg.MOTIF_ENG_PEND n) =
            if bitAt arg.toNat n = true ∧ e.rdB (Reg.MOTIF_ENG_EN n) = true then min (e.rd (Reg.MOTIF_ENG_PEND n) + 1) 255
            else e.rd (Reg.MOTIF_ENG_PEND n)) ∧
          gone.Changed t ((List.range 8).map Reg.MOTIF_ENG_PEND) [] (gone.withRecords t)) ∧
        (act = 5 → exec (.moveDue at_) s = .next (gone.spwmUpdate (local_ e inst) (arg.toNat % 256))) ∧
        (act = 6 ∨ act = 7 →
          (e.pxSafe = true ∨ e.powered 4 = false → Answers (exec (.moveDue at_) s) fun t =>
            t.rd Reg.MOVE_CNT_PIN_CONFLICT = min (e.rd Reg.MOVE_CNT_PIN_CONFLICT + (maskIdx 32 arg.toNat).length) 255 ∧
            gone.Changed t [Reg.MOVE_CNT_PIN_CONFLICT] [] (gone.withRecords t)) ∧
          (e.pxSafe = false → e.powered 4 = true → (∀ j : Nat, bitAt arg.toNat j = true → e.inRunningWindow j = false) →
            Reg.PAWN_PX_OUT_LEVEL.addr ∉ e.cycle.written → Reg.PAWN_PX_OE_OE.addr ∉ e.cycle.written →
            act = 7 ∨ gone.cycle.pinsClr &&& arg = 0 → Answers (exec (.moveDue at_) s) fun t =>
            t.reg Reg.PAWN_PX_OUT_LEVEL.addr = (if act = 6 then e.reg Reg.PAWN_PX_OUT_LEVEL.addr ||| arg
              else e.reg Reg.PAWN_PX_OUT_LEVEL.addr &&& ~~~arg) ∧
            t.reg Reg.PAWN_PX_OE_OE.addr = e.reg Reg.PAWN_PX_OE_OE.addr ||| arg ∧
            gone.Changed t [Reg.PAWN_PX_OUT_LEVEL, Reg.PAWN_PX_OE_OE] [] (gone.withRecords t))) ∧
        (act = 8 → e.powered 4 = true → Answers (exec (.moveDue at_) s) fun t =>
          (∀ n : Nat, n < 8 → bitAt arg.toNat n = true → e.rdB (Reg.CVU_CTRL_EN n) = true →
            t.rd (Reg.CVU_SNAP_SNAP n) = gone.cvuSnapValue n % 2 ^ 32 ∧ t.rd (Reg.CVU_STAT_SNAPPED n) = 1) ∧
          (∀ n : Nat, n < 8 → bitAt arg.toNat n = false ∨ e.rdB (Reg.CVU_CTRL_EN n) = false →
            t.rd (Reg.CVU_SNAP_SNAP n) = e.rd (Reg.CVU_SNAP_SNAP n) ∧
            t.rd (Reg.CVU_STAT_SNAPPED n) = e.rd (Reg.CVU_STAT_SNAPPED n)) ∧
          gone.Changed t ((List.range 8).flatMap fun n => [Reg.CVU_SNAP_SNAP n, Reg.CVU_STAT_SNAPPED n]) [] (gone.withRecords t)) ∧
        (act = 9 → Answers (exec (.moveDue at_) s) fun t =>
          t.gen 6 i = (if s.gen 6 i = 255 then 1 else s.gen 6 i + 1) ∧ t.Raised (arg.toNat % 64) (arg.toNat / 256) ∧
          gone.Changed t [] [arg.toNat % 64] (gone.withRecords t)))) ∧
    (∀ (i inst : Nat) (arg : Word), let gone := { e with moves := [] }.advanceGen 6 i
      let late : Int := (e.now : Int) - inst * nsUnit
      s.moves = [(i, ⟨inst, 9, arg, true⟩)] →
      (late ≤ 0 → exec (.moveDue at_) s = .next { e with moves := [(i, ⟨inst, 9, arg, false⟩)] }) ∧
      (0 < late → late < usec (s.rd Reg.MOVE_CFG_LATE_LIMIT) → arg.toNat % 64 ≠ Ev.MOVE_LATE →
        Answers (exec (.moveDue at_) s) fun t =>
          t.Raised Ev.MOVE_LATE (9 + i * 65536) ∧ t.Raised (arg.toNat % 64) (arg.toNat / 256) ∧
          t.rd Reg.MOVE_CNT_LATE_CNT = min (s.rd Reg.MOVE_CNT_LATE_CNT + 1) 255 ∧
          gone.Changed t [Reg.MOVE_CNT_LATE_CNT] [Ev.MOVE_LATE, arg.toNat % 64] (gone.withRecords t)) ∧
      (0 < late → usec (s.rd Reg.MOVE_CFG_LATE_LIMIT) ≤ late →
        Answers (exec (.moveDue at_) s) fun t =>
          t.Raised Ev.MOVE_DROP (9 + i * 65536) ∧ t.rd Reg.MOVE_CNT_DROP_CNT = min (s.rd Reg.MOVE_CNT_DROP_CNT + 1) 255 ∧
          gone.Changed t [Reg.MOVE_CNT_DROP_CNT] [Ev.MOVE_DROP] (gone.withRecords t)))

/-- A missed deadline empties the board (SKIP) or makes it composable (PATCH); FLUSH empties the boards. At a deadline that has
come, a FILLING board that is not held and not being composed is emptied under SKIP and in BRACE, and under PATCH its frame becomes composable as an
incomplete frame with its coverage as it is; both raise EV_FRAME_LATE with its frame number and count. A READY board has met its
deadline. A board whose deadline has not come, or that is
SHOWING, held, being composed or already patched, or has met its deadline before, keeps its state, and apart from the boards nothing else
changes. With PIX powered and PIPE_CTRL not locked, FLUSH, after the moves that are due, empties every board
that is neither SHOWING nor being composed, and changes nothing else; a board that is composed and waits for its frame start counts as being
composed, by the model's choice (log entry 129). (Derived from 03 Frame boards (R76, R84, R85, R88), 17 BRACE (R463), 18 Table 18.1.) -/
def Obligations.DeadlineSkipsOrPatchesAndFlushEmpties : Prop :=
  (∀ (s : State) (at_ : Vt), let e := s.elapseTo at_
    let due := fun i : Nat => (e.board i).deadline.any (fun dl => decide (dl ≤ e.now)) && !(e.board i).held && !(e.board i).met &&
      !(e.board i).patched && !(e.board i).showing && !e.composing i
    let late := (List.range 3).filter fun i => due i && !(e.board i).ready
    Answers (exec (.frameDeadline at_) s) fun t =>
      (∀ i : Nat, i < 3 → t.board i =
        if due i = false then e.board i
        else if (e.board i).ready = true then { e.board i with met := true }
        else if e.brace = true ∨ e.rd Reg.PIPE_LATE_POLICY_POLICY = 0 then boardEmpty
        else { e.board i with patched := true }) ∧
      t.rd Reg.PIPE_CNT1_LATE_FRAME = min (e.rd Reg.PIPE_CNT1_LATE_FRAME + late.length) 255 ∧
      (∀ i : Nat, late.getLast? = some i → t.Raised Ev.FRAME_LATE ((e.board i).frame.getD 0).toNat) ∧
      (late = [] → t = { e with pipe := { e.pipe with boards := t.pipe.boards } }) ∧
      e.Changed t [Reg.PIPE_CNT1_LATE_FRAME] [Ev.FRAME_LATE]
        { e.withRecords t with pipe := { e.pipe with boards := t.pipe.boards } }) ∧
  (∀ s : State, let d := s.movesDue
    d.admits Reg.PIPE_CTRL_FLUSH.addr 1 → Answers (exec .pipeFlush s) fun t =>
      (∀ i : Nat, i < 3 → t.board i = if ((d.board i).showing || d.composing i) = true then d.board i else boardEmpty) ∧
      t = { d with pipe := { d.pipe with boards := t.pipe.boards }, cycle := t.cycle })

/-- IREF faults, the board-temperature sample, a stale PAWN source and ADC conversions. A reference current outside 80 to 120
µA sets IREF_FAULT and holds every sink off; a current within clears IREF_FAULT and leaves the sinks off until the next
frame start. With SUP powered and no VDDA warning, each sample moves T_B by an eighth of its distance, rounded down, from
the first sample on, and reports it with the source used: the die under DIE (and under the codes 6 and 7), the interpolated THA or THB under THA and THB, their larger or their mean
under MAX and MEAN, the pawn's last word under PAWN. A code of 4,080 or above or 16 or below of an input that the source uses sets its
fault bit, which reads 0 otherwise, and raises EV_THERM_SENSOR at the change; MAX and MEAN then use the other input, and where no input remains T_B is formed from
DIE. Before an input has given a conversion or word T_B stays as it is, and while SUP is off or the warning lasts nothing changes. The mean
is rounded down by the model's choice (log entry 130). A PAWN source silent for STALE x 100 ms (0 acts as 1) sets FAULT_P and raises the event
at the change; before that only time passes. A conversion sets CODE and VALID of its channel; the die temperature a channel-5
code stands for is free (log entry 13). (Derived from 06 Sinks (R159), 06 ADC (R175), 06 Board temperature (R177, R178, R179, R180), 17 BRACE (R464).) -/
def Obligations.SinkCurrentReferenceAndThermalInputs : Prop :=
  ∀ s : State,
    (∀ i : Nat, (i < 80 ∨ 120 < i → Answers (exec (.irefFault i) s) fun t =>
        t.rd Reg.SINK_STAT_IREF_FAULT = 1 ∧ t.sinksOff = true ∧
        s.Changed t [Reg.SINK_STAT_IREF_FAULT] [] { s.withRecords t with sink := { s.sink with irefOff := true }, time := t.time }) ∧
      (80 ≤ i → i ≤ 120 → Answers (exec (.irefFault i) s) fun t =>
        t.rd Reg.SINK_STAT_IREF_FAULT = 0 ∧ (s.sink.irefOff = true → t.sinksOff = true) ∧
        s.Changed t [Reg.SINK_STAT_IREF_FAULT] [] (s.withRecords t))) ∧
    (let good := fun c : Nat => s.rdB (Reg.ADC_DATA_VALID c) = true ∧ 16 < s.rd (Reg.ADC_DATA_CODE c) ∧ s.rd (Reg.ADC_DATA_CODE c) < 4080
      let faulty := fun c : Nat => s.rdB (Reg.ADC_DATA_VALID c) = true ∧ (s.rd (Reg.ADC_DATA_CODE c) ≤ 16 ∨ 4080 ≤ s.rd (Reg.ADC_DATA_CODE c))
      let temp := fun (b : Bool) (c : Nat) => s.ntcEntry b (s.rd (Reg.ADC_DATA_CODE c) / 256) * 16 +
        (s.ntcEntry b (s.rd (Reg.ADC_DATA_CODE c) / 256 + 1) * 16 - s.ntcEntry b (s.rd (Reg.ADC_DATA_CODE c) / 256) * 16) *
          (s.rd (Reg.ADC_DATA_CODE c) % 256 : Nat) / 256
      let src := if s.rd Reg.SINK_TB_CFG_SRC ≤ 5 then s.rd Reg.SINK_TB_CFG_SRC else 0
      let two : Prop := src = 3 ∨ src = 4
      let badA : Prop := (src = 1 ∨ two) ∧ faulty 2
      let badB : Prop := (src = 2 ∨ two) ∧ faulty 3
      let badP : Prop := src = 5 ∧ s.rd Reg.SINK_TB_STAT_FAULT_P = 1
      let takes := fun (x : Int) (used : Nat) => Answers (exec .tbSample s) fun t =>
        t.sink.tb = some (match s.sink.tb with | none => x | some y => y + (x - y) / 8) ∧ t.rd Reg.SINK_TB_STAT_USED = used ∧
        ∀ y : Int, t.sink.tb = some y → t.rd Reg.SINK_TB_STAT_TB = saturate 16 (y / 16)
      let stays : Prop := Answers (exec .tbSample s) fun t => t.sink = s.sink ∧
        t.rd Reg.SINK_TB_STAT_USED = s.rd Reg.SINK_TB_STAT_USED ∧ t.rd Reg.SINK_TB_STAT_TB = s.rd Reg.SINK_TB_STAT_TB
      (s.powered 5 = false ∨ s.sink.hold = true → exec .tbSample s = .next s) ∧
      (s.powered 5 = true → s.sink.hold = false →
        (src = 0 ∨ src = 1 ∧ badA ∨ src = 2 ∧ badB ∨ two ∧ badA ∧ badB ∨ badP →
          (∀ d : Int, s.dieTemp = some d → takes d 0) ∧ (s.dieTemp = none → stays)) ∧
        (src = 1 → good 2 → takes (temp false 2) 1) ∧ (src = 2 → good 3 → takes (temp true 3) 2) ∧
        (two → good 2 → good 3 → takes (if src = 3 then max (temp false 2) (temp true 3) else (temp false 2 + temp true 3) / 2) src) ∧
        (two → good 2 → faulty 3 → takes (temp false 2) 1) ∧ (two → faulty 2 → good 3 → takes (temp true 3) 2) ∧
        (src = 5 → ¬badP → (∀ x : Int, s.sink.tP = some x → takes x 5) ∧ (s.sink.tP = none → stays)) ∧
        ((src = 1 ∨ two) ∧ s.rdB (Reg.ADC_DATA_VALID 2) = false ∨ (src = 2 ∨ two) ∧ s.rdB (Reg.ADC_DATA_VALID 3) = false → stays) ∧
        Answers (exec .tbSample s) fun t =>
          (t.rd Reg.SINK_TB_STAT_FAULT_A = 1 ↔ badA) ∧ (t.rd Reg.SINK_TB_STAT_FAULT_B = 1 ↔ badB) ∧
          (badB → s.rd Reg.SINK_TB_STAT_FAULT_B = 0 → t.Raised Ev.THERM_SENSOR 1) ∧
          (badA → s.rd Reg.SINK_TB_STAT_FAULT_A = 0 → ¬(badB ∧ s.rd Reg.SINK_TB_STAT_FAULT_B = 0) → t.Raised Ev.THERM_SENSOR 0) ∧
          (¬(badA ∧ s.rd Reg.SINK_TB_STAT_FAULT_A = 0) → ¬(badB ∧ s.rd Reg.SINK_TB_STAT_FAULT_B = 0) →
            t.klp = s.klp ∧ t.poll = s.poll ∧ t.cycle = s.cycle) ∧
          s.Changed t [Reg.SINK_TB_STAT_FAULT_A, Reg.SINK_TB_STAT_FAULT_B, Reg.SINK_TB_STAT_USED, Reg.SINK_TB_STAT_TB]
            [Ev.THERM_SENSOR] { s.withRecords t with sink := { s.sink with tb := t.sink.tb, tA := t.sink.tA, tB := t.sink.tB } })) ∧
    (∀ at_ : Vt, let e := s.elapseTo at_
      let stale : Prop := s.tbSrc = 5 ∧ s.sink.pawnAt + msec (100 * max 1 (s.rd Reg.SINK_TB_CFG_STALE)) ≤ e.time.uptime
      (stale → Answers (exec (.tbPawnStale at_) s) fun t =>
        t.rd Reg.SINK_TB_STAT_FAULT_P = 1 ∧ (s.rdB Reg.SINK_TB_STAT_FAULT_P = false → t.Raised Ev.THERM_SENSOR 2) ∧
        e.Changed t [Reg.SINK_TB_STAT_FAULT_P] [Ev.THERM_SENSOR] (e.withRecords t)) ∧
      (¬stale → exec (.tbPawnStale at_) s = .next e)) ∧
    (∀ (c : Fin 6) (code : BitVec 12), s.powered 5 = true → s.sink.hold = false ∨ c = 5 →
      Answers (exec (.adcConversion c code) s) fun t =>
        t.rd (Reg.ADC_DATA_CODE c.val) = code.toNat ∧ t.rd (Reg.ADC_DATA_VALID c.val) = 1 ∧
        s.Changed t [Reg.ADC_DATA_CODE c.val, Reg.ADC_DATA_VALID c.val, Reg.SINK_DIE_TJ] []
          { s.withRecords t with free := t.free } ∧
        (c.val < 5 → t.rd Reg.SINK_DIE_TJ = s.rd Reg.SINK_DIE_TJ ∧ t.free = s.free))

/-- ECC errors, the scrubber and the rewrite from the armed Seal. A corrected word counts in CORR and raises EV_ECC_CORR
unless one was raised less than 10 ms ago, and from 10 ms on again. An uncorrectable word counts in UNCORR, stands in EVT_ECC_STAT and raises
EV_ECC_UNCORR unless one was raised less than 1 ms ago, and from 1 ms on again; the same limits hold for what the scrubber finds; for the coverage RAM its 32 slots become uncovered, for the FCM
outside the census map it stays bad until it is written, and for the census RAM nothing else changes; a word that the scrubber has reported is
handled at this use and not reported again (log entry 145). An uncorrectable PKB cell discards its frame, and a TCM word restarts the core, below the
restart limit and where no restart has been counted or begun in its SYS cycle. A scrub pass that finds
nothing, is switched off, or runs in BRACE changes only the time; one that finds a correctable word counts it, and one that finds an uncorrectable word outside the FCM
counts and reports it and leaves it to its next use. With the core up
and PIX powered, the rewrite puts the armed Seal's bytes into a reported word that lies in no calibration bank. The layout of
the coverage RAM is the model's (log entry 41). (Derived from 18 ECC (R488, R489, R490, Table 18.2).) -/
def Obligations.MemoryErrorsAreCountedReportedAndRepaired : Prop :=
  ∀ (s : State) (at_ : Vt) (m : Fin 5) (w : BitVec 24) (f : Nat) (b : BitVec 2),
    let e := s.elapseTo at_
    let corrected := fun (t : State) =>
      t.rd Reg.EVT_ECC_CNT_CORR = min (s.rd Reg.EVT_ECC_CNT_CORR + 1) (2 ^ Reg.EVT_ECC_CNT_CORR.len - 1) ∧
      (s.rook.lastCorr = none ∨ (∃ u : Nat, s.rook.lastCorr = some u ∧ u + msec 10 ≤ e.time.uptime) →
        t.Raised Ev.ECC_CORR (m.val + 256 * w.toNat) ∧ t.rook.lastCorr = some e.time.uptime) ∧
      (∀ u : Nat, s.rook.lastCorr = some u → e.time.uptime < u + msec 10 →
        e.Changed t [Reg.EVT_ECC_CNT_CORR] [] { e with regs := t.regs, cycle := t.cycle }) ∧
      e.Changed t [Reg.EVT_ECC_CNT_CORR] [Ev.ECC_CORR]
        { e.withRecords t with rook := { s.rook with lastCorr := t.rook.lastCorr } }
    let uncorrected := fun (t : State) =>
      t.rd Reg.EVT_ECC_CNT_UNCORR = min (s.rd Reg.EVT_ECC_CNT_UNCORR + 1) (2 ^ Reg.EVT_ECC_CNT_UNCORR.len - 1) ∧
      t.rd Reg.EVT_ECC_STAT_MEM = m.val ∧ t.rd Reg.EVT_ECC_STAT_WORD = w.toNat ∧
      (s.rook.lastUncorr = none ∨ (∃ u : Nat, s.rook.lastUncorr = some u ∧ u + msec 1 ≤ e.time.uptime) →
        t.Raised Ev.ECC_UNCORR (m.val + 256 * w.toNat) ∧ t.rook.lastUncorr = some e.time.uptime) ∧
      (∀ u : Nat, s.rook.lastUncorr = some u → e.time.uptime < u + msec 1 → t.rook.lastUncorr = some u ∧
        t.reg (Reg.EVT_DATA_DATA Ev.ECC_UNCORR).addr = e.reg (Reg.EVT_DATA_DATA Ev.ECC_UNCORR).addr ∧
        (t.reg (Reg.EVT_RAW_RAW 1).addr).getLsbD (Ev.ECC_UNCORR % 32) = (e.reg (Reg.EVT_RAW_RAW 1).addr).getLsbD (Ev.ECC_UNCORR % 32))
    let silent := fun (t : State) => ∀ u : Nat, s.rook.lastUncorr = some u → e.time.uptime < u + msec 1 → t.klp = s.klp ∧ t.poll = s.poll
    (Answers (exec (.eccError at_ m w false f b) s) corrected) ∧
    (m.val = 0 ∨ m.val = 3 ∨ m.val = 4 → (m.val, w.toNat) ∉ s.rook.scrubbed → Answers (exec (.eccError at_ m w true f b) s) fun t =>
      uncorrected t ∧ (m.val ≠ 0 → silent t) ∧
      (m.val = 0 → ¬(fcmCensus ≤ 4 * w.toNat ∧ 4 * w.toNat < memberAt) → (0, w.toNat) ∈ t.badWords) ∧
      (m.val = 3 → w.toNat < 4608 → ∀ k : Fin 32,
        (t.board (w.toNat / 1536)).covered (32 * (w.toNat % 1536) + k.val) = false) ∧
      (m.val = 4 → e.Changed t [Reg.EVT_ECC_CNT_UNCORR, Reg.EVT_ECC_STAT_MEM, Reg.EVT_ECC_STAT_WORD] [Ev.ECC_UNCORR]
        { e.withRecords t with rook := { s.rook with lastUncorr := t.rook.lastUncorr } })) ∧
    (m.val = 4 → (4, w.toNat) ∈ s.rook.scrubbed → exec (.eccError at_ m w true f b) s =
      .next { e with rook := { s.rook with scrubbed := s.rook.scrubbed.filter fun x => !(x == (4, w.toNat)) } }) ∧
    (m.val = 1 → Answers (exec (.eccError at_ m w true f b) s) fun t =>
      ∀ k : Pkt, t.pkt f = some k → k.egress = [] ∧ k.sending = [] ∧ k.holder = 0) ∧
    (m.val = 2 → e.atLimit = false → e.countedNow = false → e.restartedNow = false → Answers (exec (.eccError at_ m w true f b) s) fun t =>
      t.rd Reg.SYS_STATE_CORE_DOWN = 1 ∧ t.rook.restarting = true ∧ e.time.uptime ∈ t.rook.counted ∧ t.klp.sessions = s.klp.sessions) ∧
    (exec (.scrubPass at_ []) s = .next e) ∧
    (s.rdB Reg.EVT_ECC_CFG_SCRUB_EN = false ∨ s.rdB Reg.SYS_STATE_BRACE = true →
      exec (.scrubPass at_ [(m.val, w.toNat, true)]) s = .next e) ∧
    (s.rdB Reg.EVT_ECC_CFG_SCRUB_EN = true → s.rdB Reg.SYS_STATE_BRACE = false →
      Answers (exec (.scrubPass at_ [(m.val, w.toNat, false)]) s) corrected) ∧
    (s.rdB Reg.EVT_ECC_CFG_SCRUB_EN = true → s.rdB Reg.SYS_STATE_BRACE = false → m.val ≠ 0 →
      Answers (exec (.scrubPass at_ [(m.val, w.toNat, true)]) s) fun t =>
        uncorrected t ∧ silent t ∧ (m.val, w.toNat) ∈ t.rook.scrubbed ∧
        e.Changed t [Reg.EVT_ECC_CNT_UNCORR, Reg.EVT_ECC_STAT_MEM, Reg.EVT_ECC_STAT_WORD] [Ev.ECC_UNCORR]
          { e.withRecords t with rook := { s.rook with lastUncorr := t.rook.lastUncorr, scrubbed := t.rook.scrubbed } }) ∧
    (∀ img : List Byte, s.store.armed = some img → s.rook.rewrite = [(0, w.toNat)] → s.coreDown = false → s.powered 2 = true →
      inBank 0 w.toNat = false → inBank 1 w.toNat = false →
      Answers (exec (.eccRewrite at_) s) fun t =>
        t.rook.rewrite = [] ∧ t.fcm32 (4 * w.toNat) = (State.reset.sealFcm (secsOf img)).fcm32 (4 * w.toNat))

/-- The die comparator: WARN at 115 °C and below 110 °C, the dark-safe state at 135 °C, the return after 10 s below 105 °C. At
115 °C WARN is set and EV_TJ_WARN raised once; below 110 °C WARN clears and nothing else changes. At 135 °C the device is
in the dark-safe state with the line interface idle and EV_TJ_SHUT raised with data 0; links, census and Seal store keep what
they hold, and where no castle, step or epoch waits for the scan engine so do FCM, commands and moves. When the die has
cooled, the cause is gone and EV_TJ_SHUT is raised with data 1; the dark-safe state ends when no other cause holds, and the
next frame starts at least T_VB_MIN later. Repeated commands change only the time. (Derived from 06 Die temperature (R185),
18 The Rook (R493, R525).) -/
def Obligations.DieComparatorWarnsAndDarkens : Prop :=
  ∀ (s : State) (at_ : Vt), let e := s.elapseTo at_
    (s.rdB Reg.SINK_DIE_WARN = false → Answers (exec (.dieTempWarn at_) s) fun t =>
      t.rd Reg.SINK_DIE_WARN = 1 ∧ t.Raised Ev.TJ_WARN (s.rd Reg.SINK_DIE_TJ) ∧
      e.Changed t [Reg.SINK_DIE_WARN] [Ev.TJ_WARN] (e.withRecords t)) ∧
    (s.rdB Reg.SINK_DIE_WARN = true → exec (.dieTempWarn at_) s = .next e) ∧
    (Answers (exec .dieTempWarnClear s) fun t =>
      t.rd Reg.SINK_DIE_WARN = 0 ∧ s.Changed t [Reg.SINK_DIE_WARN] [] (s.withRecords t)) ∧
    (s.darkFor 0 = false → Answers (exec (.dieTempShutdown at_) s) fun t =>
      t.rd Reg.SYS_STATE_DARK_SAFE = 1 ∧ t.darkFor 0 = true ∧ t.Raised Ev.TJ_SHUT 0 ∧ t.sinksOff = true ∧
      (s.rdB Reg.SYS_STATE_DARK_SAFE = false → t.idle = true ∧ t.runningPawns = []) ∧
      t.net = s.net ∧ t.census = s.census ∧ t.store = s.store ∧
      (s.quiet → t.fcm = s.fcm ∧ t.cmd = s.cmd ∧ t.moves = s.moves)) ∧
    (s.darkFor 0 = true → exec (.dieTempShutdown at_) s = .next e) ∧
    (s.darkFor 0 = true → Answers (exec (.dieCoolResume at_) s) fun t =>
      t.darkFor 0 = false ∧ t.Raised Ev.TJ_SHUT 1 ∧
      (∀ k : Fin 6, k.val ≠ 0 → t.darkFor k.val = s.darkFor k.val) ∧
      (s.rook.dark = 1 → t.rd Reg.SYS_STATE_DARK_SAFE = 0 ∧
        (s.rdB Reg.SYS_STATE_DARK_SAFE = true → e.now + s.tVbMin ≤ t.scan.notBefore)) ∧
      (s.rook.dark ≠ 1 → t.rd Reg.SYS_STATE_DARK_SAFE = s.rd Reg.SYS_STATE_DARK_SAFE)) ∧
    (s.darkFor 0 = false → exec (.dieCoolResume at_) s = .next e)

/-- DEBUG access, halt and release. With IOX powered: the first DEBUG access after a boot raises EV_DEBUG with data 2, a later
one raises nothing; a halt sets HALTED and CORE_DOWN, holds the watchdog's count and raises EV_DEBUG with data 1; a
release clears HALTED, gives the watchdog back the count it had, restarts the core unless a restart runs or CTL is off,
and raises EV_DEBUG with data 0. Moves, FCM, links, census and Seal store are not touched. (Derived from 18 Debug (R495,
Table 18.3), 18 The watchdog (R491).) -/
def Obligations.DebugHaltStopsTheCoreAndReleaseEndsIt : Prop :=
  ∀ (s : State) (at_ : Vt), s.powered 4 = true → let e := s.elapseTo at_
    (Answers (exec .debugAccess s) fun t =>
      t.rook.jtag = .debug ∧ t.rook.debugSeen = true ∧ (s.rook.debugSeen = false → t.Raised Ev.DEBUG 2) ∧
      (s.rook.debugSeen = true → t.regs = s.regs ∧ t.klp = s.klp ∧ t.poll = s.poll) ∧
      s.Changed t [] [Ev.DEBUG] { s.withRecords t with rook := { s.rook with jtag := .debug, debugSeen := true } }) ∧
    (s.halted = false → Answers (exec (.debugHalt at_) s) fun t =>
      t.rd Reg.SYS_DBG_HALTED = 1 ∧ t.rd Reg.SYS_STATE_CORE_DOWN = 1 ∧ t.Raised Ev.DEBUG 1 ∧
      t.rook.wdogHeld = some (e.time.uptime - s.rook.kickAt) ∧ t.wdogExpired = false ∧
      t.moves = s.moves ∧ t.fcm = s.fcm ∧ t.net = s.net ∧ t.census = s.census ∧ t.store = s.store) ∧
    (s.halted = true → exec (.debugHalt at_) s = .next e) ∧
    (s.halted = true → Answers (exec (.debugRelease at_) s) fun t =>
      t.rd Reg.SYS_DBG_HALTED = 0 ∧ t.Raised Ev.DEBUG 0 ∧ t.rook.wdogHeld = none ∧
      (∀ n : Nat, s.rook.wdogHeld = some n → n ≤ e.time.uptime → t.time.uptime - t.rook.kickAt = n) ∧
      (s.rook.restarting = false → s.powered 1 = true → t.rd Reg.SYS_STATE_CORE_DOWN = 0) ∧
      (s.rook.restarting = true ∨ s.powered 1 = false → t.rd Reg.SYS_STATE_CORE_DOWN = s.rd Reg.SYS_STATE_CORE_DOWN) ∧
      t.moves = s.moves ∧ t.fcm = s.fcm ∧ t.net = s.net ∧ t.census = s.census ∧ t.store = s.store) ∧
    (s.halted = false → exec (.debugRelease at_) s = .next e)

/-- IDCODE, BYPASS, SAMPLE/PRELOAD, EXTEST and TRST_N. With IOX powered: IDCODE makes the port shift out SYS_ID, and BYPASS,
IDCODE and SAMPLE/PRELOAD change nothing but the port's instruction and the boundary cells, which SAMPLE/PRELOAD loads as it captures the level
of every pin: of a driven pin, a TRIP input and RESET_N the one it has, of another one what the board drives, a free value (log entry 172); EXTEST takes
the device into the dark-safe state with the line interface idle, and each pin that can leave the device then has the level of the last boundary
cell that names it, and under every other instruction that of the device; it captures the levels too; TRST_N resets the port and ends EXTEST's dark-safe state when no other
cause holds. (Derived from 18 JTAG (R494), 19 Identification (R504).) -/
def Obligations.JtagInstructionsAndExtest : Prop :=
  ∀ (s : State) (cells : List (BsPin × Bool)), s.powered 4 = true →
    (Answers (exec .idcode s) fun t => t.jtagOut = some (s.reg Reg.SYS_ID_ONE.addr) ∧
      t = { s with rook := { s.rook with jtag := .idcode } }) ∧
    exec .bypass s = .next { s with rook := { s.rook with jtag := .bypass } } ∧
    (Answers (exec (.samplePreload cells) s) fun t =>
      (∀ (p : BsPin) (l : Bool), s.pinSeen p = some l → ∀ k : Bool, (p, k) ∈ t.rook.captured ↔ k = l) ∧
      (∀ p : BsPin, ∃ l : Bool, ∀ k : Bool, (p, k) ∈ t.rook.captured ↔ k = l) ∧
      (∀ p : BsPin, t.pinLevel p = t.ownLevel p) ∧
      t = { s with free := s.free + 1, rook := { s.rook with jtag := .sample, captured := t.rook.captured, boundary := cells } }) ∧
    (Answers (exec .extest s) fun t =>
      (∀ (p : BsPin) (l : Bool) (before after : List (BsPin × Bool)), s.rook.boundary = before ++ (p, l) :: after →
        (∀ x ∈ after, x.1 ≠ p) → pinDrives p = true → t.pinLevel p = some l) ∧
      (∀ p : BsPin, pinDrives p = false → t.pinLevel p = t.ownLevel p) ∧
      (∀ (p : BsPin) (l : Bool), t.pinSeen p = some l → (p, l) ∈ t.rook.captured) ∧
      t.rook.jtag = .extest ∧ t.rook.boundary = s.rook.boundary ∧ t.rd Reg.SYS_STATE_DARK_SAFE = 1 ∧ t.darkFor 3 = true ∧
      (s.rdB Reg.SYS_STATE_DARK_SAFE = false → t.idle = true ∧ t.runningPawns = []) ∧ t.sinksOff = true) ∧
    (Answers (exec .trstN s) fun t =>
      t.rook.jtag = .reset ∧ t.darkFor 3 = false ∧
      (s.rook.dark = 8 → t.rd Reg.SYS_STATE_DARK_SAFE = 0) ∧
      (s.rook.dark &&& 0x37 ≠ 0 → t.rd Reg.SYS_STATE_DARK_SAFE = s.rd Reg.SYS_STATE_DARK_SAFE))

/-- A kick of 0x5A5A restarts the watchdog's count; expiry restarts the core and counts it. A write of 0x0000_5A5A to
SYS_ROOK_KICK restarts the count, any other value changes only the time. When the count has not run out (or is held, or a
restart runs), or a kick falls in the same SYS cycle before or after it, the expiry command changes only the time. On expiry below the restart limit,
with no restart counted or begun just before in the same SYS cycle, the control core is down and
restarting, the restart is among those of the last 60 s, the count has restarted, EV_WDOG is raised, and sessions, FCM, moves
and Seal store stay; during a trial the slot before it is chosen again with ROLLBACK and EV_FW_SWAP; with WDOG_ACTION 1 in
ARMED or FALLBACK, no look shown or requested, the look is requested with cause 3, and with WDOG_ACTION 0 or in another state
it is not. Where another cause has counted a restart in the cycle, the expiry counts no second one and restarts nothing again, and where one has
begun without being counted it is counted; EV_WDOG is raised all the same. At the limit the device boots in full with LIMIT_BOOT set, once no supply and no RESET_N holds it. A counted restart 60 s old leaves WDOG_CNT. (Derived
from 18 The watchdog (R491, R492), 01 Faults (R21), 16 Firmware slots (R454).) -/
def Obligations.WatchdogKickAndExpiry : Prop :=
  ∀ (s : State) (at_ : Vt) (w : Word) (b : BitVec 2), let e := s.elapseTo at_
    let looks := s.rdB Reg.SYS_ROOK_CFG_WDOG_ACTION = true ∧ (s.devState = 5 ∨ s.devState = 6)
    (w ≠ 0x5A5A → exec (.watchdogKick at_ w) s = .next e) ∧
    exec (.watchdogKick at_ 0x5A5A) s = .next { e with
      rook := { s.rook with kickAt := e.time.uptime, wdogHeld := s.rook.wdogHeld.map fun _ => 0 }
      cycle := { e.cycle with kicked := true } } ∧
    (e.wdogExpired = false ∨ e.kickComing = true → exec (.watchdogExpiry at_ b) s = .next e) ∧
    (e.wdogExpired = true → e.kickComing = false → e.atLimit = false → e.countedNow = false → e.restartedNow = false →
      Answers (exec (.watchdogExpiry at_ b) s) fun t =>
      t.rd Reg.SYS_STATE_CORE_DOWN = 1 ∧ t.rook.restarting = true ∧ t.rook.kickAt = e.time.uptime ∧
      e.time.uptime ∈ t.rook.counted ∧ t.wdogExpired = false ∧
      t.Raised Ev.WDOG (t.rd Reg.SYS_ROOK_STAT_WDOG_CNT + 16 * s.rd Reg.SYS_ROOK_CFG_WDOG_ACTION) ∧
      t.klp.sessions = s.klp.sessions ∧ t.fcm = s.fcm ∧ t.moves = s.moves ∧ t.store = s.store ∧
      (s.rdB Reg.SEAL_BOOT_TRIAL = false → t.reg Reg.SEAL_BOOT_SLOT.addr = s.reg Reg.SEAL_BOOT_SLOT.addr) ∧
      (s.rdB Reg.SEAL_BOOT_TRIAL = true → t.rd Reg.SEAL_BOOT_TRIAL = 0 ∧ t.rd Reg.SEAL_BOOT_ROLLBACK = 1 ∧
        t.rd Reg.SEAL_BOOT_SLOT = s.store.trialFrom % 2 ^ Reg.SEAL_BOOT_SLOT.len ∧
        t.Raised Ev.FW_SWAP (s.rd Reg.SEAL_BOOT_SLOT + 2)) ∧
      (¬looks → t.fallback = s.fallback) ∧
      (looks → s.fbActive = false → s.fallback.startDue = 0 →
        t.fallback = { s.fallback with startDue := 3, restartDone := none })) ∧
    (e.wdogExpired = true → e.kickComing = false → e.countedNow = true ∨ e.restartedNow = true ∧ e.atLimit = false →
      Answers (exec (.watchdogExpiry at_ b) s) fun t =>
      (s.rook.restarting = true → t.wdogExpired = false) ∧
      t.Raised Ev.WDOG (t.rd Reg.SYS_ROOK_STAT_WDOG_CNT + 16 * s.rd Reg.SYS_ROOK_CFG_WDOG_ACTION) ∧
      (e.countedNow = true → t.rook = e.rook ∧ t.rd Reg.SYS_ROOK_STAT_WDOG_CNT = e.rd Reg.SYS_ROOK_STAT_WDOG_CNT) ∧
      (e.countedNow = false → e.time.uptime ∈ t.rook.counted ∧ t.rook = { e.rook with counted := t.rook.counted }) ∧
      (¬looks → t.fallback = s.fallback) ∧
      (looks → s.fbActive = false → s.fallback.startDue = 0 → t.fallback = { s.fallback with startDue := 3, restartDone := none }) ∧
      e.Changed t [Reg.SYS_ROOK_STAT_WDOG_CNT] [Ev.WDOG]
        { e.withRecords t with rook := t.rook, fallback := t.fallback }) ∧
    (e.wdogExpired = true → e.kickComing = false → e.atLimit = true → e.countedNow = false → s.supplyHeld = false → s.pwr.resetN = false →
      Answers (exec (.watchdogExpiry at_ b) s) fun t =>
      t.rd Reg.SEAL_BOOT_BOOTSEL = b.toNat ∧
      t.rd Reg.SYS_STATE_STATE = 1 ∧ t.rd Reg.SYS_ROOK_STAT_LIMIT_BOOT = 1 ∧ t.rd Reg.PWR_SUPV_STAT_RESET_RAIL = 6 ∧
      t.klp.sessions = [] ∧ t.now = 0 ∧ t.store.flash = s.store.flash) ∧
    (Answers (exec (.wdogRestartAgeOut at_) s) fun t =>
      t.rook.counted = s.rook.counted.filter (fun u => decide (e.time.uptime < u + sec 60)) ∧
      t.rd Reg.SYS_ROOK_STAT_WDOG_CNT = min 15 t.rook.counted.length ∧
      e.Changed t [Reg.SYS_ROOK_STAT_WDOG_CNT] []
        { e.withRecords t with rook := { s.rook with counted := t.rook.counted } })

/-- SEAL_BOOT.CONFIRM and the 400 ms limit of a swap on trial. On confirmation during a trial TRIAL clears and EV_FW_SWAP is
raised with the slot; in BRACE the boot record waits and boot flash is unchanged. 400 ms after the restart without
confirmation the Rook restarts the core into the previous slot: SLOT holds it, ROLLBACK is set, TRIAL is clear, the boot
record is unchanged and EV_FW_SWAP carries the unconfirmed slot and 1 in bit 1. Before 400 ms, or without a trial, nothing
but the time changes. (Derived from 16 Firmware slots (R454).) -/
def Obligations.FirmwareTrialConfirmsOrGoesBack : Prop :=
  ∀ (s : State) (at_ : Vt), let e := s.elapseTo at_
    (s.rdB Reg.SEAL_BOOT_TRIAL = true → Answers (exec .fwConfirm s) fun t =>
      t.rd Reg.SEAL_BOOT_TRIAL = 0 ∧ t.rd Reg.SEAL_BOOT_SLOT = s.rd Reg.SEAL_BOOT_SLOT ∧
      t.Raised Ev.FW_SWAP (s.rd Reg.SEAL_BOOT_SLOT) ∧
      (s.brace = true → t.store = { s.store with recordDue := some (s.rd Reg.SEAL_BOOT_SLOT) }) ∧
      s.Changed t [Reg.SEAL_BOOT_TRIAL] [Ev.FW_SWAP] { s.withRecords t with store := t.store }) ∧
    (s.rdB Reg.SEAL_BOOT_TRIAL = false → exec .fwConfirm s = .next s) ∧
    (s.rdB Reg.SEAL_BOOT_TRIAL = true → s.store.trialAt + msec 400 ≤ e.time.uptime →
      Answers (exec (.fwConfirmTimeout at_) s) fun t =>
        t.rd Reg.SEAL_BOOT_TRIAL = 0 ∧ t.rd Reg.SEAL_BOOT_ROLLBACK = 1 ∧
        t.rd Reg.SEAL_BOOT_SLOT = s.store.trialFrom % 2 ^ Reg.SEAL_BOOT_SLOT.len ∧
        t.Raised Ev.FW_SWAP (s.rd Reg.SEAL_BOOT_SLOT + 2) ∧ t.rd Reg.SYS_STATE_CORE_DOWN = 1 ∧
        t.store = s.store ∧ t.klp.sessions = s.klp.sessions ∧ t.fcm = s.fcm) ∧
    (s.rdB Reg.SEAL_BOOT_TRIAL = false ∨ e.time.uptime < s.store.trialAt + msec 400 →
      exec (.fwConfirmTimeout at_) s = .next e)

/-- Power-on reset, RESET_N and VDDAO below POR: what a boot leaves. With RESET_N high and the five other rails in their windows, a power-on boots; RESET_N rising
boots unless the supplies hold the device. After the boot ROM's steps the device is in BOOT with the PLL locked, venue time and local time 0, no session,
move, board or FCM byte left, the cause in RESET_RAIL (5 power-on, 6 RESET_N) with GUARD 0, BOOTSEL as sampled, the UID
and MIN_VERSION mirrored from OTP, and OTP and boot flash unchanged; LIMIT_BOOT is lost at power-on and kept over RESET_N.
With BOOTSEL = 1 no slot is tried; with erased flash and another BOOTSEL both slots fail as erased and none is chosen.
While RESET_N is low, VDDAO below POR, or a rail not in its window, every switched domain is unpowered. (Derived from 16 Start-up (R433, R434, Table 16.2), 16 Firmware slots (R437), 18 The Rook
(R492), 17 Domains (Table 1.3), 17 Supply order (R459).) -/
def Obligations.ResetAndBootStartFromTheIndex : Prop :=
  ∀ (s : State) (b : BitVec 2) (rails : BitVec 5),
    let booted (rail limit : Nat) (t : State) : Prop :=
      t.rd Reg.SYS_STATE_STATE = 1 ∧ t.rd Reg.CLK_STAT_SYS_LOCK = 1 ∧ t.now = 0 ∧ t.time.uptime = 0 ∧
      t.klp.sessions = [] ∧ t.moves = [] ∧ t.fcm = [] ∧ t.pipe.boards = [] ∧
      t.rd Reg.PWR_SUPV_STAT_RESET_RAIL = rail ∧ t.rd Reg.PWR_SUPV_STAT_GUARD = 0 ∧ t.rd Reg.SEAL_BOOT_BOOTSEL = b.toNat ∧
      t.rd Reg.SYS_UID_UID_LO = (s.otpWord 9).toNat ∧ t.rd Reg.SYS_UID_UID_HI = (s.otpWord 10).toNat ∧
      t.rd Reg.SEAL_MIN_VERSION_VERSION = (s.otpWord 8).toNat ∧
      t.store.flash = s.store.flash ∧ t.store.otp = s.store.otp ∧ t.rd Reg.SYS_ROOK_STAT_LIMIT_BOOT = limit ∧
      t.pending = s.pending ∧
      (b = 1 → t.store.slotOk = false ∧ t.rd Reg.SEAL_BOOT_FAIL_A = 0) ∧
      (b ≠ 1 → s.store.flash = [] → t.store.slotOk = false ∧ t.rd Reg.SEAL_BOOT_FAIL_A = 4 ∧ t.rd Reg.SEAL_BOOT_FAIL_B = 4)
    (s.pwr.resetN = false → rails = 31 → Answers (exec (.powerOnReset b rails) s) (booted 5 0)) ∧
    (s.pwr.resetN = true ∨ rails ≠ 31 → Answers (exec (.powerOnReset b rails) s) fun t =>
      (∀ d : Fin 6, t.powered d.val = false ∧ t.heldDomain d.val = true) ∧ t.pwr.resetN = s.pwr.resetN ∧
      (rails ≠ 31 → t.supplyHeld = true) ∧ (rails = 31 → t.supplyHeld = false) ∧ t.pwr.resetRail = none ∧ t.fcm = [] ∧
      t.klp.sessions = [] ∧ t.store.flash = s.store.flash ∧ t.rd Reg.SYS_ROOK_STAT_LIMIT_BOOT = 0 ∧ t.pending = s.pending) ∧
    (s.supplyHeld = false → Answers (exec (.resetNRise b) s) (booted 6 (s.rd Reg.SYS_ROOK_STAT_LIMIT_BOOT))) ∧
    (s.supplyHeld = true → exec (.resetNRise b) s = .next { s with pwr := { s.pwr with resetN := false } }) ∧
    (Answers (exec .resetNAssert s) fun t =>
      (∀ d : Fin 6, t.powered d.val = false) ∧ t.pwr.resetN = true ∧ t.supervised = false ∧ t.klp.sessions = [] ∧ t.fcm = [] ∧
      t.store.flash = s.store.flash ∧ t.rd Reg.SYS_ROOK_STAT_LIMIT_BOOT = s.rd Reg.SYS_ROOK_STAT_LIMIT_BOOT) ∧
    (Answers (exec .vddaoBelowPor s) fun t =>
      (∀ d : Fin 6, t.powered d.val = false) ∧ t.pwr.resetN = s.pwr.resetN ∧ t.pwr.aoDown = true ∧ t.supervised = false ∧ t.fcm = [] ∧
      t.klp.sessions = [] ∧
      t.store.flash = s.store.flash ∧ t.rd Reg.SYS_ROOK_STAT_LIMIT_BOOT = 0)

/-- A rail below its warning level begins BRACE; the ADC samples it; recovery of every rail ends it. While the supervisors
work, a rail that was not below its level, is not at its reset level and does not cross that or its guard level in the same instant, and warns sets BRACE, its BELOW and SEEN bits and raises EV_BROWN_C (VDDC, VDDS)
or EV_BROWN_A; VDDIO and VDDA blank the sinks; VDDA also holds loops, T_B and the ADC. During BRACE a sample keeps the
lowest reading of each rail, the lower of the kept one and the new one, and of the rails that have crossed names in MIN_RAIL the one whose
lowest reading lies furthest below its own warning level, with that reading, rounded down to 10 mV, in MIN_MV; while none has crossed both stay; BELOW clears for a
rail that reads its level or more. Without supervisors or BRACE a sample changes nothing. A rail that has
recovered is no longer waited for, and the end raises EV_BROWN_CLEAR with MIN_RAIL and MIN_MV, clears BRACE and BLANKED
and lets a withheld boot record go; while a rail is missing, nothing but time passes. FCM, links, moves and census keep
what they hold. Which of two equally deep rails is named is the model's choice (log entry 52). (Derived from 17 Bracing
(R460, R462, R463, R464, R465, R466, R467).) -/
def Obligations.BraceBeginsWithAWarningAndEndsWithRecovery : Prop :=
  ∀ (s : State) (at_ : Vt) (r : Fin 5), let e := s.elapseTo at_
    (s.supervised = true → bitAt (s.rd Reg.PWR_SUPV_STAT_BELOW) r.val = false → bitAt s.pwr.down.toNat r.val = false →
      e.resetComing at_ r.val = false →
      Answers (exec (.railWarning at_ r) s) fun t =>
        t.brace = true ∧ bitAt (t.rd Reg.PWR_SUPV_STAT_BELOW) r.val = true ∧ bitAt (t.rd Reg.PWR_SUPV_STAT_SEEN) r.val = true ∧
        bitAt t.pwr.unrecovered.toNat r.val = true ∧
        t.Raised (if r.val ≤ 1 then Ev.BROWN_C else Ev.BROWN_A) r.val ∧
        (3 ≤ r.val → t.rd Reg.PWR_SUPV_STAT_BLANKED = 1) ∧ (r.val = 4 → t.sink.hold = true ∧ t.rd (Reg.ADC_DATA_VALID 0) = 0) ∧
        (s.brace = false → t.scan.braceHold = true) ∧
        e.Changed t [Reg.SYS_STATE_BRACE, Reg.PWR_SUPV_STAT_BRACE, Reg.PWR_SUPV_STAT_BELOW, Reg.PWR_SUPV_STAT_SEEN,
            Reg.PWR_SUPV_STAT_BLANKED, Reg.ADC_DATA_VALID 0, Reg.ADC_DATA_VALID 1, Reg.ADC_DATA_VALID 2,
            Reg.ADC_DATA_VALID 3, Reg.ADC_DATA_VALID 4] [Ev.BROWN_C, Ev.BROWN_A]
          { e.withRecords t with pwr := t.pwr, scan := t.scan, sink := t.sink }) ∧
    (s.supervised = false ∨ bitAt (s.rd Reg.PWR_SUPV_STAT_BELOW) r.val = true ∨ bitAt s.pwr.down.toNat r.val = true ∨
      e.resetComing at_ r.val = true → exec (.railWarning at_ r) s = .next e) ∧
    (∀ c d h i a : BitVec 11, (s.supervised = false ∨ s.brace = false → exec (.supervisorAdcSample c d h i a) s = .next s) ∧
      (s.supervised = true → s.brace = true →
      let mv := fun q : Nat => [c.toNat, d.toNat, h.toNat, i.toNat, a.toNat].getD q 0
      let low : Nat → Nat := fun q => match tabFind s.pwr.lowest q with
        | some v => min v (mv q)
        | none => mv q
      let depth := fun q : Nat => (s.warnMv q : Int) - low q
      let crossed := fun q : Nat => bitAt s.pwr.crossed.toNat q
      Answers (exec (.supervisorAdcSample c d h i a) s) fun t =>
        (∀ q : Nat, q < 5 → tabFind t.pwr.lowest q = some (low q)) ∧
        (∀ q : Nat, q < 5 → crossed q = true →
          (∀ k : Nat, k < 5 → crossed k = true → depth k < depth q ∨ depth k = depth q ∧ q ≤ k) →
          t.rd Reg.PWR_BROWN_MIN_RAIL = q ∧ t.rd Reg.PWR_BROWN_MIN_MV = low q / 10 * 10) ∧
        (s.pwr.crossed = 0 → t.rd Reg.PWR_BROWN_MIN_RAIL = s.rd Reg.PWR_BROWN_MIN_RAIL ∧
          t.rd Reg.PWR_BROWN_MIN_MV = s.rd Reg.PWR_BROWN_MIN_MV) ∧
        (∀ q : Nat, q < 5 → bitAt (t.rd Reg.PWR_SUPV_STAT_BELOW) q =
          (bitAt (s.rd Reg.PWR_SUPV_STAT_BELOW) q && decide (mv q < s.warnMv q))) ∧
        s.Changed t [Reg.PWR_SUPV_STAT_BELOW, Reg.PWR_BROWN_MIN_RAIL, Reg.PWR_BROWN_MIN_MV] []
          { s.withRecords t with pwr := { s.pwr with lowest := t.pwr.lowest } })) ∧
    (Answers (exec (.railRecovery at_ r) s) fun t =>
      bitAt t.pwr.unrecovered.toNat r.val = false ∧
      (∀ q : Fin 5, q ≠ r → bitAt t.pwr.unrecovered.toNat q.val = bitAt s.pwr.unrecovered.toNat q.val) ∧
      e.Changed t [⟨Reg.PWR_SUPV_STAT_BELOW.addr, r.val, 1⟩] []
        { e.withRecords t with pwr := { s.pwr with unrecovered := t.pwr.unrecovered } }) ∧
    (s.brace = true → s.pwr.unrecovered = 0 → Answers (exec (.braceEnd at_) s) fun t =>
      t.brace = false ∧ t.rd Reg.PWR_SUPV_STAT_BLANKED = 0 ∧ t.store.recordDue = none ∧ t.sink.hold = false ∧
      t.Raised Ev.BROWN_CLEAR (s.rd Reg.PWR_BROWN_MIN_MV * 65536 + s.rd Reg.PWR_BROWN_MIN_RAIL) ∧
      e.Changed t [Reg.SYS_STATE_BRACE, Reg.PWR_SUPV_STAT_BRACE, Reg.PWR_SUPV_STAT_BLANKED] [Ev.BROWN_CLEAR]
        { e.withRecords t with scan := t.scan, sink := t.sink, store := t.store }) ∧
    (s.brace = false ∨ s.pwr.unrecovered ≠ 0 → exec (.braceEnd at_) s = .next e)

/-- A reset or guard level, the loss of REF, and the boots that follow; the loss of ALW. While the supervisors work, a rail at
its reset level, or VDDC or VDDS at its guard level, takes the dark-safe state, switches off the domains the rail feeds
and records the first such rail with GUARD, and holds them off. Loss of REF takes the dark-safe state, sets REF_LOST, raises EV_GCK_UNLOCK with
bit 31, leaves GCK unlocked with the scan engine idle, and VT stops; what lies in the Seal store and, where no castle, step or
epoch waits for the scan engine, in FCM and move table stays. Recovery of every rail that is down, with RESET_N high and VDDAO up, boots with that cause recorded, or as a
power-on where the order of R457 was not met, once every rail is there; before that the rails named no longer hold the device. REF
running again boots, or, while the supplies or RESET_N hold the device, leaves it held in reset with every domain off and what holds it as it was; with REF not lost only time passes. Loss of ALW sets ALW_LOST and stops its count; that no row lets it run again but a power-on is the model's (log
entry 144). (Derived from 17 Supply order (R459), 17 Reset and guard levels (R461, R467, Table 17.1), 17 Clocks (R473, R474).) -/
def Obligations.ResetLevelsAndClockLossDarken : Prop :=
  ∀ (s : State) (at_ : Vt) (r : Fin 5) (g : Fin 2) (rails : BitVec 5) (b : BitVec 2), let e := s.elapseTo at_
    let down := s.pwr.down &&& ~~~rails
    let held := s.pwr.aoDown = true ∨ s.pwr.resetN = true ∨ down ≠ 0 ∨ (s.pwr.orderHold = true ∧ rails ≠ 31)
    let booted (rail guard_ : Nat) (t : State) : Prop := t.rd Reg.SYS_STATE_STATE = 1 ∧ t.rd Reg.PWR_SUPV_STAT_RESET_RAIL = rail ∧
      t.rd Reg.PWR_SUPV_STAT_GUARD = guard_ ∧ t.rd Reg.SEAL_BOOT_BOOTSEL = b.toNat ∧ t.pwr.resetRail = none ∧ t.klp.sessions = [] ∧ t.now = 0 ∧
      (∀ d : Fin 6, t.powered d.val = true) ∧ t.store.flash = s.store.flash
    (s.supervised = true → Answers (exec (.railReset at_ r) s) fun t =>
      t.rd Reg.SYS_STATE_DARK_SAFE = 1 ∧ t.darkFor 1 = true ∧ (∀ d ∈ railDomains r.val, t.powered d = false ∧ t.heldDomain d = true) ∧
      t.pwr.resetRail = some (s.pwr.resetRail.getD (r.val, false)) ∧ t.store = s.store) ∧
    (s.supervised = true → Answers (exec (.railGuard at_ g) s) fun t =>
      t.rd Reg.SYS_STATE_DARK_SAFE = 1 ∧ t.darkFor 1 = true ∧ (∀ d ∈ railDomains g.val, t.powered d = false ∧ t.heldDomain d = true) ∧
      t.pwr.resetRail = some (s.pwr.resetRail.getD (g.val, true)) ∧ t.store = s.store) ∧
    (s.supervised = false → exec (.railReset at_ r) s = .next e ∧ exec (.railGuard at_ g) s = .next e) ∧
    (∀ guard_ : Bool, s.pwr.resetRail = some (r.val, guard_) → ¬held →
      Answers (exec (.supplyRecovered at_ rails b) s) (booted r.val (if guard_ then 1 else 0))) ∧
    (s.pwr.resetRail = none → s.pwr.orderHold = true → ¬held → Answers (exec (.supplyRecovered at_ rails b) s) (booted 5 0)) ∧
    (held ∨ (s.pwr.resetRail = none ∧ s.pwr.orderHold = false) → exec (.supplyRecovered at_ rails b) s =
      .next { e with pwr := { s.pwr with down := down, orderHold := s.pwr.orderHold && rails != 31 } }) ∧
    (s.pwr.refLost = false → s.devState ≠ 0 → Answers (exec (.refLost at_) s) fun t =>
      t.rd Reg.SYS_STATE_DARK_SAFE = 1 ∧ t.darkFor 2 = true ∧ t.rd Reg.CLK_STAT_REF_LOST = 1 ∧ t.rd Reg.CLK_STAT_GCK_LOCK = 0 ∧
      t.rd Reg.SCAN_STAT_STATE = 0 ∧ t.scan.relockFrom = none ∧ t.Raised Ev.GCK_UNLOCK (2 ^ 31) ∧ t.pwr.refLost = true ∧
      t.vtRuns = false ∧ t.store = s.store ∧ (s.quiet → t.fcm = s.fcm ∧ t.moves = s.moves)) ∧
    (s.pwr.refLost = true ∨ s.devState = 0 → exec (.refLost at_) s = .next e) ∧
    (s.pwr.refLost = true → s.supplyHeld = false → s.pwr.resetN = false → Answers (exec (.refRestored at_ b) s) fun t => booted 6 0 t ∧ t.pwr.refLost = false) ∧
    (s.pwr.refLost = true → s.supplyHeld = true ∨ s.pwr.resetN = true → Answers (exec (.refRestored at_ b) s) fun t =>
      (∀ d : Fin 6, t.powered d.val = false) ∧ t.pwr.refLost = false ∧ t.supplyHeld = s.supplyHeld ∧ t.pwr.resetN = s.pwr.resetN ∧
      t.pwr.down = s.pwr.down ∧ t.pwr.resetRail = s.pwr.resetRail ∧ t.klp.sessions = [] ∧ t.now = 0 ∧ t.store.flash = s.store.flash) ∧
    (s.pwr.refLost = false → exec (.refRestored at_ b) s = .next e) ∧
    (Answers (exec (.alwLost at_) s) fun t => t.rd Reg.CLK_STAT_ALW_LOST = 1 ∧
      t.pwr.alwLost = some (s.pwr.alwLost.getD e.time.uptime) ∧
      e.Changed t [Reg.CLK_STAT_ALW_LOST] [] { e.withRecords t with pwr := { s.pwr with alwLost := t.pwr.alwLost } })

/-- A write of PWR_DOMAIN switches the domains it names; an unexpected loss is reported. A write of PWR_DOMAIN takes CTL's bit as 1,
switches the domains to its EN bits, but for those that a rail or reset holds off, and clears the FAULT bits written as 1, but for one that its SYS cycle has set. A domain that goes off loses its
contents: without PIX the FCM and the move table are empty, without IOX no pawn and CVU record is left, without NET no
frame is held. A domain other than CTL that is lost unexpectedly is off, with its FAULT bit set and EV_DOMAIN_FAULT
raised, and CTL is on again with its core restarting (below the restart limit and where its SYS cycle has counted and begun no restart); PIX and DRV take the dark-safe state with them. A domain that was off already cannot be lost, and only time
passes. (Derived from 17 Power domains (R468, R469, R470), 17 Reset and guard levels (R461, R467), 01 Faults (R13), 02 Moves (R70).) -/
def Obligations.DomainsSwitchAndFault : Prop :=
  ∀ (s : State) (at_ : Vt) (b : BitVec 2), let e := s.elapseTo at_
    (∀ w : Word, Answers (exec (.domainSwitch at_ w) s) fun t =>
      (∀ d : Fin 6, t.powered d.val = ((d.val == 1 || bitAt w.toNat d.val) && (s.powered d.val || !s.heldDomain d.val))) ∧
      t.rd Reg.PWR_DOMAIN_EN = (w.toNat % 64 ||| 2) ∧
      (∀ d : Fin 6, bitAt (t.rd Reg.PWR_DOMAIN_FAULT) d.val =
        (bitAt (s.rd Reg.PWR_DOMAIN_FAULT) d.val &&
          (!bitAt w.toNat (16 + d.val) || (e.setNow Reg.PWR_DOMAIN_FAULT.addr).getLsbD (16 + d.val)))) ∧
      (bitAt w.toNat 2 = false → s.powered 2 = true → t.fcm = [] ∧ t.moves = []) ∧
      (bitAt w.toNat 4 = false → s.powered 4 = true → t.pawns = [] ∧ t.cvu = []) ∧
      (bitAt w.toNat 0 = false → s.powered 0 = true → t.net.pkb = []) ∧
      t.store.flash = s.store.flash ∧ t.store.otp = s.store.otp) ∧
    (∀ d : Fin 6, d.val ≠ 1 → s.powered d.val = true → Answers (exec (.domainFault at_ d b) s) fun t =>
      t.powered d.val = false ∧ bitAt (t.rd Reg.PWR_DOMAIN_FAULT) d.val = true ∧ t.Raised Ev.DOMAIN_FAULT d.val ∧
      (d.val = 2 ∨ d.val = 3 → t.rd Reg.SYS_STATE_DARK_SAFE = 1) ∧
      (∀ q : Fin 6, q ≠ d → t.powered q.val = s.powered q.val)) ∧
    (s.powered 1 = true → Answers (exec (.domainFault at_ 1 b) s) fun t =>
      bitAt (t.rd Reg.PWR_DOMAIN_FAULT) 1 = true ∧ t.Raised Ev.DOMAIN_FAULT 1) ∧
    (s.powered 1 = true → e.atLimit = false → e.countedNow = false → e.restartedNow = false →
      Answers (exec (.domainFault at_ 1 b) s) fun t =>
      t.powered 1 = true ∧ t.rd Reg.SYS_STATE_CORE_DOWN = 1 ∧ t.rook.restarting = true ∧ e.time.uptime ∈ t.rook.counted ∧
      bitAt (t.rd Reg.PWR_DOMAIN_FAULT) 1 = true ∧ t.Raised Ev.DOMAIN_FAULT 1 ∧ t.klp.sessions = s.klp.sessions ∧ t.fcm = s.fcm) ∧
    (∀ d : Fin 6, s.powered d.val = false → exec (.domainFault at_ d b) s = .next e)

/-- Sentry entry, and the wakes by pin, link energy and alarm. When a SENTRY reply has gone and the device may run, it enters
Sentry: with no wake source active, state 0, no session, no timed or waiting command, every switched domain off, the armed
Seal kept in AON with its CRC-32C and venue time kept. A wake source that was active since the SENTRY command was taken, or is
active as the entry completes, boots the device as a wake in Sentry does, with the Seal and TOD_VALID it held. In Sentry, with
the source enabled, the WAKE pin, energy on the wake port (PORT 6 and 7 act as 0), or the alarm once DELAY_S seconds have
passed on a running ALW, boot the device, which no supply and no RESET_N holds: EV_WAKE and PWR_WAKE.CAUSE say 1, 2 or 3, and PWR_WAKE's enables, PWR_ALARM, WARN_C,
the retained Seal and TOD_VALID are kept, and VT is that of the entry and the time counted in Sentry. Outside Sentry an enabled source is kept for the entry while a SENTRY command waits,
and else only time passes; so it does with the source off. (Derived from 17 Sentry standby (R474, R475, R477, R478, R479, R480, R481).) -/
def Obligations.SentryClosesSessionsAndWakeBoots : Prop :=
  ∀ (s : State) (at_ : Vt) (b : BitVec 2), let e := s.elapseTo at_
    let woke (cause : Nat) (kept : Option (List Byte × Nat)) (tod : Bool) (vt : Vt) (t : State) : Prop :=
      t.rd Reg.SYS_STATE_STATE = 1 ∧ t.rd Reg.PWR_WAKE_CAUSE = cause ∧ t.Raised Ev.WAKE cause ∧ t.pwr.waking = true ∧
      t.pwr.retained = kept ∧ t.rdB Reg.TIME_STAT_TOD_VALID = tod ∧ t.time.vt = vt ∧ t.klp.sessions = [] ∧
      t.rd Reg.PWR_ALARM_DELAY_S = s.rd Reg.PWR_ALARM_DELAY_S ∧ t.rd Reg.PWR_WAKE_PIN_EN = s.rd Reg.PWR_WAKE_PIN_EN ∧
      t.rd Reg.PWR_SUPV_CFG_WARN_C = s.rd Reg.PWR_SUPV_CFG_WARN_C ∧ t.store.flash = s.store.flash ∧
      t.rd Reg.SEAL_BOOT_BOOTSEL = b.toNat
    let atEntry := BitVec.ofNat 80 (e.now + (s.pwr.alwLost.getD e.time.uptime - e.time.uptime))
    let slept := BitVec.ofNat 80 (s.pwr.sentryVt + (s.pwr.alwLost.getD e.time.uptime - s.pwr.sentryAt))
    let port := if s.rd Reg.PWR_WAKE_PORT < 6 then s.rd Reg.PWR_WAKE_PORT else 0
    let image := s.store.armed.map fun img => (img, crcOf crc32c img)
    let waits := s.devState ≠ 0 ∧ s.pwr.sentry ≠ 0 ∧ s.pwr.wakeSeen = 0
    let goes := s.pwr.sentry = 2 ∧ 2 ≤ s.devState ∧ s.devState ≤ 6
    let free_ := s.pwr.aoDown = false ∧ s.pwr.orderHold = false ∧ s.pwr.resetN = false
    let asleep := s.devState = 0 ∧ s.supplyHeld = false ∧ s.pwr.resetN = false
    (∀ (pin : Bool) (energy : BitVec 6),
      let pinWakes := pin = true ∧ s.rdB Reg.PWR_WAKE_PIN_EN = true
      let linkWakes := bitAt energy.toNat port = true ∧ s.rdB Reg.PWR_WAKE_LINK_EN = true
      (goes → s.pwr.wakeSeen = 0 → ¬pinWakes → ¬linkWakes → Answers (exec (.sentryEntry at_ pin energy b) s) fun t =>
        t.devState = 0 ∧ t.klp.sessions = [] ∧ t.klp.timed = [] ∧ t.cmd.parked = [] ∧ (∀ d : Fin 6, t.powered d.val = false) ∧
        t.pwr.retained = image ∧ t.pwr.sentry = 0 ∧ t.pwr.todKept = s.rdB Reg.TIME_STAT_TOD_VALID ∧ t.time.vt = e.time.vt ∧
        t.brace = false) ∧
      (goes → free_ → s.pwr.wakeSeen = 1 ∨ (s.pwr.wakeSeen = 0 ∧ pinWakes) →
        Answers (exec (.sentryEntry at_ pin energy b) s) (woke 1 image (s.rdB Reg.TIME_STAT_TOD_VALID) atEntry)) ∧
      (goes → free_ → ¬pinWakes → s.pwr.wakeSeen = 2 ∨ (s.pwr.wakeSeen = 0 ∧ linkWakes) →
        Answers (exec (.sentryEntry at_ pin energy b) s) (woke 2 image (s.rdB Reg.TIME_STAT_TOD_VALID) atEntry)) ∧
      (¬goes → exec (.sentryEntry at_ pin energy b) s = .next e)) ∧
    (s.rdB Reg.PWR_WAKE_PIN_EN = true →
      (asleep → Answers (exec (.wakePin at_ b) s) (woke 1 s.pwr.retained s.pwr.todKept slept)) ∧
      (waits → exec (.wakePin at_ b) s = .next { e with pwr := { s.pwr with wakeSeen := 1 } }) ∧
      (s.devState ≠ 0 → ¬waits → exec (.wakePin at_ b) s = .next e)) ∧
    (s.rdB Reg.PWR_WAKE_PIN_EN = false → exec (.wakePin at_ b) s = .next e) ∧
    (∀ p : Fin 6,
      (s.rdB Reg.PWR_WAKE_LINK_EN = true → p.val = port →
        (asleep → Answers (exec (.linkEnergy at_ p b) s) (woke 2 s.pwr.retained s.pwr.todKept slept)) ∧
        (waits → exec (.linkEnergy at_ p b) s = .next { e with pwr := { s.pwr with wakeSeen := 2 } }) ∧
        (s.devState ≠ 0 → ¬waits → exec (.linkEnergy at_ p b) s = .next e)) ∧
      (s.rdB Reg.PWR_WAKE_LINK_EN = false ∨ p.val ≠ port → exec (.linkEnergy at_ p b) s = .next e)) ∧
    (let due := s.devState = 0 ∧ s.rdB Reg.PWR_WAKE_ALARM_EN = true ∧ s.rd Reg.PWR_ALARM_DELAY_S ≠ 0 ∧
        s.pwr.alwLost = none ∧ s.pwr.sentryAt + sec (s.rd Reg.PWR_ALARM_DELAY_S) ≤ e.time.uptime;
      (due → asleep → Answers (exec (.alarm at_ b) s) (woke 3 s.pwr.retained s.pwr.todKept slept)) ∧
      (¬due → exec (.alarm at_ b) s = .next e))

/-- The boot ROM completes: RECOVERY without a slot, else the Seal of the boot decides between READY and STALEMATE. In BOOT with
CTL powered, RESET_N high and the supplies there: when no slot was chosen the device enters RECOVERY. When firmware
runs, the Seal it evaluates is nothing with BOOTSEL = 3, the retained copy when the device wakes and that copy passes its CRC-32C (WARM is then 1, and
0 when it does not), and else the newest valid stored copy, or the copy with the right magic,
which goes to the staging buffer with its number in SEAL_STAT.COPY. A Seal that passes is in the armed buffer with the device
in READY and code 0, and with AUTO_ARM its entry to ARMED waits; one that fails, or BOOTSEL 3 (0x0108), or no copy (0x0101),
leaves STALEMATE with EV_STALEMATE carrying the code, the same code in SEAL_CHECK_CODE, the node address at its OTP default, or as an ASSIGN has named it since the boot,
and the armed buffer as it was. The line interface is idle, the watchdog's count restarts and the wake is over. In another
state, or in reset, only time passes. (Derived from 16 Start-up (R434, R438, R443, Table 16.2), 16 STALEMATE (R449), 17 Sentry
standby (R480).) -/
def Obligations.FirmwareStartLeadsToRecoveryOrStalemate : Prop :=
  ∀ (s : State) (at_ : Vt), let e := s.elapseTo at_
    let b := State.enterState { e with rook := { s.rook with kickAt := e.time.uptime } } 2
    let node := if s.poll.assigned then s.rd Reg.FWD_ADDR_NODE else s.rd Reg.SEAL_OTP_BOOT_NODE
    let ready (img : List Byte) (t : State) : Prop := t.devState = 4 ∧ t.rd Reg.SEAL_CHECK_CODE_CODE = 0 ∧ t.store.armed = some img ∧
      t.store.armDue = (if sealAutoArm img then some ⟨e.time.uptime, []⟩ else none) ∧ t.idle = true ∧
      t.rook.kickAt = e.time.uptime ∧ t.pwr.waking = false ∧ t.pwr.retained = none
    let stale (code : Nat) (t : State) : Prop := t.devState = 3 ∧ t.rd Reg.SEAL_CHECK_CODE_CODE = code % 2 ^ 16 ∧ t.Raised Ev.STALEMATE code ∧
      t.rd Reg.FWD_ADDR_NODE = node ∧ t.store.armed = s.store.armed ∧ t.idle = true ∧
      t.rook.kickAt = e.time.uptime ∧ t.pwr.waking = false ∧ t.pwr.retained = none
    (s.devState ≠ 1 ∨ s.pwr.resetN = true ∨ s.supplyHeld = true ∨ s.powered 1 = false →
      exec (.firmwareStart at_) s = .next e) ∧
    (s.devState = 1 → s.pwr.resetN = false → s.supplyHeld = false → s.powered 1 = true →
      (s.store.slotOk = false → Answers (exec (.firmwareStart at_) s) fun t =>
        t.devState = 7 ∧ t.idle = true ∧ t.rook.kickAt = e.time.uptime ∧ t.store = s.store ∧
        t.rd Reg.FWD_ADDR_NODE = node) ∧
      (s.store.slotOk = true →
        (s.store.bootsel = 3 → Answers (exec (.firmwareStart at_) s) fun t =>
          stale 0x0108 t ∧ (s.pwr.waking = true → t.rd Reg.PWR_WAKE_WARM = 0)) ∧
        (s.warmCopy = none → s.store.bootsel ≠ 3 → s.storedBest = none → s.storedMagic = none →
          Answers (exec (.firmwareStart at_) s) fun t => stale 0x0101 t ∧ (s.pwr.waking = true → t.rd Reg.PWR_WAKE_WARM = 0)) ∧
        (∀ c : Nat, s.warmCopy = none → s.store.bootsel ≠ 3 → (s.storedBest.orElse fun _ => s.storedMagic) = some c →
          let img := s.sealCopy c
          let q := ((if s.pwr.waking then b.wr Reg.PWR_WAKE_WARM 0 else b).stageCopy img).wr Reg.SEAL_STAT_COPY c
          let r := q.sealCheck img true
          Answers (exec (.firmwareStart at_) s) fun t =>
            t.rd Reg.SEAL_STAT_COPY = c % 2 ^ Reg.SEAL_STAT_COPY.len ∧ (s.pwr.waking = true → t.rd Reg.PWR_WAKE_WARM = 0) ∧
            if r.1 = 0 then ready img t else stale r.1 t) ∧
        (∀ img : List Byte, s.store.bootsel ≠ 3 → s.warmCopy = some img →
          let r := ((b.stageCopy img).wr Reg.PWR_WAKE_WARM 1).sealCheck img true
          Answers (exec (.firmwareStart at_) s) fun t =>
            t.rd Reg.PWR_WAKE_WARM = 1 ∧ if r.1 = 0 then ready img t else stale r.1 t)))

/-- SEAL_CHECK_DONE: CHECK reports the code without a change of state, ARM applies the Seal or goes to STALEMATE. With the
core up and no swap waiting, the evaluation that runs ends and leaves the line of those that wait. A CHECK puts the code
of the first failing test, or 0, into SEAL_CHECK_CODE with its offset, is answered with it (E_SEAL when it is not 0), and
changes nothing else. An ARM whose image passes has that image in the armed buffer, nothing marked as staged, the device in
READY and its entry to ARMED waiting with the ARM's answer; an ARM that fails puts the device in STALEMATE with EV_STALEMATE
carrying the code, is answered E_SEAL with it, and keeps both buffers; one whose device has meanwhile left READY and STALEMATE is answered
E_STATE and changes nothing (log entry 154). The commands that waited for it then run in their
order. With the core down, or with nothing running, only time passes. (Derived from 16 The Seal evaluated (R447, R449, R450),
11 CHECK and ARM (R337), 10 Command order (R306).) -/
def Obligations.CheckAndArmEndWithTheirCode : Prop :=
  ∀ (s : State) (at_ : Vt) (o : Origin) (rest : List SealRun), let e := s.elapseTo at_
    let u : State := { e with store := { e.store with run := rest } }
    (s.store.run = [] ∨ s.coreDown = true → exec (.sealCheckDone at_) s = .next e) ∧
    (s.coreDown = false → s.store.swapDue = none →
      (s.store.run = ⟨false, o⟩ :: rest →
        let r := u.sealCheck u.stagedImage (u.stagedWhole (sealLength u.stagedImage))
        exec (.sealCheckDone at_) s = .next
          (((u.wr Reg.SEAL_CHECK_CODE_CODE r.1).wr Reg.SEAL_CHECK_CODE_OFFSET r.2).postReply o 0x0402
            (if r.1 = 0 then .ok else .eSeal) (beBytes 2 r.1) .nothing).unpark) ∧
      (s.store.run = ⟨true, o⟩ :: rest →
        let r := u.sealCheck u.armImage.1 u.armImage.2
        let before := (s.store.armDue.map (·.origins)).getD []
        let may := s.devState = 3 ∨ s.devState = 4
        (¬may → exec (.sealCheckDone at_) s = .next (u.postReply o 0x0403 .eState [] .nothing).unpark) ∧
        (may → r.1 = 0 → Answers (exec (.sealCheckDone at_) s) fun t => ∃ x : State, t = x.unpark ∧
          x.devState = 4 ∧ x.rd Reg.SEAL_CHECK_CODE_CODE = 0 ∧ x.store.armed = some u.armImage.1 ∧ x.store.marks = [] ∧
          x.store.run = rest ∧ x.store.armDue = some ⟨e.time.uptime, before ++ [o]⟩ ∧ x.idle = true) ∧
        (may → r.1 ≠ 0 → Answers (exec (.sealCheckDone at_) s) fun t => ∃ x : State,
          t = (x.postReply o 0x0403 .eSeal (beBytes 2 r.1) .nothing).unpark ∧
          x.devState = 3 ∧ x.Raised Ev.STALEMATE r.1 ∧ x.rd Reg.SEAL_CHECK_CODE_CODE = r.1 % 2 ^ 16 ∧
          x.store.armed = s.store.armed ∧ x.store.staged = s.store.staged ∧ x.store.armDue = none ∧ x.store.run = rest ∧
          x.idle = true)))

/-- Entry to ARMED at a grid point outside BRACE, 1 ms after the application; DISARM to READY at a grid point. In READY with
an applied Seal waiting, at a grid point at least 1 ms after its application and outside BRACE (and, for an ARM, with the core
up), the device enters ARMED, raises EV_ARMED with the Seal's number, starts copying the fallback section, starts the
stream-loss timer, waits no more and answers each ARM with OK; then a swap that waited and the commands that waited go on.
Before that, off the grid, in BRACE, or with an ARM waiting on a core that is down, only time passes. With a DISARM waiting in
ARMED or FALLBACK, at a grid point the device is in READY with the scan engine idle, every group IDLE, the locks released, the
look ended and the armed Seal kept, and, where no castle, step or epoch waits for the scan engine, FCM and moves are as they
were; otherwise only time passes. (Derived from 16 ARM and DISARM (R229, R450, R451, R453), 10 Command order (R304, R306).) -/
def Obligations.ArmedEntryAndDisarmAtGridPoints : Prop :=
  ∀ (s : State) (at_ : Vt), let e := s.elapseTo at_
    (∀ (d : ArmDue) (img : List Byte), s.store.armDue = some d → s.store.armed = some img →
      let blocked := d.origins ≠ [] ∧ s.coreDown = true
      (s.devState = 4 → d.from_ + msec 1 ≤ e.time.uptime → e.atGrid = true → s.brace = false → ¬blocked →
        Answers (exec (.armedEntry at_) s) fun t => ∃ x : State,
          t = (d.origins.foldl (fun (x : State) o => x.postReply o 0x0403 .ok [] .nothing) x).swapNext.unpark ∧
          x.devState = 5 ∧ x.Raised Ev.ARMED (leAt img 20 4) ∧ x.store.copying = true ∧ x.store.armDue = none ∧
          x.store.armed = some img ∧ x.fallback.timerFrom = e.time.uptime ∧ x.fallback.startDue = 0 ∧ x.fcm = s.fcm) ∧
      (s.devState ≠ 4 ∨ e.time.uptime < d.from_ + msec 1 ∨ e.atGrid = false ∨ s.brace = true ∨ blocked →
        exec (.armedEntry at_) s = .next e)) ∧
    (s.store.armDue = none → exec (.armedEntry at_) s = .next e) ∧
    (s.store.disarmDue = true → e.atGrid = true → s.devState = 5 ∨ s.devState = 6 →
      Answers (exec (.disarmAtGridPoint at_) s) fun t =>
        t.devState = 4 ∧ t.idle = true ∧ (∀ g : Fin 64, t.grpState g.val = 0) ∧ t.store.locks = [] ∧ t.fbActive = false ∧
        t.store.armed = s.store.armed ∧ t.store.disarmDue = false ∧ (s.quiet → t.fcm = s.fcm ∧ t.moves = s.moves)) ∧
    (s.store.disarmDue = false ∨ e.atGrid = false ∨ (s.devState ≠ 5 ∧ s.devState ≠ 6) →
      exec (.disarmAtGridPoint at_) s = .next e)

/-- FALLBACK_COPY_DONE, STREAM_LOSS_TIMEOUT and the STALEMATE beacon. When the Rook copies and PIX is powered, the copy's end
puts the armed Seal's fallback section into the FCM and sets LOADED; otherwise nothing changes. In ARMED with no look shown or
requested, when neither the timer's start nor a complete frame lies less than STREAM_LOSS_TIMEOUT (at least 100 ms) back,
EV_STREAM_LOST is raised and the look is requested with cause 1; otherwise only time passes. In STALEMATE with NET powered,
the core up and a node address other than 0, one more beacon has been sent and the state stays; without one of these, only
time passes. (Derived from 08 The fallback section (R229), 01 Faults (R20, R233), 16 STALEMATE (R449).) -/
def Obligations.FallbackCopyStreamLossAndBeacons : Prop :=
  ∀ (s : State) (at_ : Vt), let e := s.elapseTo at_
    let since := max s.fallback.timerFrom s.pipe.lastShown + msec (max 100 (s.rd Reg.MOTIF_FB_CFG_TIMEOUT))
    let sec8 := (s.store.armed.map fun img => secData (secsOf img) 8).getD []
    (s.store.copying = true → s.powered 2 = true → Answers (exec .fallbackCopyDone s) fun t =>
      t.rd Reg.MOTIF_FB_STAT_LOADED = 1 ∧ t.fcm = (s.fallbackCopy sec8).fcm ∧ t.store = { s.store with copying := false } ∧
      t.time = s.time ∧ s.TapsKept t ∧ ((∀ n : Nat, n < 8 → s.cvuOn n 5 0 = false) → t.klp = s.klp)) ∧
    (s.store.copying = false ∨ s.powered 2 = false → exec .fallbackCopyDone s = .next s) ∧
    (s.devState = 5 → s.fbActive = false → s.fallback.startDue = 0 → since ≤ e.time.uptime →
      Answers (exec (.streamLossTimeout at_) s) fun t =>
        t.Raised Ev.STREAM_LOST 0 ∧ t.fallback.startDue = 1 ∧
        e.Changed t [] [Ev.STREAM_LOST] { e.withRecords t with fallback := { s.fallback with startDue := 1 } }) ∧
    (s.devState ≠ 5 ∨ s.fbActive = true ∨ s.fallback.startDue ≠ 0 ∨ e.time.uptime < since →
      exec (.streamLossTimeout at_) s = .next e) ∧
    (s.devState = 3 → s.powered 0 = true → s.coreDown = false → s.rd Reg.FWD_ADDR_NODE ≠ 0 →
      Answers (exec (.stalemateBeacon at_) s) fun t =>
        t.klp.beacons = s.klp.beacons + 1 ∧ t.devState = 3 ∧ t.fcm = s.fcm ∧ t.store = s.store ∧ t.klp.sessions = s.klp.sessions) ∧
    (s.devState ≠ 3 ∨ s.powered 0 = false ∨ s.coreDown = true ∨ s.rd Reg.FWD_ADDR_NODE = 0 →
      exec (.stalemateBeacon at_) s = .next e)

/-- SEAL_WRITE_DONE, DOMAIN_RESTORE and CORE_RESTART_DONE. Outside BRACE with the core up and IOX powered, a SEAL_WRITE's end
puts the armed image, with the generation above the newest valid copy's and its CRC recomputed, into the other copy,
leaves every other byte of boot flash, names the copy in SEAL_STAT, waits no more, is answered OK, and the commands that waited
for it run; in BRACE, with the core down or IOX off it pauses. With a Seal armed and the core up, a restored domain waits no
more, and a domain that does not wait changes nothing: each register of its blocks that a Seal can set has the value of the armed Seal, its reset value where
the Seal names none, but for those that a write of their own puts in force; for PIX the FCM runs, the motif definitions, the member lists and the
fallback section are those of the Seal; for IOX in ARMED and FALLBACK the store words, the pawn registers, the SAFE registers and the programs are those of the
pawn section, and the pawns of its start mask that R364 allows run from their ENTRY; for DRV the function groups that stood when it was lost, and in ARMED
and FALLBACK those of the Seal, stand again, those that were not IDLE in PROVING (DARK_ALL) or ARMED. A core restart's end leaves the core running (unless halted or CTL is off)
and its watchdog count new; the commands of the poll bus, evaluations, a write, a swap, an ARM that waits to enter ARMED, and commands that wait for their
turn are gone, and each of them, however many, is answered E_BUSY. Without a restart only time passes. (Derived from 16 SEAL_WRITE (R444), 17 Domains
restored (R469), 10 Sessions over a restart (R304, R306).) -/
def Obligations.SealWriteRestoreAndRestartComplete : Prop :=
  ∀ (s : State) (at_ : Vt), let e := s.elapseTo at_
    (∀ (o : Origin) (img : List Byte), s.store.write = some o → s.store.armed = some img →
      (s.brace = false → s.coreDown = false → s.powered 4 = true → Answers (exec (.sealWriteDone at_) s) fun t =>
        let p := e.sealToStore img
        ∃ x : State, t = (x.postReply o 0x0405 .ok [] .nothing).unpark ∧
        x.store.write = none ∧ x.rd Reg.SEAL_STAT_COPY = p.2 % 2 ^ Reg.SEAL_STAT_COPY.len ∧
        x.flashBytes (sealCopyAt p.2) p.1.length = p.1 ∧
        (∀ a : Nat, a < sealCopyAt p.2 ∨ sealCopyAt p.2 + p.1.length ≤ a → x.flashByte a = s.flashByte a) ∧
        x.store.armed = some img ∧ e.Changed x [Reg.SEAL_STAT_COPY] [] { e with regs := x.regs, store := x.store }) ∧
      (s.brace = true ∨ s.coreDown = true ∨ s.powered 4 = false → exec (.sealWriteDone at_) s = .next e)) ∧
    (s.store.write = none ∨ s.store.armed = none → exec (.sealWriteDone at_) s = .next e) ∧
    (∀ (d : Fin 6) (img : List Byte), s.store.armed = some img → s.coreDown = false →
      let l := secsOf img
      let p := secData l 7
      let live := s.devState = 5 ∨ s.devState = 6
      let own := fun a : Nat => a ∈ [Reg.TIME_CFG_SRC.addr, Reg.FWD_CFG_TOPO.addr, Reg.FWD_XOFF_XOFF.addr, Reg.SINK_TB_CFG_SRC.addr,
        Reg.SPWM_TRIP_POL_POL.addr, Reg.MIR_CTRL_EN.addr] ∨ (0x50000 ≤ a ∧ a < 0x56000 ∧ a % 0x1000 = 0) ∨
        (mirTimingIdx a).isSome = true ∨ inUnits a = true
      (bitAt s.pwr.restoreDue.toNat d.val = true → Answers (exec (.domainRestore at_ d) s) fun t =>
        bitAt t.pwr.restoreDue.toNat d.val = false ∧
        (∀ q : Fin 6, q ≠ d → bitAt t.pwr.restoreDue.toNat q.val = bitAt s.pwr.restoreDue.toNat q.val) ∧
        t.store.armed = some img ∧ t.powered d.val = s.powered d.val ∧
        (∀ a ∈ sealRegs, domainOf a = some d.val → ¬own a → t.cfgNow a = e.sealValue (sealWrites l) a) ∧
        (d.val = 2 → t.rd Reg.MOTIF_FB_STAT_LOADED = 1 ∧ t.fallback.startDue = (if s.devState = 6 then s.pwr.fbLost else 0) ∧
          ∀ o : Nat, (∃ r ∈ (memberAt, 20480) :: (0x12E000, 0x1000) :: (0x130000, 0x100) :: sealRegions, r.1 ≤ o ∧ o < r.1 + r.2) →
            t.fcmByte o = ((e.sealFcm l).fallbackCopy (secData l 8)).fcmByte o) ∧
        (d.val = 3 → t.pwr.groupsLost = [] ∧
          (∀ x ∈ s.pwr.groupsLost, x.1 < 64 → t.objExists 4 x.1 = true ∧
            (x.2.2.2.2 = true → t.grpState x.1 = if t.rdB (Reg.CENSUS_GRP_POLICY x.1) then 1 else 2) ∧
            (s.pwr.groupsLost.Pairwise (fun y z => y.1 ≠ z.1) → s.objExists 4 x.1 = false →
              (live → ∀ g ∈ sealGroups l, g.idx ≠ x.1) →
              t.rd (Reg.CENSUS_GRP_POLICY x.1) = x.2.1 % 2 ∧ t.rd (Reg.CENSUS_GRP_BASE x.1) = x.2.2.1 % 2 ^ 14 ∧
              t.rd (Reg.CENSUS_GRP_COUNT x.1) = x.2.2.2.1 % 2 ^ 14)) ∧
          (live → (sealGroups l).Pairwise (fun y z => y.idx ≠ z.idx) → ∀ g ∈ sealGroups l, g.idx < 64 → t.objExists 4 g.idx = true ∧
            t.rd (Reg.CENSUS_GRP_POLICY g.idx) = g.policy % 2 ∧ t.rd (Reg.CENSUS_GRP_BASE g.idx) = g.base % 2 ^ 14 ∧
            t.rd (Reg.CENSUS_GRP_COUNT g.idx) = g.count % 2 ^ 14)) ∧
        (d.val = 4 → live → s.powered 4 = true →
          (∀ k : Nat, k < 48 → t.rd (Reg.PAWN_STORE_WORD k) = pawnWord p (108 + 4 * k) % 2 ^ 20) ∧
          t.reg Reg.PAWN_PX_SAFE_OUT_SAFE.addr = BitVec.ofNat 32 (pawnWord p 4) ∧
          t.reg Reg.PAWN_PX_SAFE_OE_SAFE.addr = BitVec.ofNat 32 (pawnWord p 8) ∧
          (∀ n : Nat, n < 8 → t.reg (0xD0100 + 0x40 * n) = BitVec.ofNat 32 (pawnWord p (12 + 12 * n)) ∧
            t.reg (0xD0104 + 0x40 * n) = BitVec.ofNat 32 (if p = [] then 0x100 else pawnWord p (16 + 12 * n)) &&& 0xF1F ∧
            t.reg (0xD0108 + 0x40 * n) = BitVec.ofNat 32 (pawnWord p (20 + 12 * n)) &&& 0x3F3F3F ∧
            (bitAt (byteAt p 0) n = true → s.rdB Reg.SYS_STATE_DARK_SAFE = false → t.pawnConfigOk n = true →
              (t.pawn n).run = true ∧ (t.pawn n).pc = t.rd (Reg.PAWN_PROG_ENTRY n))) ∧
          ∀ k : Nat, k < (sealProgs p).length → tabFind t.cmd.progs k = (sealProgs p)[k]?)) ∧
      (bitAt s.pwr.restoreDue.toNat d.val = false → exec (.domainRestore at_ d) s = .next e)) ∧
    (let waits := (s.store.armDue.map (·.origins)).getD [];
      s.rook.restarting = true → Answers (exec (.coreRestartDone at_) s) fun t =>
      t.rook.restarting = false ∧ t.rook.kickAt = e.time.uptime ∧ t.store.run = [] ∧ t.store.write = none ∧
      t.store.swapDue = none ∧ t.cmd.parked = [] ∧ t.poll.cmds = [] ∧
      t.store.armDue = (if waits = [] then s.store.armDue else none) ∧
      t.fallback.restartDone = some e.now ∧ t.fcm = s.fcm ∧ t.moves = s.moves ∧
      (s.halted = false → s.powered 1 = true → t.rd Reg.SYS_STATE_CORE_DOWN = 0) ∧
      (s.halted = true ∨ s.powered 1 = false → t.rd Reg.SYS_STATE_CORE_DOWN = s.rd Reg.SYS_STATE_CORE_DOWN) ∧
      (s.started = [] → s.cmd.parked = [] → s.poll.cmds = [] →
        t.poll = s.poll ∧ t.klp.out = s.klp.out ∧ t.regs = (if s.halted = true ∨ s.powered 1 = false then s else s.wr Reg.SYS_STATE_CORE_DOWN 0).regs) ∧
      (let answers : List (Origin × Nat) := s.poll.cmds.map (fun c => (.poll c.2, cmdOpcode c.1)) ++ waits.map (fun o => (o, 0x0403)) ++
          s.store.run.map (fun r => (r.origin, if r.arm then 0x0403 else 0x0402)) ++ s.store.write.toList.map (fun o => (o, 0x0405)) ++
          s.store.swapDue.toList.map (fun x => (x.2, 0x0802)) ++ s.cmd.parked.map (fun c => (c.origin, c.opcode))
        ∃ x : State, x.poll = { s.poll with cmds := [] } ∧ x.klp.out = s.klp.out ∧ x.rd Reg.SVC_MBOX_RDY = s.rd Reg.SVC_MBOX_RDY ∧
          x.cmd.mboxOut = s.cmd.mboxOut ∧ x.cmd.mboxNext = s.cmd.mboxNext ∧
          t = answers.foldl (fun (y : State) a => y.postReply a.1 a.2 .eBusy [] .nothing) x)) ∧
    (s.rook.restarting = false → exec (.coreRestartDone at_) s = .next e)

/-- A due frame start flips the planes, repeats the plane or starts a dark frame; one that is not due does nothing.
FRAME_START where no frame is due (no display state, no GCK lock, the castling point not past, off the grid point or
line-slot boundary of the mode) only lets time pass. A due one starts a frame at that instant: SCAN_POS names slot 0 of
subframe 0 and the composition in hand is spent. Outside bracing: with a finished composition that may be shown the planes
flip, the frame is lit, a newly composed board is SHOWING and its target is the shown one; with none, a plane composed under
the geometry in force is scanned again with EV_FRAME_REPEAT naming the frame shown, a plane of another geometry gives that
event and a dark frame, and a display that resumes starts with a dark frame. A dark frame counts in DARK_FRAMES and leaves the
plane and, as every frame without a flip while no FLIP waits, the boards; so does the one of a class B castle. In bracing the
plane is scanned again and counted in PIPE_CNT1.REPEAT, without an event where no FLIP is due and spending a due FLIP, composed or
not, with EV_FRAME_REPEAT (at a resuming dark frame too: log entry 162), and an idle engine starts a dark frame.
FRAME_MAX_REPEAT does the same in READY once FRAME_MAX has passed with no new frame ready, with EV_FRAME_REPEAT also for a
recomposed plane, and otherwise nothing. Which compositions may be shown is read from R123, R525, R54 and R232 (115). (Derived
from 02 The presentation grid (R50, R54, R62), 03 Composition (R81, R87), 04 Castling a running engine (R123, R524), 05 The
frame (R126, R152, R525), 08 Starting and ending the look (R232), 17 Bracing (R463).) -/
def Obligations.FrameStartsFlipRepeatOrGoDark : Prop :=
  ∀ (s : State) (at_ : Vt), let e := s.elapseTo at_
    let plane := s.rd Reg.GREY_STAT_PLANE
    let maxDue := e.readyMode = true ∧ e.mayStart = true ∧ e.idle = false ∧ (e.compNew && e.compTimeOk) = false ∧ e.scan.frameStart + e.effMax ≤ e.now
    let quietBus := s.scan.nextKind ≠ .darkB ∧ s.brace = false ∧ s.scan.braceHold = false
    let shows (rep : Bool) (c : Comp) := s.pipe.comp = some c ∧ e.compShows c rep = true
    let started (t : State) := t.scan.frameStart = e.now ∧ t.time = e.time ∧ t.scan.inBlank = false ∧ t.pipe.comp = none ∧
      t.slotPos = ⟨0, 0⟩ ∧ t.census.frameNo = s.census.frameNo + 1 ∧ t.scan.nextKind = .lit ∧ t.shadow = s.shadow
    let flipped (c : Comp) (t : State) := t.rd Reg.GREY_STAT_PLANE = 1 - plane ∧ t.rd Reg.SCAN_STAT_STATE = 1 ∧ t.scan.dark = false ∧
      (∀ b : Nat, c.isNew = true → c.board = some b → (s.board b).showing = false →
        (t.board b).showing = true ∧ t.pipe.shownTarget = (s.board b).target.getD s.pipe.shownTarget)
    let composed := match s.pipe.comp with
      | some c => c.flips
      | none => []
    let flips := s.pipe.flips ++ composed
    let same (t : State) := t.rd Reg.GREY_STAT_PLANE = plane ∧
      (s.pipe.flips = [] → (s.brace = true ∨ s.scan.braceHold = true → composed = []) → t.pipe.boards = s.pipe.boards)
    let lit (t : State) := same t ∧ t.rd Reg.SCAN_STAT_STATE = 1 ∧ t.scan.dark = false
    let dark (t : State) := same t ∧ t.rd Reg.SCAN_STAT_STATE = 2 ∧ t.scan.dark = true ∧
      t.rd Reg.SCAN_CNT_DARK_FRAMES = min (s.rd Reg.SCAN_CNT_DARK_FRAMES + 1) (2 ^ Reg.SCAN_CNT_DARK_FRAMES.len - 1)
    (e.frameDue = false → exec (.frameStart at_) s = .next e) ∧
    (e.frameDue = true →
      (s.scan.nextKind = .darkB → Answers (exec (.frameStart at_) s) fun t => started t ∧ dark t) ∧
      (quietBus → (∀ c : Comp, shows false c → Answers (exec (.frameStart at_) s) fun t => started t ∧ flipped c t) ∧
        ((∀ c : Comp, ¬shows false c) →
          (s.idle = true → Answers (exec (.frameStart at_) s) fun t => started t ∧ dark t) ∧
          (s.idle = false → Answers (exec (.frameStart at_) s) fun t => started t ∧ t.Raised Ev.FRAME_REPEAT s.shownFrame ∧
            if s.planeFits then lit t else dark t))) ∧
      (s.scan.nextKind ≠ .darkB → s.brace = true ∨ s.scan.braceHold = true →
        (s.idle = true → Answers (exec (.frameStart at_) s) fun t => started t ∧ dark t) ∧
        (s.idle = false → s.planeFits = true → Answers (exec (.frameStart at_) s) fun t => started t ∧ lit t ∧
          t.rd Reg.PIPE_CNT1_REPEAT = min (s.rd Reg.PIPE_CNT1_REPEAT + 1) (2 ^ Reg.PIPE_CNT1_REPEAT.len - 1)) ∧
        (∀ f ∈ flips, f.2 ≤ e.now → Answers (exec (.frameStart at_) s) fun t =>
          t.Raised Ev.FRAME_REPEAT s.shownFrame ∧ t.pipe.flips = flips.filter fun x => decide (e.now < x.2)))) ∧
    (¬maxDue → exec (.frameMaxRepeat at_) s = .next e) ∧
    (maxDue → quietBus →
      (∀ c : Comp, shows true c → Answers (exec (.frameMaxRepeat at_) s) fun t => started t ∧ flipped c t ∧ t.Raised Ev.FRAME_REPEAT s.shownFrame) ∧
      ((∀ c : Comp, ¬shows true c) → Answers (exec (.frameMaxRepeat at_) s) fun t => started t ∧ t.Raised Ev.FRAME_REPEAT s.shownFrame ∧
        if s.planeFits then lit t else dark t))

/-- A line slot drives the pieces of its line, stays dark when not fetched, and SCAN_POS moves on. While a frame is scanned,
LINE_SLOT runs the slot that SCAN_POS names and SCAN_POS then names the next slot. A pad slot and a dark slot drive
nothing. In a fetched slot of an active subframe a channel is driven exactly when its emitter's piece is not 0 and the
emitter is lit, once, for the piece's length from the piece's start at its mode's current; in a fetched slot of the probe
subframe exactly when its emitter is due a probe, for 96 GCLK at I_PROBE, which CG, GCS and foldback do not scale. A line slot
of any subframe, dark or not, whose grey words were not fetched in time drives nothing, raises EV_SCAN_STALL with its slot and
subframe and counts in STALL. A line slot blanked by bracing in a frame that is not dark blanks the frame for the census. The
subframe's record is queued at its end. Apart from census records and their events, pawn line ticks, the pins and the drawn
free values (column voltages that the board does not give), nothing else changes. While the engine is idle, in the blanking or
past the frame, nothing changes. (Derived from 05 The line slot (R134, R118, R120), 05 Underrun (R155), 07 Probes (R192, R195,
R198), 06 Headroom samples (R166).) -/
def Obligations.LineSlotDrivesItsPulses : Prop :=
  ∀ (s : State) (fetched : Bool) (vcol : List (Nat × Nat)),
    let p := s.slotPos
    let g := s.geom
    let l := s.ord p.idx
    let only (t : State) (n : Nat) (x : List Pulse) := t.scan.pulses.filter (fun x => x.channel == n) = x
    (s.idle = true ∨ s.scan.inBlank = true ∨ p.inFrame g = false → exec (.lineSlot fetched vcol) s = .next s) ∧
    (s.idle = false → s.scan.inBlank = false → p.inFrame g = true → Answers (exec (.lineSlot fetched vcol) s) fun t =>
      t.rd Reg.SCAN_POS_SLOT = (p.next g).idx % 2 ^ Reg.SCAN_POS_SLOT.len ∧ t.rd Reg.SCAN_POS_SUB = (p.next g).sub % 2 ^ Reg.SCAN_POS_SUB.len ∧
      (g.lines ≤ p.idx ∨ s.slotDark = true ∨ fetched = false → t.scan.pulses = []) ∧
      (p.idx < g.lines → s.slotDark = false → fetched = true → p.sub < g.nSub → ∀ n : Nat, n < 384 →
        let q := s.pieceOf (l * 384 + n) p.sub
        let mode := (s.greyWord (s.rd Reg.GREY_STAT_PLANE) (l * 384 + n)).mode
        (q = 0 ∨ s.lit (l * 384 + n) = false → only t n []) ∧
        (q ≠ 0 → s.lit (l * 384 + n) = true → only t n [⟨n, min (s.stagger (n / 64)) (g.sSeg - q), q, mode, s.ownCurrent mode n⟩])) ∧
      (p.idx < g.lines → s.slotDark = false → fetched = true → p.sub = g.nSub → ∀ n : Nat, n < 384 →
        (s.due (l * 384 + n) = false → only t n []) ∧
        (s.due (l * 384 + n) = true →
          only t n [⟨n, min (s.stagger (n / 64)) (g.sSeg - 96), 96, 4, (s.rd Reg.CENSUS_CFG_IPROBE + 1) * 2 ^ 26⟩])) ∧
      (p.idx < g.lines → fetched = false → t.Raised Ev.SCAN_STALL (p.idx + p.sub * 2 ^ 13) ∧
        t.rd Reg.SCAN_CNT_STALL = min (s.rd Reg.SCAN_CNT_STALL + 1) (2 ^ Reg.SCAN_CNT_STALL.len - 1)) ∧
      (p.idx < g.lines → s.rdB Reg.PWR_SUPV_STAT_BLANKED = true ∨ s.scan.braceDark = true → s.scan.dark = false → t.census.blanked = true) ∧
      ((p.next g).sub ≠ p.sub → t.census.queue.length = s.census.queue.length + 1 ∧ t.census.subRec = ⟨[], []⟩) ∧
      ((p.next g).sub = p.sub → t.census.queue = s.census.queue) ∧
      s.Changed t ([Reg.SCAN_POS_SLOT, Reg.SCAN_POS_SUB, Reg.SCAN_CNT_STALL, Reg.CENSUS_CNT_NEW_FAULT] ++
          (List.range 8).map Reg.PAWN_ERR_TICK_LOST)
        [Ev.SCAN_STALL, Ev.CENSUS_OPEN, Ev.CENSUS_SHORT]
        { s.withRecords t with census := t.census, scan := { s.scan with pulses := t.scan.pulses, phases := t.scan.phases, pins := t.scan.pins },
                               pawns := t.pawns, free := t.free })

/-- SUBFRAME_RECORD queues the observations; each one applied moves its emitter's run and map state and no other's. With no
closed record SUBFRAME_RECORD changes nothing; else the oldest record leaves the queue, its observations wait, in order,
to be applied, and its headroom samples are counted by bank and rail. CENSUS_OBSERVATION_APPLY of an observation that
waits and may be applied (its frame is over and counts, or a group that is not IDLE holds its emitter) takes it out of the
queue: the same kind as the emitter's last raises its run (up to 15), another kind starts it at 1, and the age is 0; when the
run reaches CONFIRM_N (0 acting as 1) the map state becomes the observation's kind, otherwise it stays. Every other emitter
keeps its map state, and no byte of FCM but the emitter's own changes. An ARMED group that holds the emitter trips on an OPEN
or SHORT that so arises, when no other observation waits. The frame's EV_CENSUS_OPEN comes once, with its count and lowest
emitter, when no observation of the frame waits or can still be made; before that the change waits for it. Of the registers
only census counts, group states and the census and group events' records can change, and what a check-value unit
on the FCM_WR tap sees of the map's byte. A number that names no waiting
observation, or one that may not be applied yet, changes nothing. (Derived from 05 Records (R129), 07 Observations (R192, R193,
R194, R195, R196), 07 Trips (R208), 06 Headroom samples (R166).) -/
def Obligations.RecordsAndObservationsMoveTheMap : Prop :=
  ∀ (s : State),
    (s.census.queue = [] → exec .subframeRecord s = .next s) ∧
    (∀ (r : SubRec) (rest : List SubRec), s.census.queue = r :: rest → Answers (exec .subframeRecord s) fun t =>
      t = { s with census := { s.census with queue := rest, toApply := s.census.toApply ++ r.observed },
                   sink := { s.sink with hr := t.sink.hr } } ∧
      (∀ i : Nat, i < 12 → (tabGet (0, 0) t.sink.hr i).1 = (tabGet (0, 0) s.sink.hr i).1 +
        (r.headroom.filter fun x => 2 * (x.1 / 64) + (if s.railGB x.1 then 1 else 0) == i).length)) ∧
    (∀ n : Nat, s.census.toApply[n]? = none → exec (.censusObservationApply n) s = .next s) ∧
    (∀ (n : Nat) (o : CensusObs), s.census.toApply[n]? = some o →
      let r := s.cRec o.emitter
      let run := if o.kind = r.last then min (r.run + 1) 15 else 1
      let confirmed := max 1 (s.rd Reg.CENSUS_CFG_CONFIRM_N) ≤ run
      let became := confirmed ∧ s.mapState o.emitter ≠ o.kind
      let left := s.census.toApply.eraseIdx n ++ s.census.queue.flatMap (·.observed) ++ s.census.subRec.observed
      let last := s.allMade o.frame = true ∧ ∀ x ∈ left, x.frame ≠ o.frame
      (s.mayApply o = false → exec (.censusObservationApply n) s = .next s) ∧
      (s.mayApply o = true → o.emitter < 49152 → 1 ≤ o.kind → o.kind ≤ 3 →
        Answers (exec (.censusObservationApply n) s) fun t =>
          t.census.toApply = s.census.toApply.eraseIdx n ∧ t.cRec o.emitter = ⟨o.kind, run, 0⟩ ∧
          t.mapState o.emitter = (if confirmed then o.kind else s.mapState o.emitter) ∧
          (∀ e' : Nat, e' < 49152 → e' ≠ o.emitter → t.mapState e' = s.mapState e' ∧ t.cRec e' = s.cRec e') ∧
          (∀ g : Fin 64, s.grpState g.val = 2 → o.emitter ∈ s.members g.val → (s.grp g.val).armed ≤ o.frame → 2 ≤ o.kind → became →
            s.census.toApply.eraseIdx n = [] → t.grpState g.val = 3 ∧ t.rd (Reg.CENSUS_GRP_CAUSE g.val) = o.kind - 1 ∧
              t.rd (Reg.CENSUS_GRP_EMITTER g.val) = o.emitter) ∧
          (s.census.newFaults = [] → o.kind = 2 → became →
            (last → t.census.newFaults = [] ∧ t.Raised Ev.CENSUS_OPEN (1 + o.emitter * 2 ^ 16) ∧
              t.rd Reg.CENSUS_CNT_NEW_FAULT = min (s.rd Reg.CENSUS_CNT_NEW_FAULT + 1) (2 ^ Reg.CENSUS_CNT_NEW_FAULT.len - 1)) ∧
            (¬last → t.census.newFaults = [o] ∧ t.rd Reg.CENSUS_CNT_NEW_FAULT = s.rd Reg.CENSUS_CNT_NEW_FAULT)) ∧
          State.FcmKept (fun a => a = fcmCensus + o.emitter / 4) s t ∧
          s.Changed t ((List.range 64).flatMap (fun g => [Reg.CENSUS_GRP_STATE g, Reg.CENSUS_GRP_CAUSE g, Reg.CENSUS_GRP_EMITTER g, Reg.CENSUS_GRP_ARM g])
              ++ [Reg.CENSUS_COUNT0_OPEN, Reg.CENSUS_COUNT0_SHORT, Reg.CENSUS_COUNT1_UNSEEN, Reg.CENSUS_CNT_TRIPS, Reg.CENSUS_CNT_NEW_FAULT, Reg.CENSUS_CNT_RECOVER]
              ++ fcmTapFields)
            [Ev.CENSUS_OPEN, Ev.CENSUS_SHORT, Ev.GROUP_TRIP, Ev.CVU_MISMATCH]
            { s.withRecords t with census := t.census, fcm := t.fcm, badWords := t.badWords, cvu := t.cvu } ∧
          s.TapsKept t))

/-- ARM, DISARM, ACK and configuration writes of a function group by its state. Where the write is taken: ARM of an IDLE group that
has its slack and parameters puts a DARK_ALL group in PROVING and a REPORT_ONLY group in ARMED, with the frames after the
running one counting for it; without the probe slot or the census it raises EV_PROBE_NO_SLACK and sets ARM_REJ; with bad
parameters it sets ARM_REJ only; of a group that is not IDLE it changes nothing. A write of 0 puts any other group in IDLE and
changes nothing of an IDLE one. ACK moves a TRIPPED or BLIND group to PROVING or ARMED and sets ACK_REJ in another state. BASE
and COUNT change only in IDLE; any write of them in another state sets CFG_REJ, the value in force included; a write of the
policy word in another state sets it when POLICY would change. Every group clears its cause and emitter, and starts its proof
and age anew, on entering a state. Every other group, register and all FCM is unchanged. Moves that are due act first; with DRV
off, or at a register that the armed Seal locks, nothing else happens. (Derived from 07 Arming (R203, R204, R205, R207, R210), 07 Acknowledgement and disarming (R211, R212).) -/
def Obligations.GroupWritesArmDisarmAndAcknowledge : Prop :=
  ∀ (s : State) (g : Fin 64) (w : Word), let d := s.movesDue
    let st := d.grpState g.val
    let policy := (Reg.CENSUS_GRP_POLICY g.val).addr
    let range := (Reg.CENSUS_GRP_BASE g.val).addr
    let ack := (Reg.CENSUS_GRP_ACK g.val).addr
    let kept := withBits w 0 1 (if st = 0 then 0 else 1)
    let entered (n : Nat) (t : State) := t.grpState g.val = n ∧ t.rd (Reg.CENSUS_GRP_CAUSE g.val) = 0 ∧ t.rd (Reg.CENSUS_GRP_EMITTER g.val) = 0 ∧
      t.rd (Reg.CENSUS_GRP_ARM g.val) = (if n = 0 then 0 else 1) ∧ (t.grp g.val).okRun = [] ∧ (t.grp g.val).age = [] ∧
      (t.grp g.val).entered = d.census.frameNo ∧ (t.grp g.val).since = d.census.made ∧
      (∀ h : Nat, h ≠ g.val → t.grp h = d.grp h) ∧
      d.Changed t [Reg.CENSUS_GRP_STATE g.val, Reg.CENSUS_GRP_CAUSE g.val, Reg.CENSUS_GRP_EMITTER g.val, Reg.CENSUS_GRP_ARM g.val] []
        { d.withRecords t with census := { d.census with groups := t.census.groups } }
    let armed := if d.darkAll g.val then 1 else 2
    let only (f : Fld) (n : Nat) (t : State) := t.rd f = n ∧ d.Changed t [f] [] (d.withRecords t)
    let nothing (t : State) := d.Changed t [] [] (d.withRecords t)
    (¬d.admits policy 1 → exec (.groupArmWrite g) s = .next d) ∧ (¬d.admits policy 0 → exec (.groupDisarmWrite g) s = .next d) ∧
    (¬d.admits ack 0x10 → exec (.groupAckWrite g) s = .next d) ∧ (¬d.admits range w → exec (.groupConfigWrite g true w) s = .next d) ∧
    (¬d.admits policy kept → exec (.groupConfigWrite g false w) s = .next d) ∧
    (d.admits policy 1 →
      (st ≠ 0 → Answers (exec (.groupArmWrite g) s) nothing) ∧
      (st = 0 → d.armSlack g.val = true → d.armParams g.val = true → Answers (exec (.groupArmWrite g) s) fun t =>
        entered armed t ∧ (t.grp g.val).armed = d.census.frameNo + 1) ∧
      (st = 0 → d.armSlack g.val = false → Answers (exec (.groupArmWrite g) s) fun t => t.rd (Reg.CENSUS_GRP_ARM_REJ g.val) = 1 ∧
        t.Raised Ev.PROBE_NO_SLACK g.val ∧ d.Changed t [Reg.CENSUS_GRP_ARM_REJ g.val] [Ev.PROBE_NO_SLACK] (d.withRecords t)) ∧
      (st = 0 → d.armSlack g.val = true → d.armParams g.val = false → Answers (exec (.groupArmWrite g) s) (only (Reg.CENSUS_GRP_ARM_REJ g.val) 1))) ∧
    (d.admits policy 0 →
      (st = 0 → Answers (exec (.groupDisarmWrite g) s) nothing) ∧
      (st ≠ 0 → Answers (exec (.groupDisarmWrite g) s) (entered 0))) ∧
    (d.admits ack 0x10 →
      (st = 3 ∨ st = 4 → Answers (exec (.groupAckWrite g) s) (entered armed)) ∧
      (st ≠ 3 → st ≠ 4 → Answers (exec (.groupAckWrite g) s) (only (Reg.CENSUS_GRP_ACK_REJ g.val) 1))) ∧
    (d.admits range w →
      (st = 0 → Answers (exec (.groupConfigWrite g true w) s) fun t => t.rd (Reg.CENSUS_GRP_BASE g.val) = bitsOf w 0 14 ∧
        t.rd (Reg.CENSUS_GRP_COUNT g.val) = bitsOf w 16 14 ∧ t = d.withRecords t ∧
        ∀ a, a ≠ (Reg.CENSUS_GRP_BASE g.val).addr → t.reg a = d.reg a) ∧
      (st ≠ 0 → Answers (exec (.groupConfigWrite g true w) s) (only (Reg.CENSUS_GRP_CFG_REJ g.val) 1))) ∧
    (d.admits policy kept →
      (st ≠ 0 → d.darkAll g.val = bitAt w.toNat 1 → Answers (exec (.groupConfigWrite g false w) s) nothing) ∧
      (st ≠ 0 → d.darkAll g.val ≠ bitAt w.toNat 1 →
        Answers (exec (.groupConfigWrite g false w) s) (only (Reg.CENSUS_GRP_CFG_REJ g.val) 1)) ∧
      (st = 0 → Answers (exec (.groupConfigWrite g false w) s) (only (Reg.CENSUS_GRP_POLICY g.val) (bitsOf w 1 1))))

/-- CLEAR makes every emitter UNSEEN and re-proves the groups; SWEEP waits for the next counted frame. Moves that are due act
before the write. With DRV powered, CENSUS_CTRL.CLEAR leaves every emitter UNSEEN with run 0 and age 0 and the counts at 0 OPEN,
0 SHORT and 49,152 UNSEEN; every group that was ARMED, TRIPPED or BLIND is in PROVING (DARK_ALL) or ARMED (REPORT_ONLY), and
IDLE and PROVING groups stay; no FCM byte outside the census map changes, and of the registers besides, only what a check-value
unit on the FCM_WR tap holds. Observations made before it are not applied after it, which is the model's choice (125).
CENSUS_CTRL.SWEEP makes a sweep start at the next counted frame and changes nothing else. With DRV off, or where the armed Seal
locks the register, neither does anything. (Derived from 07 The map (R194), 07 Clearing and sweeps (R213, R214), 14 The taps
(R405).) -/
def Obligations.CensusClearAndSweepRestartTheCensus : Prop :=
  ∀ (s : State), let d := s.movesDue
    let a := Reg.CENSUS_CTRL_SWEEP.addr
    (¬d.admits a 2 → exec .censusClear s = .next d) ∧ (¬d.admits a 1 → exec .censusSweepStart s = .next d) ∧
    (d.admits a 1 → Answers (exec .censusSweepStart s) fun t =>
      d.Changed t [] [] { d.withRecords t with census := { d.census with sweepDue := true } }) ∧
    (d.admits a 2 → Answers (exec .censusClear s) fun t =>
      (∀ e : Nat, e < 49152 → t.mapState e = 0 ∧ t.cRec e = ⟨0, 0, 0⟩) ∧ t.waiting = [] ∧
      t.rd Reg.CENSUS_COUNT0_OPEN = 0 ∧ t.rd Reg.CENSUS_COUNT0_SHORT = 0 ∧ t.rd Reg.CENSUS_COUNT1_UNSEEN = 49152 ∧
      (∀ g : Fin 64, t.grpState g.val = if 2 ≤ d.grpState g.val then (if d.darkAll g.val then 1 else 2) else d.grpState g.val) ∧
      State.FcmKept (fun o => fcmCensus ≤ o ∧ o < fcmCensus + 12288) d t ∧ d.TapsKept t ∧
      d.Changed t ((List.range 64).flatMap (fun g => [Reg.CENSUS_GRP_STATE g, Reg.CENSUS_GRP_CAUSE g, Reg.CENSUS_GRP_EMITTER g, Reg.CENSUS_GRP_ARM g])
        ++ [Reg.CENSUS_COUNT0_OPEN, Reg.CENSUS_COUNT0_SHORT, Reg.CENSUS_COUNT1_UNSEEN] ++ fcmTapFields) [Ev.CVU_MISMATCH]
        { d.withRecords t with fcm := t.fcm, badWords := t.badWords, census := t.census, cvu := t.cvu })

/-- A commit sets its pending bits; late it says so; an idle scan engine applies it at once and whole. Moves that are due act
before the write, which changes nothing where the armed Seal locks the register. Writing no bit changes nothing more. While frames are scanned a commit of groups other than MIR adds its bits
to PENDING and nothing else; in the last line slot before the castling point or in the blanking it also sets LATE and raises
EV_CASTLE_LATE with the pending and captured groups; one of MIR while the mirror runs frames only adds its bit. With the engine
idle the pending groups are captured and checked, and each group that no check refuses goes into force whole: every RWC bit of
its registers takes its captured shadow, every RWC bit of another group's registers stays, PENDING keeps only MIR, and
EV_CASTLE_DONE carries the groups applied. (Derived from 05 Castling (R145, R146, R147, R150), 05 Class C (R153), 02 Moves (R64),
02 FOLLOW (R59).) -/
def Obligations.CommitsWaitOrApplyWhole : Prop :=
  ∀ (s : State) (m : BitVec 9), let d := s.movesDue
    let p := d.rd Reg.SYS_CASTLE_STAT_PENDING ||| m.toNat
    let c := (d.wr Reg.SYS_CASTLE_STAT_PENDING p).castleSetup
    let taken : Prop := d.admits Reg.SYS_CASTLE_COMMIT.addr (m.setWidth 32)
    (¬taken → exec (.castleCommit m) s = .next d) ∧
    (taken → m = 0 → Answers (exec (.castleCommit m) s) fun t => d.Changed t [] [] (d.withRecords t)) ∧
    (taken → m = 256 → d.mirRuns = true → Answers (exec (.castleCommit m) s) fun t =>
      t.rd Reg.SYS_CASTLE_STAT_PENDING = p ∧ d.Changed t [Reg.SYS_CASTLE_STAT_PENDING] [] (d.withRecords t)) ∧
    (taken → m ≠ 0 → m.toNat < 256 → d.idle = false → Answers (exec (.castleCommit m) s) fun t =>
      t.rd Reg.SYS_CASTLE_STAT_PENDING = p ∧
      ((d.scan.setupDone || d.scan.inBlank) = false → d.Changed t [Reg.SYS_CASTLE_STAT_PENDING] [] (d.withRecords t)) ∧
      ((d.scan.setupDone || d.scan.inBlank) = true → t.rd Reg.SYS_CASTLE_STAT_LATE = 1 ∧
        t.Raised Ev.CASTLE_LATE (p ||| d.scan.capturedMask.toNat) ∧
        d.Changed t [Reg.SYS_CASTLE_STAT_PENDING, Reg.SYS_CASTLE_STAT_LATE] [Ev.CASTLE_LATE] (d.withRecords t))) ∧
    (taken → m ≠ 0 → m.toNat < 256 → d.idle = true → Answers (exec (.castleCommit m) s) fun t =>
      t.rd Reg.SYS_CASTLE_STAT_PENDING = p / 256 * 256 ∧
      (c.scan.taken ≠ 0 → t.Raised Ev.CASTLE_DONE c.scan.taken.toNat) ∧
      d.Castled t c.scan.taken.toNat (SMap.get regReset c.scan.captured) ∧
      t.shadow = d.shadow ∧ t.fcm = d.fcm ∧ t.time.vt = d.time.vt)

/-- The setup instant captures the pending groups, the castling point puts them in force whole. CASTLE_SETUP one line slot
before the castling point of a running frame captures the pending groups, MIR apart, and, with the SPWM group,
the armed units that castles update; no register of a castled group changes, and elsewhere only time passes. At the castling point, outside BRACE and with no step, epoch or FOLLOW
announcement waiting, every RWC bit of the groups that no check refused takes its captured shadow, of the others it stays;
EV_CASTLE_DONE carries the groups; vertical blanking begins unless GCK's frequency changed, which makes the engine idle in
RELOCK without GCK; a changed geometry, line mode, subframe count or order makes the next frame dark. In BRACE nothing is
applied and the captured groups return to PENDING. Before the point only time passes. An engine that is idle takes the point
before a resuming frame start once: the pending groups that no check refuses go into force there too. (Derived from 05
Castling (R146, R151, R152, R153), 05 Resuming (R525), 06 The castling point (R186), 17 BRACE (R463).) -/
def Obligations.CastlesAreTakenAtSetupAndAppliedAtThePoint : Prop :=
  ∀ (s : State) (at_ : Vt), let e := s.elapseTo at_
    let setup := s.idle = false ∧ s.scan.inBlank = false ∧ s.scan.setupDone = false ∧ e.castlingAt ≤ e.now + gclkTime e e.geom.tSlot
    let point := s.idle = false ∧ s.scan.inBlank = false ∧ e.castlingAt ≤ e.now
    let alone := s.time.stepDue = none ∧ s.time.epochDue = none ∧ s.time.followDue = none
    (¬setup → exec (.castleSetup at_) s = .next e) ∧
    (setup → Answers (exec (.castleSetup at_) s) fun t =>
      t.scan.capturedMask.toNat = s.rd Reg.SYS_CASTLE_STAT_PENDING % 256 ∧ t.scan.setupDone = true ∧
      t.rd Reg.SYS_CASTLE_STAT_PENDING = s.rd Reg.SYS_CASTLE_STAT_PENDING / 256 * 256 ∧
      s.Castled t 0 s.reg ∧
      t = { e.withRecords t with scan := t.scan, cmd := { s.cmd with mapDying := t.cmd.mapDying }, spwm := t.spwm,
                                   time := { e.time with followTaken := t.time.followTaken, followWritten := t.time.followWritten } } ∧
      (∀ n : Fin 8, t.sw n.val = if bitAt (s.rd Reg.SYS_CASTLE_STAT_PENDING) 6 then
          { s.sw n.val with armedLate := false, captured := s.swUpd n.val == 4 && s.rdB (Reg.SPWM_STAT_PENDING n.val) }
        else s.sw n.val)) ∧
    (s.idle = false → ¬point → exec (.castlingPoint at_) s = .next e) ∧
    (point → s.brace = false → alone →
      Answers (exec (.castlingPoint at_) s) fun t =>
        s.Castled t s.scan.taken.toNat (SMap.get regReset s.scan.captured) ∧
        (s.scan.taken ≠ 0 → t.Raised Ev.CASTLE_DONE s.scan.taken.toNat) ∧ t.scan.capturedMask = 0 ∧ t.scan.taken = 0 ∧
        (if classC s t then t.rd Reg.SCAN_STAT_STATE = 3 ∧ t.rd Reg.CLK_STAT_GCK_LOCK = 0 ∧ t.scan.relockFrom = some e.time.uptime
          else t.scan.inBlank = true ∧ t.scan.blankFrom = e.now ∧ t.rd Reg.SCAN_POS_VBLANK = 1 ∧
            t.scan.nextKind = if classB s t then .darkB else s.scan.nextKind)) ∧
    (point → s.brace = true → Answers (exec (.castlingPoint at_) s) fun t =>
      t.rd Reg.SYS_CASTLE_STAT_PENDING = s.rd Reg.SYS_CASTLE_STAT_PENDING ||| s.scan.capturedMask.toNat ∧ t.scan.taken = 0 ∧
      t.scan.inBlank = true ∧
      e.Changed t [Reg.SYS_CASTLE_STAT_PENDING, Reg.SCAN_POS_VBLANK, Reg.CENSUS_CNT_NEW_FAULT] [Ev.CENSUS_OPEN, Ev.CENSUS_SHORT]
        { e.withRecords t with scan := t.scan, census := { s.census with newFaults := t.census.newFaults } }) ∧
    (s.idle = true → e.resumeDue = false → exec (.castlingPoint at_) s = .next e) ∧
    (s.idle = true → e.resumeDue = true → alone → Answers (exec (.castlingPoint at_) s) fun t =>
      t.scan.setupDone = true ∧ t.scan.braceHold = false ∧ t.rd Reg.SYS_CASTLE_STAT_PENDING % 256 = 0 ∧
      (s.rd Reg.SYS_CASTLE_STAT_PENDING % 256 = 0 → s.Castled t 0 s.reg) ∧
      (s.rd Reg.SYS_CASTLE_STAT_PENDING % 256 ≠ 0 →
        s.Castled t e.castleSetup.scan.taken.toNat (SMap.get regReset e.castleSetup.scan.captured) ∧
        (e.castleSetup.scan.taken ≠ 0 → t.Raised Ev.CASTLE_DONE e.castleSetup.scan.taken.toNat)))

/-- GCK_UNLOCK idles the engine with its event; GCK_RELOCK counts; the 5 ms timeout raises once. With GCK locked, GCK_UNLOCK
makes the engine idle in RELOCK with LEN inactive and no pulse, clears GCK_LOCK, raises EV_GCK_UNLOCK with data 0, lets FLOOR
fall, and the idle engine applies what was pending or captured, so that nothing but MIR stays pending; with nothing pending or
captured nothing else changes. GCK_RELOCK in READY, ARMED or FALLBACK with PIX powered sets GCK_LOCK; one that ends RELOCK
counts in SCAN_CNT.RELOCK, leaves the engine idle and lets the next frame start T_VB_MIN later. GCK_LOCK_TIMEOUT 5 ms or more
after a class C castling point, without a lock, raises EV_GCK_UNLOCK once. In every other case only time passes. (Derived from
05 Class C (R153), 05 Loss of GCK (R154), 05 Idle (R142, R150), 01 Service floors (R18, R19).) -/
def Obligations.GckLossRelockAndTimeout : Prop :=
  ∀ (s : State) (at_ : Vt), let e := s.elapseTo at_
    let locked := s.rdB Reg.CLK_STAT_GCK_LOCK
    (locked = false → exec (.gckUnlock at_) s = .next e) ∧
    (locked = true → Answers (exec (.gckUnlock at_) s) fun t =>
      t.Raised Ev.GCK_UNLOCK 0 ∧ t.rd Reg.CLK_STAT_GCK_LOCK = 0 ∧ t.rd Reg.SCAN_STAT_STATE = 3 ∧ t.scan.pins.len = false ∧
      t.scan.pulses = [] ∧ t.pipe.comp = none ∧ t.floor = 0 ∧ t.rd Reg.SYS_CASTLE_STAT_PENDING % 256 = 0 ∧
      (s.rd Reg.SYS_CASTLE_STAT_PENDING % 256 = 0 → s.scan.capturedMask = 0 →
        e.Changed t [Reg.CLK_STAT_GCK_LOCK, Reg.SCAN_STAT_STATE, Reg.SCAN_POS_SLOT, Reg.SCAN_POS_SUB, Reg.SCAN_POS_VBLANK] [Ev.GCK_UNLOCK]
          { e.withRecords t with scan := t.scan, pipe := { s.pipe with comp := none, composedFor := none },
                                 time := { e.time with floor := 0 } })) ∧
    (locked = true ∨ s.powered 2 = false ∨ (s.devState ≠ 4 ∧ s.devState ≠ 5 ∧ s.devState ≠ 6) → exec (.gckRelock at_) s = .next e) ∧
    (locked = false → s.powered 2 = true → s.devState = 4 ∨ s.devState = 5 ∨ s.devState = 6 → Answers (exec (.gckRelock at_) s) fun t =>
      t.rd Reg.CLK_STAT_GCK_LOCK = 1 ∧ t.scan.relockFrom = none ∧
      (s.rd Reg.SCAN_STAT_STATE = 3 → t.rd Reg.SCAN_STAT_STATE = 0 ∧ t.scan.notBefore = e.now + e.tVbMin ∧
        t.rd Reg.SCAN_CNT_RELOCK = min (s.rd Reg.SCAN_CNT_RELOCK + 1) (2 ^ Reg.SCAN_CNT_RELOCK.len - 1)) ∧
      (s.rd Reg.SCAN_STAT_STATE ≠ 3 → t.rd Reg.SCAN_STAT_STATE = s.rd Reg.SCAN_STAT_STATE ∧
        t.rd Reg.SCAN_CNT_RELOCK = s.rd Reg.SCAN_CNT_RELOCK ∧ t.scan.notBefore = s.scan.notBefore) ∧
      e.Changed t [Reg.CLK_STAT_GCK_LOCK, Reg.SCAN_STAT_STATE, Reg.SCAN_CNT_RELOCK] [] { e.withRecords t with scan := t.scan }) ∧
    (∀ v : Nat, s.scan.relockFrom = some v →
      (v + msec 5 ≤ e.time.uptime → locked = false → Answers (exec (.gckLockTimeout at_) s) fun t =>
        t.Raised Ev.GCK_UNLOCK 0 ∧
        e.Changed t [] [Ev.GCK_UNLOCK] { e.withRecords t with scan := { s.scan with relockFrom := none } }) ∧
      (e.time.uptime < v + msec 5 ∨ locked = true → exec (.gckLockTimeout at_) s = .next e)) ∧
    (s.scan.relockFrom = none → exec (.gckLockTimeout at_) s = .next e)

/-- Composition takes the qualifying READY frame with the latest target, writes only the idle plane and ends with its time.
When composition may begin it is for the coming frame start, and the one in hand names it, not ended. Without waiting FLIP
moves it is of a READY board that qualifies, when there is one, and no other that qualifies has a later target; earlier
ones are emptied and counted SUPERSEDED; its slots that are uncovered or uncorrectable, or whose coverage word the scrubber has
reported, take the SHOWING board's, or 0 where
that has none; with none the shown board is composed again and counted in REPEAT. The plane being scanned is not written: no
FCM byte outside the other plane, the motif layer and the boards changes, and no plane flips. When it may not begin only time
passes. COMPOSITION_DONE ends one in progress and reports its whole microseconds (rounded down: log entry 130), up to 255, in
GREY_PERF.LAST and their maximum in MAX, where software has not written the register in the SYS cycle; without one only time passes. (That composition may begin in the states the model derives from R81 and R525 is its
reading.) (Derived from 03 Composition (R81, R82, R83, R85, R86, R104), 04 Planes (R107).) -/
def Obligations.CompositionTakesTheLatestReadyFrame : Prop :=
  ∀ (s : State) (at_ : Vt), let e := s.elapseTo at_
    let g := e.composeTarget
    let reported (i slot : Nat) : Prop := (3, 1536 * i + slot / 32) ∈ s.rook.scrubbed
    let old (slot : Nat) : Nat := match s.showing with
      | some j => if s.slotGood j slot then s.fcm16 (fcmBoard j + 2 * slot) else 0
      | none => 0
    (e.mayCompose = false → exec (.compositionStart at_) s = .next e) ∧
    (e.mayCompose = true → s.pipe.flips = [] → Answers (exec (.compositionStart at_) s) fun t =>
      t.pipe.composedFor = some g ∧ t.rd Reg.GREY_STAT_PLANE = s.rd Reg.GREY_STAT_PLANE ∧
      (e.qualifying g = [] → t.rd Reg.PIPE_CNT1_REPEAT = min (s.rd Reg.PIPE_CNT1_REPEAT + 1) (2 ^ Reg.PIPE_CNT1_REPEAT.len - 1) ∧
        t.rd Reg.PIPE_CNT1_SUPERSEDED = s.rd Reg.PIPE_CNT1_SUPERSEDED ∧
        ((∀ j : Nat, s.showing = some j → ∀ slot : Nat, slot < 49152 → ¬reported j slot) → t.pipe.boards = s.pipe.boards) ∧
        t.pipe.comp = some ⟨s.showing, g, false, false, false, e.fbFor g false, e.time.uptime, s.scan.accClear, []⟩) ∧
      (e.qualifying g ≠ [] → ∃ i v f, (i, v, f) ∈ e.qualifying g ∧ (∀ x ∈ e.qualifying g, x.2.1 ≤ v) ∧
        (∃ c : Comp, t.pipe.comp = some c ∧ c.board = some i ∧ c.start = g ∧ c.done = false ∧ c.isNew = true) ∧
        (∀ slot : Nat, slot < 49152 →
          (s.slotGood i slot = true → ¬reported i slot → t.fcm16 (fcmBoard i + 2 * slot) = s.fcm16 (fcmBoard i + 2 * slot)) ∧
          (s.slotGood i slot = false ∨ reported i slot → t.fcm16 (fcmBoard i + 2 * slot) = old slot)) ∧
        (∀ x ∈ e.qualifying g, x.1 ≠ i → x.2.1 < g → (t.board x.1).frame = none) ∧
        t.rd Reg.PIPE_CNT1_SUPERSEDED = min (s.rd Reg.PIPE_CNT1_SUPERSEDED +
          ((e.qualifying g).filter fun x => x.1 != i && decide (x.2.1 < g)).length) (2 ^ Reg.PIPE_CNT1_SUPERSEDED.len - 1)) ∧
      State.FcmKept (fun o => (fcmPlane (1 - s.rd Reg.GREY_STAT_PLANE) ≤ o ∧ o < fcmPlane (1 - s.rd Reg.GREY_STAT_PLANE) + fcmPlaneSize) ∨
        (fcmMotifLayer ≤ o ∧ o < fcmMotifLayer + 98304) ∨ o < fcmBoard 3) s t ∧
      s.TapsKept t ∧
      t = { e.withRecords t with pipe := t.pipe, scan := t.scan, motif := t.motif, fcm := t.fcm, badWords := t.badWords,
                                 free := t.free, cvu := t.cvu, rook := { s.rook with scrubbed := t.rook.scrubbed },
                                 store := { s.store with copying := t.store.copying } }) ∧
    (∀ c : Comp, s.pipe.comp = some c →
      (c.done = true → exec (.compositionDone at_) s = .next e) ∧
      (c.done = false → Answers (exec (.compositionDone at_) s) fun t => let us := min 255 ((e.time.uptime - c.began) / usec 1)
        t.rd Reg.GREY_PERF_LAST = us ∧
        t.rd Reg.GREY_PERF_MAX = (if Reg.GREY_PERF_MAX.addr ∈ e.cycle.written then s.rd Reg.GREY_PERF_MAX else max us (s.rd Reg.GREY_PERF_MAX)) ∧
        e.Changed t [Reg.GREY_PERF_LAST, Reg.GREY_PERF_MAX] []
          { e with regs := t.regs, pipe := { s.pipe with comp := some { c with done := true } } })) ∧
    (s.pipe.comp = none → exec (.compositionDone at_) s = .next e)

/-- A register write to CFG, PINS or PROG of a running pawn is ignored with CFG_REFUSED; one to PROG of a stopped pawn sets
its PC to ENTRY. Moves that are due act first. A register write to PAWN_n_CFG, PAWN_n_PINS or PAWN_n_PROG of a running pawn, with
IOX powered and the register not locked, leaves the register and everything else as it was, but for PAWN_STAT.CFG_REFUSED, which
is set. For a stopped pawn the register takes the written bits, no other register and no other pawn changes, and a write to
PAWN_n_PROG leaves the program counter at the new ENTRY. (Cites R369.) -/
def Obligations.PawnConfigWritesOfRunningPawnsAreRefused : Prop :=
  ∀ (s : State) (n : Fin 8) (r : Fin 3) (v : Word), let d := s.movesDue
    let a := 0xD0100 + 0x40 * n.val + 4 * r.val
    let bits : Word := if r = 1 then 0x00000F1F else if r = 2 then 0x003F3F3F else 0xFFFFFFFF
    (¬d.admits a v → exec (.pawnConfigWrite n r v) s = .next d) ∧
    (d.admits a v → (d.pawn n.val).run = true → Answers (exec (.pawnConfigWrite n r v) s) fun t =>
      t.rd Reg.PAWN_STAT_CFG_REFUSED = 1 ∧ d.Changed t [Reg.PAWN_STAT_CFG_REFUSED] [] { d with regs := t.regs, cycle := t.cycle }) ∧
    (d.admits a v → (d.pawn n.val).run = false → Answers (exec (.pawnConfigWrite n r v) s) fun t =>
      t.reg a = v &&& bits ∧ (∀ b, b ≠ a → t.reg b = d.reg b) ∧ t = { d with regs := t.regs, cycle := t.cycle, pawns := t.pawns } ∧
      (∀ m : Nat, m ≠ n.val → t.pawn m = d.pawn m) ∧
      (r = 2 → (t.pawn n.val).pc = t.rd (Reg.PAWN_PROG_ENTRY n.val) ∧ t.pawn n.val = { d.pawn n.val with pc := (t.pawn n.val).pc, fromEntry := true }) ∧
      (r ≠ 2 → t.pawn n.val = d.pawn n.val))

/-- Store words of running ranges refuse writes; TX overflows and RX underflows set their bits. Moves that are due act before a
write. With IOX powered and the register not locked: a write to a store word within the START to END range of a running pawn sets
STORE_REFUSED and REFUSED_WORD and nothing else; any other store word takes the 20 bits written, and its parity is good again. A
word written to PAWN_TXn joins the end of a TX FIFO of fewer than 4 words; a full one is left and TX_OVF set. A read of PAWN_RXn
returns and removes the oldest word; an empty one returns 0 and sets RX_UNF. FLUSH empties both FIFOs of each stopped pawn of the
mask and changes no other pawn. With IOX off nothing changes. (Derived from 12 The pawn store (R356, R368), 12 FIFOs (R366,
R371), 02 Moves (R64).) -/
def Obligations.PawnStoreAndFifoAccess : Prop :=
  ∀ (s : State), let d := s.movesDue
    (s.powered 4 = false → ∀ n : Fin 8, exec (.pawnRxRead n) s = .next s) ∧
    (∀ (w : Fin 48) (v : Word), let a := 0xD0400 + 4 * w.val
      (¬d.admits a v → exec (.pawnStoreWrite w v) s = .next d) ∧
      (d.admits a v →
        ((∃ n ∈ List.range 8, (d.pawn n).run = true ∧ d.rd (Reg.PAWN_PROG_START n) ≤ w.val ∧ w.val ≤ d.rd (Reg.PAWN_PROG_END n)) →
          Answers (exec (.pawnStoreWrite w v) s) fun t => t.rd Reg.PAWN_STAT_STORE_REFUSED = 1 ∧ t.rd Reg.PAWN_STAT_REFUSED_WORD = w.val ∧
            d.Changed t [Reg.PAWN_STAT_STORE_REFUSED, Reg.PAWN_STAT_REFUSED_WORD] [] (d.withRecords t)) ∧
        ((∀ n ∈ List.range 8, (d.pawn n).run = false ∨ w.val < d.rd (Reg.PAWN_PROG_START n) ∨ d.rd (Reg.PAWN_PROG_END n) < w.val) →
          Answers (exec (.pawnStoreWrite w v) s) fun t => t.rd (Reg.PAWN_STORE_WORD w.val) = v.toNat % 2 ^ 20 ∧
            d.Changed t [Reg.PAWN_STORE_WORD w.val] []
              { d.withRecords t with rook := { d.rook with storeBad := d.rook.storeBad.filter (· != w.val) } }))) ∧
    (∀ (n : Fin 8) (v : Word), let p := d.pawn n.val
      let a := 0xD0110 + 0x40 * n.val
      (¬d.admits a v → exec (.pawnTxWrite n v) s = .next d) ∧
      (d.admits a v → p.tx.length < 4 → Answers (exec (.pawnTxWrite n v) s) fun t => t.pawn n.val = { p with tx := p.tx ++ [v] } ∧
        t = { d with pawns := t.pawns, cycle := t.cycle } ∧ ∀ m : Nat, m ≠ n.val → t.pawn m = d.pawn m) ∧
      (d.admits a v → 4 ≤ p.tx.length → Answers (exec (.pawnTxWrite n v) s) fun t => t.rd (Reg.PAWN_ERR_TX_OVF n.val) = 1 ∧
        d.Changed t [Reg.PAWN_ERR_TX_OVF n.val] [] (d.withRecords t))) ∧
    (∀ n : Fin 8, s.powered 4 = true → let p := s.pawn n.val
      (p.rx = [] → Answers (exec (.pawnRxRead n) s) fun t => t.cmd.readOut = [0, 0, 0, 0] ∧ t.rd (Reg.PAWN_ERR_RX_UNF n.val) = 1 ∧
        s.Changed t [Reg.PAWN_ERR_RX_UNF n.val] [] { s.withRecords t with cmd := { s.cmd with readOut := t.cmd.readOut } }) ∧
      (∀ (w : Word) (rest : List Word), p.rx = w :: rest → Answers (exec (.pawnRxRead n) s) fun t =>
        t.cmd.readOut = [leByte w.toNat 0, leByte w.toNat 1, leByte w.toNat 2, leByte w.toNat 3] ∧ t.pawn n.val = { p with rx := rest } ∧
        t = { s with pawns := t.pawns, cmd := { s.cmd with readOut := t.cmd.readOut } } ∧ ∀ m : Nat, m ≠ n.val → t.pawn m = s.pawn m)) ∧
    (∀ m : BitVec 8, let a := Reg.PAWN_CTRL_FLUSH.addr
      let w : Word := (d.reg a &&& 0xFF00) ||| (m.setWidth 32 <<< 16)
      (¬d.admits a w → exec (.pawnFlush m) s = .next d) ∧
      (d.admits a w → Answers (exec (.pawnFlush m) s) fun t =>
        d.Changed t [] [] { d.withRecords t with pawns := t.pawns } ∧ ∀ n : Fin 8,
        t.pawn n.val = if bitAt m.toNat n.val && !(d.pawn n.val).run then { d.pawn n.val with tx := [], rx := [] } else d.pawn n.val))

/-- PAWN_GO starts stopped pawns or ticks running ones; STOP copies the pins; a long wait raises EV_PAWN_STALL once. A move
that is due acts before the write of GO or STOP, and a locked word is left. Where pawns may run, GO clears the rate accumulator of each running pawn of its mask and sets its SYNC tick; starts each stopped
one whose range and window are valid, at ENTRY after a fault, a PROG write or with CLR, else where it stopped, with no
tick pending; and faults each other one with cause 5, at ENTRY where its next start begins there, else where it stopped. A store
word of the range of a pawn that so starts, which software has written earlier in the SYS cycle, is what it was and that write
counts as refused (R368). Elsewhere GO changes nothing more. STOP of a running pawn of the
mask keeps its program counter, registers and FIFOs and copies its window's levels and directions into PX_OUT and PX_OE, where
software has not written those registers in the cycle; it changes no other pawn. A wait in LOAD or STORE of STALL_LIM ms sets STALL_LONG and raises EV_PAWN_STALL with the pawn
and the kind of wait, once; without such a wait, with STALL_LIM 0, or before its milliseconds have passed, only time passes. (The instruction that a GO's edge 0
executes is its own command; log entry 17.) (Derived from 02 Moves (R64), 12 Starting and stopping (R352, R363, R364, R365, R366, R368,
R370, R372, R373).) -/
def Obligations.PawnsGoStopAndStall : Prop :=
  ∀ (s : State),
    let d := s.movesDue
    (∀ m : BitVec 8, ¬d.admits Reg.PAWN_GO_GO.addr (m.setWidth 32) → exec (.pawnGo m) s = .next d) ∧
    (∀ m : BitVec 8, d.admits Reg.PAWN_GO_GO.addr (m.setWidth 32) → d.pawnsMayRun = false →
      Answers (exec (.pawnGo m) s) fun t => t = { d with cycle := t.cycle }) ∧
    (∀ m : BitVec 8, d.admits Reg.PAWN_GO_GO.addr (m.setWidth 32) → d.pawnsMayRun = true → Answers (exec (.pawnGo m) s) fun t => (∀ n : Fin 8, let p := d.pawn n.val
      let clr := bitAt (d.rd Reg.PAWN_CTRL_CLR) n.val
      (bitAt m.toNat n.val = false → t.pawn n.val = p) ∧
      (bitAt m.toNat n.val = true → p.run = true → t.pawn n.val = { p with acc := 0, sync := true }) ∧
      (bitAt m.toNat n.val = true → p.run = false → d.pawnConfigOk n.val = true → let q := t.pawn n.val
        q.run = true ∧ q.acc = 0 ∧ q.sync = false ∧ q.line = false ∧ q.frame = false ∧ q.tx = p.tx ∧ q.rx = p.rx ∧
        q.pc = (if p.fromEntry || clr then d.rd (Reg.PAWN_PROG_ENTRY n.val) else p.pc) ∧
        q.level = d.windowBits n.val Reg.PAWN_PX_OUT_LEVEL ∧
        (clr = true → q.emr = 0 ∧ q.smr = 0 ∧ q.eFill = 0 ∧ q.sFill = 0 ∧ q.cntA = 0 ∧ q.cntB = 0 ∧ q.dir = 0) ∧
        (clr = false → q.emr = p.emr ∧ q.smr = p.smr ∧ q.cntA = p.cntA ∧ q.cntB = p.cntB ∧ q.dir = d.windowBits n.val Reg.PAWN_PX_OE_OE)) ∧
      (bitAt m.toNat n.val = true → p.run = false → d.pawnConfigOk n.val = false →
        (t.pawn n.val).run = false ∧ (t.pawn n.val).fromEntry = true ∧ t.rd (Reg.PAWN_ERR_CAUSE n.val) = 5 ∧
        t.rd (Reg.PAWN_ERR_FAULT_PC n.val) = (if p.fromEntry then d.rd (Reg.PAWN_PROG_ENTRY n.val) else p.pc) % 64 ∧ t.rd ⟨(Reg.EVT_RAW_RAW 1).addr, 16, 1⟩ = 1)) ∧
      (∀ (n : Fin 8) (w : Nat) (v : Word) (lost : Bool), bitAt m.toNat n.val = true → (d.pawn n.val).run = false → d.pawnConfigOk n.val = true →
        d.rd (Reg.PAWN_PROG_START n.val) ≤ w → w ≤ d.rd (Reg.PAWN_PROG_END n.val) → d.cycle.stored = [(w, v, lost)] →
        t.reg (Reg.PAWN_STORE_WORD w).addr = v ∧ (w ∈ t.rook.storeBad ↔ lost = true) ∧ t.cycle.stored = [] ∧
        t.rd Reg.PAWN_STAT_STORE_REFUSED = 1 ∧ t.rd Reg.PAWN_STAT_REFUSED_WORD = w) ∧
      (d.cycle.stored = [] → t.rook = d.rook) ∧
      d.Changed t (((List.range 8).flatMap fun k => [Reg.PAWN_ERR_TICK_LOST k, Reg.PAWN_ERR_CAUSE k, Reg.PAWN_ERR_FAULT_PC k]) ++
          (if d.cycle.stored = [] then [] else [Reg.PAWN_STAT_STORE_REFUSED, Reg.PAWN_STAT_REFUSED_WORD]) ++
          d.cycle.stored.map fun x => ⟨(Reg.PAWN_STORE_WORD x.1).addr, 0, 32⟩) [Ev.PAWN_FAULT]
        { d.withRecords t with pawns := t.pawns, rook := { d.rook with storeBad := t.rook.storeBad } }) ∧
    (∀ m : BitVec 8, let a := Reg.PAWN_CTRL_STOP.addr
      let w : Word := (d.reg a &&& 0xFF00) ||| m.setWidth 32
      (¬d.admits a w → exec (.pawnStop m) s = .next d) ∧
      (d.admits a w → Answers (exec (.pawnStop m) s) fun t => (∀ n : Fin 8, let p := d.pawn n.val
        let b := d.rd (Reg.PAWN_PINS_BASE n.val)
        t.pawn n.val = (if bitAt m.toNat n.val && p.run then { p with run := false, wait := 0, awaitPx := none, stalled := false } else p) ∧
        (m = BitVec.ofNat 8 (2 ^ n.val) → p.run = true → ∀ i : Fin 8, i.val < d.rd (Reg.PAWN_PINS_WIDTH n.val) → b + d.rd (Reg.PAWN_PINS_WIDTH n.val) ≤ 32 →
          (Reg.PAWN_PX_OUT_LEVEL.addr ∉ d.cycle.written → bitAt (t.rd Reg.PAWN_PX_OUT_LEVEL) (b + i.val) = bitAt p.level.toNat i.val) ∧
          (Reg.PAWN_PX_OE_OE.addr ∉ d.cycle.written → bitAt (t.rd Reg.PAWN_PX_OE_OE) (b + i.val) = bitAt p.dir.toNat i.val))) ∧
        d.Changed t ([Reg.PAWN_PX_OUT_LEVEL, Reg.PAWN_PX_OE_OE] ++ (List.range 8).map Reg.PAWN_ERR_STALL_LONG) []
          { d.withRecords t with pawns := t.pawns })) ∧
    (∀ (at_ : Vt) (n : Fin 8), let e := s.elapseTo at_
      let p := e.pawn n.val
      let lim := s.rd (Reg.PAWN_CFG_STALL_LIM n.val)
      let long := p.run = true ∧ (p.wait = 1 ∨ p.wait = 2) ∧ p.stalled = false ∧ lim ≠ 0 ∧ p.waitAt + msec lim ≤ e.time.uptime
      (¬long → exec (.pawnStall at_ n) s = .next e) ∧
      (long → Answers (exec (.pawnStall at_ n) s) fun t => t.rd (Reg.PAWN_ERR_STALL_LONG n.val) = 1 ∧
        t.Raised Ev.PAWN_STALL (n.val + if p.wait = 2 then 16 else 0) ∧ t.pawn n.val = { p with stalled := true } ∧
        e.Changed t [Reg.PAWN_ERR_STALL_LONG n.val] [Ev.PAWN_STALL] { e.withRecords t with pawns := t.pawns } ∧
        ∀ k : Nat, k ≠ n.val → t.pawn k = e.pawn k))

/-- DRIVE, EMIT, SAMPLE, BRANCH, LOOP and COUNT do what Table 12.2 gives, then their delay runs. For a running pawn whose
program counter holds a valid instruction, not frozen and without a parity error: DRIVE sets the window's levels,
directions or both; EMIT shifts n bits out of the EMR onto the pins below min(n, WIDTH) and lowers EFILL; SAMPLE shifts
those pins' levels into the SMR and raises SFILL up to 32; BRANCH goes to TARGET when its condition holds, a pin's level
being what the synchroniser gives; LOOP falls
through on 0, else counts down and goes to TARGET unless 0 is reached; COUNT loads counter A or B from IMM or the EMR.
Otherwise the program counter goes to the next word, START after END. Nothing but that pawn changes. (Derived from 12
Instructions (R356, R357, R358, R359, Table 12.2).) -/
def Obligations.PawnInstructionsShiftAndCount : Prop :=
  ∀ (s : State) (at_ : Vt) (k : Fin 8) (px : PxBoard), let e := s.elapseTo at_
    let n := k.val
    let p := e.pawn n
    let v := e.pawnWord n % 4096
    let next := if p.pc = e.rd (Reg.PAWN_PROG_END n) then e.rd (Reg.PAWN_PROG_START n) else (p.pc + 1) % 64
    let width := e.rd (Reg.PAWN_PINS_WIDTH n)
    let c := v % 64
    let out := if bitAt v 6 then p.emr.toNat / 2 ^ (32 - c) else p.emr.toNat % 2 ^ c
    let inp := (e.pxLevels px).toNat / 2 ^ e.rd (Reg.PAWN_PINS_BASE n) % 2 ^ min c width
    let cnt := if bitAt v 11 then p.cntB else p.cntA
    let val := if bitAt v 10 then p.emr else BitVec.ofNat 32 (v % 1024)
    (e.AtInstr n 0 → Answers (exec (.drive at_ k false) s) fun t => e.PawnDone t n next
      { p with level := if v / 256 % 4 = 1 then p.level else BitVec.ofNat 8 (v % 256 % (2 ^ width % 512)),
               dir := if v / 256 % 4 = 0 then p.dir else if v / 256 % 4 = 1 then BitVec.ofNat 8 (v % 256 % (2 ^ width % 512))
                 else BitVec.ofNat 8 (2 ^ width % 512 - 1) } e) ∧
    (e.AtInstr n 1 → Answers (exec (.emit at_ k false) s) fun t => e.PawnDone t n next
      { p with emr := if bitAt v 6 then p.emr <<< c else p.emr >>> c, eFill := p.eFill - c, level := (t.pawn n).level } e ∧
      ∀ i : Fin 8, bitAt (t.pawn n).level.toNat i.val = if i.val < min c width then bitAt out i.val else bitAt p.level.toNat i.val) ∧
    (e.AtInstr n 2 → Answers (exec (.sample at_ k false px) s) fun t => e.PawnDone t n next
      { p with smr := if bitAt v 6 then p.smr <<< c ||| BitVec.ofNat 32 inp else p.smr >>> c ||| BitVec.ofNat 32 inp <<< (32 - c),
               sFill := min (p.sFill + c) 32 } e) ∧
    (e.AtInstr n 6 → Answers (exec (.branch at_ k false px) s) fun t => e.PawnDone t n (if e.branchHolds n v px then v % 64 else next) p e) ∧
    (e.AtInstr n 7 → Answers (exec (.loop at_ k false) s) fun t => e.PawnDone t n (if cnt = 0 ∨ cnt = 1 then next else v % 64)
      { p with cntA := if cnt = 0 ∨ bitAt v 11 = true then p.cntA else p.cntA - 1,
               cntB := if cnt = 0 ∨ bitAt v 11 = false then p.cntB else p.cntB - 1 } e) ∧
    (e.AtInstr n 8 → Answers (exec (.count at_ k false) s) fun t => e.PawnDone t n next
      { p with cntA := if bitAt v 11 then p.cntA else val, cntB := if bitAt v 11 then val else p.cntB } e)

/-- LOAD, STORE and AWAIT wait until they can complete; SIGNAL changes a flag or raises EV_PAWN_FLAG. For a running pawn with
a valid instruction at its program counter: LOAD with an empty TX FIFO, STORE with a full RX FIFO and AWAIT whose
condition, on the levels that the synchroniser gives, does not hold keep the program counter, wait and change nothing else. LOAD takes the oldest TX word into the EMR
with EFILL 32; STORE puts the SMR at the end of the RX FIFO, or hands it to the board-temperature input when that has
selected this pawn, and clears SMR and SFILL; both end STALL_LONG, and only check-value units whose tap they are, and the
temperature input, move besides. A released AWAIT clears its tick, or its flag under CLR. SIGNAL sets or clears its flag,
or raises EV_PAWN_FLAG with the pawn and code; in one SYS cycle a clear prevails over a SET, and a register write over both
(R500). The program counter then goes to the next word. (Derived from 12
Instructions (R356, R358, R361, R362, R371, Table 12.3), 14 Taps (R405).) -/
def Obligations.PawnInstructionsWaitAndSignal : Prop :=
  ∀ (s : State) (at_ : Vt) (k : Fin 8) (px : PxBoard) (rose fell : Word), let e := s.elapseTo at_
    let n := k.val
    let p := e.pawn n
    let v := e.pawnWord n % 4096
    let next := if p.pc = e.rd (Reg.PAWN_PROG_END n) then e.rd (Reg.PAWN_PROG_START n) else (p.pc + 1) % 64
    let now := e.pxSeen px
    let flags := Reg.PAWN_FLAGS_FLAG.addr
    let waits (q : PawnSt) (t : State) := t.pawn n = q ∧ t = { e with pawns := t.pawns } ∧ ∀ m : Nat, m ≠ n → t.pawn m = e.pawn m
    let cleared (t : State) := bitAt t.cycle.flagsClr.toNat (v % 8) = true ∧ (flags ∉ e.cycle.written → (t.reg flags).getLsbD (v % 8) = false)
    (e.AtInstr n 3 → p.tx = [] → Answers (exec (.load at_ k false) s) (waits { p with wait := 1, waitAt := if p.wait = 1 then p.waitAt else e.time.uptime })) ∧
    (∀ (w : Word) (rest : List Word), e.AtInstr n 3 → p.tx = w :: rest → Answers (exec (.load at_ k false) s) fun t =>
      e.PawnDone t n next { p with emr := w, eFill := 32, tx := rest } { e.withRecords t with cvu := t.cvu } ∧
      t.rd (Reg.PAWN_ERR_STALL_LONG n) = 0 ∧ ((∀ u ∈ List.range 8, e.cvuOn u 3 n = false) → t.cvu = e.cvu ∧
        State.RegsKept (touched [Reg.PAWN_ERR_STALL_LONG n] []) e t)) ∧
    (e.AtInstr n 4 → 4 ≤ p.rx.length → Answers (exec (.store at_ k false) s) (waits { p with wait := 2, waitAt := if p.wait = 2 then p.waitAt else e.time.uptime })) ∧
    (e.AtInstr n 4 → p.rx.length < 4 → Answers (exec (.store at_ k false) s) fun t =>
      e.PawnDone t n next { p with smr := 0, sFill := 0, rx := if e.tbPawnSource n then p.rx else p.rx ++ [p.smr] }
        { e.withRecords t with cvu := t.cvu, sink := t.sink } ∧
      t.rd (Reg.PAWN_ERR_STALL_LONG n) = 0 ∧ (e.tbPawnSource n = false → t.sink = e.sink) ∧
      (e.tbPawnSource n = true → bitAt p.smr.toNat 16 = true → t.sink.tP = some (signed 16 p.smr.toNat * 16)) ∧
      ((∀ u ∈ List.range 8, e.cvuOn u 4 n = false) → t.cvu = e.cvu ∧
        State.RegsKept (touched [Reg.PAWN_ERR_STALL_LONG n, Reg.SINK_TB_STAT_FAULT_P] []) e t)) ∧
    (e.AtInstr n 5 → e.awaitHolds n v now rose fell = false → Answers (exec (.await at_ k false px rose fell) s) (waits { p with wait := 3, awaitPx := some now })) ∧
    (e.AtInstr n 5 → e.awaitHolds n v now rose fell = true → Answers (exec (.await at_ k false px rose fell) s) fun t =>
      e.PawnDone t n next { p with sync := p.sync && v / 512 != 4, line := p.line && v / 512 != 5, frame := p.frame && v / 512 != 6 }
        { e with regs := t.regs, cycle := { e.cycle with flagsClr := t.cycle.flagsClr } } ∧
      State.RegsKept (fun a i => a = flags ∧ i = v % 8 ∧ v / 512 = 7 ∧ bitAt v 5 = true) e t ∧
      (v / 512 ≠ 7 ∨ bitAt v 5 = false → t.cycle = e.cycle) ∧
      (v / 512 = 7 → bitAt v 5 = true → cleared t)) ∧
    (e.AtInstr n 9 → Answers (exec (.signal at_ k false) s) fun t =>
      e.PawnDone t n next p (e.withRecords t) ∧
      (v / 1024 = 2 → t.Raised Ev.PAWN_FLAG (n + v % 256 * 256) ∧ State.RegsKept (touched [] [Ev.PAWN_FLAG]) e t) ∧
      (v / 1024 < 2 → State.RegsKept (fun a i => a = flags ∧ i = v % 8) e t) ∧
      (v / 1024 = 0 → flags ∉ e.cycle.written → bitAt e.cycle.flagsClr.toNat (v % 8) = false → (t.reg flags).getLsbD (v % 8) = true) ∧
      (v / 1024 = 0 → flags ∈ e.cycle.written ∨ bitAt e.cycle.flagsClr.toNat (v % 8) = true → t.reg flags = e.reg flags) ∧
      (v / 1024 = 1 → cleared t))

/-- At a pawn clock edge a stopped or frozen pawn does nothing, and a bad word stops the pawn with its cause. An edge of a
pawn that does not run, or that a debug halt freezes, changes nothing; so does a command of another instruction than the
one that stands there. A parity error, of a bit lost now or since the word was last written, stops the pawn with cause 4, an opcode from 10 with cause 1, a bad operand with
cause 2 and a TARGET outside START to END with cause 3, in that order; the cause and the program counter are recorded,
EV_PAWN_FAULT carries the pawn, cause and program counter, and the next start begins at ENTRY; its registers and FIFOs and
every other pawn are kept. (Derived from 12 Faults (R356, R359, R365, R372, Table 12.4).) -/
def Obligations.PawnEdgesFaultOrDoNothing : Prop :=
  ∀ (s : State) (at_ : Vt) (k : Fin 8) (bad : Bool) (px : PxBoard) (rose fell : Word), let e := s.elapseTo at_
    let n := k.val
    let p := e.pawn n
    let w := e.pawnWord n
    let broken := bad = true ∨ p.pc ∈ s.rook.storeBad
    let edge (op : Nat) : Host.Outcome State Fault Refusal := match op with
      | 0 => exec (.drive at_ k bad) s | 1 => exec (.emit at_ k bad) s | 2 => exec (.sample at_ k bad px) s | 3 => exec (.load at_ k bad) s
      | 4 => exec (.store at_ k bad) s | 5 => exec (.await at_ k bad px rose fell) s | 6 => exec (.branch at_ k bad px) s | 7 => exec (.loop at_ k bad) s
      | 8 => exec (.count at_ k bad) s | _ => exec (.signal at_ k bad) s
    let faults (cause : Nat) (t : State) :=
      t.rd (Reg.PAWN_ERR_CAUSE n) = cause ∧ t.rd (Reg.PAWN_ERR_FAULT_PC n) = p.pc % 64 ∧
      t.Raised Ev.PAWN_FAULT (n + cause * 2 ^ 4 + p.pc * 2 ^ 8) ∧
      t.pawn n = { p with run := false, wait := 0, awaitPx := none, stalled := false, fromEntry := true } ∧ (∀ m : Nat, m ≠ n → t.pawn m = e.pawn m) ∧
      e.Changed t [Reg.PAWN_ERR_CAUSE n, Reg.PAWN_ERR_FAULT_PC n, Reg.PAWN_ERR_STALL_LONG n, Reg.PAWN_PX_OUT_LEVEL, Reg.PAWN_PX_OE_OE] [Ev.PAWN_FAULT]
        { e.withRecords t with
          pawns := t.pawns
          rook := { s.rook with storeBad := bif bad then p.pc :: s.rook.storeBad.filter (· != p.pc) else s.rook.storeBad } }
    ∀ op ∈ List.range 10,
      (p.run = false ∨ e.pawnFrozen = true → edge op = .next e) ∧
      (p.run = true → e.pawnFrozen = false →
        (broken → Answers (edge op) (faults 4)) ∧
        (¬broken → 10 ≤ w / 65536 → Answers (edge op) (faults 1)) ∧
        (¬broken → w / 65536 < 10 → w / 65536 ≠ op → edge op = .next e) ∧
        (¬broken → w / 65536 = op → pawnOperandOk op (w % 4096) = false → Answers (edge op) (faults 2)) ∧
        (¬broken → w / 65536 = op → pawnOperandOk op (w % 4096) = true → e.pawnTargetOk n op (w % 4096) = false → Answers (edge op) (faults 3)))

/-- An offset of a block that no register occupies reads 0, ignores writes and raises no event. For every word address inside
a block's range, the FCM window apart, that no register of the index occupies: a register write there does nothing but let
time pass and let the moves act that are due by then (R64), whatever the block's domain; and a service read of one word
there, made after the timed commands that are due by then (R326), with the block powered and no check-value unit on the
service read tap, returns 0x0000_0000 and changes nothing else, so no event is raised. A REG_RD of it answers 0x0000_0000 and
changes nothing else either, and a REG_WR of it, which no entry of the armed Seal locks, is answered OK and is ignored, in the
range of a strap-owned unit too. (Cites R5.) -/
def Obligations.UnoccupiedOffsetsReadZeroAndIgnoreWrites : Prop :=
  ∀ (s : State) (at_ : Vt) (a w : Word), let e := s.elapseTo at_
    a.toNat % 4 = 0 → blockOf a.toNat ≠ none → blockOf a.toNat ≠ some .fcm → regDefAt a.toNat = none →
    let c := e.commandsFirst
    (Answers (exec (.registerWrite at_ a w) s) fun t => t = { e.movesDue with cycle := t.cycle }) ∧
    (c.powered 4 = true → c.blockOn a.toNat = true → (∀ n ∈ List.range 8, c.cvuOn n 7 0 = false) →
      exec (.svcRegisterRead at_ a 1 []) s = .next { c with cmd := { c.cmd with readOut := [0, 0, 0, 0] } }) ∧
    ∀ (via : Via) (p : List Byte) (o : Origin) (u : State), beAt p 0 4 = a.toNat → beAt p 4 2 = 1 → beAt p 6 2 = 0 → u.blockOn a.toNat = true →
      (s.served 0x0101 via p = some (o, u) → s.Gives (.regRd via p) o 0x0101 .ok [0, 0, 0, 0] u) ∧
      (s.served 0x0102 via p = some (o, u) → 12 ≤ p.length → a.toNat ∉ u.store.locks → ∃ v : State, v = { u.movesDue with cycle := v.cycle } ∧
        s.Gives (.regWr via p) o 0x0102 .ok [] v)

/-- Register writes to a board region set no coverage bit; register writes to a grey plane are ignored. After the moves that are due
(R64), with PIX powered and the word not locked, a write through the FCM window at a word of a board region changes no board record, so no coverage bit, and at a word of
either grey plane it changes nothing at all. (Cites R106.) -/
def Obligations.FcmWritesSkipPlanesAndCoverage : Prop :=
  ∀ (s : State) (k : Fin 393216) (w : Word), let d := s.movesDue
    d.admits (0x1000000 + 4 * k.val) w →
    (4 * k.val < fcmBoard 3 → Answers (exec (.fcmWindowWrite k w) s) fun t => t.pipe = d.pipe ∧ (∀ i : Nat, t.fcm32 (4 * i) = if i = k.val then w.toNat else d.fcm32 (4 * i))) ∧
    (∀ p : Fin 2, fcmPlane p.val ≤ 4 * k.val → 4 * k.val < fcmPlane p.val + fcmPlaneSize →
      Answers (exec (.fcmWindowWrite k w) s) fun t => t = { d with cycle := t.cycle })

/-- A register write updates RW in force, RWC in the shadow, clears W1C and leaves RO; EVT_RAW is W1C. In the CLK, EVT, GREY,
SCAN and SINK blocks, a write to a register that is not locked, in a powered domain, after the moves that are due by then
(R64): every RW bit takes the written bit, a counter the written value and the increments of the SYS cycle after it, every W1C bit
is cleared by a 1 unless hardware has set it in that cycle, every RWC bit goes to the shadow and stays in force, every RO and
reserved bit stays, and no other shadow changes; nor does another register or anything else, but for a write to SINK_TB_CFG, which
also changes the input of the board temperature (R179, R180), and the note that SCAN_MODE's FOLLOW_SESSION has been written (R59).
A locked word and a block whose domain is off ignore the write. A W1C write to EVT_RAW clears exactly the bits written as 1 of
events that have not been raised in the cycle of the write. (Derived from 01 Register access (R3, R4), 16 Locks (R446), 18 Events
(R486), 19 Same-cycle rules (R500), 11 Service access (R346).) -/
def Obligations.RegisterWritesFollowTheirFieldTypes : Prop :=
  ∀ (s : State) (at_ : Vt) (a w : Word), let d := (s.elapseTo at_).movesDue
    (a.toNat % 4 = 0 → ∀ r : RegDef, regDefAt a.toNat = some r → (∃ b ∈ [Block.clk, .evt, .grey, .scan, .sink], blockOf a.toNat = some b) →
      (¬d.admits a.toNat w → exec (.registerWrite at_ a w) s = .next d) ∧
      (d.admits a.toNat w → Answers (exec (.registerWrite at_ a w) s) fun t =>
        (counterFlds a.toNat = [] → ∀ i : Fin 32, bitAt r.rw i = true → (t.reg a.toNat).getLsbD i = w.getLsbD i) ∧
        (∀ f ∈ counterFlds a.toNat, (∀ i : Nat, f.lo ≤ i → i < f.lo + f.len → bitAt r.rw i = true) →
          t.rd f = min (bitsOf w f.lo f.len + (d.rd f - d.atStart.rd f)) (2 ^ f.len - 1)) ∧
        (∀ i : Fin 32, bitAt r.rw i = false → bitAt r.w1c i = true →
          (t.reg a.toNat).getLsbD i = ((d.reg a.toNat).getLsbD i && (!w.getLsbD i || (d.setNow a.toNat).getLsbD i))) ∧
        (∀ i : Fin 32, bitAt r.rw i = false → bitAt r.w1c i = false → (t.reg a.toNat).getLsbD i = (d.reg a.toNat).getLsbD i) ∧
        (∀ i : Fin 32, (t.shReg a.toNat).getLsbD i = if bitAt r.rwc i then w.getLsbD i else (d.shReg a.toNat).getLsbD i) ∧
        State.ShadowsKept (fun b => b = a.toNat) d t ∧
        (a.toNat ≠ Reg.SINK_TB_CFG_SRC.addr → State.RegsKept (fun b _ => b = a.toNat) d t ∧
          t = { d with regs := t.regs, shadow := t.shadow, cycle := t.cycle,
                       time := { d.time with followWritten := d.time.followWritten || decide (a.toNat = Reg.SCAN_MODE_MODE.addr) } }))) ∧
    (∀ x : Fin 2, let e := 0x30000 + 4 * x.val
      d.admits e w → Answers (exec (.evtRawClear at_ x w) s) fun t =>
      t.reg e = d.reg e &&& ~~~(w &&& ~~~d.setNow e) ∧ (∀ b, b ≠ e → t.reg b = d.reg b) ∧ t = { d with regs := t.regs, cycle := t.cycle })

/-- A calibration check runs once and sets its PASS bit by the CRC; steps and look requests by register. Moves that are due act
before a write, which is taken with PIX powered and the register not locked, and else changes nothing: START of an idle checker names the bank in SEL, sets BUSY and starts the check; while one runs it changes nothing. The
check's end clears BUSY and sets PASS of its bank exactly when the bank's CRC-32C equals PIPE_CAL_CRC; without a check
nothing changes. A MOTIF_STEP write adds one to PEND, up to 255, of exactly the enabled
engines of its mask. FB_ON in ARMED or FALLBACK requests the look with cause 2, or makes the cause of a look that is shown
2; in another state nothing changes. FB_OFF ends a look of cause 2 at the next grid point and is ignored otherwise. (Derived from 03 Calibration (R98), 08 Motif steps (R225), 08 The fallback look (R231, R232).) -/
def Obligations.CalibrationChecksAndLookRequests : Prop :=
  ∀ (s : State), let d := s.movesDue
    let look := Reg.MOTIF_CTRL_STEP.addr
    let same (t : State) := t = { d with cycle := t.cycle }
    (∀ b : Fin 2, let taken : Prop := d.admits Reg.PIPE_CAL_CHK_START.addr (BitVec.ofNat 32 (1 + 2 * b.val))
      (¬taken → exec (.calCheckStart b) s = .next d) ∧
      (taken → d.rd Reg.PIPE_CAL_CHK_BUSY = 1 → Answers (exec (.calCheckStart b) s) same) ∧
      (taken → d.rd Reg.PIPE_CAL_CHK_BUSY = 0 → Answers (exec (.calCheckStart b) s) fun t =>
        t.rd Reg.PIPE_CAL_CHK_BUSY = 1 ∧ t.rd Reg.PIPE_CAL_CHK_SEL = b.val ∧
        d.Changed t [Reg.PIPE_CAL_CHK_BUSY, Reg.PIPE_CAL_CHK_SEL] [] { d.withRecords t with rook := { d.rook with calCheck := some b.val } })) ∧
    (s.rook.calCheck = none → exec .calCheckDone s = .next s) ∧
    (∀ b : Fin 2, s.rook.calCheck = some b.val → Answers (exec .calCheckDone s) fun t =>
      t.rd Reg.PIPE_CAL_CHK_BUSY = 0 ∧
      (t.rd (if b = 0 then Reg.PIPE_CAL_CHK_PASS0 else Reg.PIPE_CAL_CHK_PASS1) = 1 ↔
        crcOf crc32c ((List.range 221184).map fun i => s.fcmByte (fcmCal b.val + i)) = s.rd (Reg.PIPE_CAL_CRC_CRC b.val)) ∧
      s.Changed t [Reg.PIPE_CAL_CHK_BUSY, if b = 0 then Reg.PIPE_CAL_CHK_PASS0 else Reg.PIPE_CAL_CHK_PASS1] []
        { s with regs := t.regs, rook := { s.rook with calCheck := none } }) ∧
    (∀ m : BitVec 8, (¬d.admits look (m.setWidth 32) → exec (.motifStepWrite m) s = .next d) ∧
      (d.admits look (m.setWidth 32) → Answers (exec (.motifStepWrite m) s) fun t =>
        (∀ i : Fin 8, t.rd (Reg.MOTIF_ENG_PEND i.val) =
          if bitAt m.toNat i.val && d.rdB (Reg.MOTIF_ENG_EN i.val) then min (d.rd (Reg.MOTIF_ENG_PEND i.val) + 1) 255 else d.rd (Reg.MOTIF_ENG_PEND i.val)) ∧
        d.Changed t ((List.range 8).map Reg.MOTIF_ENG_PEND) [] (d.withRecords t))) ∧
    (¬d.admits look 0x100 → exec .fbOnWrite s = .next d) ∧ (¬d.admits look 0x200 → exec .fbOffWrite s = .next d) ∧
    (d.admits look 0x100 →
      (d.devState ≠ 5 → d.devState ≠ 6 → Answers (exec .fbOnWrite s) same) ∧
      (d.devState = 5 ∨ d.devState = 6 →
        (d.fbActive = false → Answers (exec .fbOnWrite s) fun t => t = { d with cycle := t.cycle, fallback := { d.fallback with startDue := 2 } }) ∧
        (d.fbActive = true → Answers (exec .fbOnWrite s) fun t => t.rd Reg.MOTIF_FB_STAT_CAUSE = 2 ∧
          d.Changed t [Reg.MOTIF_FB_STAT_CAUSE] [] (d.withRecords t)))) ∧
    (d.admits look 0x200 →
      (d.fbActive = true → d.rd Reg.MOTIF_FB_STAT_CAUSE = 2 →
        Answers (exec .fbOffWrite s) fun t => t = { d with cycle := t.cycle, fallback := { d.fallback with endDue := true } }) ∧
      (d.fbActive = false ∨ d.rd Reg.MOTIF_FB_STAT_CAUSE ≠ 2 → Answers (exec .fbOffWrite s) same))

/-- A boundary transfers an armed valid set and computes the on-time; a midpoint moves the falling half; a loop sample writes
the duty. Moves that are due act before a boundary and a midpoint (Table 2.5). A running unit takes its first boundary at once and each other one P ticks after the last; before that a boundary
command only lets time pass. A boundary copies its four shadows when a transfer is due under its mode and the set is valid,
and sets SET_REJ when it is not; nothing is copied when none is due. The period's on-time is then 0 for a request of 0, 0
with the request carried below MIN_PULSE_A, else request plus carry limited to D_MAX, with CLAMP; the request adds one
tick in the periods that FRAC gives, and the edges follow Table 13.1. A cleared trip stays cleared only as TRIP_MODE and AUTO_REARM
say, a re-armed unit with carry 0. A midpoint is taken once, P div 2 ticks after the boundary; with an armed valid set under MIDPOINT
or BOTH of a CENTRE unit it takes DUTY, DUTY_B and DT, leaves PERIOD to the next boundary, computes the period again from the
carry that it began with, and keeps a rising edge already passed. A loop sample that is due regulates: the code, the
accumulator held when the output is clamped in the error's direction, the duty within 0 and D_LIM into the shadow, armed.
On the fourth sample above V_OV the duty is 0, OV is set and EV_LOOP_LIMIT is raised; the samples that OV holds at duty 0 leave
LIMIT and its count (the model's choice: log entry 163). A sample not due and a unit not
running change nothing else. Other units keep their state. (Derived from 13 Timing and duty (R376, R377, R378, R379, R380,
R383), 13 Trips (R390, R392), 06 Supply loops (R170, R171, R172).) -/
def Obligations.SpwmBoundariesComputeTheOnTimes : Prop :=
  (∀ (s : State) (at_ : Vt) (n : Fin 8), let e := (s.elapseTo at_).movesDue
    let u := e.sw n.val
    let upd := e.swUpd n.val
    let pending := e.rdB (Reg.SPWM_STAT_PENDING n.val)
    let valid := e.swSetOk n.val (e.shReg (swAddr n.val 0)) (e.shReg (swAddr n.val 3))
    let due := pending && (u.applyAny || u.loopArmed || upd == 0 || upd == 2)
    let latch := !e.swCycle n.val
    let rearm := e.rdB (Reg.SPWM_STAT_TRIPPED n.val) && e.swAsserted n.val == 0 && latch && e.rdB (Reg.SPWM_CTRL_AUTO_REARM n.val)
    let active (t : State) := ∀ k : Nat, k < 4 → t.reg (swAddr n.val k) = if due && valid then e.shReg (swAddr n.val k) else e.reg (swAddr n.val k)
    let others (t : State) := ∀ m : Nat, m ≠ n.val → t.sw m = e.sw m
    let mid := !e.swHalted && e.swCentre n.val && pending && !u.loopArmed && (upd == 1 || upd == 2)
    let half := e.swP n.val / 2
    let inTime := ∀ b : Nat, u.boundaryAt = some b → b + e.swP n.val * spwTick ≤ e.time.uptime
    let midDue := ∃ b : Nat, u.boundaryAt = some b ∧ u.midDone = false ∧ b + half * spwTick ≤ e.time.uptime ∧ e.time.uptime < b + e.swP n.val * spwTick
    (e.swRuns n.val = false → exec (.spwmBoundary at_ n) s = .next e ∧ exec (.spwmMidpoint at_ n) s = .next e) ∧
    (¬inTime → e.swTrips n.val = false → exec (.spwmBoundary at_ n) s = .next e) ∧
    (e.swRuns n.val = true → inTime → e.powered 5 = true → e.swHalted = false → u.castleDue = none → u.periodDue = none → u.soft = none →
      Answers (exec (.spwmBoundary at_ n) s) fun t =>
        let v := t.sw n.val
        let r := t.rd (Reg.SPWM_DUTY_D n.val) + (if dseq u.periods < t.rd (Reg.SPWM_DUTY_FRAC n.val) then 1 else 0)
        let x := r + (if rearm then 0 else u.carryA)
        let least := t.rd (Reg.SPWM_LIMITS_MIN_PULSE_A n.val)
        let clampA := r ≠ 0 ∧ least ≤ x ∧ t.swDMax n.val < x
        active t ∧ others t ∧ v.boundaryAt = some (match u.boundaryAt with | some b => b + e.swP n.val * spwTick | none => e.time.uptime) ∧
        v.waiting = false ∧ v.midDone = false ∧ v.applyAny = false ∧ v.periods = (u.periods + 1) % 16 ∧
        v.onA = (if r = 0 ∨ x < least then 0 else min x (t.swDMax n.val)) ∧ v.carryA = (if r ≠ 0 ∧ x < least then x else 0) ∧
        (e.swAsserted n.val = 0 → v.edges = t.swEdges n.val v.onA (t.swOnB n.val (if rearm then 0 else u.carryB)).on
          (if u.boundaryAt = none then none else e.swCarried n.val)) ∧
        (clampA → t.rdB (Reg.SPWM_STAT_CLAMP n.val) = true) ∧ (e.swPair n.val ≠ 2 → ¬clampA → t.rdB (Reg.SPWM_STAT_CLAMP n.val) = false) ∧
        t.rd (Reg.SPWM_ACT_P n.val) = t.swP n.val ∧ t.rd (Reg.SPWM_ACT_ONA n.val) = v.onA % 2 ^ 16 ∧
        (due = true → t.rd (Reg.SPWM_STAT_PENDING n.val) = 0 ∧ (valid = false → t.rd (Reg.SPWM_STAT_SET_REJ n.val) = 1)) ∧
        (due = false → t.rd (Reg.SPWM_STAT_PENDING n.val) = e.rd (Reg.SPWM_STAT_PENDING n.val)) ∧
        (e.swAsserted n.val = 0 → t.rdB (Reg.SPWM_STAT_TRIPPED n.val) = (e.rdB (Reg.SPWM_STAT_TRIPPED n.val) && latch && !rearm)) ∧
        (e.swAsserted n.val ≠ 0 → latch = true → t.rdB (Reg.SPWM_STAT_TRIPPED n.val) = true) ∧
        e.Changed t ([Reg.SPWM_STAT_PENDING n.val, Reg.SPWM_STAT_SET_REJ n.val, Reg.SPWM_STAT_CLAMP n.val, Reg.SPWM_STAT_TRIPPED n.val,
            Reg.SPWM_ACT_P n.val, Reg.SPWM_ACT_ONA n.val, Reg.SPWM_CNT_SKIP n.val, Reg.SPWM_CNT_TRIPS n.val] ++
            (if due then (List.range 4).map fun k => (⟨swAddr n.val k, 0, 32⟩ : Fld) else [])) [Ev.SPWM_SKIP, Ev.SPWM_TRIP]
          { e.withRecords t with spwm := t.spwm, sink := { e.sink with loops := t.sink.loops } }) ∧
    (¬midDue → exec (.spwmMidpoint at_ n) s = .next e) ∧
    (e.swRuns n.val = true → midDue → e.swTrips n.val = false →
      (mid = false → Answers (exec (.spwmMidpoint at_ n) s) fun t => t.sw n.val = { u with midDone := true } ∧ others t ∧ t = { e with spwm := t.spwm }) ∧
      (mid = true → u.waiting = false → Answers (exec (.spwmMidpoint at_ n) s) fun t =>
        let v := t.sw n.val
        let a := t.swOnA n.val (u.periods + 15) u.inA
        t.rd (Reg.SPWM_STAT_PENDING n.val) = 0 ∧ t.reg (swAddr n.val 0) = e.reg (swAddr n.val 0) ∧ others t ∧ v.midDone = true ∧
        (valid = true → (∀ k : Nat, 0 < k → k < 4 → t.reg (swAddr n.val k) = e.shReg (swAddr n.val k)) ∧
          v.periodDue = some (e.shReg (swAddr n.val 0)).toNat ∧ (u.edges.riseA < half → v.edges.riseA = u.edges.riseA) ∧
          (half ≤ u.edges.fallA → v.edges.fallA = max v.edges.riseA (half + (a.on - a.on / 2))) ∧ v.carryA = a.carry) ∧
        (valid = false → t.rd (Reg.SPWM_STAT_SET_REJ n.val) = 1 ∧ v.edges = u.edges ∧ ∀ a, a ≠ (Reg.SPWM_STAT_RUN n.val).addr → t.reg a = e.reg a) ∧
        e.Changed t ([Reg.SPWM_STAT_PENDING n.val, Reg.SPWM_STAT_SET_REJ n.val, Reg.SPWM_STAT_CLAMP n.val, Reg.SPWM_CNT_SKIP n.val] ++
            (List.range 3).map fun k => (⟨swAddr n.val (k + 1), 0, 32⟩ : Fld)) [Ev.SPWM_SKIP]
          { e.withRecords t with spwm := t.spwm }))) ∧
  ∀ (s : State) (i : Fin 2) (code : BitVec 12),
    let l := tabGet loopReset s.sink.loops i.val
    let due := s.supOn && !s.sink.hold && s.rdB (Reg.LOOP_EN i.val) && !s.loopsStopped && decide (s.rd (Reg.LOOP_DIV i.val) < l.count)
    let ratio := s.rd (Reg.LOOP_RATIO i.val)
    let tooHigh := s.rd (Reg.LOOP_V_OV i.val) * 1048576 < code.toNat * 1500 * ratio
    let err : Int := (s.rd (Reg.LOOP_V_SET i.val) * 1048576 / (1500 * ratio) : Nat) - (code.toNat : Int)
    let old := s.rd (Reg.LOOP_DUTY i.val)
    let acc := if (old = s.swDMax i.val ∧ 0 < err) ∨ (old = 0 ∧ err < 0) then l.acc else
      max (-(2 ^ 39)) (min (l.acc + s.rd (Reg.LOOP_KI i.val) * err) (2 ^ 39 - 1))
    let duty := (min (max ((s.rd (Reg.LOOP_KP i.val) * err + acc) / (2 ^ s.rd (Reg.LOOP_SHIFT i.val) : Int)) 0) (s.swDMax i.val : Int)).toNat
    let wrote (d : Nat) (t : State) := t.rd (Reg.LOOP_DUTY i.val) = d % 2 ^ 16 ∧ t.shReg (swAddr i.val 1) = BitVec.ofNat 32 d ∧
      t.rd (Reg.SPWM_STAT_PENDING i.val) = 1 ∧ (t.sw i.val).loopArmed = true ∧ t.rd (Reg.ADC_DATA_CODE i.val) = code.toNat ∧
      (code.toNat * 1500 * ratio / 1048576 < 65536 → t.rd (Reg.LOOP_V_MEAS i.val) = code.toNat * 1500 * ratio / 1048576) ∧
      State.ShadowsKept (fun a => a = swAddr i.val 1) s t ∧
      s.Changed t [Reg.ADC_DATA_CODE i.val, Reg.ADC_DATA_VALID i.val, Reg.LOOP_V_MEAS i.val, Reg.LOOP_DUTY i.val, Reg.LOOP_LIMIT i.val, Reg.LOOP_OV i.val,
          Reg.SPWM_STAT_PENDING i.val] [Ev.LOOP_LIMIT]
        { s.withRecords t with shadow := t.shadow, spwm := t.spwm, free := t.free, sink := { s.sink with loops := t.sink.loops } }
    (due = false → exec (.loopSample i code) s = .next s) ∧
    (due = true → s.rdB (Reg.LOOP_OV i.val) = false → ratio ≠ 0 → ¬tooHigh → Answers (exec (.loopSample i code) s) fun t =>
      wrote duty t ∧ (tabGet loopReset t.sink.loops i.val).acc = acc ∧ (err.natAbs ≤ 32 → t.rd (Reg.LOOP_LIMIT i.val) = 0)) ∧
    (due = true → s.rdB (Reg.LOOP_OV i.val) = false → tooHigh → 3 ≤ l.ovRun → Answers (exec (.loopSample i code) s) fun t =>
      wrote 0 t ∧ t.rd (Reg.LOOP_OV i.val) = 1 ∧ t.Raised Ev.LOOP_LIMIT (i.val + 2)) ∧
    (due = true → s.rdB (Reg.LOOP_OV i.val) = true → (s.rd (Reg.LOOP_V_OV i.val) - 200) * 1048576 ≤ code.toNat * 1500 * ratio →
      Answers (exec (.loopSample i code) s) fun t => wrote 0 t ∧ t.rd (Reg.LOOP_OV i.val) = 1 ∧
        t.rd (Reg.LOOP_LIMIT i.val) = s.rd (Reg.LOOP_LIMIT i.val) ∧
        (tabGet loopReset t.sink.loops i.val).clampRun = l.clampRun)

/-- DUTY and CTRL writes, the SPW clock's lock and stop, trips and their clearing, and the two-step pin lock. Moves that
are due act before a write, which is taken with SUP powered and the register not locked, and else changes nothing: a DUTY write
puts the value in the shadow and arms the transfer, or sets CFG_REJ when the loop owns the unit; a CTRL write changes all fields
while EN is 0, only EN while it is 1 (CFG_REJ for other differing fields), stops the unit when EN goes to 0, and starts it with its
counts cleared when EN goes to 1, which in a debug halt runs a pinned unit only. SPW lock starts the enabled units that stand at a
boundary; a clock stop ends CLK_RUN, sets CLK_LOST and stops every enabled unit with EV_SPWM_TRIP cause 2, a pinned one that runs
untripped at the levels it has, and FLOOR falls with it (R19); an intended stop with no unit enabled is silent. A TRIP input that
asserts sets TRIPPED and counts once in each unit that maps it and does not blank it, and with SUP off changes the pin only; its
deassertion changes the pin only, where every input that acts had tripped its unit; CLR clears a LATCH trip only with no mapped input
asserted (log entry 31 for CYCLE), with carries 0. The pin lock takes 0x5A00_0000, then within 64 SYS cycles 0xA5 in the top byte with
the new set, to which strap pins add, and a unit that in a halt is pinned no more stops (R394); another second write, a later one, or the lapse, sets LOCK_FAIL. (Derived from 13 Enabling and register writes (R383, R386, R387), 13 Trips (R389, R390, R392, R393), 13 Clock (R395,
R472), 13 Pinning (R397, R400).) -/
def Obligations.SpwmWritesTripsAndClockStops : Prop :=
  (∀ (s : State) (n : Fin 8) (w : Word), let d := s.movesDue
    let ctrl := (Reg.SPWM_CTRL_EN n.val).addr
    let trip := (Reg.SPWM_TRIP_CLR n.val).addr
    let lock := Reg.SPWM_PIN_LOCK_PIN.addr
    let en := d.rdB (Reg.SPWM_CTRL_EN n.val)
    let v := w &&& 0x3FFF
    let set := w.getLsbD 0
    let flagged (t : State) := t.rd (Reg.SPWM_STAT_CFG_REJ n.val) = if v >>> 1 = d.reg ctrl >>> 1 then d.rd (Reg.SPWM_STAT_CFG_REJ n.val) else 1
    let others (t : State) := ∀ m : Nat, m ≠ n.val → t.sw m = d.sw m
    let same (t : State) := t = { d with cycle := t.cycle }
    (¬d.admits (swAddr n.val 1) w → exec (.spwmDutyWrite n w) s = .next d) ∧
    (d.admits (swAddr n.val 1) w →
      (d.swLoopOwned n.val = true → Answers (exec (.spwmDutyWrite n w) s) fun t => t.rd (Reg.SPWM_STAT_CFG_REJ n.val) = 1 ∧
        d.Changed t [Reg.SPWM_STAT_CFG_REJ n.val] [] (d.withRecords t)) ∧
      (d.swLoopOwned n.val = false → Answers (exec (.spwmDutyWrite n w) s) fun t => t.shReg (swAddr n.val 1) = w &&& 0xFFFFF ∧
        t.rd (Reg.SPWM_STAT_PENDING n.val) = 1 ∧ State.ShadowsKept (fun a => a = swAddr n.val 1) d t ∧
        t.sw n.val = { d.sw n.val with armedLate := true } ∧ others t ∧
        d.Changed t [Reg.SPWM_STAT_PENDING n.val] [] { d.withRecords t with shadow := t.shadow, spwm := t.spwm })) ∧
    (¬d.admits ctrl w → exec (.spwmCtrlWrite n w) s = .next d) ∧ (¬d.admits trip 0x100 → exec (.tripClr n) s = .next d) ∧
    (d.admits ctrl w →
      (en = true → set = true → Answers (exec (.spwmCtrlWrite n w) s) fun t => flagged t ∧ d.Changed t [Reg.SPWM_STAT_CFG_REJ n.val] [] (d.withRecords t)) ∧
      (en = true → set = false → Answers (exec (.spwmCtrlWrite n w) s) fun t => flagged t ∧ t.rd (Reg.SPWM_CTRL_EN n.val) = 0 ∧
        t.rd (Reg.SPWM_STAT_RUN n.val) = 0 ∧ others t ∧
        t.sw n.val = { d.sw n.val with boundaryAt := none, waiting := true, heldLevels := none, tripQuiet := false, roseAt := none,
                                         soft := none } ∧
        d.Changed t [Reg.SPWM_CTRL_EN n.val, Reg.SPWM_STAT_RUN n.val, Reg.SPWM_STAT_CFG_REJ n.val] [] { d.withRecords t with spwm := t.spwm }) ∧
      (en = false → set = false → Answers (exec (.spwmCtrlWrite n w) s) fun t => t.reg ctrl = v ∧ (∀ a, a ≠ ctrl → t.reg a = d.reg a) ∧
        t = { d with regs := t.regs, cycle := t.cycle }) ∧
      (en = false → set = true → Answers (exec (.spwmCtrlWrite n w) s) fun t =>
        let x := t.sw n.val
        let ok := t.swSetOk n.val (d.shReg (swAddr n.val 0)) (d.shReg (swAddr n.val 3))
        t.reg ctrl = v ∧ x.carryA = 0 ∧ x.carryB = 0 ∧ x.periods = 0 ∧ x.waiting = true ∧ x.boundaryAt = none ∧ others t ∧
        t.swRuns n.val = (d.rdB Reg.SPWM_GSTAT_CLK_RUN && (!d.swHalted || d.swPinned n.val)) ∧ t.rd (Reg.SPWM_STAT_PENDING n.val) = 0 ∧
        (∀ k : Nat, k < 4 → t.reg (swAddr n.val k) = if ok then d.shReg (swAddr n.val k) else d.reg (swAddr n.val k)) ∧
        (ok = false → t.rd (Reg.SPWM_STAT_SET_REJ n.val) = 1) ∧
        d.Changed t ([⟨ctrl, 0, 32⟩, Reg.SPWM_STAT_RUN n.val, Reg.SPWM_STAT_PENDING n.val, Reg.SPWM_STAT_SET_REJ n.val] ++
            (List.range 4).map fun k => (⟨swAddr n.val k, 0, 32⟩ : Fld)) [] { d.withRecords t with spwm := t.spwm })) ∧
    (d.admits trip 0x100 →
      (d.rdB (Reg.SPWM_STAT_TRIPPED n.val) = true → d.swCycle n.val = false → d.swAsserted n.val = 0 → Answers (exec (.tripClr n) s) fun t =>
        t.rd (Reg.SPWM_STAT_TRIPPED n.val) = 0 ∧ t.sw n.val = { d.sw n.val with carryA := 0, carryB := 0, inA := 0, inB := 0, waiting := true } ∧
        others t ∧ d.Changed t [Reg.SPWM_STAT_TRIPPED n.val] [] { d.withRecords t with spwm := t.spwm }) ∧
      (d.rdB (Reg.SPWM_STAT_TRIPPED n.val) = false ∨ d.swCycle n.val = true ∨ d.swAsserted n.val ≠ 0 → Answers (exec (.tripClr n) s) same)) ∧
    (¬d.admits lock w → exec (.pinLockWrite w) s = .next d) ∧
    (d.admits lock w →
      let step := d.rdB Reg.SPWM_PIN_LOCK_STEP1
      let late := step = true ∧ d.pinOpen = false
      let one (t : State) := d.Changed t [Reg.SPWM_PIN_LOCK_STEP1, Reg.SPWM_GSTAT_LOCK_FAIL] []
        { d.withRecords t with pwr := { d.pwr with pinned := t.pwr.pinned, pinStepAt := t.pwr.pinStepAt } }
      let closed (t : State) := (late → t.rd Reg.SPWM_GSTAT_LOCK_FAIL = 1) ∧ (¬late → t.rd Reg.SPWM_GSTAT_LOCK_FAIL = d.rd Reg.SPWM_GSTAT_LOCK_FAIL) ∧
        t.pwr.pinned = d.pwr.pinned ∧ one t
      (step = false ∨ late → w = 0x5A000000 → Answers (exec (.pinLockWrite w) s) fun t => t.rd Reg.SPWM_PIN_LOCK_STEP1 = 1 ∧
        t.pwr.pinStepAt = d.time.uptime ∧ closed t) ∧
      (step = false ∨ late → w ≠ 0x5A000000 → Answers (exec (.pinLockWrite w) s) fun t => t.rd Reg.SPWM_PIN_LOCK_STEP1 = 0 ∧
        t.pwr.pinStepAt = d.pwr.pinStepAt ∧ closed t) ∧
      (d.pinOpen = true → w >>> 24 = 0xA5 → Answers (exec (.pinLockWrite w) s) fun t => t.rd Reg.SPWM_PIN_LOCK_STEP1 = 0 ∧
        t.pwr.pinned = BitVec.ofNat 2 (w.toNat % 4) ||| d.strapPins ∧ t.pwr.pinStepAt = d.pwr.pinStepAt ∧
        t.rd Reg.SPWM_GSTAT_LOCK_FAIL = d.rd Reg.SPWM_GSTAT_LOCK_FAIL ∧
        (d.swHalted = false → one t) ∧
        (d.swHalted = true → (∀ n : Nat, n < 8 → t.sw n = (if n < 6 ∨ t.swPinned n = true then d.sw n else
            { d.sw n with boundaryAt := none, waiting := true, heldLevels := none, tripQuiet := false, roseAt := none }) ∧
            t.swRuns n = (d.swRuns n && (decide (n < 6) || t.swPinned n))) ∧
          d.Changed t [Reg.SPWM_PIN_LOCK_STEP1, Reg.SPWM_STAT_RUN 6, Reg.SPWM_STAT_RUN 7] []
            { d.withRecords t with spwm := t.spwm, pwr := { d.pwr with pinned := t.pwr.pinned } })) ∧
      (d.pinOpen = true → w >>> 24 ≠ 0xA5 → Answers (exec (.pinLockWrite w) s) fun t => t.rd Reg.SPWM_PIN_LOCK_STEP1 = 0 ∧
        t.pwr.pinned = d.pwr.pinned ∧ t.pwr.pinStepAt = d.pwr.pinStepAt ∧ t.rd Reg.SPWM_GSTAT_LOCK_FAIL = 1 ∧ one t))) ∧
  (∀ (s : State) (at_ : Vt), let e := s.elapseTo at_
    let on (n : Nat) := s.rdB (Reg.SPWM_CTRL_EN n)
    let any := (List.range 8).any on
    let starts (n : Nat) := on n && !s.swRuns n && (!s.swHalted || s.swPinned n)
    let late := s.rdB Reg.SPWM_PIN_LOCK_STEP1 = true ∧ s.pwr.pinStepAt / sysCycle + 64 < e.time.uptime / sysCycle
    let stops (n : Nat) : SpwmSt := { s.sw n with boundaryAt := none, waiting := true }
    (¬late → exec (.pinLockLapse at_) s = .next e) ∧
    (late → Answers (exec (.pinLockLapse at_) s) fun t => t.rd Reg.SPWM_PIN_LOCK_STEP1 = 0 ∧ t.rd Reg.SPWM_GSTAT_LOCK_FAIL = 1 ∧
      e.Changed t [Reg.SPWM_PIN_LOCK_STEP1, Reg.SPWM_GSTAT_LOCK_FAIL] [] (e.withRecords t)) ∧
    (s.powered 5 = false ∨ any = false → exec (.spwLock at_) s = .next e) ∧
    (s.powered 5 = true → any = true → Answers (exec (.spwLock at_) s) fun t => t.rd Reg.SPWM_GSTAT_CLK_RUN = 1 ∧
      (∀ n : Nat, n < 8 → t.swRuns n = (s.swRuns n || starts n) ∧
        t.sw n = if starts n then { s.sw n with waiting := true, heldLevels := none } else s.sw n) ∧
      e.Changed t (Reg.SPWM_GSTAT_CLK_RUN :: (List.range 8).map Reg.SPWM_STAT_RUN) [] { e with regs := t.regs, spwm := t.spwm }) ∧
    (s.rdB Reg.SPWM_GSTAT_CLK_RUN = false → exec (.spwClockStop at_) s = .next e) ∧
    (s.rdB Reg.SPWM_GSTAT_CLK_RUN = true → Answers (exec (.spwClockStop at_) s) fun t => t.rd Reg.SPWM_GSTAT_CLK_RUN = 0 ∧
      (any = true → t.rd Reg.SPWM_GSTAT_CLK_LOST = 1) ∧ (any = false → t.rd Reg.SPWM_GSTAT_CLK_LOST = s.rd Reg.SPWM_GSTAT_CLK_LOST) ∧
      (∀ n : Nat, n < 8 → t.swRuns n = (s.swRuns n && !on n) ∧ t.sw n =
        if on n then
          (if s.swPinned n then
            { stops n with heldLevels := if s.swRuns n && !e.swTripped n then some (e.swDriven n (e.swPos n)) else (s.sw n).heldLevels }
          else { stops n with heldLevels := none, tripQuiet := false, roseAt := none })
        else s.sw n) ∧
      (∀ n : Nat, n < 8 → on n = true → (∀ m : Nat, n < m → m < 8 → on m = false) → t.Raised Ev.SPWM_TRIP (n + 2 * 16 + s.tripLevel * 256)) ∧
      t.time.floor = min e.time.floor t.floorNow ∧
      e.Changed t ([Reg.SPWM_GSTAT_CLK_RUN, Reg.SPWM_GSTAT_CLK_LOST] ++ (List.range 8).map Reg.SPWM_STAT_RUN) [Ev.SPWM_TRIP]
        { e.withRecords t with spwm := t.spwm, time := { e.time with floor := t.time.floor } }) ∧
    (any = true → exec .spwClockIdleStop s = .next s) ∧
    (any = false → Answers (exec .spwClockIdleStop s) fun t => t.rd Reg.SPWM_GSTAT_CLK_RUN = 0 ∧
      s.Changed t [Reg.SPWM_GSTAT_CLK_RUN] [] { s with regs := t.regs })) ∧
  ∀ (s : State) (at_ : Vt) (k : Fin 8), let e := s.elapseTo at_
    let level := s.tripLevel ||| 2 ^ k.val
    let acts (n : Nat) := s.powered 5 && level &&& s.rd (Reg.SPWM_TRIP_MAP n) != 0 && !e.swBlanked n
    let new (n : Nat) := acts n && !s.rdB (Reg.SPWM_STAT_TRIPPED n)
    (Answers (exec (.tripAssert at_ k) s) fun t => t.tripLevel = level ∧
      (∀ n : Nat, n < 8 → t.rdB (Reg.SPWM_STAT_TRIPPED n) = (s.rdB (Reg.SPWM_STAT_TRIPPED n) || acts n) ∧
        t.rd (Reg.SPWM_CNT_TRIPS n) = (if new n then min (s.rd (Reg.SPWM_CNT_TRIPS n) + 1) 255 else s.rd (Reg.SPWM_CNT_TRIPS n)) ∧
        (new n = false → t.sw n = s.sw n)) ∧
      (∀ n : Nat, n < 8 → new n = true → s.swCycle n = false → (∀ m : Nat, n < m → m < 8 → new m = false) → t.Raised Ev.SPWM_TRIP (n + 16 + level * 256)) ∧
      e.Changed t ((List.range 8).flatMap fun n => [Reg.SPWM_STAT_TRIPPED n, Reg.SPWM_CNT_TRIPS n]) [Ev.SPWM_TRIP]
        { e.withRecords t with spwm := t.spwm, pwr := { e.pwr with tripPins := t.pwr.tripPins } }) ∧
    ((∀ n : Nat, n < 8 → e.swTrips n = false ∨ s.rdB (Reg.SPWM_STAT_TRIPPED n) = true) →
      Answers (exec (.tripDeassert at_ k) s) fun t => t.tripLevel = s.tripLevel &&& (255 - 2 ^ k.val) ∧
        t = { e with pwr := { e.pwr with tripPins := t.pwr.tripPins } })

/-- A check unit enables on a valid configuration only, abandons or closes its window, keeps its configuration while enabled,
and latches RINFO. Moves that are due act before a write, which with IOX off, or at a locked register, changes nothing. Enabling a
disabled unit whose configuration breaks no point of R412 sets EN and starts without a window at INIT or, with RESUME, at the VALUE
held, a RUN window then open at once; a configuration that breaks one sets CFG_REJ and leaves EN 0. Disabling abandons an open
window: ABANDONED counts, VALUE stays. CLOSE on an open RUN window of FCM_WR, or of another tap with WIN_LEN 0, puts the result form
of VALUE in RESULT, counts WINDOWS, ends the window with VALUE and, where no read of RESULT has latched it (log entry 138), RINFO
those of the whole window, and under CMP_EN with EXPECT sets
and counts MISMATCH exactly when RESULT and EXPECT differ; a snap of the same cycle takes the result; elsewhere CLOSE changes
nothing. Configuration writes take effect with EN 0 and set CFG_REJ with EN 1. A read of RESULT gives the word of the start of the
SYS cycle and latches RINFO of the window closed last then. No other unit changes. (Derived from 14 Processing (R406), 14 Windows
(R408, R410, R411), 14 Enabling (R412, R413), 14 Snapshots (R415, R416), 14 Events (R417).) -/
def Obligations.CvuEnableCloseAndResults : Prop :=
  ∀ (s : State) (n : Fin 8) (r : Fin 9) (w : Word), let d := s.movesDue
    let k := n.val
    let ctrl := (Reg.CVU_CTRL_EN k).addr
    let cfg := d.reg ctrl &&& 0x03FFFFFA
    let en := d.rdB (Reg.CVU_CTRL_EN k)
    let opened := d.rdB (Reg.CVU_STAT_OPEN k)
    let preset := d.rd (Reg.CVU_CTRL_PRESET k)
    let src := d.rd (Reg.CVU_TAP_SRC k)
    let mode := d.rd (Reg.CVU_CTRL_MODE k)
    let resume := d.rdB (Reg.CVU_CTRL_RESUME k)
    let link := src = 1 ∨ src = 2
    let filtered := d.rd (Reg.CVU_TAP_FILTER k) = 1 ∨ d.rd (Reg.CVU_TAP_FILTER k) = 2
    let refused := 8 ≤ preset ∨ 8 ≤ src ∨ (preset = 0 ∧ (d.rd (Reg.CVU_CTRL_WIDTH k) < 8 ∨ 32 < d.rd (Reg.CVU_CTRL_WIDTH k))) ∨ mode = 3 ∨
      (mode = 0 ∧ ¬link) ∨ (mode = 1 ∧ src ∉ [3, 4, 6, 7]) ∨ (mode = 2 ∧ link) ∨ (link ∧ 5 < d.rd (Reg.CVU_TAP_SEL k)) ∨ 8 < d.rd (Reg.CVU_CTRL_TAG_LEN k) ∨
      ((preset = 7 ∨ d.rdB (Reg.CVU_CTRL_TAG_KLP k) = true ∨ d.rd (Reg.CVU_TAP_BASE k) ≠ 0) ∧ ¬filtered) ∨ (preset = 7 ∧ ¬link) ∨
      (src = 5 ∧ 1572864 < d.rd (Reg.CVU_WIN_START_BYTES k) + d.rd (Reg.CVU_WIN_LEN_BYTES k))
    let same (t : State) := t = { d with cycle := t.cycle }
    let others (t : State) := ∀ m : Nat, m ≠ k → t.cvuAt m = d.cvuAt m
    let held := (d.rd (Reg.CVU_VALUE_VALUE k), (d.cvuAt k).part)
    let result := crcResult (d.cvuParams k) held
    let closes := en = true ∧ mode = 2 ∧ opened = true ∧ (src = 5 ∨ d.rd (Reg.CVU_WIN_LEN_BYTES k) = 0)
    let mask : Word := if r.val = 0 then 0x03FF037F else if r.val = 4 ∨ r.val = 5 then 0x001FFFFF else 0xFFFFFFFF
    let at_ := 0xF0000 + 0x40 * k + cvuCfgOffset r
    (¬d.admits ctrl (cfg ||| 1) → exec (.cvuEnable n) s = .next d) ∧ (¬d.admits ctrl cfg → exec (.cvuDisable n) s = .next d) ∧
    (¬d.admits ctrl 0 → exec (.cvuClose n) s = .next d) ∧ (¬d.admits at_ w → exec (.cvuConfigWrite n r w) s = .next d) ∧
    (s.powered 4 = false → exec (.cvuResultRead n) s = .next s) ∧
    (d.admits ctrl (cfg ||| 1) →
      (en = true → Answers (exec (.cvuEnable n) s) same) ∧
      (en = false → refused → Answers (exec (.cvuEnable n) s) fun t => t.rd (Reg.CVU_CTRL_EN k) = 0 ∧ t.rd (Reg.CVU_STAT_CFG_REJ k) = 1 ∧
        t.reg ctrl = cfg ∧ d.Changed t [⟨ctrl, 0, 32⟩, Reg.CVU_STAT_CFG_REJ k] [] (d.withRecords t)) ∧
      (en = false → ¬refused → Answers (exec (.cvuEnable n) s) fun t => t.rd (Reg.CVU_CTRL_EN k) = 1 ∧ t.reg ctrl = cfg ||| 1 ∧
        t.rd (Reg.CVU_VALUE_VALUE k) = (if resume then d.rd (Reg.CVU_VALUE_VALUE k) else (d.cvuParams k).init % 2 ^ 32) ∧
        t.rdB (Reg.CVU_STAT_OPEN k) = (if resume then mode == 2 else opened) ∧
        t.cvuAt k = { d.cvuAt k with part := [], skipped := 0, done := 0, trailer := none, finished := false, link := none, resumed := resume } ∧
        others t ∧ d.Changed t [⟨ctrl, 0, 32⟩, Reg.CVU_VALUE_VALUE k, Reg.CVU_STAT_OPEN k] [] { d.withRecords t with cvu := t.cvu })) ∧
    (d.admits ctrl cfg →
      (en = false → Answers (exec (.cvuDisable n) s) fun t => t.reg ctrl = cfg ∧ d.Changed t [⟨ctrl, 0, 32⟩] [] (d.withRecords t)) ∧
      (en = true → opened = false → Answers (exec (.cvuDisable n) s) fun t => t.rd (Reg.CVU_CTRL_EN k) = 0 ∧
        t.cvuAt k = { d.cvuAt k with link := none } ∧ others t ∧ d.Changed t [Reg.CVU_CTRL_EN k] [] { d.withRecords t with cvu := t.cvu }) ∧
      (en = true → opened = true → Answers (exec (.cvuDisable n) s) fun t => t.rd (Reg.CVU_CTRL_EN k) = 0 ∧ t.rd (Reg.CVU_STAT_OPEN k) = 0 ∧
        t.rd (Reg.CVU_STAT_PART k) = 0 ∧ t.rd (Reg.CVU_CNT_ABANDONED k) = min (d.rd (Reg.CVU_CNT_ABANDONED k) + 1) 255 ∧
        t.cvuAt k = { d.cvuAt k with part := [], done := 0, trailer := none, resumed := false, link := none } ∧ others t ∧
        d.Changed t [Reg.CVU_CTRL_EN k, Reg.CVU_STAT_OPEN k, Reg.CVU_STAT_PART k, Reg.CVU_CNT_ABANDONED k] [] { d.withRecords t with cvu := t.cvu })) ∧
    (d.admits ctrl 0 →
      (¬closes → Answers (exec (.cvuClose n) s) same) ∧
      (closes → Answers (exec (.cvuClose n) s) fun t => t.rd (Reg.CVU_RESULT_RESULT k) = result % 2 ^ 32 ∧ t.rd (Reg.CVU_STAT_OPEN k) = 0 ∧
        t.rd (Reg.CVU_VALUE_VALUE k) = crcComplete (d.cvuParams k) held % 2 ^ 32 ∧
        t.rd (Reg.CVU_CNT_WINDOWS k) = min (d.rd (Reg.CVU_CNT_WINDOWS k) + 1) 65535 ∧
        (t.cvuAt k).winNo = ((d.cvuAt k).winNo + 1) % 256 ∧ (t.cvuAt k).finished = !d.rdB (Reg.CVU_CTRL_REPEAT k) ∧ others t ∧
        (t.cvuAt k).resumed = false ∧ (t.cvuAt k).short = false ∧ (t.cvuAt k).infoHeld = (d.cvuAt k).infoHeld ∧
        ((d.cvuAt k).infoHeld = false → t.rd (Reg.CVU_RINFO_WINDOW k) = (t.cvuAt k).winNo ∧ t.rd (Reg.CVU_RINFO_SHORT k) = 0 ∧
          t.rdB (Reg.CVU_RINFO_MISMATCH k) = (t.cvuAt k).mismatch) ∧
        ((d.cvuAt k).infoHeld = true → ∀ f ∈ [Reg.CVU_RINFO_WINDOW k, Reg.CVU_RINFO_SHORT k, Reg.CVU_RINFO_MISMATCH k], t.rd f = d.rd f) ∧
        (d.cycle.cvuSnapped.getLsbD k = true → t.rd (Reg.CVU_SNAP_SNAP k) = result % 2 ^ 32) ∧
        (d.cycle.cvuSnapped.getLsbD k = false → t.rd (Reg.CVU_SNAP_SNAP k) = d.rd (Reg.CVU_SNAP_SNAP k)) ∧
        (d.rdB (Reg.CVU_CTRL_CMP_EN k) = true → d.cvuTrailer k = false →
          ((t.cvuAt k).mismatch = true ↔ result ≠ d.rd (Reg.CVU_EXPECT_EXPECT k)) ∧
          ((t.cvuAt k).mismatch = true → t.rd (Reg.CVU_STAT_MISMATCH k) = 1 ∧ t.rd (Reg.CVU_CNT_MISMATCH k) = min (d.rd (Reg.CVU_CNT_MISMATCH k) + 1) 255)) ∧
        (d.rdB (Reg.CVU_CTRL_CMP_EN k) = true → d.cvuTrailer k = true → (t.cvuAt k).trailer = some (result, [])) ∧
        (d.rdB (Reg.CVU_CTRL_CMP_EN k) = false ∨ (t.cvuAt k).mismatch = false → t.rd (Reg.CVU_CNT_MISMATCH k) = d.rd (Reg.CVU_CNT_MISMATCH k)) ∧
        d.Changed t [Reg.CVU_RESULT_RESULT k, Reg.CVU_VALUE_VALUE k, Reg.CVU_STAT_OPEN k, Reg.CVU_STAT_PART k, Reg.CVU_STAT_MISMATCH k, Reg.CVU_CNT_WINDOWS k,
          Reg.CVU_CNT_MISMATCH k, Reg.CVU_RINFO_WINDOW k, Reg.CVU_RINFO_SHORT k, Reg.CVU_RINFO_MISMATCH k, Reg.CVU_SNAP_SNAP k]
          [Ev.CVU_DONE, Ev.CVU_MISMATCH] { d.withRecords t with cvu := t.cvu })) ∧
    (d.admits at_ w →
      (en = true → Answers (exec (.cvuConfigWrite n r w) s) fun t => t.rd (Reg.CVU_STAT_CFG_REJ k) = 1 ∧
        d.Changed t [Reg.CVU_STAT_CFG_REJ k] [] (d.withRecords t)) ∧
      (en = false → Answers (exec (.cvuConfigWrite n r w) s) fun t => t.reg at_ = w &&& mask ∧
        t = { d with regs := t.regs, cycle := t.cycle } ∧ ∀ a, a ≠ at_ → t.reg a = d.reg a)) ∧
    (s.powered 4 = true → let c := s.atStart.cvuAt k
      Answers (exec (.cvuResultRead n) s) fun t => t.rd (Reg.CVU_RINFO_WINDOW k) = c.winNo % 256 ∧
        t.rdB (Reg.CVU_RINFO_SHORT k) = c.short ∧ t.rdB (Reg.CVU_RINFO_MISMATCH k) = c.mismatch ∧
        t.cmd.readOut = leBytes 4 (s.atStart.reg (Reg.CVU_RESULT_RESULT k).addr).toNat ∧
        t.cvuAt k = { s.cvuAt k with infoHeld := true } ∧ (∀ m : Nat, m ≠ k → t.cvuAt m = s.cvuAt m) ∧
        s.Changed t [Reg.CVU_RINFO_WINDOW k, Reg.CVU_RINFO_SHORT k, Reg.CVU_RINFO_MISMATCH k] []
          { s.withRecords t with cvu := t.cvu, cmd := { s.cmd with readOut := t.cmd.readOut } })

/-- The mirror port starts frames on requests, on MAX or on TE, runs its lines, and retimes on a write. The port runs with EN
in READY, ARMED and FALLBACK outside dark-safe with IOX on; otherwise frame starts, lines and TE only let time pass. A requested
VIDEO frame starts at a line boundary once MIN porch lines have passed; without a request it starts at MAX and counts in SELF; a
COMMAND frame starts at once, or with TE_EN at MIR_TE, with MIR_CS low and its prefix bytes. A start counts in FRAMES, takes the
request, ends RETIME, notes the selected source, and applies a pending MIR commit whole or sets WIN_REJ and keeps the
values. A line boundary passes when the line before has run its MIR clocks, and no earlier. Each raises LINE; in VIDEO, HS is active
from there and VS until t1, from t2 to t3 the line's pixels are driven unless RETIME, and at t3 the porch begins; in COMMAND the next
line is read and its bytes follow; after the last line no other begins. MIR_D stands for the pins that the format uses. Reading a line of a source that is, or has been, no longer shown sets TEAR. The end of a COMMAND
write idles the port. MIR_TE clears TE_MISSING; a request that has waited three frame starts sets it with its event, once. A write to
CTRL or a timing register takes the value, after the moves that are due and unless it is locked; while the port runs it retimes from
the next line boundary, where a COMMAND frame ends, at once between COMMAND frames; a changed CLK holds PCLK until lock, from which
the line in hand counts anew. Enabling starts a front porch with the clock held (log entry 33), a change of MODE begins anew, and
disabling idles the port at its idle levels. (Derived from 15 Running (R419, R420), 15 Video mode (R424, R425, R426), 15 Command mode
(R427, R428), 15 Commits and retiming (R429, R430).) -/
def Obligations.MirrorPortRunsItsFrames : Prop :=
  (∀ (s : State) (at_ : Vt), let e := s.elapseTo at_
    let runs := s.mirRuns
    let cmd := s.mirCommand
    let m := s.mir
    let now := e.time.uptime
    let pend : Fld := ⟨Reg.SYS_CASTLE_STAT_PENDING.addr, 8, 1⟩
    let least := s.rd Reg.MIR_VBLANK_MIN
    let most := max least (s.rd Reg.MIR_VBLANK_MAX)
    let window := [Reg.MIR_SRC_SRC.addr, Reg.MIR_WIN_POS_X0.addr, Reg.MIR_WIN_SIZE_W.addr]
    let applied (t : State) :=
      (s.rdB pend = false → ∀ a, a ∈ window → t.reg a = s.reg a) ∧
      (s.rdB pend = true → t.rdB pend = false ∧
        (mirWindowOk s.rdSh s.rd = true → ∀ a, a ∈ window → t.reg a = s.shReg a) ∧
        (mirWindowOk s.rdSh s.rd = false → t.rd Reg.MIR_STAT_WIN_REJ = 1 ∧ ∀ a, a ∈ window → t.reg a = s.reg a))
    let starts (state : Nat) (extra : List Fld) (t : State) := applied t ∧ t.rd Reg.MIR_CNT_FRAMES = (s.rd Reg.MIR_CNT_FRAMES + 1) % 65536 ∧
      t.rd Reg.MIR_STAT_STATE = state ∧ t.rd Reg.MIR_STAT_RETIME = 0 ∧ t.rd Reg.MIR_STAT_LINE = 0 ∧
      t.mir.request = false ∧ t.mir.waited = 0 ∧ t.mir.porch = none ∧ t.mir.line = 0 ∧ t.mir.source = t.mirSource ∧ t.mir.torn = false ∧
      t.mir.retimeDue = false ∧ t.mir.lineAt = some now ∧
      e.Changed t ([pend, Reg.MIR_STAT_WIN_REJ, ⟨Reg.MIR_SRC_SRC.addr, 0, 32⟩, ⟨Reg.MIR_WIN_POS_X0.addr, 0, 32⟩, ⟨Reg.MIR_WIN_SIZE_W.addr, 0, 32⟩,
        Reg.MIR_STAT_STATE, Reg.MIR_STAT_RETIME, Reg.MIR_STAT_LINE, Reg.MIR_CNT_FRAMES] ++ extra) [] { e.withRecords t with mir := t.mir }
    let videoPads (vs : Bool) : MirPads := ⟨some (s.rdB Reg.MIR_CTRL_HS_POL), some (vs == s.rdB Reg.MIR_CTRL_VS_POL), some (s.rdB Reg.MIR_CTRL_DE_POL),
      some (s.rdB Reg.MIR_CTRL_PCLK_EDGE), none, none, none, s.mirUsed⟩
    let commandPads (cs : Bool) : MirPads := ⟨none, none, none, none, some cs, some true, none, s.mirUsed⟩
    let video (extra : List Fld) (t : State) := starts 2 extra t ∧ t.mir.videoOut = [] ∧ t.mir.pads = videoPads true
    let writes (extra : List Fld) (t : State) := starts 1 extra t ∧ t.mir.writing = true ∧ t.mir.pads = commandPads false ∧
      t.mir.cmdOut = (List.range (min 4 (s.rd Reg.MIR_CMD_PREFIX_N))).map (fun k => (false, leByte (s.reg Reg.MIR_CMD_BYTES_B0.addr).toNat k))
    let after (clocks : Nat) := ∃ b : Nat, m.lineAt = some b ∧ b + clocks * s.mirClock ≤ now
    let onLine := m.lineAt = some now
    let passes := runs = true ∧ m.clockHeld = false ∧ after s.mirLineClocks
    let line := m.line + 1
    let t2 := max 1 (s.rd Reg.MIR_VTIM_VSW) + s.rd Reg.MIR_VTIM_VBP
    let stepped (t : State) := t.mir.line = line ∧ t.rd Reg.MIR_STAT_LINE = min 4095 line ∧
      t.rdB Reg.MIR_STAT_RETIME = (s.rdB Reg.MIR_STAT_RETIME || m.retimeDue) ∧ t.mir.retimeDue = false ∧ t.mir.lineAt = some now ∧
      t.mir.pads = videoPads (t.mir.porch.isNone && decide (line < max 1 (s.rd Reg.MIR_VTIM_VSW))) ∧
      e.Changed t [Reg.MIR_STAT_LINE, Reg.MIR_STAT_RETIME, Reg.MIR_STAT_STATE, Reg.MIR_STAT_TEAR] [] { e.withRecords t with mir := t.mir }
    let torn (t : State) := t.rdB Reg.MIR_STAT_TEAR = (s.rdB Reg.MIR_STAT_TEAR || m.torn || s.mirSource != m.source)
    let ended (t : State) := t.rd Reg.MIR_STAT_STATE = 0 ∧ t.rdB Reg.MIR_STAT_RETIME = (s.rdB Reg.MIR_STAT_RETIME || m.retimeDue) ∧
      t.mir = { m with writing := false, retimeDue := false, lineAt := none, pads := commandPads true } ∧
      e.Changed t [Reg.MIR_STAT_STATE, Reg.MIR_STAT_RETIME] [] { e.withRecords t with mir := t.mir }
    (runs = false → exec (.mirrorFrameStart at_) s = .next e ∧ exec (.mirrorSelfStart at_) s = .next e ∧ exec (.mirTe at_) s = .next e ∧
      exec .mirTeMissing s = .next s) ∧
    (runs = true → m.clockHeld = false → m.request = true → cmd = false →
      (¬onLine ∨ m.porch = none → exec (.mirrorFrameStart at_) s = .next e) ∧
      (∀ p : Nat, m.porch = some p → onLine →
        (p < least → exec (.mirrorFrameStart at_) s = .next e) ∧ (least ≤ p → Answers (exec (.mirrorFrameStart at_) s) (video [])))) ∧
    (runs = true → m.clockHeld = false → m.request = false → cmd = false → exec (.mirrorFrameStart at_) s = .next e ∧
      (¬onLine ∨ m.porch = none → exec (.mirrorSelfStart at_) s = .next e) ∧
      (∀ p : Nat, m.porch = some p → onLine →
        (p < most → exec (.mirrorSelfStart at_) s = .next e) ∧
        (most ≤ p → Answers (exec (.mirrorSelfStart at_) s) fun t => video [Reg.MIR_CNT_SELF] t ∧
          t.rd Reg.MIR_CNT_SELF = min (s.rd Reg.MIR_CNT_SELF + 1) 255))) ∧
    (runs = true → cmd = true → m.clockHeld = false → m.request = true → m.writing = false →
      (s.rdB Reg.MIR_CMD_TE_EN = false → Answers (exec (.mirrorFrameStart at_) s) (writes [])) ∧
      (s.rdB Reg.MIR_CMD_TE_EN = true → exec (.mirrorFrameStart at_) s = .next e ∧
        Answers (exec (.mirTe at_) s) fun t => writes [Reg.MIR_STAT_TE_MISSING] t ∧ t.rd Reg.MIR_STAT_TE_MISSING = 0)) ∧
    (runs = true → cmd = true → m.request = false ∨ m.writing = true ∨ m.clockHeld = true ∨ s.rdB Reg.MIR_CMD_TE_EN = false →
      Answers (exec (.mirTe at_) s) fun t => t.rd Reg.MIR_STAT_TE_MISSING = 0 ∧
        e.Changed t [Reg.MIR_STAT_TE_MISSING] [] { e with regs := t.regs, mir := { m with waited := 0 } }) ∧
    (runs = true → cmd = true → m.request = true → s.rdB Reg.MIR_CMD_TE_EN = true → 3 ≤ m.waited →
      (s.rdB Reg.MIR_STAT_TE_MISSING = true → exec .mirTeMissing s = .next s) ∧
      (s.rdB Reg.MIR_STAT_TE_MISSING = false → Answers (exec .mirTeMissing s) fun t => t.rd Reg.MIR_STAT_TE_MISSING = 1 ∧ t.Raised Ev.MIR_TE_MISSING 0 ∧
        s.Changed t [Reg.MIR_STAT_TE_MISSING] [Ev.MIR_TE_MISSING] (s.withRecords t))) ∧
    (m.request = false ∨ m.waited < 3 → exec .mirTeMissing s = .next s) ∧
    (¬passes → exec (.mirrorLine at_) s = .next e) ∧
    (passes → cmd = false →
      (∀ p : Nat, m.porch = some p → Answers (exec (.mirrorLine at_) s) fun t => stepped t ∧ t.mir.porch = some (p + 1) ∧ t.mir.videoOut = []) ∧
      (m.porch = none → t2 + s.mirActive.2 ≤ line → Answers (exec (.mirrorLine at_) s) fun t => stepped t ∧ t.mir.porch = some 0 ∧ t.mir.videoOut = [] ∧
        t.rd Reg.MIR_STAT_STATE = 2) ∧
      (m.porch = none → t2 ≤ line → line < t2 + s.mirActive.2 → Answers (exec (.mirrorLine at_) s) fun t => stepped t ∧ t.mir.porch = none ∧
        t.rd Reg.MIR_STAT_STATE = 1 ∧ torn t ∧
        t.mir.videoOut = if t.rdB Reg.MIR_STAT_RETIME then [] else (s.mirLine (line - t2)).map (mirPins (s.rd Reg.MIR_CTRL_BUS))) ∧
      (m.porch = none → line < t2 → line < t2 + s.mirActive.2 → Answers (exec (.mirrorLine at_) s) fun t => stepped t ∧ t.mir.porch = none ∧
        t.mir.videoOut = [] ∧ t.rd Reg.MIR_STAT_STATE = 2)) ∧
    (passes → cmd = true →
      (m.writing = false → exec (.mirrorLine at_) s = .next
        { e with mir := { m with lineAt := if s.mirActive.2 ≤ m.line then m.lineAt else some now, pads := commandPads true } }) ∧
      (m.writing = true → m.retimeDue = true → Answers (exec (.mirrorLine at_) s) ended) ∧
      (m.writing = true → m.retimeDue = false → s.mirActive.2 ≤ m.line → Answers (exec (.mirrorLine at_) s) fun t =>
        t = { e with mir := { m with pads := t.mir.pads } }) ∧
      (m.writing = true → m.retimeDue = false → m.line < s.mirActive.2 → Answers (exec (.mirrorLine at_) s) fun t => torn t ∧
        t.rd Reg.MIR_STAT_LINE = min 4095 m.line ∧ t.mir = { m with line := line, lineAt := some now, pads := t.mir.pads, cmdOut := t.mir.cmdOut } ∧
        t.mir.cmdOut = m.cmdOut ++ ((s.mirLine m.line).flatMap fun px => (mirBytes (s.rd Reg.MIR_CTRL_BUS) px).map fun b => (true, b)) ∧
        e.Changed t [Reg.MIR_STAT_TEAR, Reg.MIR_STAT_LINE] [] { e.withRecords t with mir := t.mir })) ∧
    (let done := runs = true ∧ m.writing = true ∧ m.clockHeld = false ∧ s.mirActive.2 ≤ m.line ∧ after s.mirWriteClocks;
      (¬done → exec (.mirCommandWriteDone at_) s = .next e) ∧
      (done → cmd = true → Answers (exec (.mirCommandWriteDone at_) s) ended)) ∧
    Answers (exec (.mirClockLock at_) s) fun t =>
      t = { e with mir := { m with clockHeld := false, lineAt := if m.clockHeld then m.lineAt.map (fun _ => now) else m.lineAt, pads := t.mir.pads } }) ∧
  ∀ (s : State) (w : Word) (r : Fin 5), let d := s.movesDue
    let runs := d.mirRuns
    let cmd := d.mirCommand
    let m := d.mir
    let ctrl := Reg.MIR_CTRL_EN.addr
    let pend : Fld := ⟨Reg.SYS_CASTLE_STAT_PENDING.addr, 8, 1⟩
    let used := if w.getLsbD 1 then 8 else if bitsOf w 2 2 = 0 then 16 else if bitsOf w 2 2 = 1 then 18 else 24
    let idlePads : MirPads := ⟨some (!w.getLsbD 4), some (!w.getLsbD 5), some (w.getLsbD 6), some false, some true, some true, some 0, used⟩
    let retimed (clock : Bool) (t : State) := t.mir = { m with clockHeld := m.clockHeld || clock, retimeDue := t.mir.retimeDue, pads := t.mir.pads } ∧
      (cmd = true → m.writing = false → t.rd Reg.MIR_STAT_RETIME = 1 ∧ t.mir.retimeDue = false) ∧
      (cmd = false ∨ m.writing = true → t.mir.retimeDue = true ∧ t.rd Reg.MIR_STAT_RETIME = d.rd Reg.MIR_STAT_RETIME)
    let treg := [0x100004, 0x100008, 0x10000C, 0x100010, 0x100020].getD r.val 0
    let tmask : Word := [0xFFFF, 0xFFFFFF, 0xFFFF, 0x0FFF0FFF, 0x1FF7].getD r.val 0
    (¬d.admits treg w → exec (.mirTimingWrite r w) s = .next d) ∧ (¬d.admits ctrl w → exec (.mirEnable w) s = .next d) ∧
    (d.admits treg w → Answers (exec (.mirTimingWrite r w) s) fun t => t.reg treg = w &&& tmask ∧
      (runs = true → retimed (r.val == 0 && d.reg treg != w &&& tmask) t) ∧ (runs = false → t.mir = m) ∧
      d.Changed t [⟨treg, 0, 32⟩, Reg.MIR_STAT_RETIME] [] { d with regs := t.regs, mir := t.mir, cycle := t.cycle }) ∧
    (d.admits ctrl w → Answers (exec (.mirEnable w) s) fun t => t.reg ctrl = w &&& 0xFF ∧
      (runs = true → t.mirRuns = true →
        (d.reg ctrl >>> 1 = (w &&& 0xFF) >>> 1 → t.mir = { m with pads := t.mir.pads }) ∧
        (d.reg ctrl >>> 1 ≠ (w &&& 0xFF) >>> 1 → t.mirCommand = cmd → retimed false t) ∧
        (t.mirCommand ≠ cmd → t.mir.writing = false ∧ t.mir.videoOut = [] ∧ t.mir.line = 0 ∧ t.mir.porch = some 0 ∧ t.mir.lineAt = some d.time.uptime ∧
          t.mir.request = m.request ∧ t.rd Reg.MIR_STAT_LINE = 0 ∧ (t.mirCommand = false → t.rd Reg.MIR_STAT_STATE = 2 ∧ t.mir.retimeDue = true) ∧
          (t.mirCommand = true → t.rd Reg.MIR_STAT_RETIME = 1 ∧
            t.rd Reg.MIR_STAT_STATE = if m.request && d.rdB Reg.MIR_CMD_TE_EN then 3 else 0))) ∧
      (runs = false → t.mirRuns = true → t.mir.porch = some 0 ∧ t.mir.request = false ∧ t.mir.writing = false ∧ t.mir.clockHeld = true ∧
        t.mir.lineAt = some d.time.uptime ∧ t.rd Reg.MIR_STAT_STATE = if t.mirCommand then 0 else 2) ∧
      (runs = false → t.mirRuns = false → t.mir = { m with pads := t.mir.pads }) ∧
      (t.mirRuns = false → t.mir.pads = idlePads) ∧
      (runs = true → t.mirRuns = false → t.rd Reg.MIR_STAT_STATE = 0 ∧ t.rd Reg.MIR_STAT_TE_MISSING = 0 ∧ t.mir.request = false ∧ t.mir.writing = false ∧
        t.rdB pend = false) ∧
      d.Changed t [pend, Reg.MIR_STAT_WIN_REJ, ⟨Reg.MIR_SRC_SRC.addr, 0, 32⟩, ⟨Reg.MIR_WIN_POS_X0.addr, 0, 32⟩, ⟨Reg.MIR_WIN_SIZE_W.addr, 0, 32⟩,
        Reg.MIR_STAT_STATE, Reg.MIR_STAT_RETIME, Reg.MIR_STAT_LINE, ⟨ctrl, 0, 32⟩, Reg.MIR_STAT_TE_MISSING] []
        { d with regs := t.regs, mir := t.mir, cycle := t.cycle })

/-- Link up and down, mode writes, the start and end of a transmission, pauses and LPI of one port. A port whose mode Table
9.1 marks comes up with UP, its speed and EV_LINK_UP; a refused partner leaves SPEED_REJ. A link down and a mode write
clear the port's state, empty its queues and end its transmission with a stomp counted; a check unit whose window stands open in a
frame that this cuts short abandons it; what the time function heard there is
forgotten, the best of the other ports is chosen, and FLOOR falls; a mode write that is admitted stores the mode, and an unmarked one
sets MODE_REJ. A ready port, where no check unit taps it, first sends its own PAUSE frames, also while paused, then, unless paused, of the frames
of the highest class that has one, the frame that came first; of a PTP event message it takes a timestamp less than 0.8 ns before that instant. The end of a PAUSE transmission, or of a frame stopped for want
of room, frees the port; a frame's end, where no check unit taps the port, takes the port from its users once it is whole. A pause starts to count there and ends when its
quanta have passed. XON resends need flow control in force, SEND and link up, and wake a port from LPI. A quiet port enters LPI only with EEE in
use, TW not 0, nothing due and the window open for TW + GUARD, and leaves it by waking for TW; a frame for it wakes it and
counts in LPI_LATE. What counts as due is the model's reading (log entry 123). The ring state follows the trunks that deliver, and a
trunk whose link returns within TMO of its last qualifying frame delivers again.
(Derived from 09 Modes and link state (R235, R236, R237, R238, R239), 09 Queues (R250, R259), 09 Flow control (R261, R263,
R264), 09 LPI (R265, R267, R268), 09 The ring (R255), 02 PTP (R33), 01 Service floors (R19).) -/
def Obligations.LinksComeUpGoDownAndTransmit : Prop :=
  (∀ (s : State) (port : Fin 6) (fec refused enter : Bool) (fault : Fin 3) (w : Word),
    let p := port.val
    let d := s.movesDue
    let m := s.linkMode p
    let an := m = 2 ∨ m = 4 ∨ m = 5 ∨ m = 6
    let ringFlds := [Reg.LINK_STAT_DELIVER 0, Reg.LINK_STAT_DELIVER 1, Reg.FWD_RING_STATE, Reg.FWD_RING_SILENT]
    let ring (t : State) := t.rd Reg.FWD_RING_STATE = if t.rdB Reg.FWD_CFG_TOPO then 0 else
      (if t.rdB (Reg.LINK_STAT_DELIVER 0) then 1 else 0) + (if t.rdB (Reg.LINK_STAT_DELIVER 1) then 1 else 0)
    let ring (t : State) := ring t ∧ ∀ k : Nat, k < 2 → (t.rdB (Reg.LINK_STAT_DELIVER k) = true ↔
      t.portUp k = true ∧ ∃ l : Nat, (s.port k).lastGood = some l ∧ t.time.uptime < l + msec (max 1 (s.rd Reg.FWD_RING_TMO)))
    let only (fs : List Fld) (t : State) := s.Changed t fs [] (s.withRecords t)
    let downFlds := [Reg.LINK_STAT_UP p, Reg.LINK_STAT_SPEED p, Reg.LINK_STAT_AN_DONE p, Reg.LINK_STAT_FEC_ACT p, Reg.LINK_STAT_LPI_TX p, Reg.LINK_STAT_LPI_RX p,
      Reg.LINK_STAT_PAUSED p, Reg.LINK_STAT_FAULT p, Reg.FWD_CNT0_STOMP, Reg.TIME_STAT_PORT, Reg.TIME_PATH_DELAY_NS, Reg.TIME_PATH_DELAY_FRAC] ++ ringFlds ++
      sendFields ++ cutFields
    let isDown (s : State) (f : Nat) (t : State) := (∀ x ∈ [Reg.LINK_STAT_UP p, Reg.LINK_STAT_SPEED p, Reg.LINK_STAT_AN_DONE p, Reg.LINK_STAT_FEC_ACT p,
        Reg.LINK_STAT_LPI_TX p, Reg.LINK_STAT_LPI_RX p, Reg.LINK_STAT_PAUSED p], t.rd x = 0) ∧ t.rd (Reg.LINK_STAT_FAULT p) = f ∧
      (t.port p).rx = none ∧ (t.port p).tx = none ∧ (t.port p).pause = none ∧ (t.port p).lastGood = (s.port p).lastGood ∧ ((s.port p).rx.bind (·.pkt) = none →
        t.net.pkb = (s.net.pkb.map fun y => { y with egress := y.egress.erase p, sending := y.sending.erase p }).filter Pkt.live) ∧
      s.TapsCut t fun n => (s.cvuOn n 1 p && (s.port p).rx.isSome) || (s.cvuOn n 2 p && (s.port p).tx.isSome)
    let deaf (s t : State) := t.time = { s.time with
        floor := min s.time.floor t.floorNow
        announce := s.time.announce.filter fun x => x.1 != p
        delay := s.time.delay.filter fun x => x.1 != p
        delayNext := s.time.delayNext.filter fun x => x.1 != p
        syncDead := s.time.syncDead.filter fun x => x != p } ∧
      (s.timeSrc = 0 → s.coreDown = false →
        let live := t.heardPorts.filter fun x => !t.time.syncDead.contains x.1
        t.rd Reg.TIME_STAT_PORT = bestPort (if live = [] then t.heardPorts else live) % 8) ∧
      (s.timeSrc ≠ 0 ∨ s.coreDown = true → t.rd Reg.TIME_STAT_PORT = s.rd Reg.TIME_STAT_PORT)
    (s.powered 0 = false ∨ m = 0 ∨ s.rdB (Reg.LINK_STAT_UP p) = true → exec (.linkUp port fec refused) s = .next s) ∧
    (s.powered 0 = true → m ≠ 0 → s.rdB (Reg.LINK_STAT_UP p) = false →
      (refused = true → an → Answers (exec (.linkUp port fec refused) s) fun t => t.rd (Reg.LINK_STAT_SPEED_REJ p) = 1 ∧ only [Reg.LINK_STAT_SPEED_REJ p] t) ∧
      (refused = false ∨ ¬an → Answers (exec (.linkUp port fec refused) s) fun t => t.rd (Reg.LINK_STAT_UP p) = 1 ∧
        t.rd (Reg.LINK_STAT_SPEED p) = (if m ≤ 2 then 3 else if m = 3 then 2 else 1) ∧ t.rd (Reg.LINK_STAT_FAULT p) = 0 ∧
        (t.rdB (Reg.LINK_STAT_AN_DONE p) = true ↔ an ∧ s.rdB (Reg.LINK_MODE_AN_EN p) = true) ∧
        (t.rdB (Reg.LINK_STAT_FEC_ACT p) = true ↔ fec = true ∧ m = 2 ∧ s.rdB (Reg.LINK_MODE_FEC_EN p) = true) ∧ t.Raised Ev.LINK_UP p ∧ ring t ∧
        s.Changed t ([Reg.LINK_STAT_UP p, Reg.LINK_STAT_SPEED p, Reg.LINK_STAT_FAULT p, Reg.LINK_STAT_AN_DONE p, Reg.LINK_STAT_FEC_ACT p] ++ ringFlds)
          [Ev.LINK_UP, Ev.RING_OPEN, Ev.RING_HEAL] (s.withRecords t))) ∧
    (s.portUp p = false → exec (.linkDown port fault) s = .next s) ∧
    (s.portUp p = true → Answers (exec (.linkDown port fault) s) fun t => isDown s fault.val t ∧ t.Raised Ev.LINK_DOWN p ∧ ring t ∧ deaf s t ∧
      s.Changed t downFlds [Ev.LINK_DOWN, Ev.RING_OPEN, Ev.RING_HEAL, Ev.BUF_LOW] { s.withRecords t with net := t.net, time := t.time, cvu := t.cvu }) ∧
    (¬d.admits (0x50000 + 0x1000 * p) w → exec (.linkModeWrite port w) s = .next d) ∧
    (d.admits (0x50000 + 0x1000 * p) w → Answers (exec (.linkModeWrite port w) s) fun t => isDown d 0 t ∧ t.reg (Reg.LINK_MODE_MODE p).addr = w &&& 0xFF7F ∧
      (t.port p).modeAt = d.time.uptime ∧
      (t.rd (Reg.LINK_MODE_MODE p) ∈ (if p < 2 then [0, 1, 2, 3, 4, 6] else [0, 3, 4, 5, 6]) →
        t.rd (Reg.LINK_STAT_MODE_REJ p) = d.rd (Reg.LINK_STAT_MODE_REJ p)) ∧
      (t.rd (Reg.LINK_MODE_MODE p) ∉ (if p < 2 then [0, 1, 2, 3, 4, 6] else [0, 3, 4, 5, 6]) → t.rd (Reg.LINK_STAT_MODE_REJ p) = 1 ∧ t.linkMode p = 0) ∧
      d.Changed t (downFlds ++ [⟨(Reg.LINK_MODE_MODE p).addr, 0, 32⟩, Reg.LINK_STAT_MODE_REJ p]) [Ev.LINK_DOWN, Ev.RING_OPEN, Ev.RING_HEAL, Ev.BUF_LOW]
        { d.withRecords t with net := t.net, time := t.time, cvu := t.cvu } ∧
      (d.rdB (Reg.LINK_STAT_UP p) = true → deaf d t) ∧ (d.rdB (Reg.LINK_STAT_UP p) = false → t.time = d.time)) ∧
    (s.net.flow = true → s.rdB (Reg.LINK_PAUSE_TX p) = true → s.portUp p = true → Answers (exec (.flowControlPauseResend port) s) fun t =>
      let x := { s.port p with ownPause := (s.port p).ownPause ++ [s.rd Reg.FWD_QUANTA_QUANTA] }
      (s.rdB (Reg.LINK_STAT_LPI_TX p) = false → t.port p = x ∧ t.regs = s.regs) ∧
      (s.rdB (Reg.LINK_STAT_LPI_TX p) = true → t.port p = { x with wakeAt := s.time.uptime + usec (s.rd (Reg.LINK_EEE_TW p)) } ∧
        t.rd (Reg.LINK_STAT_LPI_TX p) = 0 ∧ t.rd (Reg.LINK_CNT1_LPI_LATE p) = min (s.rd (Reg.LINK_CNT1_LPI_LATE p) + 1) 255) ∧
      (∀ o : Nat, o ≠ p → t.port o = s.port o) ∧
      s.Changed t [Reg.LINK_STAT_LPI_TX p, Reg.LINK_CNT1_LPI_LATE p] [] { s.withRecords t with net := { s.net with ports := t.net.ports } }) ∧
    (s.net.flow = false ∨ s.rdB (Reg.LINK_PAUSE_TX p) = false ∨ s.portUp p = false → exec (.flowControlPauseResend port) s = .next s) ∧
    (s.portUp p = true → m = 2 ∨ m = 5 ∨ m = 6 → Answers (exec (.partnerLpi port enter) s) fun t => t.rdB (Reg.LINK_STAT_LPI_RX p) = enter ∧
      only [Reg.LINK_STAT_LPI_RX p] t) ∧
    (s.portUp p = false ∨ (m ≠ 2 ∧ m ≠ 5 ∧ m ≠ 6) → exec (.partnerLpi port enter) s = .next s)) ∧
  ∀ (s : State) (at_ : Vt) (port : Fin 6) (due : Bool),
    let p := port.val
    let e := s.elapseTo at_
    let x := s.port p
    let tw := s.rd (Reg.LINK_EEE_TW p)
    let event (f : List Byte) : Bool := match ptpAt f with
      | some (o, _) => byteAt f o % 16 ≤ 3
      | none => false
    let waits (k : Pkt) := k.egress.contains p && s.mayCut k p
    let started (q : Option (Nat × Option Nat)) := match q with
      | some (n, none) => some (n, some e.time.uptime)
      | other => other
    let quiet := x.tx.isNone && x.ownPause.isEmpty && !s.net.pkb.any fun k => k.egress.contains p
    let ok := s.portUp p = true ∧ s.eeeAct p = true ∧ tw ≠ 0 ∧ quiet = true ∧ due = false ∧
      e.scheduledWithin p (usec (tw + s.rd (Reg.LINK_EEE_GUARD p))) = false ∧ ∃ stop ∈ e.lpiWindow p, e.now + usec (tw + s.rd (Reg.LINK_EEE_GUARD p)) ≤ stop
    let wake (t : State) := t.rd (Reg.LINK_STAT_LPI_TX p) = 0 ∧ (t.port p).wakeAt = e.time.uptime + usec tw
    (e.portReady p = false → exec (.txQueueStart at_ port) s = .next e) ∧
    (e.portReady p = true → (∀ n : Nat, n < 8 → s.cvuOn n 2 p = false) →
      (∀ (q : Nat) (rest : List Nat), x.ownPause = q :: rest →
        exec (.txQueueStart at_ port) s = .next (e.setPort p { x with ownPause := rest, tx := some ⟨none, q, e.now, none⟩ })) ∧
      (x.ownPause = [] → s.isPaused p = true ∨ (∀ k ∈ s.net.pkb, waits k = false) → exec (.txQueueStart at_ port) s = .next e) ∧
      (x.ownPause = [] → s.isPaused p = false → ∀ (before after : List Pkt) (k : Pkt), s.net.pkb = before ++ k :: after → waits k = true → k.prio ≤ 3 →
        (∀ k' ∈ before, waits k' = true → k.prio < k'.prio) → (∀ k' ∈ after, waits k' = true → k.prio ≤ k'.prio) →
        Answers (exec (.txQueueStart at_ port) s) fun t =>
          (∃ start : Nat, (t.port p).tx = some ⟨some k.id, 0, start, none⟩ ∧ ∀ y : Pkt, s.pkt k.id = some y →
            (event y.bytes = false → start = e.now ∧ t.free = e.free) ∧
            (event y.bytes = true → start ≤ e.now ∧ e.now < start + 52429 ∧ t.free = e.free + 1)) ∧
          t.net.pkb = (s.net.pkb.map fun y => if y.id = k.id then { y with egress := y.egress.erase p, sending := y.sending ++ [p] } else y).filter Pkt.live ∧
          e.Changed t sendFields [Ev.BUF_LOW] { e.withRecords t with net := t.net, free := t.free })) ∧
    (x.tx = none → exec (.txFrameDone at_ port) s = .next e) ∧
    ((∀ n : Nat, n < 8 → s.cvuOn n 2 p = false) →
      (∀ t0 : TxSt, x.tx = some t0 → t0.cut ≠ none ∨ t0.pkt = none →
        exec (.txFrameDone at_ port) s = .next (e.setPort p { x with tx := none, pause := started x.pause })) ∧
      (∀ t0 : TxSt, x.tx = some t0 → t0.cut = none → ∀ id : Nat, t0.pkt = some id → ∀ k : Pkt, s.pkt id = some k →
        (k.whole = false → exec (.txFrameDone at_ port) s = .next e) ∧
        (k.whole = true → Answers (exec (.txFrameDone at_ port) s) fun t => (t.port p).tx = none ∧ (t.port p).pause = started x.pause ∧
          t.net.pkb = (s.net.pkb.map fun y => if y.id = id then { y with sending := y.sending.erase p } else y).filter Pkt.live ∧
          e.Changed t sendFields [Ev.BUF_LOW] { e.withRecords t with net := t.net }))) ∧
    (x.pause = none → exec (.pauseExpiry at_ port) s = .next e) ∧
    (∀ (q t0 : Nat), x.pause = some (q, some t0) → t0 ≤ e.time.uptime →
      (e.time.uptime < t0 + q * s.quantum p → exec (.pauseExpiry at_ port) s = .next e) ∧
      (t0 + q * s.quantum p ≤ e.time.uptime → Answers (exec (.pauseExpiry at_ port) s) fun t => t.port p = { x with pause := none } ∧
        t.rd (Reg.LINK_STAT_PAUSED p) = 0 ∧ (∀ o : Nat, o ≠ p → t.port o = s.port o) ∧
        e.Changed t [Reg.LINK_STAT_PAUSED p] [] { e with regs := t.regs, net := { s.net with ports := t.net.ports } })) ∧
    (¬ok → exec (.lpiEnter at_ port due) s = .next e) ∧
    (ok → Answers (exec (.lpiEnter at_ port due) s) fun t => t.rd (Reg.LINK_STAT_LPI_TX p) = 1 ∧
      e.Changed t [Reg.LINK_STAT_LPI_TX p] [] { e with regs := t.regs }) ∧
    (s.rdB (Reg.LINK_STAT_LPI_TX p) = false → exec (.lpiExit at_ port due) s = .next e ∧ exec (.lpiWakeFrame at_ port) s = .next e) ∧
    (s.rdB (Reg.LINK_STAT_LPI_TX p) = true →
      (due = false → e.scheduledWithin p (usec tw) = false → (∃ stop ∈ e.lpiWindow p, e.now + usec tw < stop) → exec (.lpiExit at_ port due) s = .next e) ∧
      (due = true ∨ e.scheduledWithin p (usec tw) = true ∨ (∀ stop ∈ e.lpiWindow p, stop ≤ e.now + usec tw) → Answers (exec (.lpiExit at_ port due) s) fun t => wake t ∧
        e.Changed t [Reg.LINK_STAT_LPI_TX p] [] { e with regs := t.regs, net := { s.net with ports := t.net.ports } }) ∧
      Answers (exec (.lpiWakeFrame at_ port) s) fun t => wake t ∧ t.rd (Reg.LINK_CNT1_LPI_LATE p) = min (s.rd (Reg.LINK_CNT1_LPI_LATE p) + 1) 255 ∧
        e.Changed t [Reg.LINK_STAT_LPI_TX p, Reg.LINK_CNT1_LPI_LATE p] [] { e with regs := t.regs, net := { s.net with ports := t.net.ports } })

/-- A frame's head takes cells or is refused; its end is counted as runt, oversize, bad, stomped or good; levels, ledger and
windows. At its 64th byte on a port with link up a frame that goes nowhere is only noted; one that finds the free cells at
the reserve is refused, counted in both NOCELL counters; any other joins the buffer, incomplete, waiting at or sent by
exactly the egress ports of its class whose queues have room; with room at none and no local use it is not stored, and the
ports count the loss. The ingress timestamp of a PTP event message lies less than 0.8 ns before its instant. At its end, with no check unit on the port: a stomped frame of any length counts in STOMP_RX and raises
no event; else a runt, a frame above MTU and one with a wrong FCS count in their counters; ports that had not begun such a
frame drop it, and those that send it end it stomped, above MTU cut to it, and after 60 bytes where the cells for more are
not there; a sending port whose queue the growth would overfill stops it after 60 bytes and counts the loss. A good frame that no local user takes is whole in the buffer. The port is free again. A released frame stays
LOCKED until no port sends it, then leaves the buffer. FWD_XOFF and RESERVE of an admitted write are taken only in the order RESERVE < XOFF
< XON ≤ 2,048, else CFG_REJ. An admitted ledger snapshot sums to 2,048 while the buffer holds no more. Windows unused for AGE are
freed. A silent trunk stops delivering. (Derived from 09 Classification (R240, R241, R242, R249), 09 Reception (R244,
R245, R246, R247, R248), 09 Cells (R256, R257, R259, R260, R261), 09 Duplicates (R253), 09 The ring (R255).) -/
def Obligations.FramesAreStoredCheckedAndCounted : Prop :=
  (∀ (s : State) (at_ : Vt) (port : Fin 6) (f : List Byte),
    let p := port.val
    let e := s.elapseTo at_
    let c := e.frameClass p f
    let up := s.portUp p = true
    let event : Bool := match ptpAt f with
      | some (o, _) => byteAt f o % 16 ≤ 3
      | none => false
    let netTime (t : State) : State := { e.withRecords t with net := t.net }
    let one (g : Fld) (t : State) := t.rd g = min (s.rd g + 1) (2 ^ g.len - 1)
    let rxFree (t : State) := (t.port p).rx = none
    let untapped := ∀ n : Nat, n < 8 → s.cvuOn n 1 p = false
    let stomp (b : List Byte) := b ++ stompedFcs b
    let isBad := fcsKind f ≠ .good ∨ s.mtu < f.length
    let count := if fcsKind f = .stomped then Reg.LINK_CNT0_STOMP_RX p else if s.mtu < f.length then Reg.LINK_CNT0_OVERSIZE p else Reg.LINK_CNT0_FCS_ERR p
    let ends := if s.mtu < f.length then stomp (f.take (s.mtu - 4)) else if fcsKind f = .wrong then stomp (f.take (f.length - 4)) else f
    let more (k : Pkt) (b : List Byte) := max 1 ((b.length + 255) / 256) - k.cells
    (¬up ∨ (s.port p).rx ≠ none ∨ f.length ≠ 64 → exec (.frameClassify at_ port f) s = .next e) ∧
    (up → (s.port p).rx = none → f.length = 64 →
      (untapped → c.egress = [] → c.loc = false → Answers (exec (.frameClassify at_ port f) s) fun t => (t.port p).rx = some ⟨e.now, none, false⟩ ∧
        (c.row = 4 → one Reg.FWD_CNT1_LOOP t) ∧ (c.row ≠ 4 → t.regs = s.regs) ∧ t.net.pkb = s.net.pkb ∧ e.Changed t [Reg.FWD_CNT1_LOOP] [] (netTime t)) ∧
      (untapped → c.egress ≠ [] ∨ c.loc = true → c.row ≠ 4 → s.freeCells ≤ s.rd Reg.FWD_CFG_RESERVE → Answers (exec (.frameClassify at_ port f) s) fun t =>
        (t.port p).rx = some ⟨e.now, none, true⟩ ∧ one (Reg.LINK_CNT1_NOCELL p) t ∧ one Reg.FWD_CNT0_NOCELL t ∧ t.net.pkb = s.net.pkb ∧
        e.Changed t [Reg.LINK_CNT1_NOCELL p, Reg.FWD_CNT0_NOCELL] [Ev.RX_DISCARD] (netTime t)) ∧
      (c.egress ≠ [] → c.loc = false → (∀ o ∈ c.egress, s.qcap < s.portCells o + 1) → s.rd Reg.FWD_CFG_RESERVE < s.freeCells →
        Answers (exec (.frameClassify at_ port f) s) fun t => (t.port p).rx = some ⟨e.now, none, true⟩ ∧ t.net.pkb = s.net.pkb ∧
          (∀ o : Nat, o < 6 → t.rd (Reg.LINK_CNT1_NOCELL o) = min (s.rd (Reg.LINK_CNT1_NOCELL o) + if o ∈ c.egress then 1 else 0) 255)) ∧
      (c.loc = true ∨ (∃ o ∈ c.egress, s.portCells o + 1 ≤ s.qcap) → s.rd Reg.FWD_CFG_RESERVE < s.freeCells → Answers (exec (.frameClassify at_ port f) s) fun t =>
        (t.port p).rx = some ⟨e.now, some s.net.nextId, false⟩ ∧ t.net.nextId = s.net.nextId + 1 ∧
        (∃ k ∈ t.net.pkb, k.id = s.net.nextId ∧ k.bytes = f ∧ k.whole = false ∧ k.prio = c.prio ∧ k.holder = 0 ∧
          (∃ at_ : Nat, k.ingress = some (p, at_) ∧ at_ ≤ e.now - s.quantum p ∧ e.now - s.quantum p ≤ at_ + if event then 52428 else 0) ∧
          (∀ o : Nat, o < 6 → ((o ∈ k.egress ∨ o ∈ k.sending) ↔ (o ∈ c.egress ∧ s.portCells o + 1 ≤ s.qcap))) ∧
          ∀ o ∈ k.sending, e.portReady o = true ∧ s.isPaused o = false ∧ s.portRate o ≤ s.portRate p)))  ∧
    (¬up → exec (.frameReceived at_ port f) s = .next e) ∧
    (up → untapped → f.length < 64 →
      (fcsKind f ≠ .stomped → Answers (exec (.frameReceived at_ port f) s) fun t => one (Reg.LINK_CNT0_RUNT p) t ∧ rxFree t ∧ t.net.pkb = s.net.pkb ∧
        e.Changed t [Reg.LINK_CNT0_RUNT p] [Ev.RX_DISCARD] (netTime t)) ∧
      (fcsKind f = .stomped → Answers (exec (.frameReceived at_ port f) s) fun t => one (Reg.LINK_CNT0_STOMP_RX p) t ∧ rxFree t ∧
        t.net.pkb = s.net.pkb ∧ e.Changed t [Reg.LINK_CNT0_STOMP_RX p] [] (netTime t))) ∧
    (∀ r : RxSt, (s.port p).rx = some r → r.pkt = none → up → untapped → 64 ≤ f.length → isBad →
      Answers (exec (.frameReceived at_ port f) s) fun t => one count t ∧ rxFree t ∧ t.net.pkb = s.net.pkb ∧
        e.Changed t [count] (if fcsKind f = .stomped then [] else [Ev.RX_DISCARD]) (netTime t)) ∧
    (∀ r : RxSt, (s.port p).rx = some r → ∀ id : Nat, r.pkt = some id → ∀ k : Pkt, s.pkt id = some k → up → untapped → 64 ≤ f.length →
      let full (o : Nat) := decide (s.qcap < s.portCells o + more k ends)
      let stops := k.sending.filter full
      let after (gone : List Nat) (b : List Byte) := (s.net.pkb.map fun y =>
        if y.id = id then { y with whole := true, egress := [], sending := gone.foldl List.erase y.sending, holder := 0, bytes := b } else y).filter Pkt.live
      let fits := k.sending = [] ∨ more k ends = 0 ∨ s.rd Reg.FWD_CFG_RESERVE + more k ends ≤ s.freeCells
      let frame (t : State) := e.Changed t ([count, Reg.FWD_CNT0_STOMP] ++ sendFields) [Ev.RX_DISCARD, Ev.BUF_LOW] (netTime t)
      (isBad → fits → Answers (exec (.frameReceived at_ port f) s) fun t => rxFree t ∧ one count t ∧ t.net.pkb = after stops ends ∧ frame t ∧
        (k.sending.Nodup → ∀ o ∈ stops, one (Reg.LINK_CNT1_NOCELL o) t ∧
          (t.port o).tx = (s.port o).tx.map fun (x : TxSt) => { x with cut := some (stomp (ends.take 60)) })) ∧
      (isBad → ¬fits → Answers (exec (.frameReceived at_ port f) s) fun t => rxFree t ∧ one count t ∧ one (Reg.LINK_CNT1_NOCELL p) t ∧
        t.net.pkb = after [] (stomp (ends.take 60)) ∧ frame t) ∧
      (¬isBad → 7 ≤ c.row → c.loc = false → e.kindOf f ≠ .macControl → more k f = 0 ∨ s.rd Reg.FWD_CFG_RESERVE + more k f ≤ s.freeCells →
        (∀ o ∈ k.egress ++ k.sending, s.portCells o + more k f ≤ s.qcap) → Answers (exec (.frameReceived at_ port f) s) fun t => rxFree t ∧
        t.net.pkb = (s.net.pkb.map fun y => if y.id = id then { y with whole := true, holder := 0, bytes := f } else y).filter Pkt.live ∧
        e.Changed t ([Reg.LINK_STAT_DELIVER 0, Reg.LINK_STAT_DELIVER 1, Reg.FWD_RING_STATE, Reg.FWD_RING_SILENT] ++ sendFields)
          [Ev.RING_OPEN, Ev.RING_HEAL, Ev.BUF_LOW] (netTime t)))) ∧
  ∀ (s : State) (at_ : Vt) (core xoff : Bool) (w : Word),
    let e := s.elapseTo at_
    let d := s.movesDue
    let xoffAddr := if xoff then Reg.FWD_XOFF_XOFF.addr else Reg.FWD_CFG_TOPO.addr
    let holder := if core then 2 else 1
    let order (reserve a b : Nat) := reserve < a ∧ a < b ∧ b ≤ 2048
    let levels := if xoff then order (d.rd Reg.FWD_CFG_RESERVE) (bitsOf w 0 12) (bitsOf w 12 12) else
      order (bitsOf w 20 8) (d.rd Reg.FWD_XOFF_XOFF) (d.rd Reg.FWD_XOFF_XON)
    ((∀ k ∈ s.net.pkb, k.holder ≠ holder) → exec (.cellRelease core) s = .next s) ∧
    (∀ k : Pkt, s.net.pkb.find? (fun y => y.holder == holder) = some k → Answers (exec (.cellRelease core) s) fun t =>
      t.net.pkb = (s.net.pkb.map fun y => if y.id = k.id then { y with holder := if y.holder = 1 ∨ y.holder = 2 then 3 else y.holder } else y).filter Pkt.live ∧
      s.Changed t sendFields [Ev.BUF_LOW] { s.withRecords t with net := t.net }) ∧
    exec (.dupWindowAge at_) s = .next { e with net := { s.net with
      wins := s.net.wins.filter fun y => decide (e.time.uptime < y.last + msec (max 100 (s.rd Reg.FWD_DUP_AGE))) } } ∧
    (s.powered 0 = false → exec (.ringDeliveryTimeout at_) s = .next e) ∧
    (¬d.admits xoffAddr w → exec (.fwdFlowCfgWrite xoff w) s = .next d) ∧ (¬d.admits Reg.FWD_LEDGER_SNAP.addr 1 → exec .ledgerSnapshot s = .next d) ∧
    (s.powered 0 = true →
      Answers (exec (.ringDeliveryTimeout at_) s) fun t =>
        (∀ p : Nat, p < 2 → t.rdB (Reg.LINK_STAT_DELIVER p) = (s.portUp p && match (s.port p).lastGood with
          | none => false
          | some l => decide (e.time.uptime < l + msec (max 1 (s.rd Reg.FWD_RING_TMO))))) ∧
        (s.rdB Reg.FWD_CFG_TOPO = true → t.rd Reg.FWD_RING_STATE = 0) ∧
        (s.rdB Reg.FWD_CFG_TOPO = false → t.rd Reg.FWD_RING_STATE =
            (if t.rdB (Reg.LINK_STAT_DELIVER 0) then 1 else 0) + (if t.rdB (Reg.LINK_STAT_DELIVER 1) then 1 else 0) ∧
          (t.rd Reg.FWD_RING_STATE = 1 → s.rd Reg.FWD_RING_STATE ≠ 1 → t.Raised Ev.RING_OPEN (if t.rdB (Reg.LINK_STAT_DELIVER 0) then 1 else 0)) ∧
          (t.rd Reg.FWD_RING_STATE = 2 → s.rd Reg.FWD_RING_STATE ≠ 2 → t.Raised Ev.RING_HEAL 0)) ∧
        e.Changed t [Reg.LINK_STAT_DELIVER 0, Reg.LINK_STAT_DELIVER 1, Reg.FWD_RING_STATE, Reg.FWD_RING_SILENT] [Ev.RING_OPEN, Ev.RING_HEAL]
          (e.withRecords t)) ∧
    (d.admits xoffAddr w →
      (¬levels → xoff = true → Answers (exec (.fwdFlowCfgWrite xoff w) s) fun t => t.rd Reg.FWD_STAT_CFG_REJ = 1 ∧
        d.Changed t [Reg.FWD_STAT_CFG_REJ] [] { d with regs := t.regs, cycle := t.cycle }) ∧
      (levels → xoff = true → Answers (exec (.fwdFlowCfgWrite xoff w) s) fun t => t.reg Reg.FWD_XOFF_XOFF.addr = w &&& 0xFFFFFF ∧
        d.Changed t (⟨Reg.FWD_XOFF_XOFF.addr, 0, 32⟩ :: sendFields) [Ev.BUF_LOW] { d.withRecords t with net := t.net }) ∧
      (xoff = false → Answers (exec (.fwdFlowCfgWrite xoff w) s) fun t =>
        (levels → t.reg Reg.FWD_CFG_RESERVE.addr = w &&& 0x0FFFFF7F ∧ t.rd Reg.FWD_STAT_CFG_REJ = d.rd Reg.FWD_STAT_CFG_REJ) ∧
        (¬levels → t.rd Reg.FWD_CFG_RESERVE = d.rd Reg.FWD_CFG_RESERVE ∧ t.rd Reg.FWD_STAT_CFG_REJ = 1) ∧
        d.Changed t [⟨Reg.FWD_CFG_RESERVE.addr, 0, 32⟩, Reg.FWD_STAT_CFG_REJ, Reg.LINK_STAT_DELIVER 0, Reg.LINK_STAT_DELIVER 1, Reg.FWD_RING_STATE,
          Reg.FWD_RING_SILENT] [Ev.RING_OPEN, Ev.RING_HEAL] (d.withRecords t))) ∧
    (d.admits Reg.FWD_LEDGER_SNAP.addr 1 → Answers (exec .ledgerSnapshot s) fun t => (d.lockedCells + d.queuedCells ≤ 2048 →
          t.rd Reg.FWD_LEDGER_FREE + t.rd Reg.FWD_LEDGER_QUEUED + t.rd Reg.FWD_LEDGER_LOCKED = 2048 ∧ t.rd Reg.FWD_LEDGER_LOCKED = d.lockedCells) ∧
        t.rd Reg.FWD_LEDGER_COUNT = (d.rd Reg.FWD_LEDGER_COUNT + 1) % 2 ^ Reg.FWD_LEDGER_COUNT.len ∧
        d.Changed t [Reg.FWD_LEDGER_FREE, Reg.FWD_LEDGER_QUEUED, Reg.FWD_LEDGER_LOCKED, Reg.FWD_LEDGER_COUNT] [] { d with regs := t.regs, cycle := t.cycle })

/-- A PIXEL packet is rejected, stale, late, or puts its samples into the board of its frame. With NET and PIX powered and no
deadline due: a payload that is shorter than its header, names no existing map by its handle, a map that is not usable,
another format, a length or a pixel range that does not fit counts in REJECT and changes nothing else. A good packet of a
frame that fills a board not being composed writes exactly its samples there and covers their slots; the board is READY exactly while
every expected map is covered; into a board being
composed it counts in LATE_PKT. The first good packet of a frame without a board fixes its target by its when field, a FLIP of it that
waits before that, and later ones do not change it; this holds also where the packet is discarded: a frame without a board is STALE when it is the one
SHOWING or its target is not later than that one's, LATE_PKT when its deadline has passed, and otherwise takes the lowest EMPTY board,
else the board that fills with the earliest target earlier than its own, counted in EVICTED, else it counts in NO_BOARD. The other
boards and their sample bytes and all other registers stay, but for check units on the FCM_WR tap, which see the bytes. Without NET or PIX nothing changes.
(Derived from 03 Input (R73, R75, R76, R77, R79, R80), 03 Corner table (Table 3.2), 14 Taps (R405).) -/
def Obligations.PixelPacketsFillTheirBoard : Prop :=
  ∀ (s : State) (at_ : Vt) (when_ : BitVec 64) (frame : Word) (payload : List Byte),
    let e := s.elapseTo at_
    let handle := beAt payload 0 4
    let m := handle % 65536
    let first := beAt payload 4 4
    let count := beAt payload 8 2
    let d := s.mapDesc m
    let spp := samplesPer d.format
    let good := 12 ≤ payload.length ∧ m < 64 ∧ handle ≠ 0 ∧ s.rd (Reg.PIPE_MAP_HANDLE m) = handle ∧ d.usable = true ∧ byteAt payload 10 = d.format ∧
      payload.length = 12 + count * bytesPer d.format ∧ first + count ≤ d.w * d.h
    let board (i : Nat) := (s.board i).frame = some frame ∧ (s.board i).showing = false
    let one (f : Fld) (t : State) := t.rd f = min (s.rd f + 1) (2 ^ f.len - 1)
    let counted (f : Fld) (t : State) := one f t ∧ e.Changed t [f] [] (e.withRecords t)
    let own := e.targetOf when_.toNat
    let k := (s.knownFrame frame).getD (match s.pipe.flips.find? fun x => x.1 == frame with
      | some x => ⟨some x.2, none, own.isNone⟩
      | none => ⟨own, if when_ = 0 ∨ own = none then none else some when_.toNat, own.isNone⟩)
    let dropped (f : Fld) (t : State) := one f t ∧ t.knownFrame frame = some k ∧
      e.Changed t [f] [] { e.withRecords t with pipe := { e.pipe with known := t.pipe.known } }
    let fills (i : Nat) (extra : List Fld) (t : State) :=
      (∀ c : Nat, c < count → ∀ k : Nat, k < spp →
        (t.board i).covered (d.base + (first + c) * spp + k) = true ∧
        t.fcm16 (fcmBoard i + 2 * (d.base + (first + c) * spp + k)) =
          (widen d.format (slice (payload.drop 12) (c * bytesPer d.format) (bytesPer d.format))).getD k 0 % 65536) ∧
      State.FcmKept (fun o => fcmBoard i + 2 * (d.base + first * spp) ≤ o ∧ o < fcmBoard i + 2 * (d.base + (first + count) * spp)) s t ∧
      (t.board i).frame = some frame ∧ (t.board i).ready = t.complete (t.board i) ∧ (∀ j : Nat, j < 3 → j ≠ i → t.board j = s.board j) ∧
      s.TapsKept t ∧ e.Changed t (extra ++ fcmTapFields) [Ev.CVU_MISMATCH] { e.withRecords t with
        fcm := t.fcm, badWords := t.badWords, cvu := t.cvu, pipe := { e.pipe with boards := t.pipe.boards, known := t.pipe.known } }
    let takes (i : Nat) (extra : List Fld) (t : State) := fills i extra t ∧ (t.board i).target = k.target ∧ (t.board i).held = k.held ∧
      (t.board i).deadline = k.target.map s.deadlineOf ∧ t.knownFrame frame = some k
    (s.powered 0 = false ∨ s.powered 2 = false → exec (.pixelPacket at_ when_ frame payload) s = .next e) ∧
    (s.powered 0 = true → s.powered 2 = true →
      (¬good → Answers (exec (.pixelPacket at_ when_ frame payload) s) (counted Reg.PIPE_CNT1_REJECT)) ∧
      (good → e.deadlinesDue = e →
        (∀ i : Nat, i < 3 → board i → (∀ j : Nat, j < i → ¬board j) →
          (s.composing i = true → Answers (exec (.pixelPacket at_ when_ frame payload) s) (counted Reg.PIPE_CNT0_LATE_PKT)) ∧
          (s.composing i = false → d.base + d.w * d.h * spp ≤ 49152 → Answers (exec (.pixelPacket at_ when_ frame payload) s) fun t => fills i [] t ∧
            (t.board i).target = (s.board i).target ∧ (t.board i).held = (s.board i).held ∧ t.pipe.known = s.pipe.known)) ∧
        ((∀ i : Nat, i < 3 → ¬board i) →
          let shown := ∃ i ∈ s.showing, (s.board i).frame = some frame
          let enters := ¬shown ∧ e.isStale k.target = false ∧ e.isLate k.target = false ∧ d.base + d.w * d.h * spp ≤ 49152
          (shown ∨ e.isStale k.target = true → Answers (exec (.pixelPacket at_ when_ frame payload) s) (dropped Reg.PIPE_CNT0_STALE)) ∧
          (¬shown → e.isStale k.target = false → e.isLate k.target = true →
            Answers (exec (.pixelPacket at_ when_ frame payload) s) (dropped Reg.PIPE_CNT0_LATE_PKT)) ∧
          (enters → ∀ i : Nat, i < 3 → (s.board i).code = 0 → (∀ j : Nat, j < i → (s.board j).code ≠ 0) → s.composing i = false →
            Answers (exec (.pixelPacket at_ when_ frame payload) s) (takes i [])) ∧
          (enters → (∀ i : Nat, i < 3 → (s.board i).code ≠ 0) →
            (∀ i : Nat, e.evictable k.target = some i → Answers (exec (.pixelPacket at_ when_ frame payload) s) fun t =>
              takes i [Reg.PIPE_CNT0_EVICTED] t ∧ one Reg.PIPE_CNT0_EVICTED t ∧
              ∃ u v : Nat, k.target = some v ∧ (s.board i).target = some u ∧ u < v ∧ (s.board i).code = 1) ∧
            (e.evictable k.target = none → Answers (exec (.pixelPacket at_ when_ frame payload) s) (dropped Reg.PIPE_CNT0_NO_BOARD))))))

/-- HELLO opens or refuses a session; silence closes it; TIME, EVENT, CENSUS and answers leave as the rules say. A HELLO
request gets no answer in SENTRY and BOOT or without its kind byte; it is refused with one waiting answer of its status:
E_BUSY while the core is down, E_PARAM when short, E_VERSION without a common version, and the first of E_PARAM, E_AUTH,
E_STATE, E_NOSPACE that applies; otherwise a session opens at the requested or lowest free index with its grant as credits
and an OK answer; one of its own at the requested index closes first. Every session of the partner counts as heard. A session
silent for SES_TMO closes: its handle is void, its subscriptions, waiting commands and answers and timed commands are gone. A
TIME announcement of the followed session in FOLLOW, its period within the limits and its point T_VB_MIN or more after the
coming castling point, writes the grid shadows, where software does not in the SYS cycle, and waits for the castling point; another counts in FOLLOW_REJ. A
subscription's records leave together when the core runs; nothing is sent or taken while it is down. The oldest waiting answer
leaves when NET is on, returning its credit, numbered on from the last of its stream: that of its session, or, of a REPLY outside
sessions, of the open session that its session field names, or that of its node, class and session field where no session is open. At Floor 3 firmware's census reports take the changes of the oldest frame that is
complete; below it they wait. (Derived from 10 Packets (R290), 10 Sessions (R298, R299, R300, R301, R303, R304), 10 Credits (R309), 10
TIME (R314, Table 2.3), 10 EVENT (R315), 10 CENSUS (R215, R316).) -/
def Obligations.SessionsOpenAnswerAndClose : Prop :=
  (∀ (s : State) (at_ : Vt) (src : BitVec 12) (mac : BitVec 48) (udp : Option (Nat × Nat)) (tag : Word) (p : List Byte),
    let e := (s.elapseTo at_).hearPartner src.toNat
    let c := Instr.hello at_ src mac udp tag p
    let peer : ReplyTo := ⟨src.toNat, mac.toNat, udp⟩
    let index := beAt p 8 2
    let key := byteAt p 1
    let version := helloVersion (byteAt p 4, byteAt p 5) (byteAt p 6, byteAt p 7)
    let refused (st : Status) (t : State) := (∃ m ∈ t.klp.out.getLast?, t.klp.out = s.klp.out ++ [m] ∧ m.session = none ∧ m.cls = 7 ∧ m.handle = 0 ∧ m.tag = tag.toNat ∧
      m.status = st ∧ m.peer = peer ∧ m.credit = false) ∧ t = { e with klp := { e.klp with out := t.klp.out } }
    (∀ i : Nat, tabFind e.klp.sessions i = (tabFind s.klp.sessions i).map fun x => if x.partner = src.toNat then { x with heard := (s.elapseTo at_).idleNow } else x) ∧
    (s.devState ≤ 1 ∨ p = [] ∨ byteAt p 0 ≠ 1 → exec c s = .next e) ∧
    (2 ≤ s.devState → p ≠ [] → byteAt p 0 = 1 →
      (s.coreDown = true → Answers (exec c s) (refused .eBusy)) ∧
      (s.coreDown = false → p.length < 40 → Answers (exec c s) (refused .eParam)) ∧
      (s.coreDown = false → 40 ≤ p.length → version = none → Answers (exec c s) (refused .eVersion)) ∧
      (∀ v : Nat × Nat, version = some v → s.coreDown = false → 40 ≤ p.length →
        let bad := (32 ≤ index ∧ index ≠ 0xFFFF) ∨ (4 ≤ key ∧ key ≠ 0xFF)
        let unauth := s.rdB Reg.FWD_KLP_CFG_AUTH_REQ = true ∧ s.inRecovery = false ∧ s.helloKey key v = none
        let taken := index ≠ 0xFFFF ∧ s.heldByOther index src.toNat = true
        let d := if s.heldByOwn index src.toNat = true then e.closeSession index else e
        let full := 32 ≤ d.klp.sessions.length ∨ 128 ≤ d.granted
        (bad → Answers (exec c s) (refused .eParam)) ∧
        (¬bad → unauth → Answers (exec c s) fun t => (∃ m ∈ t.klp.out.getLast?, m.status = .eAuth ∧ m.peer = peer ∧ m.tag = tag.toNat) ∧
          t.Raised Ev.AUTH_FAIL src.toNat ∧ t.rd Reg.FWD_KLP_CNT1_AUTH = min (s.rd Reg.FWD_KLP_CNT1_AUTH + 1) 255 ∧ t.klp.sessions = e.klp.sessions) ∧
        (¬bad → ¬unauth → taken → Answers (exec c s) (refused .eState)) ∧
        (¬bad → ¬unauth → ¬taken → full → Answers (exec c s) (refused .eNoSpace)) ∧
        (¬bad → ¬unauth → ¬taken → ¬full → ∀ i : Nat, (if index = 0xFFFF then d.freeIndex 1 else some index) = some i → Answers (exec c s) fun t =>
          let ask := if v.1 = 2 ∨ beAt p 10 2 = 0 then 8 else beAt p 10 2
          (∃ x ∈ tabFind t.klp.sessions i, x.partner = src.toNat ∧ (x.verMaj, x.verMin) = v ∧ x.key = s.helloKey key v ∧ x.peer = peer ∧ x.outst = 0 ∧
            x.grant = min (min ask 32) (128 - d.granted) ∧ x.avail = x.grant ∧ x.heard = e.time.uptime ∧ x.lastSeq = none) ∧
          (∃ m ∈ t.klp.out.getLast?, m.session = some (d.handle 1 i) ∧ m.status = .ok ∧ m.peer = peer ∧ m.tag = tag.toNat) ∧
          (∀ j : Nat, j ≠ i → tabFind t.klp.sessions j = tabFind d.klp.sessions j) ∧
          t = { d with klp := { d.klp with sessions := t.klp.sessions, out := t.klp.out }, free := t.free })))) ∧
  (∀ (s : State) (at_ : Vt) (n : Fin 32),
    let e := s.elapseTo at_
    let tmo := s.rd Reg.FWD_KLP_CFG_SES_TMO
    (tabFind s.klp.sessions n.val = none → exec (.sessionIdleTimeout at_ n) s = .next e) ∧
    ∀ x : Session, tabFind s.klp.sessions n.val = some x →
      (tmo = 0 ∨ e.idleNow - x.heard < sec tmo → exec (.sessionIdleTimeout at_ n) s = .next e) ∧
      (tmo ≠ 0 → sec tmo ≤ e.idleNow - x.heard → Answers (exec (.sessionIdleTimeout at_ n) s) fun t => let h := s.handle 1 n.val
        tabFind t.klp.sessions n.val = none ∧ t.sessionAt h = none ∧ t.klp.out = s.klp.out.filter (fun m => m.session != some h) ∧
        (∀ b ∈ t.klp.subs, b.2.session ≠ h) ∧ (∀ m ∈ t.klp.timed, m.origin.inSession h = false) ∧
        (∀ j : Nat, j ≠ n.val → tabFind t.klp.sessions j = tabFind s.klp.sessions j) ∧
        t.klp.streams.lookup (s.rd Reg.FWD_ADDR_NODE, 3, h) = some x.seqReply ∧
        t = { e with klp := t.klp, gens := t.gens, cmd := { e.cmd with parked := e.cmd.parked.filter fun w => !w.origin.inSession h } })) ∧
  (∀ (s : State) (ver : BitVec 8) (session : Word) (p : List Byte),
    let c := Instr.timePacket ver session p
    let counted (t : State) := t.rd Reg.TIME_CNT_FOLLOW_REJ = min (s.rd Reg.TIME_CNT_FOLLOW_REJ + 1) 255 ∧
      s.Changed t [Reg.TIME_CNT_FOLLOW_REJ] [] (s.withRecords t)
    let read := ver.toNat = 3 ∧ byteAt p 0 = 1 ∧ 20 ≤ p.length ∧ s.powered 2 = true
    let point := beAt p 4 8 * nsUnit + beAt p 2 2
    let period := beAt p 12 4 * nsUnit + beAt p 16 2
    let bad := period < s.effMin ∨ s.effMax < period ∨ point < s.castlingNext + s.tVbMin
    (¬read → exec c s = .next s) ∧
    (read → s.sessionAt session.toNat = none → Answers (exec c s) counted) ∧
    (∀ x : Session, s.sessionAt session.toNat = some x → read →
      (bitAt x.caps 2 = false → exec c s = .next s) ∧
      (bitAt x.caps 2 = true → s.rd Reg.SCAN_MODE_MODE ≠ 2 ∨ session.toNat ≠ s.time.followHandle ∨ bad → Answers (exec c s) counted) ∧
      (bitAt x.caps 2 = true → s.rd Reg.SCAN_MODE_MODE = 2 → session.toNat = s.time.followHandle → ¬bad → Answers (exec c s) fun t =>
        (∀ f : Fld × Nat, f ∈ [(Reg.TIME_GRID_EPOCH_EPOCH_HI, beAt p 4 4), (Reg.TIME_GRID_EPOCH_EPOCH_LO, beAt p 8 4),
            (Reg.TIME_GRID_EPOCH_FRAC_FRAC, beAt p 2 2), (Reg.TIME_GRID_PERIOD_NS, beAt p 12 4), (Reg.TIME_GRID_PERIOD_FRAC, beAt p 16 2)] →
          t.rdSh f.1 = if f.1.addr ∈ s.cycle.written then s.rdSh f.1 else f.2) ∧
        t = { s with shadow := t.shadow, time := { s.time with followDue := some (point, period) } }))) ∧
  ∀ (s : State) (at_ : Vt) (n : Fin 128),
    let e := s.elapseTo at_
    let sent (t : State) := { e.withRecords t with net := t.net, klp := t.klp, free := t.free, cvu := t.cvu }
    (s.coreDown = true → exec (.eventDelivery at_ n) s = .next e ∧ exec (.censusReport at_) s = .next e) ∧
    (tabFind s.klp.subs n.val = none → exec (.eventDelivery at_ n) s = .next e) ∧
    (∀ b : Sub, tabFind s.klp.subs n.val = some b → ∀ x : Session, s.sessionAt b.session = some x → s.coreDown = false → s.powered 0 = true →
      b.queue ≠ [] → s.canSend x.peer = true → Answers (exec (.eventDelivery at_ n) s) fun t =>
        (∃ c ∈ tabFind t.klp.subs n.val, c.session = b.session ∧ c.mask = b.mask ∧ ∀ r ∈ c.queue, r.event = Ev.BUF_LOW) ∧ (∃ y ∈ t.sessionAt b.session, y = { x with seqEvent := x.seqEvent + 1 }) ∧
        (∀ j : Nat, j ≠ n.val → (tabFind t.klp.subs j).map (·.session) = (tabFind s.klp.subs j).map (·.session)) ∧
        t.klp.out = s.klp.out ∧ t.klp.timed = s.klp.timed ∧ s.Changed t sendFields [Ev.BUF_LOW] (sent t)) ∧
    (e.floor ≠ 3 → exec (.censusReport at_) s = .next e) ∧
    (e.floor = 3 → Answers (exec (.censusReport at_) s) fun t => t.census.sweepReport = false ∧
      (e.changedFrame = none → t.census.changes = s.census.changes) ∧
      (∀ m : MapChange, e.changedFrame = some m → t.census.changes = s.census.changes.filter fun x => x.frame != m.frame) ∧
      s.Changed t sendFields [Ev.BUF_LOW] { sent t with census := { s.census with sweepReport := false, changes := t.census.changes } }) ∧
    (s.klp.out = [] ∨ s.powered 0 = false → exec (.replySent at_) s = .next e) ∧
    (∀ (m : OutMsg) (rest : List OutMsg), s.klp.out = m :: rest → s.powered 0 = true → m.after = .nothing → Answers (exec (.replySent at_) s) fun t =>
      t.klp.out = rest ∧ (∀ h : Nat, m.session = some h → ∀ x : Session, s.sessionAt h = some x → ∃ y ∈ t.sessionAt h,
        y.outst = (if m.credit then x.outst - 1 else x.outst) ∧
        y.avail = (if m.credit = true ∧ x.avail + (x.outst - 1) < x.grant then x.avail + 1 else x.avail) ∧
        y.seqReply = (if m.cls = 3 ∧ s.canSend m.peer = true then x.seqReply + 1 else x.seqReply)) ∧
      (m.session = none → m.cls = 3 → ∀ x : Session, s.sessionAt m.handle = some x → s.canSend m.peer = true →
        t.sessionAt m.handle = some (let y : Session := { x with seqReply := x.seqReply + 1 }; if m.credit then y.giveBack else y)) ∧
      (m.session.bind s.sessionAt = none → (m.session = none → m.cls = 3 → s.sessionAt m.handle = none) → s.canSend m.peer = true →
        let key := (s.rd Reg.FWD_ADDR_NODE, m.cls, m.handle)
        (∃ v : Nat, t.klp.streams.lookup key = some (v + 1) ∧ ∀ u : Nat, s.klp.streams.lookup key = some u → v = u) ∧
        ∀ key', key' ≠ key → t.klp.streams.lookup key' = s.klp.streams.lookup key') ∧
      s.Changed t sendFields [Ev.BUF_LOW] (sent t))

/-- The poll bus: POLL, COMMAND, TOKEN, DISCOVER, ASSIGN, discarded frames, collisions and lapsed replies. With IOX powered
and PB_CFG.EN 1. A POLL for another address is only heard; a retry is answered with the previous answer, an abandoned
frame is sent again under the new seq, the oldest first, and a new POLL takes the oldest reply, else with EV_EN the pending events in one
EVENT frame, else STATUS; the frame sent has the layout of Table 9.5. A COMMAND with the previous seq is ignored; a new
one, broadcast or for this node, queues; one that finds four waiting, in the queue or for their turn, counts in OVERRUN; while the core is down a reply E_BUSY becomes ready, none
for a broadcast. A TOKEN begins its hold time and lets one EVENT frame go when events are pending; it lapses at its end. A
DISCOVER whose prefix matches and an ASSIGN of the device's identifier answer IDENT, ASSIGN after writing the node address, where
software does not write it in the SYS cycle (R500). A
discarded frame counts in CRC_ERR or FRAMING, the first after a good frame raising EV_POLLBUS; a mismatch while the device
drives counts in COLLISION and abandons the frame. A reply not fetched for 10 ms lapses with its effect. Otherwise nothing changes. The
model's readings: replies with a queued effect lapse one at a time; an abandoned IDENT is not sent again (log entry 92); IOX
keeps the node address while NET is off (126). (Derived
from 09 Poll bus (R271, R273, R274, R275, R276, R277, R278, R279, R280), 11 SENTRY and DOMAIN (R340).) -/
def Obligations.PollBusAnswersQueuesAndCounts : Prop :=
  (∀ (s : State) (at_ : Vt) (addr : BitVec 16) (seq : BitVec 8),
    let e := s.elapseTo at_
    let node := if s.powered 0 = true ∧ bitAt s.pwr.restoreDue.toNat 0 = false then s.rd Reg.FWD_ADDR_NODE else s.poll.node
    let on := s.powered 4 = true ∧ s.rd Reg.PB_CFG_EN = 1
    let mine := node ≠ 0 ∧ addr.toNat = node
    let heard : State := { e with poll := { s.poll with clean := true, driving := false } }
    let frame (typ : Nat) (p : List Byte) : List Byte :=
      let b := beBytes 1 typ ++ beBytes 2 node ++ beBytes 1 seq.toNat ++ beBytes 2 p.length ++ p
      [0xC9] ++ b ++ beBytes 2 (crcOf crc16 b)
    let answered (f : List Byte) : PollSt :=
      { heard.poll with sent := f, driving := true, identing := false, answer := some f, lastPoll := some seq.toNat }
    let events : List Byte := beBytes 2 s.poll.events.length ++ [0, 0] ++ s.poll.events.flatMap fun r => r.bytes false
    let status : List Byte := beBytes 1 s.devState ++ beBytes 1 e.floor ++ beBytes 1 s.poll.replies.length ++
      beBytes 1 s.poll.events.length ++ beBytes 2 (s.rd Reg.SEAL_CHECK_CODE_CODE) ++ [0, 0]
    let retry := s.poll.answer ≠ none ∧ s.poll.lastPoll = some seq.toNat
    let fresh := ¬retry ∧ s.poll.abandoned = []
    (¬on → exec (.poll at_ addr seq) s = .next e) ∧
    (on → ¬mine → exec (.poll at_ addr seq) s = .next heard) ∧
    (on → mine →
      (∀ f : List Byte, s.poll.answer = some f → retry → exec (.poll at_ addr seq) s = .next { heard with poll := { answered f with
        abandoned := s.poll.abandoned.erase f } }) ∧
      (∀ (g : List Byte) (rest : List (List Byte)), ¬retry → s.poll.abandoned = g :: rest → exec (.poll at_ addr seq) s = .next { heard with poll := { answered
        (pollFrame (byteAt g 1) (beAt g 2 2) seq.toNat (slice g 7 (beAt g 5 2))) with abandoned := rest } }) ∧
      (∀ (r : PollReply) (rest : List PollReply), s.poll.replies = r :: rest → fresh →
        exec (.poll at_ addr seq) s = .next (State.runAfter { heard with poll := { answered (frame 3 r.payload) with replies := rest } } r.after)) ∧
      (s.poll.replies = [] → fresh →
        (s.rd Reg.PB_CFG_EV_EN = 1 → s.poll.events ≠ [] →
          exec (.poll at_ addr seq) s = .next { heard with poll := { answered (frame 4 events) with events := [] } }) ∧
        (s.rd Reg.PB_CFG_EV_EN = 0 ∨ s.poll.events = [] →
          exec (.poll at_ addr seq) s = .next { heard with poll := answered (frame 6 status) }))) ∧
    (∀ hold : BitVec 16,
      (¬on → exec (.token at_ addr seq hold) s = .next e) ∧
      (on → ¬mine → exec (.token at_ addr seq hold) s = .next heard) ∧
      (on → mine → Answers (exec (.token at_ addr seq hold) s) fun t => t.rd Reg.PB_STAT_TOKEN = (if hold = 0 then 0 else 1) ∧
        let held := { heard.poll with tokenEnd := e.time.uptime + usec (10 * hold.toNat) }
        s.Changed t [Reg.PB_STAT_TOKEN] [] { heard with regs := t.regs, poll := if s.poll.events = [] ∨ hold = 0 then held else
          { held with events := [], sent := frame 4 events, driving := true, identing := false } })) ∧
    (s.powered 4 = true → s.poll.tokenEnd ≤ e.time.uptime → Answers (exec (.tokenLapse at_) s) fun t => t.rd Reg.PB_STAT_TOKEN = 0 ∧
      s.Changed t [Reg.PB_STAT_TOKEN] [] { e with regs := t.regs }) ∧
    (s.powered 4 = false ∨ e.time.uptime < s.poll.tokenEnd → exec (.tokenLapse at_) s = .next e)) ∧
  (∀ (s : State) (at_ : Vt) (addr : BitVec 16) (seq : BitVec 8) (b : List Byte),
    let e := s.elapseTo at_
    let node := if s.powered 0 = true ∧ bitAt s.pwr.restoreDue.toNat 0 = false then s.rd Reg.FWD_ADDR_NODE else s.poll.node
    let on := s.powered 4 = true ∧ s.rd Reg.PB_CFG_EN = 1
    let mine := (node ≠ 0 ∧ addr.toNat = node) ∨ addr = 0xFFFF
    let heard : State := { e with poll := { s.poll with clean := true, driving := false } }
    let taken : State := { heard with poll := { heard.poll with lastCmd := some seq.toNat } }
    let c := Instr.pollBusCommand at_ addr seq b
    (¬on → exec c s = .next e) ∧
    (on → ¬mine ∨ s.poll.lastCmd = some seq.toNat → exec c s = .next heard) ∧
    (on → mine → s.poll.lastCmd ≠ some seq.toNat →
      (s.devState < 2 → exec c s = .next taken) ∧
      (2 ≤ s.devState → s.coreDown = true → exec c s = .next (if addr = 0xFFFF then taken else
        { taken with poll := { taken.poll with replies := s.poll.replies ++ [⟨.eBusy, replyBody (cmdOpcode b) .eBusy [], .nothing, e.time.uptime⟩] } })) ∧
      (2 ≤ s.devState → s.coreDown = false → s.pollWaiting < 4 →
        exec c s = .next { taken with poll := { taken.poll with cmds := s.poll.cmds ++ [(b, addr == 0xFFFF)] } }) ∧
      (2 ≤ s.devState → s.coreDown = false → 4 ≤ s.pollWaiting → Answers (exec c s) fun t =>
        t.rd Reg.PB_CNT0_OVERRUN = min (s.rd Reg.PB_CNT0_OVERRUN + 1) 255 ∧ s.Changed t [Reg.PB_CNT0_OVERRUN] [] (taken.withRecords t)))) ∧
  (∀ (s : State) (at_ : Vt) (seq : BitVec 8),
    let e := s.elapseTo at_
    let on := s.powered 4 = true ∧ s.rd Reg.PB_CFG_EN = 1
    let address := if s.powered 0 = true ∧ bitAt s.pwr.restoreDue.toNat 0 = false then s.rd Reg.FWD_ADDR_NODE else s.poll.node
    let heard : State := { e with poll := { s.poll with clean := true, driving := false } }
    let ident (node : Nat) : List Byte :=
      let b := beBytes 1 8 ++ beBytes 2 node ++ beBytes 1 seq.toNat ++ beBytes 2 10 ++ beBytes 8 s.uid ++ beBytes 2 node
      [0xC9] ++ b ++ beBytes 2 (crcOf crc16 b)
    (∀ (len : BitVec 8) (pre : BitVec 64), len.toNat ≤ 64 →
      let l := len.toNat
      let same := ∀ i ∈ List.range l, bitAt s.uid (63 - i) = pre.getLsbD (63 - i)
      (¬on → exec (.discover at_ seq len pre) s = .next e) ∧
      (on → ¬same → exec (.discover at_ seq len pre) s = .next heard) ∧
      (on → same → Answers (exec (.discover at_ seq len pre) s) fun t =>
        t.poll.slot < 2 ^ min 4 (64 - l) ∧ (∀ i ∈ List.range (min 4 (64 - l)), bitAt t.poll.slot (min 4 (64 - l) - 1 - i) = bitAt s.uid (63 - l - i)) ∧
        t = { heard with poll := { heard.poll with sent := ident address, driving := true, identing := true, slot := t.poll.slot } })) ∧
    (∀ (id : BitVec 64) (node : BitVec 16),
      (¬on → exec (.assign at_ seq id node) s = .next e) ∧
      (on → id.toNat ≠ s.uid → exec (.assign at_ seq id node) s = .next heard) ∧
      (on → id.toNat = s.uid → Answers (exec (.assign at_ seq id node) s) fun t =>
        let kept := Reg.FWD_ADDR_NODE.addr ∈ e.cycle.written
        (s.powered 0 = true → t.rd Reg.FWD_ADDR_NODE = if kept then s.rd Reg.FWD_ADDR_NODE else node.toNat % 4096) ∧
        s.Changed t (if s.powered 0 then [Reg.FWD_ADDR_NODE] else []) [] { heard with regs := t.regs, poll := { heard.poll with
          node := node.toNat % 4096, assigned := true, driving := true, identing := true,
          sent := ident (if s.powered 0 = true ∧ kept ∧ bitAt s.pwr.restoreDue.toNat 0 = false then s.rd Reg.FWD_ADDR_NODE else node.toNat % 4096) } }))) ∧
  ∀ (s : State) (at_ : Vt) (crc : Bool),
    let e := s.elapseTo at_
    let on := s.powered 4 = true ∧ s.rd Reg.PB_CFG_EN = 1
    let count := if crc then Reg.PB_CNT0_CRC_ERR else Reg.PB_CNT0_FRAMING
    let p := s.poll
    let again := if p.identing then p.abandoned else if p.answer = some p.sent then p.sent :: p.abandoned else p.abandoned ++ [p.sent]
    (¬on → exec (.pollBusFrameError crc) s = .next s) ∧
    (on → Answers (exec (.pollBusFrameError crc) s) fun t => t.rd count = min (s.rd count + 1) 255 ∧
      (s.poll.clean = true → t.Raised Ev.POLLBUS 1) ∧ (s.poll.clean = false → t.poll.events = s.poll.events ∧ t.klp = s.klp) ∧
      s.Changed t [count] (if s.poll.clean then [Ev.POLLBUS] else [])
        (State.withRecords { s with poll := { s.poll with clean := false, driving := false } } t)) ∧
    (¬(on ∧ s.poll.driving = true) → exec (.collision at_) s = .next e) ∧
    (on → s.poll.driving = true → Answers (exec (.collision at_) s) fun t =>
      t.rd Reg.PB_CNT0_COLLISION = min (s.rd Reg.PB_CNT0_COLLISION + 1) 255 ∧ t.Raised Ev.POLLBUS 0 ∧
      s.Changed t [Reg.PB_CNT0_COLLISION] [Ev.POLLBUS]
        (State.withRecords { e with poll := { s.poll with driving := false, abandoned := again } } t)) ∧
    ((∀ r ∈ s.poll.replies, r.after = .nothing ∨ e.time.uptime < r.ready + msec 10) → exec (.pollReplyLapse at_) s = .next e) ∧
    ∀ r : PollReply, (s.poll.replies.find? fun x => x.after != .nothing && decide (x.ready + msec 10 ≤ e.time.uptime)) = some r →
      exec (.pollReplyLapse at_) s = .next (State.runAfter { e with poll := { s.poll with replies := s.poll.replies.erase r } } r.after)

/-- The service port: register reads and writes word by word, the mailbox buffers, SEND, ACK and framing errors. With IOX
powered. Timed commands that are due act before a register transaction (R326). A register read returns its words in ascending
order from the word-aligned address, low byte first: a word of a block whose domain is off reads 0 and sets OFF_ERR, a late
FCM word with DUMMY below 16 reads 0 and sets LATE_RD, and any other has its value and its read effects; each passes the
service read tap. A register write writes each word in turn, as any register write, after the moves that are due (R64), or
sets OFF_ERR; each passes the write tap. A mailbox write puts its bytes at their offsets below 1,024, or sets OVERRUN while
BUSY or RDY is 1; a mailbox read returns the outbound bytes and 0 above 1,023. A word cut off sets FRAME_ERR; another opcode
byte does nothing. SEND while BUSY or RDY is 1 sets OVERRUN; while the core is down it is answered E_BUSY, else with LEN below
4 or above 1,024 E_PARAM, both then with opcode echo 0; else the command runs, or waits for the mailbox's earlier command
(R306); in SENTRY and BOOT it waits. ACK clears RDY and posts the reply that waits. The words of SEND and ACK pass the
write tap too, ACK's with the LEN that SVC_MBOX holds (log entry 167). With IOX off nothing changes. (Derived from 11 Service SPI port
(R345, R346, Table 11.13), 11 The mailbox (R347), 14 Taps (R405).) -/
def Obligations.ServicePortReadsWritesAndMailbox : Prop :=
  ∀ (s : State) (at_ : Vt),
    let e := s.elapseTo at_
    let d := e.commandsFirst
    let place (addr : Word) (k : Nat) : Nat := (addr.toNat / 4 * 4 + 4 * k) % 2 ^ 32
    let buf (m : List (Nat × Byte)) (i : Nat) : Byte := SMap.get (fun _ => (0 : Byte)) m i
    let flag (f : Fld) (t : State) := t.rd f = 1 ∧ s.Changed t [f] [] (e.withRecords t)
    (∀ (addr : Word) (n : BitVec 16) (late : List Nat), d.powered 4 = true →
      let one (u : State) (k : Nat) (w : Word) (v : State) := let a := place addr k
        (u.blockOn a = false → w = 0 ∧ v = (u.setW1c Reg.SVC_STAT_OFF_ERR).cvuTapWord 7 0 w) ∧
        (u.blockOn a = true → k ∈ late ∧ u.rd Reg.SVC_CFG_DUMMY < 16 ∧ blockOf a = some .fcm →
          w = 0 ∧ v = (u.setW1c Reg.SVC_STAT_LATE_RD).cvuTapWord 7 0 w) ∧
        (u.blockOn a = true → ¬(k ∈ late ∧ u.rd Reg.SVC_CFG_DUMMY < 16 ∧ blockOf a = some .fcm) →
          w = (u.readWord a).1 ∧ v = (u.readWord a).2.cvuTapWord 7 0 w)
      ∃ (σ : Nat → State) (w : Nat → Word), σ 0 = d ∧ (∀ k : Nat, k < n.toNat → one (σ k) k (w k) (σ (k + 1))) ∧
        exec (.svcRegisterRead at_ addr n late) s = .next ((σ n.toNat).readGave ((List.range n.toNat).flatMap fun k => leBytes 4 (w k).toNat))) ∧
    (∀ (addr w : Word) (ws : List Word), d.powered 4 = true → exec (.svcRegisterWrite at_ addr []) s = .next d ∧
      Answers (exec (.svcRegisterWrite at_ addr ws) s) fun t => let a := place addr ws.length
        let u := t.cvuTapWord 6 0 w
        exec (.svcRegisterWrite at_ addr (ws ++ [w])) s = .next (if u.blockOn a = false then u.setW1c Reg.SVC_STAT_OFF_ERR else
          if u.movesDue.blockOn a = false ∨ u.movesDue.locked a w = true then u.movesDue else (u.movesDue.writeWord a w).seeWrite a)) ∧
    (∀ (off : Word) (b : List Byte), s.powered 4 = true →
      (s.rd Reg.SVC_MBOX_BUSY = 1 ∨ s.rd Reg.SVC_MBOX_RDY = 1 → Answers (exec (.mailboxWrite at_ off b) s) (flag Reg.SVC_MBOX_OVERRUN)) ∧
      (s.rd Reg.SVC_MBOX_BUSY = 0 → s.rd Reg.SVC_MBOX_RDY = 0 → Answers (exec (.mailboxWrite at_ off b) s) fun t =>
        (∀ i : Nat, buf t.cmd.mboxIn i = if off.toNat ≤ i ∧ i < off.toNat + b.length ∧ i < 1024 then b.getD (i - off.toNat) 0 else buf s.cmd.mboxIn i) ∧
        t = { e with cmd := { s.cmd with mboxIn := t.cmd.mboxIn } })) ∧
    (∀ (off : Word) (n : BitVec 16), s.powered 4 = true → exec (.mailboxRead at_ off n) s = .next (e.readGave
      ((List.range n.toNat).map fun k => if off.toNat + k < 1024 then buf s.cmd.mboxOut (off.toNat + k) else 0))) ∧
    (∀ op : BitVec 8,
      (s.powered 4 = true → op = 0xA1 ∨ op = 0xA2 → Answers (exec (.svcFrameError op) s) fun t =>
        t.rd Reg.SVC_STAT_FRAME_ERR = 1 ∧ s.Changed t [Reg.SVC_STAT_FRAME_ERR] [] (s.withRecords t)) ∧
      (s.powered 4 = false ∨ (op ≠ 0xA1 ∧ op ≠ 0xA2) → exec (.svcFrameError op) s = .next s)) ∧
    (∀ len : BitVec 11, s.powered 4 = true →
      let c := Instr.mailboxSend at_ len
      let m := e.cvuTapWord 6 0 (BitVec.ofNat 32 (len.toNat + 2 ^ 16))
      let answered (st : Status) (echo : Nat) (t : State) := t.rd Reg.SVC_MBOX_LEN = len.toNat ∧ t.rd Reg.SVC_MBOX_BUSY = 0 ∧ t.rd Reg.SVC_MBOX_RDY = 1 ∧
        t.rd Reg.SVC_STAT_RLEN = 4 ∧ (∀ i : Nat, buf t.cmd.mboxOut i = if i < 4 then (replyBody echo st []).getD i 0 else buf s.cmd.mboxOut i) ∧
        m.Changed t [Reg.SVC_MBOX_LEN, Reg.SVC_MBOX_BUSY, Reg.SVC_MBOX_RDY, Reg.SVC_STAT_RLEN] []
          { m with regs := t.regs, cmd := { s.cmd with mboxOut := t.cmd.mboxOut, mboxStatus := st, mboxDue := false } }
      let given := (m.wr Reg.SVC_MBOX_LEN len.toNat).wr Reg.SVC_MBOX_BUSY 1
      let b := (List.range len.toNat).map fun i => buf s.cmd.mboxIn i
      (s.rd Reg.SVC_MBOX_BUSY = 1 ∨ s.rd Reg.SVC_MBOX_RDY = 1 → s.cmd.mboxDue = false → Answers (exec c s) fun t =>
        t.rd Reg.SVC_MBOX_OVERRUN = 1 ∧ m.Changed t [Reg.SVC_MBOX_OVERRUN, Reg.SVC_MBOX_LEN] [] (m.withRecords t)) ∧
      (s.rd Reg.SVC_MBOX_BUSY = 0 → s.rd Reg.SVC_MBOX_RDY = 0 →
        (s.devState < 2 → exec c s = .next { given with cmd := { s.cmd with mboxDue := true } }) ∧
        (2 ≤ s.devState → len.toNat < 4 ∨ 1024 < len.toNat → Answers (exec c s) (answered (if s.coreDown then .eBusy else .eParam) 0)) ∧
        (2 ≤ s.devState → 4 ≤ len.toNat → len.toNat ≤ 1024 →
          let run : State := { given with cmd := { s.cmd with mboxDue := false } }
          let plenOk := beAt b 2 2 == len.toNat - 4
          (s.coreDown = true → Answers (exec c s) (answered .eBusy (beAt b 0 2))) ∧
          (s.coreDown = false → run.mustWait (.mbox true) (beAt b 0 2) = false →
            exec c s = .next (run.runCommand (.mbox true) (beAt b 0 2) plenOk (b.drop 4))) ∧
          (s.coreDown = false → run.mustWait (.mbox true) (beAt b 0 2) = true → exec c s = .next { run with cmd := { run.cmd with
            parked := s.cmd.parked ++ [⟨.mbox true, beAt b 0 2, plenOk, b.drop 4⟩] } })))) ∧
    (let a := e.cvuTapWord 6 0 (BitVec.ofNat 32 (s.rd Reg.SVC_MBOX_LEN + 2 ^ 17))
    (s.powered 4 = true → s.rd Reg.SVC_MBOX_RDY = 0 → exec (.mailboxAck at_) s = .next a) ∧
    (s.powered 4 = true → s.rd Reg.SVC_MBOX_RDY = 1 →
      (s.cmd.mboxNext = [] → Answers (exec (.mailboxAck at_) s) fun t =>
        t.rd Reg.SVC_MBOX_RDY = 0 ∧ a.Changed t [Reg.SVC_MBOX_RDY] [] { a with regs := t.regs }) ∧
      (∀ (r : Status × List Byte) (rest : List (Status × List Byte)), s.cmd.mboxNext = r :: rest → Answers (exec (.mailboxAck at_) s) fun t =>
        t.rd Reg.SVC_MBOX_RDY = 1 ∧ t.rd Reg.SVC_STAT_RLEN = r.2.length % 2 ^ Reg.SVC_STAT_RLEN.len ∧
        (∀ i : Nat, buf t.cmd.mboxOut i = if i < r.2.length then r.2.getD i 0 else buf s.cmd.mboxOut i) ∧
        a.Changed t [Reg.SVC_MBOX_RDY, Reg.SVC_STAT_RLEN] []
          { a with regs := t.regs, cmd := { s.cmd with mboxOut := t.cmd.mboxOut, mboxStatus := r.1, mboxNext := rest } }))) ∧
    (d.powered 4 = false → ∀ (addr : Word) (n : BitVec 16) (l : List Nat) (ws : List Word),
      exec (.svcRegisterRead at_ addr n l) s = .next d ∧ exec (.svcRegisterWrite at_ addr ws) s = .next d) ∧
    (s.powered 4 = false → ∀ (addr : Word) (n : BitVec 16) (b : List Byte) (len : BitVec 11),
      ∀ c ∈ [Instr.mailboxWrite at_ addr b, .mailboxRead at_ addr n,
        .mailboxSend at_ len, .mailboxAck at_], exec c s = .next e)

/-- Every command is turned away by the first test it fails; timed commands wait, run at once or come too late. For all 45
opcodes: on a transport that does not carry it a command is answered E_OPCODE, then in a state its row does not list
E_STATE, then with short parameters E_PARAM, with no other effect; one that must wait for an earlier command waits
(R306, log entry 127). Over a session: nothing happens without the session,
NET or in SENTRY and BOOT; without a credit it is answered E_CREDIT and counted, while the core is down E_BUSY, neither
taking a credit; all sessions of the partner count as heard. On the poll bus it waits while the core is down, and one that finds four waiting counts in OVERRUN. The mailbox ignores it with OVERRUN while BUSY or RDY is
1, holds it in SENTRY and BOOT, and answers E_BUSY while the core is down. A timed command that fails a test is answered
so; one that passes is queued with DONE_LATER when its instant has not come (E_NOSPACE when 64 wait), runs at once below
LATE_LIMIT, and is answered E_LATE from there on; a session without the capability gets E_PARAM. Pending commands whose
instants have come run, however many, in the order of their instants, then of acceptance, each that its forerunners have left
pending; one held back by a restart and too late is answered E_LATE. (Derived from 11 Order of statuses (R322, R325, R344), 11 Opcode tables (Tables 11.2 to 11.12), 10
Credits (R303, R304, R309), 10 Timed commands (R305, R306, R307), 09 Poll bus (R275), 11 The mailbox (R347).) -/
def Obligations.CommandsAreTestedInTheirOrder : Prop :=
  (∀ (s : State) (via : Via) (p : List Byte), ∀ row ∈ commandRows, ∀ x : Origin × State, s.takenIn via (cmdPayload row.op p) = some x →
    (x.2.mustWait x.1 row.op = true → exec (row.cmd via p) s = .next { x.2 with cmd := { x.2.cmd with
      parked := x.2.cmd.parked ++ [⟨x.1, row.op, true, p⟩] } }) ∧
    (x.2.mustWait x.1 row.op = false →
      (row.on via = false → s.Gives (row.cmd via p) x.1 row.op .eOpcode [] x.2) ∧
      (row.on via = true → s.devState ∉ row.states → s.Gives (row.cmd via p) x.1 row.op .eState [] x.2) ∧
      (row.on via = true → s.devState ∈ row.states → p.length < row.len → s.Gives (row.cmd via p) x.1 row.op .eParam [] x.2))) ∧
  (∀ (s : State) (p : List Byte), p.length ≤ 1020 → ∀ row ∈ commandRows,
    let b := cmdPayload row.op p
    (s.coreDown = true ∨ s.powered 4 = false ∨ s.devState < 2 → exec (row.cmd .poll p) s = .next s) ∧
    (s.coreDown = false → s.powered 4 = true → 2 ≤ s.devState → 4 ≤ s.pollWaiting → s.poll.cmds.head?.map (·.1) ≠ some b →
      Answers (exec (row.cmd .poll p) s) fun t => t.rd Reg.PB_CNT0_OVERRUN = min (s.rd Reg.PB_CNT0_OVERRUN + 1) 255 ∧
        s.Changed t [Reg.PB_CNT0_OVERRUN] [] (s.withRecords t)) ∧
    (s.powered 4 = false → exec (row.cmd .mbox p) s = .next s) ∧
    let m := s.cvuTapWord 6 0 (BitVec.ofNat 32 (b.length + 2 ^ 16))
    (s.powered 4 = true → s.rd Reg.SVC_MBOX_BUSY = 1 ∨ s.rd Reg.SVC_MBOX_RDY = 1 → Answers (exec (row.cmd .mbox p) s) fun t =>
      t.rd Reg.SVC_MBOX_OVERRUN = 1 ∧ m.Changed t [Reg.SVC_MBOX_OVERRUN] [] (m.withRecords t)) ∧
    (s.powered 4 = true → s.rd Reg.SVC_MBOX_BUSY = 0 → s.rd Reg.SVC_MBOX_RDY = 0 →
      let buf := SMap.setRange (fun _ => (0 : Byte)) s.cmd.mboxIn 0 b.length fun a => b.getD a 0
      let given (due : Bool) : State := { (m.wr Reg.SVC_MBOX_LEN b.length).wr Reg.SVC_MBOX_BUSY 1 with cmd := { s.cmd with mboxIn := buf, mboxDue := due } }
      (s.devState < 2 → exec (row.cmd .mbox p) s = .next (given true)) ∧
      (2 ≤ s.devState → s.coreDown = true → s.Gives (row.cmd .mbox p) (.mbox true) row.op .eBusy [] (given false)))) ∧
  (∀ (s : State) (i : Fin 32) (tag : Word) (noReply : Bool) (w : BitVec 64) (p : List Byte), p.length < 65536 → ∀ row ∈ commandRows,
    let c := row.cmd (.session i tag noReply w) p
    let h := s.handle 1 i.val
    (tabFind s.klp.sessions i.val = none ∨ s.devState < 2 ∨ s.powered 0 = false → exec c s = .next s) ∧
    ∀ x : Session, tabFind s.klp.sessions i.val = some x → 2 ≤ s.devState → s.powered 0 = true →
      let heard := s.hearPartner x.partner
      let refused (st : Status) : OutMsg := ⟨some h, x.verMaj, x.verMin, 3, h, tag.toNat, s.nowNs, st, replyBody row.op st [], x.peer, false, .nothing⟩
      (noReply = false → x.avail = 0 → Answers (exec c s) fun t =>
        t.rd Reg.FWD_KLP_CNT1_CREDIT = min (s.rd Reg.FWD_KLP_CNT1_CREDIT + 1) (2 ^ Reg.FWD_KLP_CNT1_CREDIT.len - 1) ∧
        s.Changed t [Reg.FWD_KLP_CNT1_CREDIT] [] { s.withRecords t with klp := { heard.klp with out := s.klp.out ++ [refused .eCredit] } }) ∧
      (noReply = false → x.avail ≠ 0 → s.coreDown = true →
        exec c s = .next { heard with klp := { heard.klp with out := s.klp.out ++ [refused .eBusy] } }) ∧
      (noReply = true → s.coreDown = true → exec c s = .next heard) ∧
      (noReply = true ∨ x.avail ≠ 0 → s.coreDown = false → x.verMaj = 3 → w ≠ 0 →
        let o := Origin.klp h tag.toNat noReply (!noReply) x.peer
        let r : State := if noReply then heard else heard.updSession h Session.take
        let late : Int := (s.now : Int) - w.toNat * nsUnit
        let limit : Nat := usec (s.rd Reg.MOVE_CFG_LATE_LIMIT)
        let trial := r.perform o row.op true p
        let passed := ∀ e ∈ trial.1, e.1 ∈ [Status.ok, .doneLater, .partially]
        (row.klp = false → s.Gives c o row.op .eOpcode [] r) ∧
        (row.klp = true → s.devState ∉ row.states → s.Gives c o row.op .eState [] r) ∧
        (row.klp = true → s.devState ∈ row.states → bitAt x.caps 0 = false ∨ p.length < row.len → s.Gives c o row.op .eParam [] r) ∧
        (bitAt x.caps 0 = true →
          (∀ e : Status × List Byte × After, trial.1 = some e → ¬passed → exec c s = .next (trial.2.postReply o row.op e.1 e.2.1 e.2.2)) ∧
          (passed → late ≤ 0 → s.klp.timed.length < 64 → s.Gives c o row.op .doneLater [] { r with klp := { r.klp with timed := s.klp.timed ++
            [⟨.klp h tag.toNat noReply false x.peer, row.op, p, w.toNat, false⟩] } }) ∧
          (passed → late ≤ 0 → 64 ≤ s.klp.timed.length → s.Gives c o row.op .eNoSpace [] r) ∧
          (passed → 0 < late → late < limit → exec c s = .next (State.settle o row.op trial)) ∧
          (passed → 0 < late → limit ≤ late → s.Gives c o row.op .eLate [] r)))) ∧
  ∀ (s : State) (at_ : Vt),
    let e := s.elapseTo at_
    let due (t : Timed) := t.inst * nsUnit ≤ e.now
    let late (t : Timed) : Prop := (usec (s.rd Reg.MOVE_CFG_LATE_LIMIT) : Int) ≤ (e.now : Int) - t.inst * nsUnit
    let ran (u : State) (t : Timed) : State := State.settle t.origin t.opcode (u.perform t.origin t.opcode true t.params)
    let turn (u : State) (t : Timed) : State :=
      if t.held = true ∧ (usec (u.rd Reg.MOVE_CFG_LATE_LIMIT) : Int) ≤ (u.now : Int) - t.inst * nsUnit then
        u.postReply t.origin t.opcode .eLate [] .nothing else ran u t
    let with_ (l : List Timed) : State := { e with klp := { s.klp with timed := l } }
    (s.coreDown = true ∨ s.devState < 2 ∨ (∀ t ∈ s.klp.timed, ¬due t) → exec (.timedCommandDue at_) s = .next e) ∧
    (s.coreDown = false → 2 ≤ s.devState →
      (∀ (pre post : List Timed) (t : Timed), s.klp.timed = pre ++ t :: post → (∀ u ∈ pre ++ post, ¬due u) → due t →
        (t.held = true ∧ late t → s.Gives (.timedCommandDue at_) t.origin t.opcode .eLate [] (with_ (pre ++ post))) ∧
        (¬(t.held = true ∧ late t) → exec (.timedCommandDue at_) s = .next (ran (with_ (pre ++ post)) t))) ∧
      (∀ l : List Timed, l.Pairwise (fun a b => a.inst ≤ b.inst) →
        (∀ i : Nat, l.filter (fun t => t.inst == i) = (s.klp.timed.filter fun t => decide (due t)).filter fun t => t.inst == i) →
        exec (.timedCommandDue at_) s = .next (l.foldl (fun (u : State) t =>
          if t ∈ u.klp.timed then turn { u with klp := { u.klp with timed := u.klp.timed.erase t } } t else u) e)))

/-- Session, register, object, time-grid and pawn commands run, with their replies and effects. A command that its row of
Tables 11.2 to 11.9 serves, on any of its transports, with parameters in range, is answered OK with its data. HELLO on a local
transport gives the fixed local session and opens nothing; BYE closes its session after the reply; CAPS gives version, caps,
credits and free indexes; CREDIT sets the grant within the pool, PARTIALLY when it cannot give all; AUTH gives a new nonce, in
force after the reply. REG_RD reads word by word; REG_WR and REG_RMW write unlocked words and the latter returns the old one,
mask 0 leaving W1C bits as they are. CREATE makes the object at its index or the lowest free one and answers its handle;
DESTROY removes what its handle names, a move only when it is still there after the moves that are due, else E_HANDLE; QUERY gives its descriptor; LIST up to 64 handles from an index; RESTORE writes a
context into a disabled unit. GRID_SET writes the shadows and commits on its flag. PROG_LOAD, after the moves that are due, stores its words in a free range
and answers the program's handle; GO and STOP act on the pawns of their mask; PUSH fills the TX FIFO as far as it goes; PULL
takes words from the RX FIFO. A served command is refused, with no effect of its own, E_PARAM where a reserved parameter is not 0, a
value is out of range, the parameters end before their list or a block's domain is off; E_VERSION where a HELLO shares no version;
E_LOCKED where a word of its range is locked; E_HANDLE where its handle names no object of its class (R319); E_STATE for an AUTH
without a key, a CREATE at an occupied index or of a subscription on a local transport, a DESTROY of a definition in use or of a
group that is not IDLE, which sets its CFG_REJ, a PROG_LOAD that meets a program, or a PULL from the pawn that is the source of T_B; E_NOSPACE where no index is
free; E_RUNNING where a pawn runs in the range or a unit is enabled. The W1C corner of REG_RMW (log entry 59) and the frame that GRID_SET tests (65) are the model's.
(Derived from 11 Handles (R319), 11 Session (R327, R343), 11 Register access (R328, R329, R330), 11 Objects (R331, R332, R333, R334), 11 Time (R335),
11 Pawns (R339, R363, R365).) -/
def Obligations.SessionRegisterObjectAndPawnCommandsRun : Prop :=
  ∀ (s : State) (via : Via) (p : List Byte) (o : Origin) (u : State),
    let serves (op : Nat) := s.served op via p = some (o, u)
    let addr := beAt p 0 4
    let n := beAt p 4 2
    let at_ (k : Nat) : Nat := (addr + 4 * k) % 2 ^ 32
    let refused (op : Nat) (c : Instr) (st : Status) (v : State) (bad : Prop) : Prop := serves op → bad → s.Gives c o op st [] v
    (serves 0x0001 → byteAt p 0 = 1 → byteAt p 1 < 4 ∨ byteAt p 1 = 0xFF → beAt p 8 2 < 32 ∨ beAt p 8 2 = 0xFFFF →
      helloVersion (byteAt p 4, byteAt p 5) (byteAt p 6, byteAt p 7) = some (3, 1) →
      let i := match o with
        | .poll _ => 0x20
        | _ => 0x21
      s.Gives (.helloOpcode via p) o 0x0001 .ok (helloPayload 0xFF .ok (3, 1) (3, 1) i 0 (0x01010000 + i) u.deviceCaps u.uid 0) u) ∧
    (∀ h : Nat, o.session = some h → serves 0x0002 → s.GivesThen (.bye via p) o 0x0002 .ok [] (.close h) u) ∧
    (serves 0x0003 →
      let free := (List.range 8).flatMap fun k => beBytes 2 ((List.range (classSize (k + 1))).filter fun i =>
        !(if k = 1 then u.mapOccupied i else u.objExists (k + 1) i)).length
      (∀ x : Session, o.session.bind u.sessionAt = some x → s.Gives (.caps via p) o 0x0003 .ok
        (beBytes 1 x.verMaj ++ beBytes 1 x.verMin ++ beBytes 2 0 ++ beBytes 8 x.caps ++ beBytes 2 x.grant ++ beBytes 2 x.avail ++ free) u) ∧
      (o.session = none → s.Gives (.caps via p) o 0x0003 .ok (beBytes 1 3 ++ beBytes 1 1 ++ beBytes 2 0 ++ beBytes 8 u.deviceCaps ++ beBytes 4 0 ++ free) u)) ∧
    (∀ (h : Nat) (x : Session), o.session = some h → u.sessionAt h = some x →
      (serves 0x0004 → 1 ≤ beAt p 0 2 → beAt p 0 2 ≤ 32 →
        let g := if x.verMaj = 2 then x.grant else min (beAt p 0 2) (x.grant + (128 - u.granted))
        s.Gives (.credit via p) o 0x0004 (if g = beAt p 0 2 then .ok else .partially) (beBytes 2 g)
          (u.setSession (h % 65536) { x with grant := g, avail := g - x.outst })) ∧
      (serves 0x0005 → x.key ≠ none → s.GivesThen (.auth via p) o 0x0005 .ok (beBytes 8 (Config.nonce u.free).toNat) (.nonce h (Config.nonce u.free))
        { u with free := u.free + 1 })) ∧
    (serves 0x0101 → 1 ≤ n → n ≤ 252 → beAt p 6 2 = 0 → u.rangeOk addr n = true → ∃ (σ : Nat → State) (w : Nat → Word), σ 0 = u ∧
      (∀ k : Nat, k < n → (σ k).readWord (at_ k) = (w k, σ (k + 1))) ∧
      s.Gives (.regRd via p) o 0x0101 .ok ((List.range n).flatMap fun k => leBytes 4 (w k).toNat) (σ n)) ∧
    (serves 0x0102 → 1 ≤ n → n ≤ 252 → beAt p 6 2 = 0 → 8 + 4 * n ≤ p.length → u.rangeOk addr n = true →
      let w (k : Nat) : Word := BitVec.ofNat 32 (leNat (slice p (8 + 4 * k) 4))
      (∀ k : Nat, k < n → u.locked (at_ k) (w k) = false) → ∃ σ : Nat → State, σ 0 = u ∧
      (∀ k : Nat, k < n → σ (k + 1) = (σ k).tryWrite (at_ k) (w k)) ∧ s.Gives (.regWr via p) o 0x0102 .ok [] (σ n)) ∧
    (serves 0x0103 → u.rangeOk addr 1 = true →
      let r := u.readWord addr
      let mask : Word := BitVec.ofNat 32 (leNat (slice p 4 4))
      let w := ((r.1 &&& ~~~mask) ||| (BitVec.ofNat 32 (leNat (slice p 8 4)) &&& mask)) &&& (if mask = 0 then ~~~w1cBits addr else ~~~0)
      u.locked addr w = false → s.Gives (.regRmw via p) o 0x0103 .ok (leBytes 4 r.1.toNat) (r.2.tryWrite addr w)) ∧
    (serves 0x0201 → byteAt p 1 < 2 → u.createOk (byteAt p 0) p = true → (byteAt p 0 = 8 → o.session ≠ none) →
      let cls := byteAt p 0
      let used (i : Nat) := if cls = 2 then u.mapOccupied i else u.objExists cls i
      ∀ i : Nat, i < classSize cls → used i = false → (beAt p 2 2 = i ∨ (beAt p 2 2 = 0xFFFF ∧ ∀ j : Nat, j < i → used j = true)) →
        s.Gives (.create via p) o 0x0201 .ok (beBytes 4 (u.handle cls i)) (u.createAt o cls i p)) ∧
    (serves 0x0202 → ∀ cls i : Nat, u.named o addr = some (cls, i) →
      (cls = 2 → s.Gives (.destroy via p) o 0x0202 .ok [] (u.destroyMap i)) ∧
      (cls = 3 → (∀ k : Nat, k < 8 → ((u.hostEng k).en && (u.hostEng k).defn == i) = false) → s.Gives (.destroy via p) o 0x0202 .ok [] (u.motifRemove i)) ∧
      (cls = 4 → u.grpState i = 0 → s.Gives (.destroy via p) o 0x0202 .ok [] (u.groupRemove i)) ∧
      (cls = 5 → (∀ r : Nat × Nat, tabFind u.cmd.progs i = some r → u.progBusy r = false) → s.Gives (.destroy via p) o 0x0202 .ok [] (u.progRemove i)) ∧
      (cls = 6 → (∀ c j : Nat, u.movesDue.named o addr = some (c, j) → s.Gives (.destroy via p) o 0x0202 .ok [] (u.movesDue.moveFree j)) ∧
        (u.movesDue.named o addr = none → s.Gives (.destroy via p) o 0x0202 .eHandle [] u.movesDue)) ∧
      (cls = 7 → s.Gives (.destroy via p) o 0x0202 .ok [] (u.ctxRemove i)) ∧
      (cls = 8 → s.Gives (.destroy via p) o 0x0202 .ok [] (u.subRemove i))) ∧
    (serves 0x0203 → ∀ cls i : Nat, u.named o addr = some (cls, i) → s.Gives (.query via p) o 0x0203 .ok (slice p 0 4 ++ u.queryData cls i) u) ∧
    (serves 0x0204 → 1 ≤ byteAt p 0 → byteAt p 0 ≤ 8 → byteAt p 1 = 0 →
      let found := (List.range (classSize (byteAt p 0))).filter fun i => decide (beAt p 2 2 ≤ i) && u.objExists (byteAt p 0) i
      s.Gives (.list via p) o 0x0204 (if found.length ≤ 64 then .ok else .partially) (beBytes 2 (min 64 found.length) ++
        beBytes 2 ((found.drop 64).headD 0xFFFF) ++ (found.take 64).flatMap fun i => beBytes 4 (u.handle (byteAt p 0) i)) u) ∧
    (serves 0x0205 → byteAt p 4 < 8 → beAt p 5 3 = 0 → u.powered 4 = true → ∀ (i : Nat) (c : CvuCtx), u.resolve 7 addr = some i →
      tabFind u.cmd.ctxs i = some c → u.rdB (Reg.CVU_CTRL_EN (byteAt p 4)) = false → s.Gives (.restore via p) o 0x0205 .ok [] (u.ctxRestore (byteAt p 4) c)) ∧
    (serves 0x0301 → beAt p 10 2 < 2 → beAt p 18 2 = 0 → u.powered 2 = true →
      let period := beAt p 12 4 * nsUnit + beAt p 16 2
      let v := u.gridWrite (beAt p 0 8) (beAt p 8 2) (beAt p 12 4) (beAt p 16 2)
      periodInRange period = true → fitsRd u.rdSh period = true →
      s.Gives (.gridSet via p) o 0x0301 .ok [] (if beAt p 10 2 = 1 then v.castleCommit 1 else v)) ∧
    (serves 0x0601 → let v0 := u.movesDue; 1 ≤ byteAt p 1 → byteAt p 0 + byteAt p 1 ≤ 48 → beAt p 2 2 = 0 → 4 + 4 * byteAt p 1 ≤ p.length → v0.powered 4 = true →
      (∀ k : Nat, k < byteAt p 1 → beAt p (4 + 4 * k) 4 < 2 ^ 20 ∧ v0.storeBusy (byteAt p 0 + k) = false) →
      (∀ e ∈ v0.cmd.progs, rangesMeet e.2 (byteAt p 0, byteAt p 1) = false) → ∀ i : Nat, v0.freeIndex 5 = some i →
      Answers (exec (.progLoad via p) s) fun t => ∃ v : State,
        (∀ k : Nat, k < byteAt p 1 → v.rd (Reg.PAWN_STORE_WORD (byteAt p 0 + k)) = beAt p (4 + 4 * k) 4) ∧
        (∀ k : Nat, k < 48 → k < byteAt p 0 ∨ byteAt p 0 + byteAt p 1 ≤ k → v.rd (Reg.PAWN_STORE_WORD k) = v0.rd (Reg.PAWN_STORE_WORD k)) ∧
        tabFind v.cmd.progs i = some (byteAt p 0, byteAt p 1) ∧ v.pawns = v0.pawns ∧ t = v.postReply o 0x0601 .ok (beBytes 4 (v0.handle 5 i)) .nothing) ∧
    (serves 0x0602 → beAt p 1 3 = 0 → u.powered 4 = true → s.Gives (.go via p) o 0x0602 .ok [] (u.pawnsGo (byteAt p 0))) ∧
    (serves 0x0603 → beAt p 1 3 = 0 → u.powered 4 = true → s.Gives (.stop via p) o 0x0603 .ok [] (u.pawnsStop (byteAt p 0))) ∧
    (byteAt p 0 < 8 → 1 ≤ byteAt p 1 → byteAt p 1 ≤ 4 → beAt p 2 2 = 0 → u.powered 4 = true →
      let q := u.pawn (byteAt p 0)
      let m := min (byteAt p 1) (4 - q.tx.length)
      let out := q.rx.take (byteAt p 1)
      (serves 0x0604 → 4 + 4 * byteAt p 1 ≤ p.length → s.Gives (.push via p) o 0x0604 (if m = byteAt p 1 then .ok else .partially) (beBytes 1 m)
        (u.setPawn (byteAt p 0) { q with tx := q.tx ++ (List.range m).map fun i => BitVec.ofNat 32 (beAt p (4 + 4 * i) 4) })) ∧
      (serves 0x0605 → u.tbPawnSource (byteAt p 0) = false → s.Gives (.pull via p) o 0x0605 .ok
        (beBytes 1 out.length ++ [0, 0, 0] ++ out.flatMap fun w => beBytes 4 w.toNat) (u.setPawn (byteAt p 0) { q with rx := q.rx.drop (byteAt p 1) }))) ∧
    (let key := byteAt p 1
      let i := beAt p 8 2
      let good := byteAt p 0 = 1 ∧ (key < 4 ∨ key = 0xFF) ∧ (i < 32 ∨ i = 0xFFFF)
      refused 0x0001 (.helloOpcode via p) .eParam u (¬good) ∧
      refused 0x0001 (.helloOpcode via p) .eVersion u
        (good ∧ helloVersion (byteAt p 4, byteAt p 5) (byteAt p 6, byteAt p 7) ≠ some (3, 1))) ∧
    (∀ h : Nat, o.session = some h → refused 0x0004 (.credit via p) .eParam u (beAt p 0 2 = 0 ∨ 32 < beAt p 0 2) ∧
      refused 0x0005 (.auth via p) .eState u (∃ x : Session, u.sessionAt h = some x ∧ x.key = none)) ∧
    (let off (n : Nat) : Prop := addr % 4 ≠ 0 ∨ ∃ k : Nat, k < n ∧ (blockOf (at_ k) = none ∨ u.blockOn (at_ k) = false)
      let bad := n = 0 ∨ 252 < n ∨ beAt p 6 2 ≠ 0 ∨ off n
      let mask : Word := BitVec.ofNat 32 (leNat (slice p 4 4))
      let w := (((u.readWord addr).1 &&& ~~~mask) ||| (BitVec.ofNat 32 (leNat (slice p 8 4)) &&& mask)) &&& (if mask = 0 then ~~~w1cBits addr else ~~~0)
      refused 0x0101 (.regRd via p) .eParam u bad ∧
      refused 0x0102 (.regWr via p) .eParam u (bad ∨ p.length < 8 + 4 * n) ∧
      refused 0x0102 (.regWr via p) .eLocked u (¬bad ∧ 8 + 4 * n ≤ p.length ∧
        ∃ k : Nat, k < n ∧ u.locked (at_ k) (BitVec.ofNat 32 (leNat (slice p (8 + 4 * k) 4))) = true) ∧
      refused 0x0103 (.regRmw via p) .eParam u (off 1) ∧ refused 0x0103 (.regRmw via p) .eLocked u (¬off 1 ∧ u.locked addr w = true)) ∧
    (let cls := byteAt p 0
      let i := beAt p 2 2
      let used (i : Nat) := if cls = 2 then u.mapOccupied i else u.objExists cls i
      let bad := 2 ≤ byteAt p 1 ∨ (classSize cls ≤ i ∧ i ≠ 0xFFFF) ∨ cls ∉ [2, 3, 4, 7, 8] ∨ (cls = 2 ∧ (p.length < 24 ∨ u.powered 2 = false)) ∨
        (cls = 3 ∧ (p.length < 516 ∨ u.powered 2 = false)) ∨ (cls = 4 ∧ (p.length < 12 ∨ u.powered 3 = false ∨ 1 < byteAt p 4 ∨ byteAt p 5 ≠ 0 ∨
          beAt p 10 2 ≠ 0 ∨ 10240 < beAt p 6 2 + beAt p 8 2)) ∨ (cls = 7 ∧ (p.length < 8 ∨ u.powered 4 = false ∨ 7 < byteAt p 4 ∨ beAt p 5 3 ≠ 0)) ∨
        (cls = 8 ∧ p.length < 12) ∨ u.createOk cls p = false
      refused 0x0201 (.create via p) .eParam u bad ∧
      refused 0x0201 (.create via p) .eNoSpace u (¬bad ∧ i = 0xFFFF ∧ ∀ j : Nat, j < classSize cls → used j = true) ∧
      refused 0x0201 (.create via p) .eState u (¬bad ∧ i ≠ 0xFFFF ∧ used i = true) ∧
      refused 0x0201 (.create via p) .eState u (¬bad ∧ cls = 8 ∧ o.session = none ∧
        ((i ≠ 0xFFFF ∧ used i = false) ∨ (i = 0xFFFF ∧ ∃ j : Nat, j < classSize cls ∧ used j = false)))) ∧
    (let gone := u.named o addr = none;
      refused 0x0202 (.destroy via p) .eParam u (addr / 2 ^ 24 = 1) ∧ refused 0x0202 (.destroy via p) .eHandle u (addr / 2 ^ 24 ≠ 1 ∧ gone) ∧
      refused 0x0203 (.query via p) .eHandle u gone ∧
      ∀ cls i : Nat, u.named o addr = some (cls, i) →
        refused 0x0202 (.destroy via p) .eState u (cls = 3 ∧ ∃ k : Nat, k < 8 ∧ (u.hostEng k).en = true ∧ (u.hostEng k).defn = i) ∧
        refused 0x0202 (.destroy via p) .eState (u.setW1c (Reg.CENSUS_GRP_CFG_REJ i)) (cls = 4 ∧ u.grpState i ≠ 0) ∧
        refused 0x0202 (.destroy via p) .eRunning u (cls = 5 ∧ ∃ r : Nat × Nat, tabFind u.cmd.progs i = some r ∧ u.progBusy r = true)) ∧
    refused 0x0204 (.list via p) .eParam u (byteAt p 0 = 0 ∨ 8 < byteAt p 0 ∨ byteAt p 1 ≠ 0) ∧
    (let bad := 8 ≤ byteAt p 4 ∨ beAt p 5 3 ≠ 0 ∨ u.powered 4 = false
      let ctx := (u.resolve 7 addr).bind fun i => tabFind u.cmd.ctxs i
      refused 0x0205 (.restore via p) .eParam u bad ∧ refused 0x0205 (.restore via p) .eHandle u (¬bad ∧ ctx = none) ∧
      refused 0x0205 (.restore via p) .eRunning u (¬bad ∧ ctx ≠ none ∧ u.rdB (Reg.CVU_CTRL_EN (byteAt p 4)) = true)) ∧
    (let period := beAt p 12 4 * nsUnit + beAt p 16 2;
      refused 0x0301 (.gridSet via p) .eParam u
        (2 ≤ beAt p 10 2 ∨ beAt p 18 2 ≠ 0 ∨ u.powered 2 = false ∨ periodInRange period = false ∨ fitsRd u.rdSh period = false)) ∧
    refused 0x0302 (.moveAdd via p) .eParam u (byteAt p 8 = 0 ∨ 9 < byteAt p 8 ∨ beAt p 9 3 ≠ 0 ∨ u.powered 2 = false) ∧
    refused 0x0303 (.moveCancel via p) .eParam u (u.powered 2 = false) ∧
    refused 0x0304 (.todSet via p) .eParam u (u.powered 2 = false ∨ (u.timeSrc = 1 ∧ beAt p 0 8 % 1000000000 ≠ 0)) ∧
    (let v := u.movesDue
      let bad := byteAt p 1 = 0 ∨ 48 < byteAt p 0 + byteAt p 1 ∨ beAt p 2 2 ≠ 0 ∨ p.length < 4 + 4 * byteAt p 1 ∨
        (∃ k : Nat, k < byteAt p 1 ∧ 2 ^ 20 ≤ beAt p (4 + 4 * k) 4) ∨ v.powered 4 = false
      let busy := ∃ k : Nat, k < byteAt p 1 ∧ v.storeBusy (byteAt p 0 + k) = true
      let met := ∃ e ∈ v.cmd.progs, rangesMeet e.2 (byteAt p 0, byteAt p 1) = true
      refused 0x0601 (.progLoad via p) .eParam v bad ∧ refused 0x0601 (.progLoad via p) .eRunning v (¬bad ∧ busy) ∧
      refused 0x0601 (.progLoad via p) .eState v (¬bad ∧ ¬busy ∧ met) ∧
      refused 0x0601 (.progLoad via p) .eNoSpace v (¬bad ∧ ¬busy ∧ ¬met ∧ v.freeIndex 5 = none)) ∧
    refused 0x0602 (.go via p) .eParam u (beAt p 1 3 ≠ 0 ∨ u.powered 4 = false) ∧
    refused 0x0603 (.stop via p) .eParam u (beAt p 1 3 ≠ 0 ∨ u.powered 4 = false) ∧
    (let bad := 8 ≤ byteAt p 0 ∨ byteAt p 1 = 0 ∨ 4 < byteAt p 1 ∨ beAt p 2 2 ≠ 0 ∨ u.powered 4 = false;
      refused 0x0604 (.push via p) .eParam u (bad ∨ p.length < 4 + 4 * byteAt p 1) ∧
      refused 0x0605 (.pull via p) .eParam u bad ∧ refused 0x0605 (.pull via p) .eState u (¬bad ∧ u.tbPawnSource (byteAt p 0) = true))

/-- Seal, census, group, power, firmware and fallback commands run, with their replies and effects. A command that its row of Tables 11.7,
11.8 and 11.10 to 11.12 serves, with parameters in range: STAGE puts its bytes in the staging buffer and marks their granules; CHECK
starts an evaluation and answers at its end; ARM answers DONE_LATER and starts one; DISARM waits for its grid point; SEAL_WRITE starts the
copy of the armed Seal and answers when it is verified; SEAL_READ gives bytes of the armed Seal, its keys as 0, PARTIALLY past its end.
SWEEP starts a sweep; CENSUS_SUB sets the session's reports; MAP_READ gives map words; GROUP_MEMBERS writes an IDLE group's list;
GROUP_ARM, GROUP_DISARM and GROUP_ACK act on their group. SENTRY gives up the ARMs under way and goes to Sentry after its reply; WAKE_CFG
writes the wake registers and the alarm; DOMAIN answers the domains powered after its switch, which follows the reply and switches those
of its mask that the supplies do not hold. FW_WRITE writes flash bytes of a slot that does not run; FW_SWAP to a slot that passes waits
for an evaluation, behind one that waits already, else restarts into the slot on trial, or from RECOVERY boots it after the reply; FW_INFO
gives both slots. FB_ON requests the look, FB_OFF ends one of cause 2, MOTIF_STEP steps the engines of its mask, and FB_STATUS gives
MOTIF_FB_STAT. A served command is refused, with no effect of its own, E_PARAM where a reserved parameter is not 0, a value is out of
range, the parameters end before their list, a block's domain is off or a group's parameters fail R204; E_HANDLE where its handle names no
group (R319); E_BUSY for a STAGE while an evaluation runs and for a SEAL_WRITE, FW_WRITE or FW_SWAP in BRACE (R325) or while the store is
written; E_RUNNING for a FW_WRITE of the running slot; E_STATE for a SEAL_WRITE with nothing armed, a group command in the wrong group
state, a GROUP_ARM without slack, with its event, a DOMAIN that switches PIX or DRV off in ARMED or FALLBACK, a FB_OFF of another cause,
and a FW_SWAP of a slot that fails, with its reason. (Derived from 11 Handles (R319), 11 States (R325), 11 Seal (R337), 16 Seal commands
(R444, R451, R452), 11 Census (R338), 07 Groups (R205, R211, R212), 11 Power (R340), 11 Firmware (R341), 16 Firmware (R454), 11 Fallback
(R342), 08 The fallback look (R225, R231, R232).) -/
def Obligations.SealCensusPowerAndFirmwareCommandsRun : Prop :=
  ∀ (s : State) (via : Via) (p : List Byte) (o : Origin) (u : State),
    let serves (op : Nat) := s.served op via p = some (o, u)
    let off := beAt p 0 4
    let n := beAt p 4 2
    let store (x : SealSt) : State := { u with store := x }
    let refused (op : Nat) (c : Instr) (st : Status) (bad : Prop) : Prop := serves op → bad → s.Gives c o op st [] u
    (serves 0x0401 → 1 ≤ n → n ≤ 1008 → beAt p 6 2 = 0 → 8 + n ≤ p.length → off + n ≤ 262144 → u.evaluating = false →
      Answers (exec (.stage via p) s) fun t => ∃ v : State, t = v.postReply o 0x0401 .ok [] .nothing ∧
        v = store { u.store with staged := v.store.staged, marks := v.store.marks } ∧
        (∀ i : Nat, SMap.get stagedReset v.store.staged i = if off ≤ i ∧ i < off + n then p.getD (8 + (i - off)) 0 else SMap.get stagedReset u.store.staged i) ∧
        (∀ g : Nat, SMap.get (fun _ => false) v.store.marks g = (SMap.get (fun _ => false) u.store.marks g || decide (off < 64 * (g + 1) ∧ 64 * g < off + n)))) ∧
    (serves 0x0402 → exec (.check via p) s = .next (store { u.store with run := u.store.run ++ [⟨false, o⟩] })) ∧
    (serves 0x0403 → s.Gives (.arm via p) o 0x0403 .doneLater [] (store { u.store with run := u.store.run ++ [⟨true, o.paid⟩] })) ∧
    (serves 0x0404 → s.Gives (.disarm via p) o 0x0404 .ok [] (store { u.store with disarmDue := true })) ∧
    (serves 0x0405 → u.brace = false → u.store.write = none → u.store.armed ≠ none →
      exec (.sealWrite via p) s = .next (store { u.store with write := some o })) ∧
    (serves 0x0406 → 1 ≤ n → n ≤ 1008 → beAt p 6 2 = 0 → ∀ img : List Byte, u.store.armed = some img →
      s.Gives (.sealRead via p) o 0x0406 (if off + n ≤ (keyless img).length then .ok else .partially) (slice (keyless img) off n) u) ∧
    (serves 0x0501 → u.powered 3 = true → s.Gives (.sweep via p) o 0x0501 .ok [] u.sweepStart) ∧
    (∀ (h : Nat) (x : Session), o.session = some h → u.sessionAt h = some x → serves 0x0502 → byteAt p 0 < 4 → beAt p 1 3 = 0 →
      (bitAt (byteAt p 0) 1 = true → bitAt x.caps 3 = true) →
      s.Gives (.censusSub via p) o 0x0502 .ok [] (u.setSession (h % 65536) { x with census := byteAt p 0 })) ∧
    (serves 0x0503 → 1 ≤ beAt p 2 2 → beAt p 2 2 ≤ 252 → beAt p 0 2 + beAt p 2 2 ≤ 3072 → u.powered 2 = true →
      s.Gives (.mapRead via p) o 0x0503 .ok ((List.range (beAt p 2 2)).flatMap fun k => beBytes 4 (u.fcm32 (fcmCensus + 4 * (beAt p 0 2 + k)))) u) ∧
    (∀ g : Nat, u.resolve 4 off = some g →
      (serves 0x0504 → 1 ≤ beAt p 6 2 → beAt p 6 2 ≤ 504 → 8 + 2 * beAt p 6 2 ≤ p.length → u.powered 2 = true → u.powered 3 = true →
        n + beAt p 6 2 ≤ u.rd (Reg.CENSUS_GRP_COUNT g) → u.grpState g = 0 → ∃ σ : Nat → State, σ 0 = u ∧
        (∀ k : Nat, k < beAt p 6 2 → σ (k + 1) = (σ k).memberPut (u.rd (Reg.CENSUS_GRP_BASE g) + n + k) (beAt p (8 + 2 * k) 2)) ∧
        s.Gives (.groupMembers via p) o 0x0504 .ok [] (σ (beAt p 6 2))) ∧
      (serves 0x0505 → u.grpState g = 0 → u.armSlack g = true → u.armParams g = true → s.Gives (.groupArm via p) o 0x0505 .ok [] (u.grpArm g)) ∧
      (serves 0x0506 → s.Gives (.groupDisarm via p) o 0x0506 .ok [] (u.grpDisarm g)) ∧
      (serves 0x0507 → u.grpState g = 3 ∨ u.grpState g = 4 → s.Gives (.groupAck via p) o 0x0507 .ok [] (u.grpBegin g))) ∧
    (serves 0x0701 → s.GivesThen (.sentry via p) o 0x0701 .ok [] .sentry
      (store { u.store with run := u.store.run.filter fun r => !r.arm, armDue := none })) ∧
    (serves 0x0702 → byteAt p 0 < 8 → byteAt p 1 < 6 → beAt p 2 2 = 0 → Answers (exec (.wakeCfg via p) s) fun t => ∃ v : State,
      t = v.postReply o 0x0702 .ok [] .nothing ∧ v.rdB Reg.PWR_WAKE_PIN_EN = bitAt (byteAt p 0) 0 ∧ v.rdB Reg.PWR_WAKE_LINK_EN = bitAt (byteAt p 0) 1 ∧
      v.rdB Reg.PWR_WAKE_ALARM_EN = bitAt (byteAt p 0) 2 ∧ v.rd Reg.PWR_WAKE_PORT = byteAt p 1 ∧ v.rd Reg.PWR_ALARM_DELAY_S = n * 65536 + beAt p 6 2 ∧
      u.Changed v [Reg.PWR_WAKE_PIN_EN, Reg.PWR_WAKE_LINK_EN, Reg.PWR_WAKE_ALARM_EN, Reg.PWR_WAKE_PORT, Reg.PWR_ALARM_DELAY_S] [] { u with regs := v.regs }) ∧
    (serves 0x0703 →
      let mask := byteAt p 0
      let value := byteAt p 1
      let off (d : Nat) := bitAt mask d = true ∧ bitAt value d = false
      mask < 64 → value < 64 → beAt p 2 2 = 0 → ¬off 1 → (off 2 ∨ off 3 → s.devState ≠ 5 ∧ s.devState ≠ 6) →
      ∃ left : Nat, (∀ d : Nat, d < 6 → bitAt left d = if bitAt mask d then bitAt value d else u.powered d) ∧ left < 64 ∧
        s.GivesThen (.domain via p) o 0x0703 .ok (beBytes 1 left) (.domains mask value) u ∧
        ∀ (v : State) (d : Nat), d < 6 → (v.runAfter (.domains mask value)).powered d =
          if bitAt mask d then bitAt value d && (v.powered d || !v.heldDomain d) else v.powered d) ∧
    (serves 0x0801 →
      let slot := byteAt p 0
      let n := beAt p 2 2
      slot < 2 → byteAt p 1 = 0 → 1 ≤ n → n ≤ 1008 → 8 + n ≤ p.length → beAt p 4 4 + n ≤ slotSize → u.powered 4 = true →
      (s.inRecovery = true ∨ slot ≠ s.rd Reg.SEAL_BOOT_SLOT) → u.brace = false → u.store.write = none →
      s.Gives (.fwWrite via p) o 0x0801 .ok [] (u.setFlash (slotAt slot + beAt p 4 4) (slice p 8 n))) ∧
    (serves 0x0802 →
      let slot := byteAt p 0
      slot < 2 → beAt p 1 3 = 0 → u.powered 4 = true → u.brace = false → u.slotReason slot = 0 →
      (u.evaluating = true → u.store.swapDue = none → exec (.fwSwap via p) s = .next (store { u.store with swapDue := some (slot, o) })) ∧
      (u.evaluating = true → u.store.swapDue ≠ none →
        exec (.fwSwap via p) s = .next { u with cmd := { u.cmd with parked := u.cmd.parked ++ [⟨o, 0x0802, true, p⟩] } }) ∧
      (u.evaluating = false → u.inRecovery = true → s.GivesThen (.fwSwap via p) o 0x0802 .ok [] (.boot slot) u) ∧
      (u.evaluating = false → u.inRecovery = false → exec (.fwSwap via p) s = .next ((u.postReply o 0x0802 .ok [] .nothing).swapTo slot))) ∧
    (serves 0x0803 → s.Gives (.fwInfo via p) o 0x0803 .ok ((List.range 2).flatMap fun k =>
      let r := u.slotReason k
      [if r = 4 then 0 else if r = 0 then 1 else 2, if u.inRecovery = false ∧ u.rd Reg.SEAL_BOOT_SLOT = k then 1 else 0, 0, 0] ++
        beBytes 4 (if r = 4 then 0 else u.slotVersion k)) u) ∧
    (u.powered 2 = true →
      (serves 0x0901 → (u.fbActive = true → s.Gives (.fbOn via p) o 0x0901 .ok [] (u.wr Reg.MOTIF_FB_STAT_CAUSE 2)) ∧
        (u.fbActive = false → s.Gives (.fbOn via p) o 0x0901 .ok [] { u with fallback := { u.fallback with startDue := 2 } })) ∧
      (serves 0x0903 → beAt p 1 3 = 0 → s.Gives (.motifStep via p) o 0x0903 .ok [] (u.motifStep (byteAt p 0))) ∧
      (serves 0x0904 → s.Gives (.fbStatus via p) o 0x0904 .ok (beBytes 4 (u.viewWord Reg.MOTIF_FB_STAT_ACTIVE.addr).toNat) u)) ∧
    (serves 0x0902 → u.fbActive = true → u.rd Reg.MOTIF_FB_STAT_CAUSE = 2 →
      s.Gives (.fbOff via p) o 0x0902 .ok [] { u with fallback := { u.fallback with endDue := true } }) ∧
    (let bad := n = 0 ∨ 1008 < n ∨ beAt p 6 2 ≠ 0;
      refused 0x0401 (.stage via p) .eParam (bad ∨ p.length < 8 + n ∨ 262144 < off + n) ∧
      refused 0x0401 (.stage via p) .eBusy (¬bad ∧ 8 + n ≤ p.length ∧ off + n ≤ 262144 ∧ u.evaluating = true) ∧
      refused 0x0406 (.sealRead via p) .eParam bad) ∧
    refused 0x0405 (.sealWrite via p) .eBusy (u.brace = true ∨ u.store.write ≠ none) ∧
    refused 0x0405 (.sealWrite via p) .eState (u.brace = false ∧ u.store.write = none ∧ u.store.armed = none) ∧
    refused 0x0501 (.sweep via p) .eParam (u.powered 3 = false) ∧
    (∀ (h : Nat) (x : Session), o.session = some h → u.sessionAt h = some x → refused 0x0502 (.censusSub via p) .eParam
      (4 ≤ byteAt p 0 ∨ beAt p 1 3 ≠ 0 ∨ (bitAt (byteAt p 0) 1 = true ∧ bitAt x.caps 3 = false))) ∧
    refused 0x0503 (.mapRead via p) .eParam (beAt p 2 2 = 0 ∨ 252 < beAt p 2 2 ∨ 3072 < beAt p 0 2 + beAt p 2 2 ∨ u.powered 2 = false) ∧
    (let m := beAt p 6 2
      let bad := m = 0 ∨ 504 < m ∨ p.length < 8 + 2 * m ∨ u.powered 2 = false ∨ u.powered 3 = false
      let gone := u.resolve 4 off = none
      refused 0x0504 (.groupMembers via p) .eParam bad ∧ refused 0x0504 (.groupMembers via p) .eHandle (¬bad ∧ gone) ∧
      refused 0x0505 (.groupArm via p) .eHandle gone ∧ refused 0x0506 (.groupDisarm via p) .eHandle gone ∧
      refused 0x0507 (.groupAck via p) .eHandle gone ∧
      ∀ g : Nat, u.resolve 4 off = some g →
        refused 0x0504 (.groupMembers via p) .eParam (¬bad ∧ u.rd (Reg.CENSUS_GRP_COUNT g) < n + m) ∧
        refused 0x0504 (.groupMembers via p) .eState (¬bad ∧ n + m ≤ u.rd (Reg.CENSUS_GRP_COUNT g) ∧ u.grpState g ≠ 0) ∧
        refused 0x0505 (.groupArm via p) .eState (u.grpState g ≠ 0) ∧
        (serves 0x0505 → u.grpState g = 0 → u.armSlack g = false → s.Gives (.groupArm via p) o 0x0505 .eState [] (u.raise Ev.PROBE_NO_SLACK g)) ∧
        refused 0x0505 (.groupArm via p) .eParam (u.grpState g = 0 ∧ u.armSlack g = true ∧ u.armParams g = false) ∧
        refused 0x0507 (.groupAck via p) .eState (u.grpState g ≠ 3 ∧ u.grpState g ≠ 4)) ∧
    refused 0x0702 (.wakeCfg via p) .eParam (8 ≤ byteAt p 0 ∨ 6 ≤ byteAt p 1 ∨ beAt p 2 2 ≠ 0) ∧
    (let off (d : Nat) := bitAt (byteAt p 0) d = true ∧ bitAt (byteAt p 1) d = false
      let bad := 64 ≤ byteAt p 0 ∨ 64 ≤ byteAt p 1 ∨ beAt p 2 2 ≠ 0 ∨ off 1
      refused 0x0703 (.domain via p) .eParam bad ∧
      refused 0x0703 (.domain via p) .eState (¬bad ∧ (off 2 ∨ off 3) ∧ (s.devState = 5 ∨ s.devState = 6))) ∧
    (let slot := byteAt p 0
      let m := beAt p 2 2
      let bad := 2 ≤ slot ∨ byteAt p 1 ≠ 0 ∨ m = 0 ∨ 1008 < m ∨ p.length < 8 + m ∨ slotSize < beAt p 4 4 + m ∨ u.powered 4 = false
      let running := s.inRecovery = false ∧ slot = s.rd Reg.SEAL_BOOT_SLOT
      refused 0x0801 (.fwWrite via p) .eParam bad ∧ refused 0x0801 (.fwWrite via p) .eRunning (¬bad ∧ running) ∧
      refused 0x0801 (.fwWrite via p) .eBusy (¬bad ∧ ¬running ∧ (u.brace = true ∨ u.store.write ≠ none))) ∧
    (let slot := byteAt p 0
      let bad := 2 ≤ slot ∨ beAt p 1 3 ≠ 0 ∨ u.powered 4 = false
      refused 0x0802 (.fwSwap via p) .eParam bad ∧ refused 0x0802 (.fwSwap via p) .eBusy (¬bad ∧ u.brace = true) ∧
      (serves 0x0802 → ¬bad → u.brace = false → u.slotReason slot ≠ 0 →
        s.Gives (.fwSwap via p) o 0x0802 .eState (beBytes 2 (u.slotReason slot)) u)) ∧
    refused 0x0901 (.fbOn via p) .eParam (u.powered 2 = false) ∧
    refused 0x0902 (.fbOff via p) .eState (u.fbActive = false ∨ u.rd Reg.MOTIF_FB_STAT_CAUSE ≠ 2) ∧
    refused 0x0903 (.motifStep via p) .eParam (beAt p 1 3 ≠ 0 ∨ u.powered 2 = false) ∧
    refused 0x0904 (.fbStatus via p) .eParam (u.powered 2 = false)

end
end

