-- ==== Sys2Proof/Laws/SMap.lean ====
section
/-! SUPPORT. Sparse memories: what a write reads back as, and the canonical form. -/
namespace Sys2Proof.Machine

variable {α : Type}

/-- Dropping the entries up to an address changes no read above it. -/
theorem SMap.get_above (d : Nat → α) (m : List (Nat × α)) (a b : Nat) (h : a < b) :
    SMap.get d (SMap.above a m) b = SMap.get d m b := by
  induction m with
  | nil => rfl
  | cons e t ih =>
    obtain ⟨k, v⟩ := e
    unfold SMap.above
    by_cases hk : k ≤ a
    · rw [if_pos hk, ih, SMap.get, if_neg (by omega), if_neg (by omega)]
    · rw [if_neg hk]

/-- Above an address nothing at or below it is listed. -/
theorem SMap.get_above_low (d : Nat → α) (m : List (Nat × α)) (a b : Nat) (h : b ≤ a) :
    SMap.get d (SMap.above a m) b = d b := by
  induction m with
  | nil => rfl
  | cons e t ih =>
    obtain ⟨k, v⟩ := e
    unfold SMap.above
    by_cases hk : k ≤ a
    · rw [if_pos hk, ih]
    · rw [if_neg hk, SMap.get, if_pos (by omega)]

variable [DecidableEq α]

/-- A read after a write gives the value written at its address and the value before everywhere else. -/
theorem SMap.get_set (d : Nat → α) (m : List (Nat × α)) (a : Nat) (v : α) (b : Nat) :
    SMap.get d (SMap.set d m a v) b = if b = a then v else SMap.get d m b := by
  induction m with
  | nil =>
    unfold SMap.set
    by_cases hv : v = d a <;> by_cases hb : b = a <;> simp_all [SMap.get]
  | cons e t ih =>
    obtain ⟨k, w⟩ := e
    have hi := SMap.get_above d t a b
    have lo := SMap.get_above_low d t a b
    unfold SMap.set
    by_cases h1 : a < k
    · rw [if_pos h1]
      by_cases hv : v = d a <;> by_cases hb : b = a <;> by_cases hl : b < a <;> simp_all [SMap.get] <;> omega
    · rw [if_neg h1]
      by_cases h2 : a = k
      · subst h2
        rw [if_pos rfl]
        by_cases hv : v = d a <;> rcases Nat.lt_trichotomy b a with hb | hb | hb
        · rw [if_pos hv, lo (by omega), if_neg (by omega), SMap.get, if_pos hb]
        · rw [if_pos hv, lo (by omega), if_pos hb, hv, hb]
        · rw [if_pos hv, hi hb, if_neg (by omega), SMap.get, if_neg (by omega), if_neg (by omega)]
        · rw [if_neg hv, if_neg (show ¬b = a by omega), SMap.get, SMap.get, if_pos hb, if_pos hb]
        · rw [if_neg hv, if_pos hb, SMap.get, if_neg (by omega), if_pos hb]
        · rw [if_neg hv, if_neg (show ¬b = a by omega), SMap.get, SMap.get, if_neg (by omega), if_neg (by omega),
            if_neg (by omega), if_neg (by omega), hi hb]
      · rw [if_neg h2, SMap.get, ih, SMap.get]
        by_cases hb : b = a <;> simp_all <;> omega

/-- The canonical form of a list with a first entry. -/
theorem SMap.wf_cons (d : Nat → α) (k : Nat) (v : α) (t : List (Nat × α)) :
    SMap.wf d ((k, v) :: t) = true ↔ v ≠ d k ∧ (∀ e ∈ t, k < e.1) ∧ SMap.wf d t = true := by
  induction t generalizing k v with
  | nil => simp [SMap.wf]
  | cons e t ih =>
    obtain ⟨k', v'⟩ := e
    rw [SMap.wf, Bool.and_eq_true, Bool.and_eq_true, decide_eq_true_eq, decide_eq_true_eq]
    constructor
    · rintro ⟨⟨h1, h2⟩, h3⟩
      refine ⟨h1, ?_, h3⟩
      intro e he
      rcases List.mem_cons.1 he with rfl | he
      · exact h2
      · exact Nat.lt_trans h2 (((ih k' v').1 h3).2.1 e he)
    · rintro ⟨h1, h2, h3⟩
      exact ⟨⟨h1, h2 _ (List.mem_cons_self ..)⟩, h3⟩

/-- The entries above an address keep the form, and all lie above it. -/
theorem SMap.above_wf (d : Nat → α) (a : Nat) (m : List (Nat × α)) (h : SMap.wf d m = true) :
    SMap.wf d (SMap.above a m) = true ∧ (∀ e ∈ SMap.above a m, a < e.1) ∧ (∀ e ∈ SMap.above a m, e ∈ m) := by
  induction m with
  | nil => simp [SMap.above, SMap.wf]
  | cons e t ih =>
    obtain ⟨k, v⟩ := e
    obtain ⟨h1, h2, h3⟩ := (SMap.wf_cons d k v t).1 h
    unfold SMap.above
    by_cases hk : k ≤ a
    · rw [if_pos hk]
      obtain ⟨i1, i2, i3⟩ := ih h3
      exact ⟨i1, i2, fun e he => List.mem_cons_of_mem _ (i3 e he)⟩
    · rw [if_neg hk]
      refine ⟨h, ?_, fun e he => he⟩
      intro e he
      rcases List.mem_cons.1 he with rfl | he
      · show a < k; omega
      · have := h2 e he; omega

/-- The keys after a write: the written one and those before. -/
theorem SMap.set_keys (d : Nat → α) (m : List (Nat × α)) (a : Nat) (v : α) :
    ∀ e ∈ SMap.set d m a v, e.1 = a ∨ ∃ f ∈ m, f.1 = e.1 := by
  induction m with
  | nil =>
    intro e he
    unfold SMap.set at he
    split at he
    · cases he
    · exact .inl (by simp_all)
  | cons x t ih =>
    obtain ⟨k, w⟩ := x
    have above_mem : ∀ e ∈ SMap.above a t, e ∈ t := by
      clear ih
      induction t with
      | nil => intro e he; exact he
      | cons y t ih2 =>
        intro e he
        unfold SMap.above at he
        split at he
        · exact List.mem_cons_of_mem _ (ih2 e he)
        · exact he
    intro e he
    unfold SMap.set at he
    split at he
    · split at he
      · exact .inr ⟨e, he, rfl⟩
      · rcases List.mem_cons.1 he with rfl | he
        · exact .inl rfl
        · exact .inr ⟨e, he, rfl⟩
    · split at he
      · split at he
        · exact .inr ⟨e, List.mem_cons_of_mem _ (above_mem e he), rfl⟩
        · rcases List.mem_cons.1 he with rfl | he
          · exact .inl rfl
          · exact .inr ⟨e, List.mem_cons_of_mem _ (above_mem e he), rfl⟩
      · rcases List.mem_cons.1 he with rfl | he
        · exact .inr ⟨(k, w), List.mem_cons_self .., rfl⟩
        · rcases ih e he with h | ⟨f, hf, hfe⟩
          · exact .inl h
          · exact .inr ⟨f, List.mem_cons_of_mem _ hf, hfe⟩

/-- A write keeps the canonical form. -/
theorem SMap.set_wf (d : Nat → α) (m : List (Nat × α)) (a : Nat) (v : α) (h : SMap.wf d m = true) :
    SMap.wf d (SMap.set d m a v) = true := by
  induction m with
  | nil =>
    unfold SMap.set
    by_cases hv : v = d a
    · rw [if_pos hv]; rfl
    · rw [if_neg hv]; simpa [SMap.wf] using hv
  | cons x t ih =>
    obtain ⟨k, w⟩ := x
    obtain ⟨h1, h2, h3⟩ := (SMap.wf_cons d k w t).1 h
    unfold SMap.set
    by_cases ha : a < k
    · rw [if_pos ha]
      by_cases hv : v = d a
      · rw [if_pos hv]; exact h
      · rw [if_neg hv, SMap.wf_cons]
        refine ⟨hv, ?_, h⟩
        intro e he
        rcases List.mem_cons.1 he with rfl | he
        · exact ha
        · exact Nat.lt_trans ha (h2 e he)
    · rw [if_neg ha]
      by_cases hk : a = k
      · rw [if_pos hk]
        obtain ⟨i1, i2, _⟩ := SMap.above_wf d a t h3
        by_cases hv : v = d a
        · rw [if_pos hv]; exact i1
        · rw [if_neg hv, SMap.wf_cons]; exact ⟨hv, i2, i1⟩
      · rw [if_neg hk, SMap.wf_cons]
        refine ⟨h1, ?_, ih h3⟩
        intro e he
        rcases SMap.set_keys d t a v e he with h | ⟨f, hf, hfe⟩
        · rw [h]; omega
        · rw [← hfe]; exact h2 f hf

/-- A block of cells is canonical and lies in its range. -/
theorem SMap.cells_wf (d f : Nat → α) (n : Nat) : ∀ lo, SMap.wf d (SMap.cells d f lo n) = true ∧
    ∀ e ∈ SMap.cells d f lo n, lo ≤ e.1 ∧ e.1 < lo + n := by
  induction n with
  | zero => intro lo; exact ⟨rfl, fun e he => by cases he⟩
  | succ n ih =>
    intro lo
    obtain ⟨i1, i2⟩ := ih (lo + 1)
    unfold SMap.cells
    by_cases hf : f lo = d lo
    · rw [if_pos hf]
      exact ⟨i1, fun e he => by have := i2 e he; omega⟩
    · rw [if_neg hf]
      refine ⟨(SMap.wf_cons ..).2 ⟨hf, fun e he => by have := i2 e he; omega, i1⟩, ?_⟩
      intro e he
      rcases List.mem_cons.1 he with rfl | he
      · exact ⟨Nat.le_refl _, by show lo < lo + (n + 1); omega⟩
      · have := i2 e he; omega

/-- A filter keeps the canonical form. -/
theorem SMap.filter_wf (d : Nat → α) (p : Nat × α → Bool) (m : List (Nat × α)) (h : SMap.wf d m = true) :
    SMap.wf d (m.filter p) = true := by
  induction m with
  | nil => rfl
  | cons x t ih =>
    obtain ⟨k, w⟩ := x
    obtain ⟨h1, h2, h3⟩ := (SMap.wf_cons d k w t).1 h
    rw [List.filter_cons]
    split
    · exact (SMap.wf_cons ..).2 ⟨h1, fun e he => h2 e ((List.mem_filter.1 he).1), ih h3⟩
    · exact ih h3

/-- Two canonical lists, all keys of the first below those of the second, join to one. -/
theorem SMap.append_wf (d : Nat → α) (l m : List (Nat × α)) (hl : SMap.wf d l = true) (hm : SMap.wf d m = true)
    (h : ∀ e ∈ l, ∀ f ∈ m, e.1 < f.1) : SMap.wf d (l ++ m) = true := by
  induction l with
  | nil => exact hm
  | cons x t ih =>
    obtain ⟨k, w⟩ := x
    obtain ⟨h1, h2, h3⟩ := (SMap.wf_cons d k w t).1 hl
    refine (SMap.wf_cons ..).2 ⟨h1, ?_, ih h3 fun e he => h e (List.mem_cons_of_mem _ he)⟩
    intro e he
    rcases List.mem_append.1 he with he | he
    · exact h2 e he
    · exact h _ (List.mem_cons_self ..) e he

/-- A splice keeps the canonical form. -/
theorem SMap.splice_wf (d : Nat → α) (lo hi : Nat) (blk m : List (Nat × α)) (hb : SMap.wf d blk = true)
    (hr : ∀ e ∈ blk, lo ≤ e.1 ∧ e.1 < hi) (hm : SMap.wf d m = true) : SMap.wf d (SMap.splice lo hi blk m) = true := by
  induction m with
  | nil => exact hb
  | cons x t ih =>
    obtain ⟨k, w⟩ := x
    obtain ⟨h1, h2, h3⟩ := (SMap.wf_cons d k w t).1 hm
    unfold SMap.splice
    by_cases hk : k < lo
    · rw [if_pos hk]
      refine (SMap.wf_cons ..).2 ⟨h1, ?_, ih h3⟩
      have key : ∀ l : List (Nat × α), (∀ e ∈ l, k < e.1) → ∀ e ∈ SMap.splice lo hi blk l, k < e.1 := by
        intro l
        induction l with
        | nil => intro _ e he; have := hr e he; omega
        | cons y l ih2 =>
          obtain ⟨k', w'⟩ := y
          intro hl e he
          unfold SMap.splice at he
          split at he
          · rcases List.mem_cons.1 he with rfl | he
            · exact hl _ (List.mem_cons_self ..)
            · exact ih2 (fun e he => hl e (List.mem_cons_of_mem _ he)) e he
          · rcases List.mem_append.1 he with he | he
            · have := hr e he; omega
            · exact hl e ((List.mem_filter.1 he).1)
      exact key t h2
    · rw [if_neg hk]
      refine SMap.append_wf d _ _ hb (SMap.filter_wf d _ _ hm) ?_
      intro e he f hf
      have h4 := hr e he
      have h5 := (List.mem_filter.1 hf).2
      rw [decide_eq_true_eq] at h5
      omega

/-- Writing a range keeps the canonical form. -/
theorem SMap.setRange_wf (d : Nat → α) (m : List (Nat × α)) (lo n : Nat) (f : Nat → α) (h : SMap.wf d m = true) :
    SMap.wf d (SMap.setRange d m lo n f) = true :=
  SMap.splice_wf d lo (lo + n) _ m (SMap.cells_wf d f n lo).1 (SMap.cells_wf d f n lo).2 h

/-- Copying selected addresses keeps the canonical form. -/
theorem SMap.copySel_wf (d : Nat → α) (p : Nat → Bool) (src m : List (Nat × α)) (h : SMap.wf d m = true) :
    SMap.wf d (SMap.copySel d p src m) = true := by
  unfold SMap.copySel
  generalize List.filter (fun e => p e.1) (src ++ m) = l
  induction l generalizing m with
  | nil => exact h
  | cons x t ih => exact ih _ (SMap.set_wf d m x.1 _ h)

end Sys2Proof.Machine
end

