-- ==== Sys2Proof/Laws/Keeps.lean ====
section
/-! SUPPORT. What every operation of the model keeps: the queue of waiting commands, and the canonical forms. One lemma per
operation follows in the files Keeps<Module>. -/
namespace Sys2Proof.Machine

/-- From `s` to `t` the queue is the same, and canonical forms are kept. -/
def Keeps (s t : State) : Prop := t.pending = s.pending ∧ (s.wf = true → t.wf = true)

/-- An outcome that is a next state keeps it. -/
def OKeeps (s : State) (o : Host.Outcome State Fault Refusal) : Prop :=
  match o with
  | .next t => Keeps s t
  | .fault _ => True
  | .refused _ => True

theorem keeps_refl (s : State) : Keeps s s := ⟨rfl, id⟩

theorem ite_keeps {s0 a b : State} {c : Prop} [Decidable c] (ha : Keeps s0 a) (hb : Keeps s0 b) :
    Keeps s0 (if c then a else b) := by
  split <;> assumption

theorem ite_keeps_snd {α : Type} {s0 : State} {a b : α × State} {c : Prop} [Decidable c] (ha : Keeps s0 a.2)
    (hb : Keeps s0 b.2) : Keeps s0 (if c then a else b).2 := by
  split <;> assumption

theorem ite_okeeps {s0 : State} {a b : Host.Outcome State Fault Refusal} {c : Prop} [Decidable c] (ha : OKeeps s0 a)
    (hb : OKeeps s0 b) : OKeeps s0 (if c then a else b) := by
  split <;> assumption

theorem next_okeeps {s0 s : State} (h : Keeps s0 s) : OKeeps s0 (.next s) := h

theorem mkpair_keeps {α : Type} {s0 s : State} {a : α} (h : Keeps s0 s) : Keeps s0 (a, s).2 := h

theorem keeps_pair {α : Type} {s0 s : State} {p : α × State} {a : α} (e : p = (a, s)) (h : Keeps s0 p.2) : Keeps s0 s := by
  subst e; exact h

theorem keeps_pair3 {α β : Type} {s0 s : State} {p : α × β × State} {a : α} {b : β} (e : p = (a, b, s)) (h : Keeps s0 p.2.2) :
    Keeps s0 s := by
  subst e; exact h

theorem foldl_keeps {α : Type} {s0 s : State} {f : State → α → State} {l : List α}
    (hf : ∀ t a, Keeps s0 t → Keeps s0 (f t a)) (h : Keeps s0 s) : Keeps s0 (l.foldl f s) := by
  induction l generalizing s with
  | nil => exact h
  | cons a l ih => exact ih (hf _ _ h)

theorem foldl_keeps_snd {α β : Type} {s0 : State} {f : β × State → α → β × State} {l : List α} {p : β × State}
    (hf : ∀ q a, Keeps s0 q.2 → Keeps s0 (f q a).2) (h : Keeps s0 p.2) : Keeps s0 (l.foldl f p).2 := by
  induction l generalizing p with
  | nil => exact h
  | cons a l ih => exact ih (hf _ _ h)

/-- `Keeps` in the four parts of the state it speaks of. -/
def KeepsParts (s0 : State) (pending : List Instr) (regs shadow : List (Nat × Word)) (fcm : List Host.Cell) : Prop :=
  pending = s0.pending ∧
    (s0.wf = true → (SMap.wf regReset regs && SMap.wf regReset shadow && Memory.wf fcm) = true)

/-- Fields other than the queue, the registers, the shadows and the FCM do not matter. -/
theorem keeps_mk_of {s0 : State} {pending : List Instr} {regs shadow : List (Nat × Word)} {fcm : List Host.Cell} {free : Nat}
    {time : TimeSt} {moves : List (Nat × Move)} {gens : List (Nat × Byte)}
    {pipe : PipeSt} {scan : ScanSt} {motif : List (Nat × MotifEng)} {fallback : FallbackSt} {badWords : List (Nat × Nat)}
    {sink : SinkSt} {census : CensusSt} {cvu : List (Nat × CvuSt)} {pawns : List (Nat × PawnSt)}
    {spwm : List (Nat × SpwmSt)} {mir : MirSt} {net : NetSt} {poll : PollSt} {klp : KlpSt} {cmd : CmdSt} {store : SealSt}
    {pwr : PwrSt} {rook : RookSt} {cycle : CycleSt} (h : KeepsParts s0 pending regs shadow fcm) :
    Keeps s0 ⟨⟨regs, shadow, fcm, free, time, moves, gens, pipe, scan, motif, fallback, badWords, sink,
      census, cvu, pawns, spwm, mir, net, poll, klp, cmd, store, pwr, rook⟩, pending, cycle⟩ := h

theorem keeps_parts_empty {s0 s : State} (h : Keeps s0 s) : KeepsParts s0 s.pending s.regs s.shadow [] := by
  refine ⟨h.1, fun w => ?_⟩
  have := h.2 w
  simp only [State.wf, Bool.and_eq_true] at this ⊢
  exact ⟨this.1, rfl⟩

theorem keeps_parts {s0 s : State} (h : Keeps s0 s) : KeepsParts s0 s.pending s.regs s.shadow s.fcm := h

/-- Each canonical form is kept by the write of one address. -/
theorem keeps_regs {s0 s : State} {r : List (Nat × Word)} (h : Keeps s0 s)
    (hr : SMap.wf regReset s.regs = true → SMap.wf regReset r = true) : Keeps s0 { s with regs := r } := by
  refine ⟨h.1, fun w => ?_⟩
  have := h.2 w
  simp only [State.wf, Bool.and_eq_true] at this ⊢
  exact ⟨⟨hr this.1.1, this.1.2⟩, this.2⟩

theorem keeps_shadow {s0 s : State} {r : List (Nat × Word)} (h : Keeps s0 s)
    (hr : SMap.wf regReset s.shadow = true → SMap.wf regReset r = true) : Keeps s0 { s with shadow := r } := by
  refine ⟨h.1, fun w => ?_⟩
  have := h.2 w
  simp only [State.wf, Bool.and_eq_true] at this ⊢
  exact ⟨⟨this.1.1, hr this.1.2⟩, this.2⟩

theorem keeps_fcm {s0 s : State} {m : List Host.Cell} {bad : List (Nat × Nat)} (h : Keeps s0 s)
    (hr : Memory.wf s.fcm = true → Memory.wf m = true) : Keeps s0 { s with fcm := m, badWords := bad } := by
  refine ⟨h.1, fun w => ?_⟩
  have := h.2 w
  simp only [State.wf, Bool.and_eq_true] at this ⊢
  exact ⟨this.1, hr this.2⟩

theorem State.setReg_keeps {s0 : State} (s : State) (a : Nat) (w : Word) (h : Keeps s0 s) : Keeps s0 (State.setReg s a w) :=
  keeps_regs h (SMap.set_wf _ _ _ _)

theorem State.setShReg_keeps {s0 : State} (s : State) (a : Nat) (w : Word) (h : Keeps s0 s) :
    Keeps s0 (State.setShReg s a w) :=
  keeps_shadow h (SMap.set_wf _ _ _ _)

theorem State.setFcmByte_keeps {s0 : State} (s : State) (o : Nat) (b : Byte) (h : Keeps s0 s) :
    Keeps s0 (State.setFcmByte s o b) :=
  keeps_fcm h (SMap.set_wf _ _ _ _)

theorem State.fillFcm_keeps {s0 : State} (s : State) (lo n : Nat) (f : Nat → Byte) (h : Keeps s0 s) :
    Keeps s0 (State.fillFcm s lo n f) :=
  keeps_fcm h (SMap.setRange_wf _ _ _ _ _)

end Sys2Proof.Machine
end

