-- ==== Sys2Proof/Laws/KeepsOps.lean ====
section
/-! SUPPORT. The operations of Ops.lean keep the queue and the canonical forms. -/
namespace Sys2Proof.Machine

theorem State.wr_keeps {s0 : State} (s : State) (f : Fld) (v : Nat) (hk : Keeps s0 s) :
    Keeps s0 (State.wr s f v) := by
  unfold State.wr
  with_reducible apply State.setReg_keeps
  with_reducible assumption

theorem State.wrB_keeps {s0 : State} (s : State) (f : Fld) (b : Bool) (hk : Keeps s0 s) :
    Keeps s0 (State.wrB s f b) := by
  unfold State.wrB
  with_reducible apply State.wr_keeps
  with_reducible assumption

theorem State.wrSh_keeps {s0 : State} (s : State) (f : Fld) (v : Nat) (hk : Keeps s0 s) :
    Keeps s0 (State.wrSh s f v) := by
  unfold State.wrSh
  with_reducible apply State.setShReg_keeps
  with_reducible assumption

theorem State.wrBoth_keeps {s0 : State} (s : State) (f : Fld) (v : Nat) (hk : Keeps s0 s) :
    Keeps s0 (State.wrBoth s f v) := by
  unfold State.wrBoth
  with_reducible apply State.wrSh_keeps
  with_reducible apply State.wr_keeps
  with_reducible assumption

theorem State.noteCount_keeps {s0 : State} (s : State) (f : Fld) (n : Nat) (hk : Keeps s0 s) :
    Keeps s0 (State.noteCount s f n) := by
  unfold State.noteCount
  with_reducible refine keeps_mk_of (keeps_parts ?_)
  with_reducible assumption

theorem State.bumpBy_keeps {s0 : State} (s : State) (f : Fld) (n : Nat) (hk : Keeps s0 s) :
    Keeps s0 (State.bumpBy s f n) := by
  unfold State.bumpBy
  with_reducible apply State.noteCount_keeps
  with_reducible apply State.wr_keeps
  with_reducible assumption

theorem State.bump_keeps {s0 : State} (s : State) (f : Fld) (hk : Keeps s0 s) :
    Keeps s0 (State.bump s f) := by
  unfold State.bump
  with_reducible apply State.bumpBy_keeps
  with_reducible assumption

theorem State.bumpWrap_keeps {s0 : State} (s : State) (f : Fld) (hk : Keeps s0 s) :
    Keeps s0 (State.bumpWrap s f) := by
  unfold State.bumpWrap
  with_reducible apply State.noteCount_keeps
  with_reducible apply State.wr_keeps
  with_reducible assumption

theorem State.draw_keeps {s0 : State} (s : State) (hk : Keeps s0 s) :
    Keeps s0 (State.draw s).2 := by
  unfold State.draw
  with_reducible refine mkpair_keeps ?_
  with_reducible refine keeps_mk_of (keeps_parts ?_)
  with_reducible assumption

theorem State.setVt_keeps {s0 : State} (s : State) (t : Nat) (hk : Keeps s0 s) :
    Keeps s0 (State.setVt s t) := by
  unfold State.setVt
  with_reducible refine keeps_mk_of (keeps_parts ?_)
  with_reducible assumption

theorem State.setPawn_keeps {s0 : State} (s : State) (n : Nat) (p : PawnSt) (hk : Keeps s0 s) :
    Keeps s0 (State.setPawn s n p) := by
  unfold State.setPawn
  with_reducible refine keeps_mk_of (keeps_parts ?_)
  with_reducible assumption

theorem State.newCycle_keeps {s0 : State} (s : State) (n : Nat) (hk : Keeps s0 s) :
    Keeps s0 (State.newCycle s n) := by
  unfold State.newCycle
  dsimp only
  with_reducible refine keeps_mk_of (keeps_parts ?_)
  with_reducible assumption

theorem State.seeWrite_keeps {s0 : State} (s : State) (a : Nat) (hk : Keeps s0 s) :
    Keeps s0 (State.seeWrite s a) := by
  unfold State.seeWrite
  with_reducible refine keeps_mk_of (keeps_parts ?_)
  with_reducible assumption

theorem State.fixStart_keeps {s0 : State} (s : State) (a : Nat) (w : Word) (hk : Keeps s0 s) :
    Keeps s0 (State.fixStart s a w) := by
  unfold State.fixStart
  with_reducible refine keeps_mk_of (keeps_parts ?_)
  with_reducible assumption

theorem State.setW1c_keeps {s0 : State} (s : State) (f : Fld) (hk : Keeps s0 s) :
    Keeps s0 (State.setW1c s f) := by
  unfold State.setW1c
  dsimp only
  with_reducible refine keeps_mk_of (keeps_parts ?_)
  with_reducible apply State.wr_keeps
  with_reducible assumption

theorem State.clearW1c_keeps {s0 : State} (s : State) (a : Nat) (w : Word) (hk : Keeps s0 s) :
    Keeps s0 (State.clearW1c s a w) := by
  unfold State.clearW1c
  with_reducible apply State.setReg_keeps
  with_reducible assumption

theorem State.hwReg_keeps {s0 : State} (s : State) (a : Nat) (w : Word) (hk : Keeps s0 s) :
    Keeps s0 (State.hwReg s a w) := by
  unfold State.hwReg
  with_reducible refine ite_keeps ?_ ?_
  · with_reducible assumption
  · with_reducible apply State.setReg_keeps
    with_reducible assumption

theorem State.hwWr_keeps {s0 : State} (s : State) (f : Fld) (v : Nat) (hk : Keeps s0 s) :
    Keeps s0 (State.hwWr s f v) := by
  unfold State.hwWr
  with_reducible refine ite_keeps ?_ ?_
  · with_reducible assumption
  · with_reducible apply State.wr_keeps
    with_reducible assumption

theorem State.hwWrSh_keeps {s0 : State} (s : State) (f : Fld) (v : Nat) (hk : Keeps s0 s) :
    Keeps s0 (State.hwWrSh s f v) := by
  unfold State.hwWrSh
  with_reducible refine ite_keeps ?_ ?_
  · with_reducible assumption
  · with_reducible apply State.wrSh_keeps
    with_reducible assumption

theorem State.hwWrBoth_keeps {s0 : State} (s : State) (f : Fld) (v : Nat) (hk : Keeps s0 s) :
    Keeps s0 (State.hwWrBoth s f v) := by
  unfold State.hwWrBoth
  with_reducible apply State.hwWrSh_keeps
  with_reducible apply State.wr_keeps
  with_reducible assumption

theorem State.setFcm16_keeps {s0 : State} (s : State) (o v : Nat) (hk : Keeps s0 s) :
    Keeps s0 (State.setFcm16 s o v) := by
  unfold State.setFcm16
  with_reducible apply State.setFcmByte_keeps
  with_reducible apply State.setFcmByte_keeps
  with_reducible assumption

theorem State.setFcm32_keeps {s0 : State} (s : State) (o v : Nat) (hk : Keeps s0 s) :
    Keeps s0 (State.setFcm32 s o v) := by
  unfold State.setFcm32
  with_reducible apply State.setFcm16_keeps
  with_reducible apply State.setFcm16_keeps
  with_reducible assumption

theorem State.readGave_keeps {s0 : State} (s : State) (l : List Byte) (hk : Keeps s0 s) :
    Keeps s0 (State.readGave s l) := by
  unfold State.readGave
  with_reducible refine keeps_mk_of (keeps_parts ?_)
  with_reducible assumption

theorem readWordGave_keeps {s0 : State} (r : Word × State) (h : Keeps s0 r.2) : Keeps s0 (readWordGave r) :=
  State.readGave_keeps _ _ h

theorem State.scrubTake_keeps {s0 : State} (s : State) (use : Nat × Nat → Bool) (hk : Keeps s0 s) :
    Keeps s0 (State.scrubTake s use).2 := by
  unfold State.scrubTake
  with_reducible refine mkpair_keeps ?_
  with_reducible refine keeps_mk_of (keeps_parts ?_)
  with_reducible assumption

end Sys2Proof.Machine
end

