-- ==== Sys2Proof/Laws/KeepsFlags.lean ====
section
/-! SUPPORT. The operations of Flags.lean keep the queue and the canonical forms. -/
namespace Sys2Proof.Machine

theorem State.pollPost_keeps {s0 : State} (s : State) (n : Nat) (move : Bool) (data vt : Nat) (hk : Keeps s0 s) :
    Keeps s0 (State.pollPost s n move data vt) := by
  unfold State.pollPost
  with_reducible refine ite_keeps ?_ ?_
  · extract_lets +onlyGivenNames x1
    clear_value x1
    extract_lets +onlyGivenNames x2
    clear_value x2
    extract_lets +onlyGivenNames x3
    clear_value x3
    extract_lets +onlyGivenNames x4
    have h4 : Keeps s0 x4 := by
      unfold x4
      with_reducible refine ite_keeps ?_ ?_
      · with_reducible apply State.bump_keeps
        with_reducible assumption
      · with_reducible assumption
    clear_value x4
    with_reducible refine keeps_mk_of (keeps_parts ?_)
    with_reducible assumption
  · with_reducible assumption

theorem State.evtMark_keeps {s0 : State} (s : State) (n data : Nat) (hk : Keeps s0 s) :
    Keeps s0 (State.evtMark s n data) := by
  unfold State.evtMark
  with_reducible apply State.wr_keeps
  with_reducible apply State.setW1c_keeps
  with_reducible assumption

theorem State.subsPost_keeps {s0 : State} (s : State) (n : Nat) (move : Bool) (data vt : Nat) (hk : Keeps s0 s) :
    Keeps s0 (State.subsPost s n move data vt) := by
  unfold State.subsPost
  with_reducible refine keeps_mk_of (keeps_parts ?_)
  with_reducible assumption

theorem State.raiseAs_keeps {s0 : State} (s : State) (move : Bool) (n : Nat) (data : Nat) (hk : Keeps s0 s) :
    Keeps s0 (State.raiseAs s move n data) := by
  unfold State.raiseAs
  extract_lets +onlyGivenNames x1
  clear_value x1
  extract_lets +onlyGivenNames x2
  clear_value x2
  with_reducible apply State.pollPost_keeps
  with_reducible apply State.subsPost_keeps
  with_reducible apply State.evtMark_keeps
  with_reducible assumption

theorem State.raise_keeps {s0 : State} (s : State) (n : Nat) (data : Nat) (hk : Keeps s0 s) :
    Keeps s0 (State.raise s n data) := by
  unfold State.raise
  with_reducible apply State.raiseAs_keeps
  with_reducible assumption

end Sys2Proof.Machine
end

