-- ==== Sys2Proof/Laws/KeepsHandles.lean ====
section
/-! SUPPORT. The operations of Handles.lean keep the queue and the canonical forms. -/
namespace Sys2Proof.Machine

theorem State.advanceGen_keeps {s0 : State} (s : State) (cls idx : Nat) (hk : Keeps s0 s) :
    Keeps s0 (State.advanceGen s cls idx) := by
  unfold State.advanceGen
  extract_lets +onlyGivenNames x1
  clear_value x1
  with_reducible refine keeps_mk_of (keeps_parts ?_)
  with_reducible assumption

end Sys2Proof.Machine
end

