-- ==== Sys2Proof/Laws/KeepsCvu.lean ====
section
/-! SUPPORT. The operations of Cvu.lean keep the queue and the canonical forms. -/
namespace Sys2Proof.Machine

theorem State.setCvu_keeps {s0 : State} (s : State) (n : Nat) (c : CvuSt) (hk : Keeps s0 s) :
    Keeps s0 (State.setCvu s n c) := by
  unfold State.setCvu
  with_reducible refine keeps_mk_of (keeps_parts ?_)
  with_reducible assumption

theorem State.cvuDoneEvent_keeps {s0 : State} (s : State) (n : Nat) (hk : Keeps s0 s) :
    Keeps s0 (State.cvuDoneEvent s n) := by
  unfold State.cvuDoneEvent
  extract_lets +onlyGivenNames x1
  clear_value x1
  extract_lets +onlyGivenNames x2
  clear_value x2
  extract_lets +onlyGivenNames x3
  clear_value x3
  with_reducible refine ite_keeps ?_ ?_
  · with_reducible apply State.setCvu_keeps
    with_reducible apply State.raise_keeps
    with_reducible assumption
  · with_reducible apply State.setCvu_keeps
    with_reducible assumption

theorem State.cvuMisEvent_keeps {s0 : State} (s : State) (n : Nat) (hk : Keeps s0 s) :
    Keeps s0 (State.cvuMisEvent s n) := by
  unfold State.cvuMisEvent
  extract_lets +onlyGivenNames x1
  clear_value x1
  extract_lets +onlyGivenNames x2
  clear_value x2
  split
  · with_reducible apply State.setCvu_keeps
    with_reducible apply State.raise_keeps
    with_reducible assumption
  · with_reducible assumption

theorem State.cvuInfo_keeps {s0 : State} (s : State) (n : Nat) (c : CvuSt) (hk : Keeps s0 s) :
    Keeps s0 (State.cvuInfo s n c) := by
  unfold State.cvuInfo
  with_reducible apply State.wrB_keeps
  with_reducible apply State.wrB_keeps
  with_reducible apply State.wr_keeps
  with_reducible assumption

theorem State.setInfo_keeps {s0 : State} (s : State) (n : Nat) (c : CvuSt) (hk : Keeps s0 s) :
    Keeps s0 (State.setInfo s n c) := by
  unfold State.setInfo
  with_reducible refine ite_keeps ?_ ?_
  · with_reducible apply State.setCvu_keeps
    with_reducible assumption
  · with_reducible apply State.cvuInfo_keeps
    with_reducible apply State.setCvu_keeps
    with_reducible assumption

theorem State.cvuCompare_keeps {s0 : State} (s : State) (n result expected : Nat) (hk : Keeps s0 s) :
    Keeps s0 (State.cvuCompare s n result expected) := by
  unfold State.cvuCompare
  with_reducible refine ite_keeps ?_ ?_
  · with_reducible assumption
  · dsimp only
    with_reducible apply State.cvuMisEvent_keeps
    with_reducible apply State.bump_keeps
    with_reducible apply State.setW1c_keeps
    with_reducible apply State.setInfo_keeps
    with_reducible assumption

theorem State.cvuCycleClose_keeps {s0 : State} (s : State) (n r : Nat) (hk : Keeps s0 s) :
    Keeps s0 (State.cvuCycleClose s n r) := by
  unfold State.cvuCycleClose
  dsimp only
  with_reducible refine ite_keeps ?_ ?_
  · with_reducible apply State.wr_keeps
    with_reducible refine keeps_mk_of (keeps_parts ?_)
    with_reducible assumption
  · with_reducible refine keeps_mk_of (keeps_parts ?_)
    with_reducible assumption

theorem State.cvuClose_keeps {s0 : State} (s : State) (n : Nat) (st : Nat × List Byte) (short : Bool) (follow : Option (List Byte)) (hk : Keeps s0 s) :
    Keeps s0 (State.cvuClose s n st short follow) := by
  unfold State.cvuClose
  dsimp only
  with_reducible apply State.cvuDoneEvent_keeps
  with_reducible refine ite_keeps ?_ ?_
  · with_reducible apply State.bump_keeps
    with_reducible apply State.cvuCycleClose_keeps
    with_reducible apply State.wr_keeps
    with_reducible apply State.wr_keeps
    with_reducible apply State.wr_keeps
    with_reducible apply State.wr_keeps
    with_reducible apply State.setInfo_keeps
    with_reducible assumption
  · with_reducible refine ite_keeps ?_ ?_
    · split
      · with_reducible refine ite_keeps ?_ ?_
        · with_reducible apply State.cvuCompare_keeps
          with_reducible apply State.bump_keeps
          with_reducible apply State.cvuCycleClose_keeps
          with_reducible apply State.wr_keeps
          with_reducible apply State.wr_keeps
          with_reducible apply State.wr_keeps
          with_reducible apply State.wr_keeps
          with_reducible apply State.setInfo_keeps
          with_reducible assumption
        · with_reducible apply State.setInfo_keeps
          with_reducible apply State.bump_keeps
          with_reducible apply State.cvuCycleClose_keeps
          with_reducible apply State.wr_keeps
          with_reducible apply State.wr_keeps
          with_reducible apply State.wr_keeps
          with_reducible apply State.wr_keeps
          with_reducible apply State.setInfo_keeps
          with_reducible assumption
      · with_reducible apply State.setCvu_keeps
        with_reducible apply State.bump_keeps
        with_reducible apply State.cvuCycleClose_keeps
        with_reducible apply State.wr_keeps
        with_reducible apply State.wr_keeps
        with_reducible apply State.wr_keeps
        with_reducible apply State.wr_keeps
        with_reducible apply State.setInfo_keeps
        with_reducible assumption
    · with_reducible apply State.cvuCompare_keeps
      with_reducible apply State.bump_keeps
      with_reducible apply State.cvuCycleClose_keeps
      with_reducible apply State.wr_keeps
      with_reducible apply State.wr_keeps
      with_reducible apply State.wr_keeps
      with_reducible apply State.wr_keeps
      with_reducible apply State.setInfo_keeps
      with_reducible assumption

theorem State.cvuAbandon_keeps {s0 : State} (s : State) (n : Nat) (hk : Keeps s0 s) :
    Keeps s0 (State.cvuAbandon s n) := by
  unfold State.cvuAbandon
  extract_lets +onlyGivenNames x1
  clear_value x1
  extract_lets +onlyGivenNames x2
  have h2 : Keeps s0 x2 := by
    unfold x2
    with_reducible apply State.setCvu_keeps
    with_reducible assumption
  clear_value x2
  with_reducible apply State.bump_keeps
  with_reducible apply State.wr_keeps
  with_reducible apply State.wr_keeps
  with_reducible assumption

theorem State.cvuHold_keeps {s0 : State} (s : State) (n : Nat) (st : Nat × List Byte) (done : Nat) (hk : Keeps s0 s) :
    Keeps s0 (State.cvuHold s n st done) := by
  unfold State.cvuHold
  extract_lets +onlyGivenNames x1
  clear_value x1
  extract_lets +onlyGivenNames x2
  have h2 : Keeps s0 x2 := by
    unfold x2
    with_reducible apply State.setCvu_keeps
    with_reducible assumption
  clear_value x2
  with_reducible apply State.wr_keeps
  with_reducible apply State.wr_keeps
  with_reducible apply State.wr_keeps
  with_reducible assumption

theorem State.cvuTrail_keeps {s0 : State} (s : State) (n r : Nat) (l : List Byte) (hk : Keeps s0 s) :
    Keeps s0 (State.cvuTrail s n r l) := by
  unfold State.cvuTrail
  with_reducible refine ite_keeps ?_ ?_
  · with_reducible apply State.setCvu_keeps
    with_reducible assumption
  · with_reducible apply State.cvuCompare_keeps
    with_reducible apply State.setCvu_keeps
    with_reducible assumption

theorem State.cvuLate_keeps {s0 : State} (s : State) (n : Nat) (k : CloseSt) (b : Byte) (hk : Keeps s0 s) :
    Keeps s0 (State.cvuLate s n k b) := by
  unfold State.cvuLate
  dsimp only
  with_reducible refine ite_keeps ?_ ?_
  · with_reducible apply State.setCvu_keeps
    with_reducible apply State.cvuCycleClose_keeps
    with_reducible apply State.wr_keeps
    with_reducible apply State.wr_keeps
    with_reducible refine keeps_mk_of (keeps_parts ?_)
    with_reducible assumption
  · with_reducible refine ite_keeps ?_ ?_
    · with_reducible apply State.cvuCycleClose_keeps
      with_reducible apply State.wr_keeps
      with_reducible apply State.wr_keeps
      with_reducible refine keeps_mk_of (keeps_parts ?_)
      with_reducible assumption
    · with_reducible refine ite_keeps ?_ ?_
      · with_reducible apply State.cvuCompare_keeps
        with_reducible apply State.cvuCycleClose_keeps
        with_reducible apply State.wr_keeps
        with_reducible apply State.wr_keeps
        with_reducible refine keeps_mk_of (keeps_parts ?_)
        with_reducible assumption
      · with_reducible apply State.wr_keeps
        with_reducible apply State.wrB_keeps
        with_reducible apply State.setInfo_keeps
        with_reducible apply State.cvuCycleClose_keeps
        with_reducible apply State.wr_keeps
        with_reducible apply State.wr_keeps
        with_reducible refine keeps_mk_of (keeps_parts ?_)
        with_reducible assumption

theorem State.cvuRunByte_keeps {s0 : State} (n : Nat) (s : State) (b : Byte) (hk : Keeps s0 s) :
    Keeps s0 (State.cvuRunByte n s b) := by
  unfold State.cvuRunByte
  dsimp only
  split
  · with_reducible apply State.cvuLate_keeps
    with_reducible assumption
  · with_reducible apply State.cvuTrail_keeps
    with_reducible assumption
  · with_reducible refine ite_keeps ?_ ?_
    · with_reducible assumption
    · with_reducible refine ite_keeps ?_ ?_
      · with_reducible apply State.setCvu_keeps
        with_reducible assumption
      · with_reducible refine ite_keeps ?_ ?_
        · with_reducible apply State.cvuClose_keeps
          with_reducible apply State.setCvu_keeps
          with_reducible apply State.cvuHold_keeps
          with_reducible assumption
        · with_reducible apply State.cvuHold_keeps
          with_reducible assumption

theorem State.cvuFcmByte_keeps {s0 : State} (n o : Nat) (s : State) (b : Byte) (hk : Keeps s0 s) :
    Keeps s0 (State.cvuFcmByte n o s b) := by
  unfold State.cvuFcmByte
  dsimp only
  with_reducible refine ite_keeps ?_ ?_
  · split
    · with_reducible apply State.cvuLate_keeps
      with_reducible assumption
    · with_reducible apply State.cvuTrail_keeps
      with_reducible assumption
    · with_reducible refine ite_keeps ?_ ?_
      · with_reducible assumption
      · with_reducible apply State.cvuHold_keeps
        with_reducible assumption
  · with_reducible assumption

theorem State.cvuWordWindow_keeps {s0 : State} (s : State) (n : Nat) (w : Word) (hk : Keeps s0 s) :
    Keeps s0 (State.cvuWordWindow s n w) := by
  unfold State.cvuWordWindow
  extract_lets +onlyGivenNames x1
  clear_value x1
  extract_lets +onlyGivenNames x2
  clear_value x2
  extract_lets +onlyGivenNames x3
  clear_value x3
  with_reducible refine ite_keeps ?_ ?_
  · with_reducible assumption
  · extract_lets +onlyGivenNames x4
    clear_value x4
    extract_lets +onlyGivenNames x5
    clear_value x5
    extract_lets +onlyGivenNames x6
    have h6 : Keeps s0 x6 := by
      unfold x6
      with_reducible apply State.cvuHold_keeps
      with_reducible assumption
    clear_value x6
    with_reducible apply State.cvuClose_keeps
    with_reducible assumption

theorem State.cvuTapWord_keeps {s0 : State} (s : State) (src sel : Nat) (w : Word) (hk : Keeps s0 s) :
    Keeps s0 (State.cvuTapWord s src sel w) := by
  unfold State.cvuTapWord
  with_reducible refine foldl_keeps ?_ ?_
  · intro t1_0 t1_1 h1
    with_reducible refine ite_keeps ?_ ?_
    · with_reducible assumption
    · with_reducible refine ite_keeps ?_ ?_
      · with_reducible apply State.cvuWordWindow_keeps
        with_reducible assumption
      · with_reducible refine foldl_keeps ?_ ?_
        · intro t2_0 t2_1 h2
          with_reducible apply State.cvuRunByte_keeps
          with_reducible assumption
        · with_reducible assumption
  · with_reducible assumption

theorem State.writeSome_keeps {s0 : State} (s : State) (lo n : Nat) (sel : Nat → Bool) (f : Nat → Byte) (hk : Keeps s0 s) :
    Keeps s0 (State.writeSome s lo n sel f) := by
  unfold State.writeSome
  with_reducible refine foldl_keeps ?_ ?_
  · intro t0_0 t0_1 h0
    with_reducible refine ite_keeps ?_ ?_
    · with_reducible refine foldl_keeps ?_ ?_
      · intro t1_0 t1_1 h1
        with_reducible refine ite_keeps ?_ ?_
        · with_reducible apply State.cvuFcmByte_keeps
          with_reducible assumption
        · with_reducible assumption
      · with_reducible assumption
    · with_reducible assumption
  · with_reducible apply State.fillFcm_keeps
    with_reducible assumption

theorem State.writeFcm_keeps {s0 : State} (s : State) (lo n : Nat) (f : Nat → Byte) (hk : Keeps s0 s) :
    Keeps s0 (State.writeFcm s lo n f) := by
  unfold State.writeFcm
  with_reducible apply State.writeSome_keeps
  with_reducible assumption

theorem State.cvuFollow_keeps {s0 : State} (s : State) (n : Nat) (k : Option Nat) (hk : Keeps s0 s) :
    Keeps s0 (State.cvuFollow s n k) := by
  unfold State.cvuFollow
  with_reducible apply State.setCvu_keeps
  with_reducible assumption

theorem State.cvuFrameHead_keeps {s0 : State} (s : State) (n : Nat) (f : TapFrame) (hk : Keeps s0 s) :
    Keeps s0 (State.cvuFrameHead s n f) := by
  unfold State.cvuFrameHead
  split
  · with_reducible refine ite_keeps ?_ ?_
    · dsimp only
      with_reducible apply State.cvuFollow_keeps
      with_reducible apply State.cvuHold_keeps
      with_reducible assumption
    · with_reducible apply State.cvuFollow_keeps
      with_reducible assumption
  · with_reducible apply State.cvuFollow_keeps
    with_reducible assumption

theorem State.cvuFrameEnd_keeps {s0 : State} (s : State) (n : Nat) (f : TapFrame) (hk : Keeps s0 s) :
    Keeps s0 (State.cvuFrameEnd s n f) := by
  unfold State.cvuFrameEnd
  split
  · dsimp only
    with_reducible refine ite_keeps ?_ ?_
    · with_reducible apply State.cvuClose_keeps
      with_reducible apply State.cvuFollow_keeps
      with_reducible apply State.cvuHold_keeps
      with_reducible assumption
    · with_reducible apply State.cvuAbandon_keeps
      with_reducible apply State.cvuFollow_keeps
      with_reducible apply State.cvuHold_keeps
      with_reducible assumption
  · with_reducible apply State.cvuFollow_keeps
    with_reducible assumption

theorem State.cvuLink_keeps {s0 : State} (s : State) (src port : Nat) (act : State → Nat → State)
    (ha : ∀ t n, Keeps s0 t → Keeps s0 (act t n)) (hk : Keeps s0 s) : Keeps s0 (State.cvuLink s src port act) := by
  unfold State.cvuLink
  exact foldl_keeps (fun t n h => ite_keeps (ha t n h) h) hk

theorem State.cvuTapHead_keeps {s0 : State} (s : State) (src port : Nat) (f : TapFrame) (hk : Keeps s0 s) :
    Keeps s0 (State.cvuTapHead s src port f) :=
  State.cvuLink_keeps s src port _ (fun t n h => State.cvuFrameHead_keeps t n f h) hk

theorem State.cvuTapRest_keeps {s0 : State} (s : State) (src port : Nat) (f : TapFrame) (hk : Keeps s0 s) :
    Keeps s0 (State.cvuTapRest s src port f) :=
  State.cvuLink_keeps s src port _ (fun t n h => State.cvuFrameEnd_keeps t n f h) hk

theorem State.cvuTapFrame_keeps {s0 : State} (s : State) (src port : Nat) (f : TapFrame) (hk : Keeps s0 s) :
    Keeps s0 (State.cvuTapFrame s src port f) :=
  State.cvuLink_keeps s src port _ (fun t n h => State.cvuFrameEnd_keeps _ n f (State.cvuFollow_keeps t n _ h)) hk

theorem State.cvuTapCut_keeps {s0 : State} (s : State) (src port : Nat) (hk : Keeps s0 s) :
    Keeps s0 (State.cvuTapCut s src port) :=
  State.cvuLink_keeps s src port _ (fun t n h =>
    State.cvuFollow_keeps _ n _ (ite_keeps (State.cvuAbandon_keeps t n h) h)) hk

theorem State.cvuDomainLost_keeps {s0 : State} (s : State) (d : Nat) (hk : Keeps s0 s) :
    Keeps s0 (State.cvuDomainLost s d) := by
  unfold State.cvuDomainLost
  with_reducible refine foldl_keeps ?_ ?_
  · intro t0_0 t0_1 h0
    with_reducible refine ite_keeps ?_ ?_
    · dsimp only
      with_reducible refine ite_keeps ?_ ?_
      · with_reducible apply State.setW1c_keeps
        with_reducible apply State.cvuAbandon_keeps
        with_reducible apply State.cvuFollow_keeps
        with_reducible assumption
      · with_reducible apply State.cvuFollow_keeps
        with_reducible assumption
    · with_reducible assumption
  · with_reducible assumption

theorem State.cvuNoteSnap_keeps {s0 : State} (s : State) (n : Nat) (hk : Keeps s0 s) :
    Keeps s0 (State.cvuNoteSnap s n) := by
  unfold State.cvuNoteSnap
  with_reducible refine keeps_mk_of (keeps_parts ?_)
  with_reducible assumption

theorem State.cvuSnap1_keeps {s0 : State} (s : State) (n : Nat) (hk : Keeps s0 s) :
    Keeps s0 (State.cvuSnap1 s n) := by
  unfold State.cvuSnap1
  with_reducible refine ite_keeps ?_ ?_
  · with_reducible apply State.cvuNoteSnap_keeps
    with_reducible apply State.setW1c_keeps
    with_reducible apply State.wr_keeps
    with_reducible assumption
  · with_reducible assumption

theorem State.cvuSnap_keeps {s0 : State} (s : State) (mask : Nat) (hk : Keeps s0 s) :
    Keeps s0 (State.cvuSnap s mask) := by
  unfold State.cvuSnap
  with_reducible refine foldl_keeps ?_ ?_
  · intro t0_0 t0_1 h0
    with_reducible apply State.cvuSnap1_keeps
    with_reducible assumption
  · with_reducible assumption

theorem State.cvuEnable_keeps {s0 : State} (s : State) (n : Nat) (hk : Keeps s0 s) :
    Keeps s0 (State.cvuEnable s n) := by
  unfold State.cvuEnable
  with_reducible refine ite_keeps ?_ ?_
  · dsimp only
    with_reducible apply State.wr_keeps
    with_reducible refine ite_keeps ?_ ?_
    · with_reducible apply State.wrB_keeps
      with_reducible refine keeps_mk_of (keeps_parts ?_)
      with_reducible apply State.setCvu_keeps
      with_reducible assumption
    · with_reducible apply State.wr_keeps
      with_reducible refine keeps_mk_of (keeps_parts ?_)
      with_reducible apply State.setCvu_keeps
      with_reducible assumption
  · with_reducible apply State.setW1c_keeps
    with_reducible assumption

theorem State.cvuDisable_keeps {s0 : State} (s : State) (n : Nat) (hk : Keeps s0 s) :
    Keeps s0 (State.cvuDisable s n) := by
  unfold State.cvuDisable
  dsimp only
  with_reducible refine ite_keeps ?_ ?_
  · with_reducible apply State.cvuAbandon_keeps
    with_reducible apply State.cvuFollow_keeps
    with_reducible apply State.wr_keeps
    with_reducible assumption
  · with_reducible apply State.cvuFollow_keeps
    with_reducible apply State.wr_keeps
    with_reducible assumption

theorem State.cvuCloseRun_keeps {s0 : State} (s : State) (n : Nat) (hk : Keeps s0 s) :
    Keeps s0 (State.cvuCloseRun s n) := by
  unfold State.cvuCloseRun
  with_reducible refine ite_keeps ?_ ?_
  · dsimp only
    with_reducible apply State.cvuClose_keeps
    with_reducible refine keeps_mk_of (keeps_parts ?_)
    with_reducible apply State.setCvu_keeps
    with_reducible assumption
  · with_reducible assumption

theorem State.cvuWriteCtrl_keeps {s0 : State} (s : State) (n : Nat) (w : Word) (hk : Keeps s0 s) :
    Keeps s0 (State.cvuWriteCtrl s n w) := by
  unfold State.cvuWriteCtrl
  dsimp only
  with_reducible refine ite_keeps ?_ ?_
  · with_reducible refine ite_keeps ?_ ?_
    · with_reducible refine ite_keeps ?_ ?_
      · with_reducible apply State.cvuCloseRun_keeps
        with_reducible refine ite_keeps ?_ ?_
        · with_reducible apply State.setW1c_keeps
          with_reducible assumption
        · with_reducible assumption
      · with_reducible refine ite_keeps ?_ ?_
        · with_reducible apply State.setW1c_keeps
          with_reducible assumption
        · with_reducible assumption
    · with_reducible apply State.cvuDisable_keeps
      with_reducible refine ite_keeps ?_ ?_
      · with_reducible apply State.cvuCloseRun_keeps
        with_reducible refine ite_keeps ?_ ?_
        · with_reducible apply State.setW1c_keeps
          with_reducible assumption
        · with_reducible assumption
      · with_reducible refine ite_keeps ?_ ?_
        · with_reducible apply State.setW1c_keeps
          with_reducible assumption
        · with_reducible assumption
  · with_reducible refine ite_keeps ?_ ?_
    · with_reducible apply State.cvuEnable_keeps
      with_reducible apply State.setReg_keeps
      with_reducible assumption
    · with_reducible apply State.setReg_keeps
      with_reducible assumption

theorem State.cvuWriteCfg_keeps {s0 : State} (s : State) (n off : Nat) (w : Word) (hk : Keeps s0 s) :
    Keeps s0 (State.cvuWriteCfg s n off w) := by
  unfold State.cvuWriteCfg
  dsimp only
  with_reducible refine ite_keeps ?_ ?_
  · with_reducible apply State.setW1c_keeps
    with_reducible assumption
  · with_reducible refine ite_keeps ?_ ?_
    · with_reducible apply State.fixStart_keeps
      with_reducible apply State.setReg_keeps
      with_reducible assumption
    · with_reducible apply State.setReg_keeps
      with_reducible assumption

theorem State.cvuReadResult_keeps {s0 : State} (s : State) (n : Nat) (hk : Keeps s0 s) :
    Keeps s0 (State.cvuReadResult s n).2 := by
  unfold State.cvuReadResult
  dsimp only
  with_reducible apply State.fixStart_keeps
  with_reducible apply State.cvuInfo_keeps
  with_reducible apply State.setCvu_keeps
  with_reducible assumption

theorem execCvuResultRead_keeps {s0 : State} (n : Fin 8) (s : State) (hk : Keeps s0 s) :
    OKeeps s0 (execCvuResultRead n s) := by
  unfold execCvuResultRead
  with_reducible refine next_okeeps ?_
  with_reducible refine ite_keeps ?_ ?_
  · with_reducible apply readWordGave_keeps
    with_reducible apply State.cvuReadResult_keeps
    with_reducible assumption
  · with_reducible assumption

end Sys2Proof.Machine
end

