-- ==== Sys2Proof/Laws/KeepsFloor.lean ====
section
/-! SUPPORT. The operations of Floor.lean keep the queue and the canonical forms. -/
namespace Sys2Proof.Machine

theorem State.floorFall_keeps {s0 : State} (s : State) (hk : Keeps s0 s) :
    Keeps s0 (State.floorFall s) := by
  unfold State.floorFall
  with_reducible refine keeps_mk_of (keeps_parts ?_)
  with_reducible assumption

theorem State.clockTo_keeps {s0 : State} (s : State) (t : Vt) (hk : Keeps s0 s) :
    Keeps s0 (State.clockTo s t) := by
  unfold State.clockTo
  dsimp only
  with_reducible refine keeps_mk_of (keeps_parts ?_)
  with_reducible assumption

theorem State.elapseTo_keeps {s0 : State} (s : State) (t : Vt) (hk : Keeps s0 s) :
    Keeps s0 (State.elapseTo s t) := by
  unfold State.elapseTo
  with_reducible refine ite_keeps ?_ ?_
  · dsimp only
    with_reducible refine ite_keeps ?_ ?_
    · with_reducible apply State.clockTo_keeps
      with_reducible assumption
    · with_reducible apply State.newCycle_keeps
      with_reducible apply State.clockTo_keeps
      with_reducible assumption
  · with_reducible assumption

end Sys2Proof.Machine
end

