-- ==== Sys2Proof/Laws/KeepsGrey.lean ====
section
/-! SUPPORT. The operations of Grey.lean keep the queue and the canonical forms. -/
namespace Sys2Proof.Machine

theorem State.greyStat_keeps {s0 : State} (s : State) (hk : Keeps s0 s) :
    Keeps s0 (State.greyStat s) := by
  unfold State.greyStat
  with_reducible apply State.wr_keeps
  with_reducible apply State.wr_keeps
  with_reducible assumption

end Sys2Proof.Machine
end

