-- ==== Sys2Proof/Laws/KeepsBoards.lean ====
section
/-! SUPPORT. The operations of Boards.lean keep the queue and the canonical forms. -/
namespace Sys2Proof.Machine

theorem State.setBoard_keeps {s0 : State} (s : State) (i : Nat) (b : Board) (hk : Keeps s0 s) :
    Keeps s0 (State.setBoard s i b) := by
  unfold State.setBoard
  with_reducible refine keeps_mk_of (keeps_parts ?_)
  with_reducible assumption

theorem State.mirMapLost_keeps {s0 : State} (t s : State) (hk : Keeps s0 t) : Keeps s0 (State.mirMapLost t s) :=
  keeps_mk_of (keeps_parts hk)

theorem State.refreshReady_keeps {s0 : State} (s : State) (i : Nat) (hk : Keeps s0 s) :
    Keeps s0 (State.refreshReady s i) := by
  unfold State.refreshReady
  extract_lets +onlyGivenNames x1
  clear_value x1
  with_reducible refine ite_keeps ?_ ?_
  · with_reducible assumption
  · with_reducible apply State.setBoard_keeps
    with_reducible assumption

theorem State.refreshBoards_keeps {s0 : State} (s : State) (hk : Keeps s0 s) :
    Keeps s0 (State.refreshBoards s) := by
  unfold State.refreshBoards
  with_reducible apply State.refreshReady_keeps
  with_reducible apply State.refreshReady_keeps
  with_reducible apply State.refreshReady_keeps
  with_reducible assumption

theorem State.writeSamples_keeps {s0 : State} (s : State) (i : Nat) (d : MapDesc) (first : Nat) (data : List Byte) (count : Nat) (hk : Keeps s0 s) :
    Keeps s0 (State.writeSamples s i d first data count) := by
  unfold State.writeSamples
  with_reducible refine foldl_keeps ?_ ?_
  · intro t0_0 t0_1 h0
    dsimp only
    with_reducible refine foldl_keeps ?_ ?_
    · intro t1_0 t1_1 h1
      with_reducible apply State.setBoard_keeps
      with_reducible apply State.writeFcm_keeps
      with_reducible assumption
    · with_reducible assumption
  · with_reducible assumption

theorem State.receiveInto_keeps {s0 : State} (s : State) (i : Nat) (d : MapDesc) (first : Nat) (data : List Byte) (count : Nat) (hk : Keeps s0 s) :
    Keeps s0 (State.receiveInto s i d first data count) := by
  unfold State.receiveInto
  with_reducible apply State.refreshReady_keeps
  with_reducible apply State.writeSamples_keeps
  with_reducible assumption

theorem State.setKnown_keeps {s0 : State} (s : State) (f : Word) (k : Known) (hk : Keeps s0 s) :
    Keeps s0 (State.setKnown s f k) := by
  unfold State.setKnown
  with_reducible refine keeps_mk_of (keeps_parts ?_)
  with_reducible assumption

theorem State.fixTarget_keeps {s0 : State} (s : State) (f : Word) (target : Option Nat) (hk : Keeps s0 s) :
    Keeps s0 (State.fixTarget s f target) := by
  unfold State.fixTarget
  split
  · with_reducible apply State.setKnown_keeps
    with_reducible assumption
  · with_reducible assumption

theorem State.assignBoard_keeps {s0 : State} (s : State) (i : Nat) (f : Word) (k : Known) (hk : Keeps s0 s) :
    Keeps s0 (State.assignBoard s i f k) := by
  unfold State.assignBoard
  with_reducible apply State.setBoard_keeps
  with_reducible assumption

theorem State.flushBoards_keeps {s0 : State} (s : State) (hk : Keeps s0 s) :
    Keeps s0 (State.flushBoards s) := by
  unfold State.flushBoards
  with_reducible refine foldl_keeps ?_ ?_
  · intro t1_0 t1_1 h1
    with_reducible refine ite_keeps ?_ ?_
    · with_reducible assumption
    · with_reducible apply State.setBoard_keeps
      with_reducible assumption
  · with_reducible assumption

theorem State.patchBoard_keeps {s0 : State} (s : State) (i : Nat) (hk : Keeps s0 s) :
    Keeps s0 (State.patchBoard s i) := by
  unfold State.patchBoard
  dsimp only
  with_reducible apply State.setBoard_keeps
  with_reducible apply State.writeSome_keeps
  with_reducible assumption

theorem State.lateSkip_keeps {s0 : State} (s : State) (i : Nat) (hk : Keeps s0 s) :
    Keeps s0 (State.lateSkip s i) := by
  unfold State.lateSkip
  extract_lets +onlyGivenNames x1
  clear_value x1
  with_reducible apply State.bump_keeps
  with_reducible apply State.raise_keeps
  with_reducible apply State.setBoard_keeps
  with_reducible assumption

theorem State.latePatch_keeps {s0 : State} (s : State) (i : Nat) (hk : Keeps s0 s) :
    Keeps s0 (State.latePatch s i) := by
  unfold State.latePatch
  dsimp only
  with_reducible apply State.bump_keeps
  with_reducible apply State.raise_keeps
  with_reducible apply State.setBoard_keeps
  with_reducible assumption

theorem State.lateFrame_keeps {s0 : State} (s : State) (i : Nat) (hk : Keeps s0 s) :
    Keeps s0 (State.lateFrame s i) := by
  unfold State.lateFrame
  with_reducible refine ite_keeps ?_ ?_
  · with_reducible apply State.lateSkip_keeps
    with_reducible assumption
  · with_reducible apply State.latePatch_keeps
    with_reducible assumption

theorem State.deadlineBoard_keeps {s0 : State} (s : State) (i : Nat) (hk : Keeps s0 s) :
    Keeps s0 (State.deadlineBoard s i) := by
  unfold State.deadlineBoard
  dsimp only
  split
  · with_reducible assumption
  · with_reducible refine ite_keeps ?_ ?_
    · with_reducible assumption
    · with_reducible refine ite_keeps ?_ ?_
      · with_reducible apply State.setBoard_keeps
        with_reducible assumption
      · with_reducible refine ite_keeps ?_ ?_
        · with_reducible apply State.lateSkip_keeps
          with_reducible assumption
        · with_reducible apply State.lateFrame_keeps
          with_reducible assumption

theorem State.deadlinesDue_keeps {s0 : State} (s : State) (hk : Keeps s0 s) :
    Keeps s0 (State.deadlinesDue s) := by
  unfold State.deadlinesDue
  with_reducible apply State.deadlineBoard_keeps
  with_reducible apply State.deadlineBoard_keeps
  with_reducible apply State.deadlineBoard_keeps
  with_reducible assumption

theorem State.stepLate_keeps {s0 : State} (s : State) (old : Nat) (hk : Keeps s0 s) :
    Keeps s0 (State.stepLate s old) := by
  unfold State.stepLate
  with_reducible refine foldl_keeps ?_ ?_
  · intro t0_0 t0_1 h0
    with_reducible refine ite_keeps ?_ ?_
    · with_reducible apply State.lateFrame_keeps
      with_reducible assumption
    · with_reducible assumption
  · with_reducible assumption

theorem State.pixelPacket_keeps {s0 : State} (s : State) (when_ : Nat) (frame : Word) (body : List Byte) (hk : Keeps s0 s) :
    Keeps s0 (State.pixelPacket s when_ frame body) := by
  unfold State.pixelPacket
  dsimp only
  with_reducible refine ite_keeps ?_ ?_
  · with_reducible apply State.bump_keeps
    with_reducible assumption
  · split
    · with_reducible refine ite_keeps ?_ ?_
      · with_reducible apply State.bump_keeps
        with_reducible apply State.deadlinesDue_keeps
        with_reducible assumption
      · with_reducible apply State.receiveInto_keeps
        with_reducible apply State.deadlinesDue_keeps
        with_reducible assumption
    · with_reducible refine ite_keeps ?_ ?_
      · with_reducible apply State.bump_keeps
        with_reducible apply State.setKnown_keeps
        with_reducible apply State.deadlinesDue_keeps
        with_reducible assumption
      · with_reducible refine ite_keeps ?_ ?_
        · with_reducible apply State.bump_keeps
          with_reducible apply State.setKnown_keeps
          with_reducible apply State.deadlinesDue_keeps
          with_reducible assumption
        · split
          · with_reducible apply State.receiveInto_keeps
            with_reducible apply State.assignBoard_keeps
            with_reducible apply State.setKnown_keeps
            with_reducible apply State.deadlinesDue_keeps
            with_reducible assumption
          · split
            · with_reducible apply State.receiveInto_keeps
              with_reducible apply State.bump_keeps
              with_reducible apply State.assignBoard_keeps
              with_reducible apply State.setKnown_keeps
              with_reducible apply State.deadlinesDue_keeps
              with_reducible assumption
            · with_reducible apply State.bump_keeps
              with_reducible apply State.setKnown_keeps
              with_reducible apply State.deadlinesDue_keeps
              with_reducible assumption

theorem execFrameDeadline_keeps {s0 : State} (at_ : Vt) (s : State) (hk : Keeps s0 s) :
    OKeeps s0 (execFrameDeadline at_ s) := by
  unfold execFrameDeadline
  extract_lets +onlyGivenNames x1
  have h1 : Keeps s0 x1 := by
    unfold x1
    with_reducible apply State.elapseTo_keeps
    with_reducible assumption
  clear_value x1
  with_reducible refine next_okeeps ?_
  with_reducible apply State.deadlinesDue_keeps
  with_reducible assumption

theorem State.clearCoverage_keeps {s0 : State} (s : State) (o n : MapDesc) (hk : Keeps s0 s) :
    Keeps s0 (State.clearCoverage s o n) := by
  unfold State.clearCoverage
  with_reducible refine foldl_keeps ?_ ?_
  · intro t1_0 t1_1 h1
    extract_lets +onlyGivenNames x2
    clear_value x2
    extract_lets +onlyGivenNames x3
    clear_value x3
    extract_lets +onlyGivenNames x4
    clear_value x4
    with_reducible apply State.setBoard_keeps
    with_reducible assumption
  · with_reducible assumption

theorem State.flip_keeps {s0 : State} (s : State) (frame : Word) (hk : Keeps s0 s) :
    Keeps s0 (State.flip s frame) := by
  unfold State.flip
  dsimp only
  split
  · with_reducible refine ite_keeps ?_ ?_
    · with_reducible assumption
    · with_reducible refine keeps_mk_of (keeps_parts ?_)
      with_reducible apply State.setBoard_keeps
      with_reducible apply State.fixTarget_keeps
      with_reducible assumption
  · with_reducible refine keeps_mk_of (keeps_parts ?_)
    with_reducible apply State.fixTarget_keeps
    with_reducible assumption

theorem State.remapFlips_keeps {s0 : State} (s : State) (hk : Keeps s0 s) :
    Keeps s0 (State.remapFlips s) := by
  unfold State.remapFlips
  with_reducible refine ite_keeps ?_ ?_
  · with_reducible assumption
  · with_reducible refine keeps_mk_of (keeps_parts ?_)
    with_reducible assumption

theorem State.retarget_keeps {s0 : State} (s : State) (hk : Keeps s0 s) :
    Keeps s0 (State.retarget s) := by
  unfold State.retarget
  dsimp only
  with_reducible refine foldl_keeps ?_ ?_
  · intro t0_0 t0_1 h0
    split
    · with_reducible assumption
    · with_reducible refine ite_keeps ?_ ?_
      · with_reducible assumption
      · with_reducible apply State.setBoard_keeps
        split
        · with_reducible apply State.setKnown_keeps
          with_reducible assumption
        · with_reducible assumption
  · with_reducible apply State.remapFlips_keeps
    with_reducible assumption

end Sys2Proof.Machine
end

