-- ==== Sys2Proof/Laws/KeepsMotif.lean ====
section
/-! SUPPORT. The operations of Motif.lean keep the queue and the canonical forms. -/
namespace Sys2Proof.Machine

theorem State.composeEngine_keeps {s0 : State} (t : Nat) (s : State) (i : Nat) (hk : Keeps s0 s) :
    Keeps s0 (State.composeEngine t s i) := by
  unfold State.composeEngine
  dsimp only
  with_reducible refine ite_keeps ?_ ?_
  · with_reducible apply State.wr_keeps
    with_reducible assumption
  · with_reducible refine ite_keeps ?_ ?_
    · with_reducible apply State.raise_keeps
      with_reducible apply State.wr_keeps
      with_reducible refine ite_keeps ?_ ?_
      · with_reducible apply State.wr_keeps
        with_reducible refine keeps_mk_of (keeps_parts ?_)
        with_reducible apply State.wr_keeps
        with_reducible assumption
      · with_reducible refine keeps_mk_of (keeps_parts ?_)
        with_reducible apply State.wr_keeps
        with_reducible assumption
    · with_reducible apply State.wr_keeps
      with_reducible refine ite_keeps ?_ ?_
      · with_reducible apply State.wr_keeps
        with_reducible refine keeps_mk_of (keeps_parts ?_)
        with_reducible apply State.wr_keeps
        with_reducible assumption
      · with_reducible refine keeps_mk_of (keeps_parts ?_)
        with_reducible apply State.wr_keeps
        with_reducible assumption

theorem State.composeEngines_keeps {s0 : State} (s : State) (t : Nat) (hk : Keeps s0 s) :
    Keeps s0 (State.composeEngines s t) := by
  unfold State.composeEngines
  with_reducible refine ite_keeps ?_ ?_
  · with_reducible assumption
  · with_reducible refine foldl_keeps ?_ ?_
    · intro t1_0 t1_1 h1
      with_reducible apply State.composeEngine_keeps
      with_reducible assumption
    · with_reducible assumption

theorem State.motifStep1_keeps {s0 : State} (s : State) (i : Nat) (hk : Keeps s0 s) :
    Keeps s0 (State.motifStep1 s i) := by
  unfold State.motifStep1
  with_reducible refine ite_keeps ?_ ?_
  · with_reducible apply State.bump_keeps
    with_reducible assumption
  · with_reducible assumption

theorem State.motifStep_keeps {s0 : State} (s : State) (mask : Nat) (hk : Keeps s0 s) :
    Keeps s0 (State.motifStep s mask) := by
  unfold State.motifStep
  with_reducible refine foldl_keeps ?_ ?_
  · intro t1_0 t1_1 h1
    with_reducible apply State.motifStep1_keeps
    with_reducible assumption
  · with_reducible assumption

theorem State.motifEnabled_keeps {s0 : State} (s : State) (i : Nat) (hk : Keeps s0 s) :
    Keeps s0 (State.motifEnabled s i) := by
  unfold State.motifEnabled
  extract_lets +onlyGivenNames x1
  have h1 : Keeps s0 x1 := by
    unfold x1
    with_reducible apply State.wr_keeps
    with_reducible apply State.wr_keeps
    with_reducible assumption
  clear_value x1
  with_reducible refine keeps_mk_of (keeps_parts ?_)
  with_reducible assumption

theorem State.fbOn_keeps {s0 : State} (s : State) (hk : Keeps s0 s) :
    Keeps s0 (State.fbOn s) := by
  unfold State.fbOn
  with_reducible refine ite_keeps ?_ ?_
  · with_reducible apply State.wr_keeps
    with_reducible assumption
  · with_reducible refine keeps_mk_of (keeps_parts ?_)
    with_reducible assumption

theorem State.fbOff_keeps {s0 : State} (s : State) (hk : Keeps s0 s) :
    Keeps s0 (State.fbOff s) := by
  unfold State.fbOff
  with_reducible refine ite_keeps ?_ ?_
  · with_reducible refine keeps_mk_of (keeps_parts ?_)
    with_reducible assumption
  · with_reducible assumption

theorem State.fbRequest_keeps {s0 : State} (s : State) (cause : Nat) (hk : Keeps s0 s) :
    Keeps s0 (State.fbRequest s cause) := by
  unfold State.fbRequest
  with_reducible refine ite_keeps ?_ ?_
  · with_reducible assumption
  · with_reducible refine keeps_mk_of (keeps_parts ?_)
    with_reducible assumption

theorem State.fbStart_keeps {s0 : State} (s : State) (hk : Keeps s0 s) :
    Keeps s0 (State.fbStart s) := by
  unfold State.fbStart
  split
  · with_reducible assumption
  · extract_lets +onlyGivenNames x1
    clear_value x1
    extract_lets +onlyGivenNames x2
    have h2 : Keeps s0 x2 := by
      unfold x2
      with_reducible refine keeps_mk_of (keeps_parts ?_)
      with_reducible assumption
    clear_value x2
    extract_lets +onlyGivenNames x3
    have h3 : Keeps s0 x3 := by
      unfold x3
      with_reducible apply State.wr_keeps
      with_reducible apply State.wr_keeps
      with_reducible assumption
    clear_value x3
    with_reducible apply State.raise_keeps
    with_reducible apply State.wr_keeps
    with_reducible assumption

theorem State.fbEnd_keeps {s0 : State} (s : State) (hk : Keeps s0 s) :
    Keeps s0 (State.fbEnd s) := by
  unfold State.fbEnd
  extract_lets +onlyGivenNames x1
  have h1 : Keeps s0 x1 := by
    unfold x1
    with_reducible apply State.wr_keeps
    with_reducible apply State.wr_keeps
    with_reducible assumption
  clear_value x1
  extract_lets +onlyGivenNames x2
  clear_value x2
  extract_lets +onlyGivenNames x3
  have h3 : Keeps s0 x3 := by
    unfold x3
    with_reducible refine keeps_mk_of (keeps_parts ?_)
    with_reducible assumption
  clear_value x3
  with_reducible apply State.raise_keeps
  with_reducible apply State.wr_keeps
  with_reducible assumption

end Sys2Proof.Machine
end

