-- ==== Sys2Proof/Laws/KeepsTime.lean ====
section
/-! SUPPORT. The operations of Time.lean keep the queue and the canonical forms. -/
namespace Sys2Proof.Machine

theorem State.ppsGate_keeps {s0 : State} (s : State) (hk : Keeps s0 s) :
    Keeps s0 (State.ppsGate s) := by
  unfold State.ppsGate
  with_reducible refine ite_keeps ?_ ?_
  · with_reducible refine keeps_mk_of (keeps_parts ?_)
    with_reducible assumption
  · with_reducible assumption

theorem State.setServo_keeps {s0 : State} (s : State) (v : Nat) (hk : Keeps s0 s) :
    Keeps s0 (State.setServo s v) := by
  unfold State.setServo
  with_reducible apply State.ppsGate_keeps
  with_reducible apply State.wr_keeps
  with_reducible assumption

theorem State.passMoves_keeps {s0 : State} (s : State) (old : Nat) (hk : Keeps s0 s) :
    Keeps s0 (State.passMoves s old) := by
  unfold State.passMoves
  with_reducible refine keeps_mk_of (keeps_parts ?_)
  with_reducible assumption

theorem State.jumpVt_keeps {s0 : State} (s : State) (t : Nat) (hk : Keeps s0 s) :
    Keeps s0 (State.jumpVt s t) := by
  unfold State.jumpVt
  dsimp only
  with_reducible apply State.passMoves_keeps
  with_reducible refine keeps_mk_of (keeps_parts ?_)
  with_reducible apply State.setVt_keeps
  with_reducible assumption

theorem State.applyStep_keeps {s0 : State} (s : State) (d : Int) (hk : Keeps s0 s) :
    Keeps s0 (State.applyStep s d) := by
  unfold State.applyStep
  dsimp only
  with_reducible apply State.stepLate_keeps
  with_reducible refine keeps_mk_of (keeps_parts ?_)
  with_reducible apply State.bump_keeps
  with_reducible apply State.raise_keeps
  with_reducible apply State.jumpVt_keeps
  with_reducible refine keeps_mk_of (keeps_parts ?_)
  with_reducible assumption

theorem State.dropStep_keeps {s0 : State} (s : State) (hk : Keeps s0 s) :
    Keeps s0 (State.dropStep s) := by
  unfold State.dropStep
  with_reducible refine keeps_mk_of (keeps_parts ?_)
  with_reducible assumption

theorem State.steer_keeps {s0 : State} (s : State) (hk : Keeps s0 s) :
    Keeps s0 (State.steer s) := by
  unfold State.steer
  split
  · with_reducible refine keeps_mk_of (keeps_parts ?_)
    with_reducible apply keeps_pair; with_reducible assumption
    with_reducible apply State.draw_keeps
    with_reducible assumption

theorem State.acquireAct_keeps {s0 : State} (s : State) (off : Int) (hk : Keeps s0 s) :
    Keeps s0 (State.acquireAct s off) := by
  unfold State.acquireAct
  with_reducible refine ite_keeps ?_ ?_
  · with_reducible refine ite_keeps ?_ ?_
    · with_reducible apply State.applyStep_keeps
      with_reducible assumption
    · with_reducible refine keeps_mk_of (keeps_parts ?_)
      with_reducible assumption
  · with_reducible apply State.steer_keeps
    with_reducible apply State.dropStep_keeps
    with_reducible assumption

theorem State.acquireCount_keeps {s0 : State} (s : State) (off : Int) (hk : Keeps s0 s) :
    Keeps s0 (State.acquireCount s off) := by
  unfold State.acquireCount
  dsimp only
  with_reducible refine ite_keeps ?_ ?_
  · with_reducible apply State.raise_keeps
    with_reducible apply State.setServo_keeps
    with_reducible apply State.dropStep_keeps
    with_reducible refine keeps_mk_of (keeps_parts ?_)
    with_reducible assumption
  · with_reducible refine keeps_mk_of (keeps_parts ?_)
    with_reducible assumption

theorem State.lockedAct_keeps {s0 : State} (s : State) (off : Int) (hk : Keeps s0 s) :
    Keeps s0 (State.lockedAct s off) := by
  unfold State.lockedAct
  dsimp only
  with_reducible refine ite_keeps ?_ ?_
  · with_reducible apply State.raise_keeps
    with_reducible apply State.setServo_keeps
    with_reducible refine keeps_mk_of (keeps_parts ?_)
    with_reducible apply State.steer_keeps
    with_reducible assumption
  · with_reducible refine keeps_mk_of (keeps_parts ?_)
    with_reducible apply State.steer_keeps
    with_reducible assumption

theorem State.enterAcquire_keeps {s0 : State} (s : State) (hk : Keeps s0 s) :
    Keeps s0 (State.enterAcquire s) := by
  unfold State.enterAcquire
  dsimp only
  with_reducible apply State.wr_keeps
  with_reducible apply State.setServo_keeps
  with_reducible refine keeps_mk_of (keeps_parts ?_)
  with_reducible assumption

theorem State.measure_keeps {s0 : State} (s : State) (off : Int) (hk : Keeps s0 s) :
    Keeps s0 (State.measure s off) := by
  unfold State.measure
  extract_lets +onlyGivenNames x1
  have h1 : Keeps s0 x1 := by
    unfold x1
    with_reducible apply State.wr_keeps
    with_reducible assumption
  clear_value x1
  extract_lets +onlyGivenNames x2
  clear_value x2
  extract_lets +onlyGivenNames x3
  have h3 : Keeps s0 x3 := by
    unfold x3
    with_reducible refine keeps_mk_of (keeps_parts ?_)
    with_reducible assumption
  clear_value x3
  split
  · with_reducible apply State.lockedAct_keeps
    with_reducible assumption
  · with_reducible apply State.acquireCount_keeps
    with_reducible apply State.acquireAct_keeps
    with_reducible assumption
  · with_reducible apply State.acquireCount_keeps
    with_reducible apply State.acquireAct_keeps
    with_reducible apply State.enterAcquire_keeps
    with_reducible assumption

theorem State.enterHoldover_keeps {s0 : State} (s : State) (hk : Keeps s0 s) :
    Keeps s0 (State.enterHoldover s) := by
  unfold State.enterHoldover
  dsimp only
  with_reducible refine ite_keeps ?_ ?_
  · with_reducible refine ite_keeps ?_ ?_
    · with_reducible apply State.raise_keeps
      with_reducible apply State.setServo_keeps
      with_reducible refine keeps_mk_of (keeps_parts ?_)
      with_reducible assumption
    · with_reducible apply State.setServo_keeps
      with_reducible refine keeps_mk_of (keeps_parts ?_)
      with_reducible assumption
  · with_reducible assumption

theorem State.setTimePort_keeps {s0 : State} (s : State) (p : Nat) (hk : Keeps s0 s) :
    Keeps s0 (State.setTimePort s p) := by
  unfold State.setTimePort
  dsimp only
  with_reducible apply State.wr_keeps
  with_reducible apply State.wr_keeps
  with_reducible apply State.wr_keeps
  with_reducible assumption

theorem State.choosePort_keeps {s0 : State} (s : State) (hk : Keeps s0 s) :
    Keeps s0 (State.choosePort s) := by
  unfold State.choosePort
  dsimp only
  with_reducible apply State.setTimePort_keeps
  with_reducible assumption

theorem State.portStamp_keeps {s0 : State} (s : State) (t : Nat) (hk : Keeps s0 s) :
    Keeps s0 (State.portStamp s t).2 := by
  unfold State.portStamp
  split
  with_reducible refine mkpair_keeps ?_
  with_reducible apply keeps_pair; with_reducible assumption
  with_reducible apply State.draw_keeps
  with_reducible assumption

theorem execPtpSync_keeps {s0 : State} (at_ : Vt) (port : Fin 6) (head : PtpHead) (ingress origin : Vt) (corr : BitVec 64) (followUp : Option (BitVec 64)) (s : State) (hk : Keeps s0 s) :
    OKeeps s0 (execPtpSync at_ port head ingress origin corr followUp s) := by
  unfold execPtpSync
  dsimp only
  with_reducible refine next_okeeps ?_
  with_reducible refine ite_keeps ?_ ?_
  · with_reducible refine ite_keeps ?_ ?_
    · with_reducible apply State.measure_keeps
      with_reducible apply State.portStamp_keeps
      with_reducible apply State.choosePort_keeps
      with_reducible refine keeps_mk_of (keeps_parts ?_)
      with_reducible apply State.elapseTo_keeps
      with_reducible assumption
    · with_reducible apply State.choosePort_keeps
      with_reducible refine keeps_mk_of (keeps_parts ?_)
      with_reducible apply State.elapseTo_keeps
      with_reducible assumption
  · with_reducible apply State.elapseTo_keeps
    with_reducible assumption

theorem execPtpAnnounce_keeps {s0 : State} (at_ : Vt) (port : Fin 6) (head : PtpHead) (dataset : List Nat) (steps : Nat) (s : State) (hk : Keeps s0 s) :
    OKeeps s0 (execPtpAnnounce at_ port head dataset steps s) := by
  unfold execPtpAnnounce
  dsimp only
  with_reducible refine next_okeeps ?_
  with_reducible refine ite_keeps ?_ ?_
  · with_reducible apply State.choosePort_keeps
    with_reducible refine keeps_mk_of (keeps_parts ?_)
    with_reducible apply State.elapseTo_keeps
    with_reducible assumption
  · with_reducible apply State.elapseTo_keeps
    with_reducible assumption

theorem State.ptpPortDown_keeps {s0 : State} (s : State) (p : Nat) (hk : Keeps s0 s) :
    Keeps s0 (State.ptpPortDown s p) := by
  unfold State.ptpPortDown
  dsimp only
  with_reducible refine ite_keeps ?_ ?_
  · with_reducible apply State.choosePort_keeps
    with_reducible refine keeps_mk_of (keeps_parts ?_)
    with_reducible assumption
  · with_reducible refine keeps_mk_of (keeps_parts ?_)
    with_reducible assumption

theorem execSyncLoss_keeps {s0 : State} (others : BitVec 6) (s : State) (hk : Keeps s0 s) :
    OKeeps s0 (execSyncLoss others s) := by
  unfold execSyncLoss
  with_reducible refine next_okeeps ?_
  with_reducible refine ite_keeps ?_ ?_
  · with_reducible assumption
  · dsimp only
    with_reducible refine ite_keeps ?_ ?_
    · with_reducible refine keeps_mk_of (keeps_parts ?_)
      with_reducible assumption
    · with_reducible refine ite_keeps ?_ ?_
      · with_reducible apply State.setTimePort_keeps
        with_reducible refine keeps_mk_of (keeps_parts ?_)
        with_reducible assumption
      · with_reducible apply State.enterHoldover_keeps
        with_reducible refine keeps_mk_of (keeps_parts ?_)
        with_reducible assumption

theorem execPpsInEdge_keeps {s0 : State} (at_ : Vt) (s : State) (hk : Keeps s0 s) :
    OKeeps s0 (execPpsInEdge at_ s) := by
  unfold execPpsInEdge
  dsimp only
  with_reducible refine next_okeeps ?_
  with_reducible refine ite_keeps ?_ ?_
  · with_reducible apply State.bump_keeps
    with_reducible apply State.elapseTo_keeps
    with_reducible assumption
  · with_reducible refine ite_keeps ?_ ?_
    · with_reducible apply State.measure_keeps
      with_reducible refine keeps_mk_of (keeps_parts ?_)
      with_reducible apply State.wr_keeps
      with_reducible apply State.elapseTo_keeps
      with_reducible assumption
    · with_reducible refine keeps_mk_of (keeps_parts ?_)
      with_reducible apply State.wr_keeps
      with_reducible apply State.elapseTo_keeps
      with_reducible assumption

theorem execPpsMissing_keeps {s0 : State} (at_ : Vt) (s : State) (hk : Keeps s0 s) :
    OKeeps s0 (execPpsMissing at_ s) := by
  unfold execPpsMissing
  dsimp only
  with_reducible refine next_okeeps ?_
  with_reducible refine ite_keeps ?_ ?_
  · with_reducible apply State.elapseTo_keeps
    with_reducible assumption
  · with_reducible refine ite_keeps ?_ ?_
    · with_reducible refine keeps_mk_of (keeps_parts ?_)
      with_reducible apply State.raise_keeps
      with_reducible apply State.wr_keeps
      with_reducible apply State.elapseTo_keeps
      with_reducible assumption
    · with_reducible apply State.wr_keeps
      with_reducible apply State.elapseTo_keeps
      with_reducible assumption

theorem execPpsOut_keeps {s0 : State} (at_ : Vt) (s : State) (hk : Keeps s0 s) :
    OKeeps s0 (execPpsOut at_ s) := by
  unfold execPpsOut
  extract_lets +onlyGivenNames x1
  have h1 : Keeps s0 x1 := by
    unfold x1
    with_reducible apply State.elapseTo_keeps
    with_reducible assumption
  clear_value x1
  with_reducible refine next_okeeps ?_
  with_reducible refine ite_keeps ?_ ?_
  · with_reducible refine keeps_mk_of (keeps_parts ?_)
    with_reducible assumption
  · with_reducible assumption

theorem execGenlockLoss_keeps {s0 : State} (s : State) (hk : Keeps s0 s) :
    OKeeps s0 (execGenlockLoss s) := by
  unfold execGenlockLoss
  with_reducible refine next_okeeps ?_
  with_reducible refine ite_keeps ?_ ?_
  · with_reducible apply State.enterHoldover_keeps
    with_reducible refine keeps_mk_of (keeps_parts ?_)
    with_reducible assumption
  · with_reducible assumption

theorem State.sourceChanged_keeps {s0 : State} (s : State) (sameSrc : Bool) (hk : Keeps s0 s) :
    Keeps s0 (State.sourceChanged s sameSrc) := by
  unfold State.sourceChanged
  dsimp only
  with_reducible refine ite_keeps ?_ ?_
  · with_reducible apply State.raise_keeps
    with_reducible apply State.wr_keeps
    with_reducible apply State.setTimePort_keeps
    with_reducible apply State.setServo_keeps
    with_reducible refine keeps_mk_of (keeps_parts ?_)
    with_reducible assumption
  · with_reducible apply State.wr_keeps
    with_reducible apply State.setTimePort_keeps
    with_reducible apply State.setServo_keeps
    with_reducible refine keeps_mk_of (keeps_parts ?_)
    with_reducible assumption

theorem State.setTimeCfg_keeps {s0 : State} (s : State) (w : Word) (hk : Keeps s0 s) :
    Keeps s0 (State.setTimeCfg s w) := by
  unfold State.setTimeCfg
  dsimp only
  with_reducible refine ite_keeps ?_ ?_
  · with_reducible apply State.sourceChanged_keeps
    with_reducible apply State.ppsGate_keeps
    with_reducible apply State.setReg_keeps
    with_reducible assumption
  · with_reducible apply State.ppsGate_keeps
    with_reducible apply State.setReg_keeps
    with_reducible assumption

theorem State.writeTimeCfg_keeps {s0 : State} (s : State) (w : Word) (hk : Keeps s0 s) :
    Keeps s0 (State.writeTimeCfg s w) := by
  unfold State.writeTimeCfg
  dsimp only
  with_reducible refine ite_keeps ?_ ?_
  · with_reducible refine keeps_mk_of (keeps_parts ?_)
    with_reducible apply State.setTimeCfg_keeps
    with_reducible assumption
  · with_reducible apply State.setTimeCfg_keeps
    with_reducible assumption

theorem State.readVt_keeps {s0 : State} (s : State) (hk : Keeps s0 s) :
    Keeps s0 (State.readVt s).2 := by
  unfold State.readVt
  dsimp only
  with_reducible refine foldl_keeps ?_ ?_
  · intro t0_0 t0_1 h0
    with_reducible apply State.fixStart_keeps
    with_reducible assumption
  · with_reducible apply State.wr_keeps
    with_reducible apply State.wr_keeps
    with_reducible apply State.wr_keeps
    with_reducible assumption

theorem execTimeVtRead_keeps {s0 : State} (at_ : Vt) (s : State) (hk : Keeps s0 s) :
    OKeeps s0 (execTimeVtRead at_ s) := by
  unfold execTimeVtRead
  extract_lets +onlyGivenNames x1
  have h1 : Keeps s0 x1 := by
    unfold x1
    with_reducible apply State.elapseTo_keeps
    with_reducible assumption
  clear_value x1
  with_reducible refine next_okeeps ?_
  with_reducible refine ite_keeps ?_ ?_
  · with_reducible apply readWordGave_keeps
    with_reducible apply State.readVt_keeps
    with_reducible assumption
  · with_reducible assumption

theorem State.todSet_keeps {s0 : State} (s : State) (ns : Nat) (hk : Keeps s0 s) :
    Keeps s0 (State.todSet s ns) := by
  unfold State.todSet
  split
  · with_reducible assumption
  · with_reducible apply State.wr_keeps
    with_reducible refine keeps_mk_of (keeps_parts ?_)
    with_reducible assumption
  · with_reducible apply State.wr_keeps
    with_reducible apply State.jumpVt_keeps
    with_reducible assumption

end Sys2Proof.Machine
end

