-- ==== Sys2Proof/Laws/KeepsSinks.lean ====
section
/-! SUPPORT. The operations of Sinks.lean keep the queue and the canonical forms. -/
namespace Sys2Proof.Machine

theorem execIrefFault_keeps {s0 : State} (microamps : Nat) (s : State) (hk : Keeps s0 s) :
    OKeeps s0 (execIrefFault microamps s) := by
  unfold execIrefFault
  with_reducible refine next_okeeps ?_
  with_reducible refine ite_keeps ?_ ?_
  · with_reducible apply State.floorFall_keeps
    dsimp only
    with_reducible refine keeps_mk_of (keeps_parts ?_)
    with_reducible apply State.wr_keeps
    with_reducible assumption
  · with_reducible apply State.wr_keeps
    with_reducible assumption

theorem State.hrAdd_keeps {s0 : State} (s : State) (n : Nat) (low : Bool) (hk : Keeps s0 s) :
    Keeps s0 (State.hrAdd s n low) := by
  unfold State.hrAdd
  extract_lets +onlyGivenNames x1
  clear_value x1
  split
  · with_reducible refine keeps_mk_of (keeps_parts ?_)
    with_reducible assumption

theorem State.hrBank_keeps {s0 : State} (s : State) (b : Nat) (hk : Keeps s0 s) :
    Keeps s0 (State.hrBank s b) := by
  unfold State.hrBank
  extract_lets +onlyGivenNames x1
  clear_value x1
  extract_lets +onlyGivenNames x2
  clear_value x2
  with_reducible apply State.wrB_keeps
  with_reducible apply State.wrB_keeps
  with_reducible apply State.wr_keeps
  with_reducible apply State.wr_keeps
  with_reducible assumption

theorem State.hrClose_keeps {s0 : State} (s : State) (hk : Keeps s0 s) :
    Keeps s0 (State.hrClose s) := by
  unfold State.hrClose
  extract_lets +onlyGivenNames x1
  have h1 : Keeps s0 x1 := by
    unfold x1
    with_reducible refine foldl_keeps ?_ ?_
    · intro t2_0 t2_1 h2
      with_reducible apply State.hrBank_keeps
      with_reducible assumption
    · with_reducible assumption
  clear_value x1
  with_reducible refine keeps_mk_of (keeps_parts ?_)
  with_reducible assumption

theorem State.loopUpdate_keeps {s0 : State} (s : State) (i : Nat) (hk : Keeps s0 s) :
    Keeps s0 (State.loopUpdate s i) := by
  unfold State.loopUpdate
  with_reducible refine ite_keeps ?_ ?_
  · with_reducible assumption
  · extract_lets +onlyGivenNames x1
    clear_value x1
    split
    · with_reducible apply State.wr_keeps
      with_reducible assumption
    · with_reducible refine ite_keeps ?_ ?_
      · with_reducible refine ite_keeps ?_ ?_
        · extract_lets +onlyGivenNames x2
          have h2 : Keeps s0 x2 := by
            unfold x2
            with_reducible apply State.wr_keeps
            with_reducible assumption
          clear_value x2
          with_reducible refine ite_keeps ?_ ?_
          · with_reducible assumption
          · with_reducible apply State.raise_keeps
            with_reducible assumption
        · with_reducible apply State.wr_keeps
          with_reducible apply State.wr_keeps
          with_reducible assumption
      · with_reducible refine ite_keeps ?_ ?_
        · with_reducible apply State.wr_keeps
          with_reducible apply State.wr_keeps
          with_reducible assumption
        · with_reducible apply State.wr_keeps
          with_reducible assumption

theorem State.loopsStart_keeps {s0 : State} (s : State) (hk : Keeps s0 s) :
    Keeps s0 (State.loopsStart s) := by
  unfold State.loopsStart
  with_reducible refine foldl_keeps ?_ ?_
  · intro t1_0 t1_1 h1
    with_reducible refine ite_keeps ?_ ?_
    · extract_lets +onlyGivenNames x2
      have h2 : Keeps s0 x2 := by
        unfold x2
        with_reducible apply State.wr_keeps
        with_reducible assumption
      clear_value x2
      extract_lets +onlyGivenNames x3
      clear_value x3
      with_reducible refine keeps_mk_of (keeps_parts ?_)
      with_reducible assumption
    · with_reducible assumption
  · with_reducible assumption

theorem State.thermFault_keeps {s0 : State} (s : State) (f : Fld) (input : Nat) (bad : Bool) (hk : Keeps s0 s) :
    Keeps s0 (State.thermFault s f input bad) := by
  unfold State.thermFault
  extract_lets +onlyGivenNames x1
  clear_value x1
  extract_lets +onlyGivenNames x2
  have h2 : Keeps s0 x2 := by
    unfold x2
    with_reducible apply State.wrB_keeps
    with_reducible assumption
  clear_value x2
  with_reducible refine ite_keeps ?_ ?_
  · with_reducible apply State.raise_keeps
    with_reducible assumption
  · with_reducible assumption

theorem execTbSample_keeps {s0 : State} (s : State) (hk : Keeps s0 s) :
    OKeeps s0 (execTbSample s) := by
  unfold execTbSample
  with_reducible refine next_okeeps ?_
  with_reducible refine ite_keeps ?_ ?_
  · with_reducible assumption
  · dsimp only
    split
    · with_reducible apply State.thermFault_keeps
      with_reducible apply State.thermFault_keeps
      with_reducible assumption
    · with_reducible apply State.wr_keeps
      with_reducible apply State.wr_keeps
      with_reducible refine keeps_mk_of (keeps_parts ?_)
      with_reducible apply State.thermFault_keeps
      with_reducible apply State.thermFault_keeps
      with_reducible assumption

theorem execTbPawnStale_keeps {s0 : State} (at_ : Vt) (s : State) (hk : Keeps s0 s) :
    OKeeps s0 (execTbPawnStale at_ s) := by
  unfold execTbPawnStale
  dsimp only
  with_reducible refine next_okeeps ?_
  with_reducible refine ite_keeps ?_ ?_
  · with_reducible apply State.thermFault_keeps
    with_reducible apply State.elapseTo_keeps
    with_reducible assumption
  · with_reducible apply State.elapseTo_keeps
    with_reducible assumption

theorem State.tbUnused_keeps {s0 : State} (s : State) (hk : Keeps s0 s) :
    Keeps s0 (State.tbUnused s) := by
  unfold State.tbUnused
  dsimp only
  with_reducible refine ite_keeps ?_ ?_
  · with_reducible refine ite_keeps ?_ ?_
    · with_reducible refine ite_keeps ?_ ?_
      · with_reducible assumption
      · with_reducible apply State.wr_keeps
        with_reducible assumption
    · with_reducible apply State.wr_keeps
      with_reducible refine ite_keeps ?_ ?_
      · with_reducible assumption
      · with_reducible apply State.wr_keeps
        with_reducible assumption
  · with_reducible apply State.wr_keeps
    with_reducible refine ite_keeps ?_ ?_
    · with_reducible refine ite_keeps ?_ ?_
      · with_reducible assumption
      · with_reducible apply State.wr_keeps
        with_reducible assumption
    · with_reducible apply State.wr_keeps
      with_reducible refine ite_keeps ?_ ?_
      · with_reducible assumption
      · with_reducible apply State.wr_keeps
        with_reducible assumption

theorem State.tbPawnWord_keeps {s0 : State} (s : State) (w : Word) (hk : Keeps s0 s) :
    Keeps s0 (State.tbPawnWord s w) := by
  unfold State.tbPawnWord
  with_reducible refine ite_keeps ?_ ?_
  · extract_lets +onlyGivenNames x1
    clear_value x1
    extract_lets +onlyGivenNames x2
    have h2 : Keeps s0 x2 := by
      unfold x2
      with_reducible refine keeps_mk_of (keeps_parts ?_)
      with_reducible assumption
    clear_value x2
    with_reducible apply State.wr_keeps
    with_reducible assumption
  · with_reducible assumption

theorem execAdcConversion_keeps {s0 : State} (c : Fin 6) (code : BitVec 12) (s : State) (hk : Keeps s0 s) :
    OKeeps s0 (execAdcConversion c code s) := by
  unfold execAdcConversion
  with_reducible refine next_okeeps ?_
  with_reducible refine ite_keeps ?_ ?_
  · with_reducible assumption
  · extract_lets +onlyGivenNames x1
    have h1 : Keeps s0 x1 := by
      unfold x1
      with_reducible apply State.wr_keeps
      with_reducible apply State.wr_keeps
      with_reducible assumption
    clear_value x1
    with_reducible refine ite_keeps ?_ ?_
    · split
      · with_reducible apply State.wr_keeps
        with_reducible apply keeps_pair; with_reducible assumption
        with_reducible apply State.draw_keeps
        with_reducible assumption
    · with_reducible assumption

theorem State.foldStep_keeps {s0 : State} (s : State) (hk : Keeps s0 s) :
    Keeps s0 (State.foldStep s) := by
  unfold State.foldStep
  with_reducible refine ite_keeps ?_ ?_
  · with_reducible assumption
  · extract_lets +onlyGivenNames x1
    clear_value x1
    extract_lets +onlyGivenNames x2
    clear_value x2
    extract_lets +onlyGivenNames x3
    clear_value x3
    extract_lets +onlyGivenNames x4
    clear_value x4
    extract_lets +onlyGivenNames x5
    clear_value x5
    extract_lets +onlyGivenNames x6
    clear_value x6
    extract_lets +onlyGivenNames x7
    clear_value x7
    extract_lets +onlyGivenNames x8
    clear_value x8
    extract_lets +onlyGivenNames x9
    have h9 : Keeps s0 x9 := by
      unfold x9
      with_reducible apply State.wr_keeps
      with_reducible apply State.wr_keeps
      with_reducible assumption
    clear_value x9
    extract_lets +onlyGivenNames x10
    clear_value x10
    extract_lets +onlyGivenNames x11
    have h11 : Keeps s0 x11 := by
      unfold x11
      with_reducible refine keeps_mk_of (keeps_parts ?_)
      with_reducible assumption
    clear_value x11
    with_reducible refine ite_keeps ?_ ?_
    · with_reducible apply State.raise_keeps
      with_reducible assumption
    · with_reducible assumption

theorem State.foldOff_keeps {s0 : State} (s : State) (hk : Keeps s0 s) :
    Keeps s0 (State.foldOff s) := by
  unfold State.foldOff
  with_reducible refine ite_keeps ?_ ?_
  · with_reducible assumption
  · with_reducible refine keeps_mk_of (keeps_parts ?_)
    with_reducible assumption

theorem State.thermStep_keeps {s0 : State} (s : State) (hk : Keeps s0 s) :
    Keeps s0 (State.thermStep s) := by
  unfold State.thermStep
  with_reducible refine ite_keeps ?_ ?_
  · with_reducible assumption
  · extract_lets +onlyGivenNames x1
    clear_value x1
    extract_lets +onlyGivenNames x2
    clear_value x2
    extract_lets +onlyGivenNames x3
    clear_value x3
    extract_lets +onlyGivenNames x4
    clear_value x4
    extract_lets +onlyGivenNames x5
    have h5 : Keeps s0 x5 := by
      unfold x5
      with_reducible refine keeps_mk_of (keeps_parts ?_)
      with_reducible assumption
    clear_value x5
    with_reducible apply State.wr_keeps
    with_reducible apply State.wr_keeps
    with_reducible assumption

end Sys2Proof.Machine
end

