-- ==== Sys2Proof/Laws/KeepsCensus.lean ====
section
/-! SUPPORT. The operations of Census.lean keep the queue and the canonical forms. -/
namespace Sys2Proof.Machine

theorem State.countChange_keeps {s0 : State} (s : State) (old new : Nat) (hk : Keeps s0 s) :
    Keeps s0 (State.countChange s old new) := by
  unfold State.countChange
  extract_lets +onlyGivenNames x1
  unfold x1
  with_reducible apply State.wr_keeps
  with_reducible apply State.wr_keeps
  with_reducible apply State.wr_keeps
  with_reducible assumption

theorem State.setMapState_keeps {s0 : State} (s : State) (e st : Nat) (hk : Keeps s0 s) :
    Keeps s0 (State.setMapState s e st) := by
  unfold State.setMapState
  dsimp only
  with_reducible refine ite_keeps ?_ ?_
  · with_reducible apply State.writeFcm_keeps
    with_reducible assumption
  · with_reducible apply State.countChange_keeps
    with_reducible apply State.writeFcm_keeps
    with_reducible assumption

theorem State.mapChange_keeps {s0 : State} (s : State) (e st frame shown : Nat) (hk : Keeps s0 s) :
    Keeps s0 (State.mapChange s e st frame shown) := by
  unfold State.mapChange
  dsimp only
  with_reducible refine ite_keeps ?_ ?_
  · with_reducible assumption
  · with_reducible refine keeps_mk_of (keeps_parts ?_)
    with_reducible apply State.setMapState_keeps
    with_reducible assumption

theorem State.setCRec_keeps {s0 : State} (s : State) (e : Nat) (r : CensusRec) (hk : Keeps s0 s) :
    Keeps s0 (State.setCRec s e r) := by
  unfold State.setCRec
  with_reducible refine keeps_mk_of (keeps_parts ?_)
  with_reducible assumption

theorem State.setGrp_keeps {s0 : State} (s : State) (g : Nat) (r : GroupSt) (hk : Keeps s0 s) :
    Keeps s0 (State.setGrp s g r) := by
  unfold State.setGrp
  with_reducible refine keeps_mk_of (keeps_parts ?_)
  with_reducible assumption

theorem State.grpEnter_keeps {s0 : State} (s : State) (g st : Nat) (hk : Keeps s0 s) :
    Keeps s0 (State.grpEnter s g st) := by
  unfold State.grpEnter
  dsimp only
  with_reducible apply State.setGrp_keeps
  with_reducible apply State.wr_keeps
  with_reducible apply State.wr_keeps
  with_reducible apply State.wr_keeps
  with_reducible apply State.wr_keeps
  with_reducible assumption

theorem State.grpBegin_keeps {s0 : State} (s : State) (g : Nat) (hk : Keeps s0 s) :
    Keeps s0 (State.grpBegin s g) := by
  unfold State.grpBegin
  with_reducible apply State.grpEnter_keeps
  with_reducible assumption

theorem State.grpArm_keeps {s0 : State} (s : State) (g : Nat) (hk : Keeps s0 s) :
    Keeps s0 (State.grpArm s g) := by
  unfold State.grpArm
  dsimp only
  with_reducible apply State.setGrp_keeps
  with_reducible apply State.grpBegin_keeps
  with_reducible assumption

theorem State.grpArmWrite_keeps {s0 : State} (s : State) (g : Nat) (hk : Keeps s0 s) :
    Keeps s0 (State.grpArmWrite s g) := by
  unfold State.grpArmWrite
  with_reducible refine ite_keeps ?_ ?_
  · with_reducible assumption
  · with_reducible refine ite_keeps ?_ ?_
    · with_reducible apply State.raise_keeps
      with_reducible apply State.setW1c_keeps
      with_reducible assumption
    · with_reducible refine ite_keeps ?_ ?_
      · with_reducible apply State.setW1c_keeps
        with_reducible assumption
      · with_reducible apply State.grpArm_keeps
        with_reducible assumption

theorem State.grpDisarm_keeps {s0 : State} (s : State) (g : Nat) (hk : Keeps s0 s) :
    Keeps s0 (State.grpDisarm s g) := by
  unfold State.grpDisarm
  with_reducible refine ite_keeps ?_ ?_
  · with_reducible assumption
  · with_reducible apply State.grpEnter_keeps
    with_reducible assumption

theorem State.grpAckWrite_keeps {s0 : State} (s : State) (g : Nat) (hk : Keeps s0 s) :
    Keeps s0 (State.grpAckWrite s g) := by
  unfold State.grpAckWrite
  with_reducible refine ite_keeps ?_ ?_
  · with_reducible apply State.grpBegin_keeps
    with_reducible assumption
  · with_reducible apply State.setW1c_keeps
    with_reducible assumption

theorem State.grpTrip_keeps {s0 : State} (s : State) (g e kind : Nat) (hk : Keeps s0 s) :
    Keeps s0 (State.grpTrip s g e kind) := by
  unfold State.grpTrip
  extract_lets +onlyGivenNames x1
  have h1 : Keeps s0 x1 := by
    unfold x1
    with_reducible apply State.grpEnter_keeps
    with_reducible assumption
  clear_value x1
  extract_lets +onlyGivenNames x2
  have h2 : Keeps s0 x2 := by
    unfold x2
    with_reducible apply State.wr_keeps
    with_reducible apply State.wr_keeps
    with_reducible assumption
  clear_value x2
  with_reducible apply State.raise_keeps
  with_reducible apply State.bump_keeps
  with_reducible assumption

theorem State.grpBlind_keeps {s0 : State} (s : State) (g e : Nat) (hk : Keeps s0 s) :
    Keeps s0 (State.grpBlind s g e) := by
  unfold State.grpBlind
  extract_lets +onlyGivenNames x1
  have h1 : Keeps s0 x1 := by
    unfold x1
    with_reducible apply State.grpEnter_keeps
    with_reducible assumption
  clear_value x1
  extract_lets +onlyGivenNames x2
  have h2 : Keeps s0 x2 := by
    unfold x2
    with_reducible apply State.wr_keeps
    with_reducible apply State.wr_keeps
    with_reducible assumption
  clear_value x2
  with_reducible apply State.raise_keeps
  with_reducible apply State.bump_keeps
  with_reducible assumption

theorem State.grpProve_keeps {s0 : State} (s : State) (g : Nat) (hk : Keeps s0 s) :
    Keeps s0 (State.grpProve s g) := by
  unfold State.grpProve
  with_reducible refine ite_keeps ?_ ?_
  · with_reducible apply State.grpEnter_keeps
    with_reducible assumption
  · with_reducible assumption

theorem State.grpObserve_keeps {s0 : State} (o : CensusObs) (became : Bool) (s : State) (g : Nat) (hk : Keeps s0 s) :
    Keeps s0 (State.grpObserve o became s g) := by
  unfold State.grpObserve
  dsimp only
  with_reducible refine ite_keeps ?_ ?_
  · with_reducible assumption
  · with_reducible refine ite_keeps ?_ ?_
    · with_reducible apply State.grpTrip_keeps
      with_reducible apply State.grpProve_keeps
      with_reducible apply State.setGrp_keeps
      with_reducible assumption
    · with_reducible apply State.grpProve_keeps
      with_reducible apply State.setGrp_keeps
      with_reducible assumption

theorem State.censusApply_keeps {s0 : State} (s : State) (o : CensusObs) (hk : Keeps s0 s) :
    Keeps s0 (State.censusApply s o) := by
  unfold State.censusApply
  dsimp only
  with_reducible refine foldl_keeps ?_ ?_
  · intro t0_0 t0_1 h0
    with_reducible apply State.grpObserve_keeps
    with_reducible assumption
  · with_reducible refine ite_keeps ?_ ?_
    · with_reducible apply State.bump_keeps
      with_reducible refine ite_keeps ?_ ?_
      · with_reducible refine keeps_mk_of (keeps_parts ?_)
        with_reducible refine ite_keeps ?_ ?_
        · with_reducible apply State.mapChange_keeps
          with_reducible apply State.setCRec_keeps
          with_reducible assumption
        · with_reducible apply State.setCRec_keeps
          with_reducible assumption
      · with_reducible refine ite_keeps ?_ ?_
        · with_reducible apply State.mapChange_keeps
          with_reducible apply State.setCRec_keeps
          with_reducible assumption
        · with_reducible apply State.setCRec_keeps
          with_reducible assumption
    · with_reducible refine ite_keeps ?_ ?_
      · with_reducible refine keeps_mk_of (keeps_parts ?_)
        with_reducible refine ite_keeps ?_ ?_
        · with_reducible apply State.mapChange_keeps
          with_reducible apply State.setCRec_keeps
          with_reducible assumption
        · with_reducible apply State.setCRec_keeps
          with_reducible assumption
      · with_reducible refine ite_keeps ?_ ?_
        · with_reducible apply State.mapChange_keeps
          with_reducible apply State.setCRec_keeps
          with_reducible assumption
        · with_reducible apply State.setCRec_keeps
          with_reducible assumption

theorem State.censusEvents_keeps {s0 : State} (s : State) (frame : Nat) (hk : Keeps s0 s) :
    Keeps s0 (State.censusEvents s frame) := by
  unfold State.censusEvents
  dsimp only
  with_reducible refine ite_keeps ?_ ?_
  · with_reducible refine ite_keeps ?_ ?_
    · with_reducible refine ite_keeps ?_ ?_
      · with_reducible refine keeps_mk_of (keeps_parts ?_)
        with_reducible assumption
      · with_reducible apply State.raise_keeps
        with_reducible refine keeps_mk_of (keeps_parts ?_)
        with_reducible assumption
    · with_reducible apply State.raise_keeps
      with_reducible refine ite_keeps ?_ ?_
      · with_reducible refine keeps_mk_of (keeps_parts ?_)
        with_reducible assumption
      · with_reducible apply State.raise_keeps
        with_reducible refine keeps_mk_of (keeps_parts ?_)
        with_reducible assumption
  · with_reducible apply State.bump_keeps
    with_reducible refine ite_keeps ?_ ?_
    · with_reducible refine ite_keeps ?_ ?_
      · with_reducible refine keeps_mk_of (keeps_parts ?_)
        with_reducible assumption
      · with_reducible apply State.raise_keeps
        with_reducible refine keeps_mk_of (keeps_parts ?_)
        with_reducible assumption
    · with_reducible apply State.raise_keeps
      with_reducible refine ite_keeps ?_ ?_
      · with_reducible refine keeps_mk_of (keeps_parts ?_)
        with_reducible assumption
      · with_reducible apply State.raise_keeps
        with_reducible refine keeps_mk_of (keeps_parts ?_)
        with_reducible assumption

theorem State.censusFlush_keeps {s0 : State} (s : State) (hk : Keeps s0 s) :
    Keeps s0 (State.censusFlush s) := by
  unfold State.censusFlush
  dsimp only
  with_reducible refine foldl_keeps ?_ ?_
  · intro t0_0 t0_1 h0
    with_reducible apply State.censusEvents_keeps
    with_reducible assumption
  · with_reducible assumption

theorem execCensusObservationApply_keeps {s0 : State} (n : Nat) (s : State) (hk : Keeps s0 s) :
    OKeeps s0 (execCensusObservationApply n s) := by
  unfold execCensusObservationApply
  with_reducible refine next_okeeps ?_
  split
  · with_reducible assumption
  · with_reducible refine ite_keeps ?_ ?_
    · with_reducible apply State.censusFlush_keeps
      with_reducible apply State.censusApply_keeps
      with_reducible refine keeps_mk_of (keeps_parts ?_)
      with_reducible assumption
    · with_reducible assumption

theorem execSubframeRecord_keeps {s0 : State} (s : State) (hk : Keeps s0 s) :
    OKeeps s0 (execSubframeRecord s) := by
  unfold execSubframeRecord
  with_reducible refine next_okeeps ?_
  split
  · with_reducible assumption
  · extract_lets +onlyGivenNames x1
    clear_value x1
    extract_lets +onlyGivenNames x2
    have h2 : Keeps s0 x2 := by
      unfold x2
      with_reducible refine keeps_mk_of (keeps_parts ?_)
      with_reducible assumption
    clear_value x2
    with_reducible refine foldl_keeps ?_ ?_
    · intro t3_0 t3_1 h3
      split
      · with_reducible apply State.hrAdd_keeps
        with_reducible assumption
    · with_reducible assumption

theorem State.ageEmitter_keeps {s0 : State} (s : State) (e : Nat) (hk : Keeps s0 s) :
    Keeps s0 (State.ageEmitter s e) := by
  unfold State.ageEmitter
  dsimp only
  with_reducible refine ite_keeps ?_ ?_
  · with_reducible apply State.mapChange_keeps
    with_reducible apply State.setCRec_keeps
    with_reducible assumption
  · with_reducible apply State.setCRec_keeps
    with_reducible assumption

theorem State.ageGroup_keeps {s0 : State} (s : State) (g : Nat) (hk : Keeps s0 s) :
    Keeps s0 (State.ageGroup s g) := by
  unfold State.ageGroup
  dsimp only
  with_reducible refine ite_keeps ?_ ?_
  · with_reducible assumption
  · split
    · with_reducible refine ite_keeps ?_ ?_
      · with_reducible apply State.grpBlind_keeps
        with_reducible apply State.setGrp_keeps
        with_reducible assumption
      · with_reducible apply State.setGrp_keeps
        with_reducible assumption
    · with_reducible apply State.setGrp_keeps
      with_reducible assumption

theorem State.censusFrameEnd_keeps {s0 : State} (s : State) (hk : Keeps s0 s) :
    Keeps s0 (State.censusFrameEnd s) := by
  unfold State.censusFrameEnd
  dsimp only
  with_reducible apply State.wr_keeps
  with_reducible refine ite_keeps ?_ ?_
  · with_reducible refine keeps_mk_of (keeps_parts ?_)
    with_reducible refine foldl_keeps ?_ ?_
    · intro t0_0 t0_1 h0
      with_reducible apply State.ageGroup_keeps
      with_reducible assumption
    · with_reducible refine foldl_keeps ?_ ?_
      · intro t1_0 t1_1 h1
        with_reducible refine ite_keeps ?_ ?_
        · with_reducible apply State.setCRec_keeps
          with_reducible assumption
        · with_reducible apply State.ageEmitter_keeps
          with_reducible assumption
      · with_reducible assumption
  · with_reducible refine foldl_keeps ?_ ?_
    · intro t2_0 t2_1 h2
      with_reducible apply State.ageGroup_keeps
      with_reducible assumption
    · with_reducible refine foldl_keeps ?_ ?_
      · intro t3_0 t3_1 h3
        with_reducible refine ite_keeps ?_ ?_
        · with_reducible apply State.setCRec_keeps
          with_reducible assumption
        · with_reducible apply State.ageEmitter_keeps
          with_reducible assumption
      · with_reducible assumption

theorem State.sweepStep_keeps {s0 : State} (s : State) (hk : Keeps s0 s) :
    Keeps s0 (State.sweepStep s) := by
  unfold State.sweepStep
  with_reducible refine ite_keeps ?_ ?_
  · dsimp only
    with_reducible refine keeps_mk_of (keeps_parts ?_)
    with_reducible apply State.wr_keeps
    with_reducible assumption
  · with_reducible refine ite_keeps ?_ ?_
    · dsimp only
      with_reducible refine ite_keeps ?_ ?_
      · with_reducible refine keeps_mk_of (keeps_parts ?_)
        with_reducible apply State.raise_keeps
        with_reducible apply State.wr_keeps
        with_reducible apply State.wr_keeps
        with_reducible assumption
      · with_reducible assumption
    · with_reducible assumption

theorem State.darkStep_keeps {s0 : State} (s : State) (hk : Keeps s0 s) :
    Keeps s0 (State.darkStep s) := by
  unfold State.darkStep
  dsimp only
  with_reducible refine keeps_mk_of (keeps_parts ?_)
  with_reducible refine foldl_keeps ?_ ?_
  · intro t0_0 t0_1 h0
    with_reducible apply State.wrB_keeps
    with_reducible assumption
  · with_reducible assumption

theorem State.censusDrop_keeps {s0 : State} (s : State) (hk : Keeps s0 s) :
    Keeps s0 (State.censusDrop s) := by
  unfold State.censusDrop
  dsimp only
  with_reducible refine keeps_mk_of (keeps_parts ?_)
  with_reducible assumption

theorem State.eccMemberWord_keeps {s0 : State} (s : State) (o : Nat) (hk : Keeps s0 s) :
    Keeps s0 (State.eccMemberWord s o) := by
  unfold State.eccMemberWord
  with_reducible refine foldl_keeps ?_ ?_
  · intro t0_0 t0_1 h0
    dsimp only
    split
    · with_reducible refine ite_keeps ?_ ?_
      · with_reducible apply State.grpBlind_keeps
        with_reducible assumption
      · with_reducible assumption
    · with_reducible assumption
  · with_reducible assumption

theorem State.eccMapWord_keeps {s0 : State} (s : State) (o : Nat) (hk : Keeps s0 s) :
    Keeps s0 (State.eccMapWord s o) := by
  unfold State.eccMapWord
  dsimp only
  with_reducible apply State.writeFcm_keeps
  with_reducible refine foldl_keeps ?_ ?_
  · intro t0_0 t0_1 h0
    with_reducible apply State.setCRec_keeps
    with_reducible apply State.mapChange_keeps
    with_reducible assumption
  · with_reducible assumption

theorem State.eccCensusWord_keeps {s0 : State} (s : State) (o : Nat) (hk : Keeps s0 s) :
    Keeps s0 (State.eccCensusWord s o) := by
  unfold State.eccCensusWord
  with_reducible refine ite_keeps ?_ ?_
  · with_reducible apply State.eccMapWord_keeps
    with_reducible assumption
  · with_reducible apply State.eccMemberWord_keeps
    with_reducible assumption

theorem State.scrubCensus_keeps {s0 : State} (s : State) (hk : Keeps s0 s) :
    Keeps s0 (State.scrubCensus s) := by
  unfold State.scrubCensus
  split
  with_reducible refine foldl_keeps ?_ ?_
  · intro t0_0 t0_1 h0
    with_reducible apply State.eccCensusWord_keeps
    with_reducible assumption
  · with_reducible apply keeps_pair; with_reducible assumption
    with_reducible apply State.scrubTake_keeps
    with_reducible assumption

theorem State.censusFrameStart_keeps {s0 : State} (s : State) (lit : Bool) (shown : Nat) (hk : Keeps s0 s) :
    Keeps s0 (State.censusFrameStart s lit shown) := by
  unfold State.censusFrameStart
  dsimp only
  with_reducible refine ite_keeps ?_ ?_
  · with_reducible apply State.sweepStep_keeps
    with_reducible apply State.darkStep_keeps
    with_reducible apply State.scrubCensus_keeps
    with_reducible apply State.censusFlush_keeps
    with_reducible refine keeps_mk_of (keeps_parts ?_)
    with_reducible refine ite_keeps ?_ ?_
    · with_reducible apply State.censusDrop_keeps
      with_reducible assumption
    · with_reducible refine ite_keeps ?_ ?_
      · with_reducible apply State.censusFrameEnd_keeps
        with_reducible assumption
      · with_reducible assumption
  · with_reducible apply State.censusFlush_keeps
    with_reducible refine keeps_mk_of (keeps_parts ?_)
    with_reducible refine ite_keeps ?_ ?_
    · with_reducible apply State.censusDrop_keeps
      with_reducible assumption
    · with_reducible refine ite_keeps ?_ ?_
      · with_reducible apply State.censusFrameEnd_keeps
        with_reducible assumption
      · with_reducible assumption

theorem State.censusForget_keeps {s0 : State} (s : State) (hk : Keeps s0 s) :
    Keeps s0 (State.censusForget s) := by
  unfold State.censusForget
  dsimp only
  with_reducible refine keeps_mk_of (keeps_parts ?_)
  with_reducible apply State.wr_keeps
  with_reducible apply State.wr_keeps
  with_reducible apply State.wr_keeps
  with_reducible apply State.writeFcm_keeps
  with_reducible assumption

theorem State.censusClear_keeps {s0 : State} (s : State) (hk : Keeps s0 s) :
    Keeps s0 (State.censusClear s) := by
  unfold State.censusClear
  with_reducible refine foldl_keeps ?_ ?_
  · intro t0_0 t0_1 h0
    with_reducible refine ite_keeps ?_ ?_
    · with_reducible apply State.grpBegin_keeps
      with_reducible assumption
    · with_reducible assumption
  · with_reducible apply State.censusForget_keeps
    with_reducible assumption

theorem State.sweepStart_keeps {s0 : State} (s : State) (hk : Keeps s0 s) :
    Keeps s0 (State.sweepStart s) := by
  unfold State.sweepStart
  with_reducible refine keeps_mk_of (keeps_parts ?_)
  with_reducible assumption

end Sys2Proof.Machine
end

