-- ==== Sys2Proof/Laws/KeepsCompose.lean ====
section
/-! SUPPORT. The operations of Compose.lean keep the queue and the canonical forms. -/
namespace Sys2Proof.Machine

theorem State.writePlane_keeps {s0 : State} (s : State) (f : Nat) (code : Nat → Nat) (hk : Keeps s0 s) :
    Keeps s0 (State.writePlane s f code) := by
  unfold State.writePlane
  dsimp only
  with_reducible refine keeps_mk_of (keeps_parts ?_)
  with_reducible apply State.wr_keeps
  with_reducible refine ite_keeps ?_ ?_
  · with_reducible refine keeps_mk_of (keeps_parts ?_)
    with_reducible apply State.writeFcm_keeps
    with_reducible assumption
  · with_reducible refine keeps_mk_of (keeps_parts ?_)
    with_reducible apply State.writeFcm_keeps
    with_reducible assumption

theorem State.ablStep_keeps {s0 : State} (s : State) (k : Nat) (pred : Nat × Nat) (hk : Keeps s0 s) :
    Keeps s0 (State.ablStep s k pred) := by
  unfold State.ablStep
  extract_lets +onlyGivenNames x1
  have h1 : Keeps s0 x1 := by
    unfold x1
    with_reducible apply State.wrB_keeps
    with_reducible apply State.wr_keeps
    with_reducible assumption
  clear_value x1
  extract_lets +onlyGivenNames x2
  have h2 : Keeps s0 x2 := by
    unfold x2
    with_reducible apply State.wr_keeps
    with_reducible assumption
  clear_value x2
  extract_lets +onlyGivenNames x3
  have h3 : Keeps s0 x3 := by
    unfold x3
    with_reducible refine ite_keeps ?_ ?_
    · with_reducible apply State.raise_keeps
      with_reducible assumption
    · with_reducible assumption
  clear_value x3
  with_reducible refine keeps_mk_of (keeps_parts ?_)
  with_reducible assumption

theorem State.calErrorStep_keeps {s0 : State} (s : State) (b : Option Nat) (hk : Keeps s0 s) :
    Keeps s0 (State.calErrorStep s b) := by
  unfold State.calErrorStep
  with_reducible refine ite_keeps ?_ ?_
  · with_reducible apply State.raise_keeps
    with_reducible assumption
  · with_reducible assumption

theorem State.writeMotifLayer_keeps {s0 : State} (s : State) (t : Nat) (hk : Keeps s0 s) :
    Keeps s0 (State.writeMotifLayer s t) := by
  unfold State.writeMotifLayer
  dsimp only
  with_reducible apply State.writeFcm_keeps
  with_reducible assumption

theorem State.composeFrame_keeps {s0 : State} (s : State) (b : Option Nat) (g : Nat) (fb : Bool) (hk : Keeps s0 s) :
    Keeps s0 (State.composeFrame s b g fb) := by
  unfold State.composeFrame
  extract_lets +onlyGivenNames x1
  clear_value x1
  extract_lets +onlyGivenNames x2
  have h2 : Keeps s0 x2 := by
    unfold x2
    with_reducible apply State.wrB_keeps
    with_reducible assumption
  clear_value x2
  extract_lets +onlyGivenNames x3
  clear_value x3
  extract_lets +onlyGivenNames x4
  have h4 : Keeps s0 x4 := by
    unfold x4
    with_reducible apply State.composeEngines_keeps
    with_reducible assumption
  clear_value x4
  extract_lets +onlyGivenNames x5
  clear_value x5
  extract_lets +onlyGivenNames x6
  clear_value x6
  extract_lets +onlyGivenNames x7
  extract_lets +onlyGivenNames x8
  have h8 : Keeps s0 x8 := by
    unfold x8
    with_reducible apply State.writePlane_keeps
    with_reducible apply State.ablStep_keeps
    with_reducible apply State.calErrorStep_keeps
    with_reducible apply State.writeMotifLayer_keeps
    with_reducible assumption
  clear_value x8
  extract_lets +onlyGivenNames x9
  have h9 : Keeps s0 x9 := by
    unfold x9
    with_reducible apply State.wrB_keeps
    with_reducible assumption
  clear_value x9
  with_reducible refine keeps_mk_of (keeps_parts ?_)
  with_reducible assumption

theorem State.supersede_keeps {s0 : State} (s : State) (g : Nat) (keep : Option Nat) (hk : Keeps s0 s) :
    Keeps s0 (State.supersede s g keep) := by
  unfold State.supersede
  with_reducible refine foldl_keeps ?_ ?_
  · intro t1_0 t1_1 h1
    split
    · with_reducible refine ite_keeps ?_ ?_
      · with_reducible apply State.bump_keeps
        with_reducible apply State.setBoard_keeps
        with_reducible assumption
      · with_reducible assumption
  · with_reducible assumption

theorem State.resolveFlips_keeps {s0 : State} (s : State) (g : Nat) (hk : Keeps s0 s) :
    Keeps s0 (State.resolveFlips s g) := by
  unfold State.resolveFlips
  with_reducible refine keeps_mk_of (keeps_parts ?_)
  with_reducible assumption

theorem State.eccCoverage_keeps {s0 : State} (s : State) (w : Nat) (hk : Keeps s0 s) :
    Keeps s0 (State.eccCoverage s w) := by
  unfold State.eccCoverage
  with_reducible refine ite_keeps ?_ ?_
  · dsimp only
    with_reducible apply State.setBoard_keeps
    with_reducible assumption
  · with_reducible assumption

theorem State.fallbackAgain_keeps {s0 : State} (s : State) (hk : Keeps s0 s) :
    Keeps s0 (State.fallbackAgain s) := by
  unfold State.fallbackAgain
  with_reducible refine keeps_mk_of (keeps_parts ?_)
  with_reducible assumption

theorem State.scrubCompose_keeps {s0 : State} (s : State) (board : Option Nat) (fb : Bool) (hk : Keeps s0 s) :
    Keeps s0 (State.scrubCompose s board fb) := by
  unfold State.scrubCompose
  split
  dsimp only
  with_reducible refine ite_keeps ?_ ?_
  · with_reducible apply State.scrubTake_keeps
    with_reducible refine foldl_keeps ?_ ?_
    · intro t0_0 t0_1 h0
      with_reducible apply State.eccCoverage_keeps
      with_reducible assumption
    · with_reducible apply keeps_pair; with_reducible assumption
      with_reducible apply State.scrubTake_keeps
      with_reducible assumption
  · with_reducible apply State.fallbackAgain_keeps
    with_reducible apply State.scrubTake_keeps
    with_reducible refine foldl_keeps ?_ ?_
    · intro t1_0 t1_1 h1
      with_reducible apply State.eccCoverage_keeps
      with_reducible assumption
    · with_reducible apply keeps_pair; with_reducible assumption
      with_reducible apply State.scrubTake_keeps
      with_reducible assumption

theorem State.compose_keeps {s0 : State} (s : State) (g : Nat) (hk : Keeps s0 s) :
    Keeps s0 (State.compose s g) := by
  unfold State.compose
  dsimp only
  with_reducible refine keeps_mk_of (keeps_parts ?_)
  with_reducible apply State.composeFrame_keeps
  split
  · with_reducible apply State.patchBoard_keeps
    with_reducible apply State.scrubCompose_keeps
    with_reducible refine ite_keeps ?_ ?_
    · with_reducible apply State.resolveFlips_keeps
      with_reducible assumption
    · with_reducible apply State.supersede_keeps
      with_reducible apply State.resolveFlips_keeps
      with_reducible assumption
  · with_reducible apply State.bump_keeps
    with_reducible apply State.scrubCompose_keeps
    with_reducible refine ite_keeps ?_ ?_
    · with_reducible apply State.resolveFlips_keeps
      with_reducible assumption
    · with_reducible apply State.supersede_keeps
      with_reducible apply State.resolveFlips_keeps
      with_reducible assumption

theorem execCompositionStart_keeps {s0 : State} (at_ : Vt) (s : State) (hk : Keeps s0 s) :
    OKeeps s0 (execCompositionStart at_ s) := by
  unfold execCompositionStart
  extract_lets +onlyGivenNames x1
  have h1 : Keeps s0 x1 := by
    unfold x1
    with_reducible apply State.elapseTo_keeps
    with_reducible assumption
  clear_value x1
  with_reducible refine next_okeeps ?_
  with_reducible refine ite_keeps ?_ ?_
  · with_reducible apply State.compose_keeps
    with_reducible assumption
  · with_reducible assumption

theorem execCompositionDone_keeps {s0 : State} (at_ : Vt) (s : State) (hk : Keeps s0 s) :
    OKeeps s0 (execCompositionDone at_ s) := by
  unfold execCompositionDone
  dsimp only
  with_reducible refine next_okeeps ?_
  split
  · with_reducible apply State.elapseTo_keeps
    with_reducible assumption
  · with_reducible refine ite_keeps ?_ ?_
    · with_reducible apply State.elapseTo_keeps
      with_reducible assumption
    · with_reducible refine keeps_mk_of (keeps_parts ?_)
      with_reducible apply State.hwWr_keeps
      with_reducible apply State.wr_keeps
      with_reducible apply State.elapseTo_keeps
      with_reducible assumption

end Sys2Proof.Machine
end

