-- ==== Sys2Proof/Laws/KeepsPawn.lean ====
section
/-! SUPPORT. The operations of Pawn.lean keep the queue and the canonical forms. -/
namespace Sys2Proof.Machine

theorem State.pxToSafe_keeps {s0 : State} (s : State) (hk : Keeps s0 s) :
    Keeps s0 (State.pxToSafe s) := by
  unfold State.pxToSafe
  with_reducible apply State.setReg_keeps
  with_reducible apply State.setReg_keeps
  with_reducible assumption

theorem State.pawnCopyPins_keeps {s0 : State} (s : State) (n : Nat) (hk : Keeps s0 s) :
    Keeps s0 (State.pawnCopyPins s n) := by
  unfold State.pawnCopyPins
  dsimp only
  with_reducible refine foldl_keeps ?_ ?_
  · intro t0_0 t0_1 h0
    with_reducible apply State.hwReg_keeps
    with_reducible apply State.hwReg_keeps
    with_reducible assumption
  · with_reducible assumption

theorem State.pawnStop_keeps {s0 : State} (s : State) (n : Nat) (hk : Keeps s0 s) :
    Keeps s0 (State.pawnStop s n) := by
  unfold State.pawnStop
  with_reducible refine ite_keeps ?_ ?_
  · extract_lets +onlyGivenNames x1
    have h1 : Keeps s0 x1 := by
      unfold x1
      with_reducible apply State.pawnCopyPins_keeps
      with_reducible assumption
    clear_value x1
    extract_lets +onlyGivenNames x2
    clear_value x2
    extract_lets +onlyGivenNames x3
    have h3 : Keeps s0 x3 := by
      unfold x3
      with_reducible apply State.setPawn_keeps
      with_reducible assumption
    clear_value x3
    with_reducible apply State.wr_keeps
    with_reducible assumption
  · with_reducible assumption

theorem State.pawnsStop_keeps {s0 : State} (s : State) (mask : Nat) (hk : Keeps s0 s) :
    Keeps s0 (State.pawnsStop s mask) := by
  unfold State.pawnsStop
  with_reducible refine foldl_keeps ?_ ?_
  · intro t1_0 t1_1 h1
    with_reducible apply State.pawnStop_keeps
    with_reducible assumption
  · with_reducible assumption

theorem State.pawnsHalt_keeps {s0 : State} (s : State) (hk : Keeps s0 s) :
    Keeps s0 (State.pawnsHalt s) := by
  unfold State.pawnsHalt
  with_reducible apply State.pxToSafe_keeps
  with_reducible apply State.pawnsStop_keeps
  with_reducible assumption

theorem State.pawnFault_keeps {s0 : State} (s : State) (n cause : Nat) (hk : Keeps s0 s) :
    Keeps s0 (State.pawnFault s n cause) := by
  unfold State.pawnFault
  extract_lets +onlyGivenNames x1
  clear_value x1
  extract_lets +onlyGivenNames x2
  have h2 : Keeps s0 x2 := by
    unfold x2
    with_reducible apply State.pawnStop_keeps
    with_reducible assumption
  clear_value x2
  extract_lets +onlyGivenNames x3
  clear_value x3
  extract_lets +onlyGivenNames x4
  have h4 : Keeps s0 x4 := by
    unfold x4
    with_reducible apply State.setPawn_keeps
    with_reducible assumption
  clear_value x4
  extract_lets +onlyGivenNames x5
  have h5 : Keeps s0 x5 := by
    unfold x5
    with_reducible apply State.wr_keeps
    with_reducible apply State.wr_keeps
    with_reducible assumption
  clear_value x5
  with_reducible apply State.raise_keeps
  with_reducible assumption

theorem State.parityGood_keeps {s0 : State} (s : State) (w : Nat) (hk : Keeps s0 s) :
    Keeps s0 (State.parityGood s w) := by
  unfold State.parityGood
  with_reducible refine keeps_mk_of (keeps_parts ?_)
  with_reducible assumption

theorem State.parityLost_keeps {s0 : State} (s : State) (w : Nat) (hk : Keeps s0 s) :
    Keeps s0 (State.parityLost s w) := by
  unfold State.parityLost
  with_reducible refine keeps_mk_of (keeps_parts ?_)
  with_reducible assumption

theorem State.storeUndo_keeps {s0 : State} (s : State) (e : Nat × Word × Bool) (hk : Keeps s0 s) :
    Keeps s0 (State.storeUndo s e) := by
  unfold State.storeUndo
  dsimp only
  with_reducible refine ite_keeps ?_ ?_
  · with_reducible apply State.parityLost_keeps
    with_reducible apply State.setReg_keeps
    with_reducible assumption
  · with_reducible apply State.parityGood_keeps
    with_reducible apply State.setReg_keeps
    with_reducible assumption

theorem State.storeRefuse_keeps {s0 : State} (s : State) (n : Nat) (hk : Keeps s0 s) :
    Keeps s0 (State.storeRefuse s n) := by
  unfold State.storeRefuse
  dsimp only
  split
  · with_reducible assumption
  · with_reducible apply State.wr_keeps
    with_reducible apply State.setW1c_keeps
    with_reducible refine keeps_mk_of (keeps_parts ?_)
    with_reducible refine foldl_keeps ?_ ?_
    · intro t0_0 t0_1 h0
      with_reducible apply State.storeUndo_keeps
      with_reducible assumption
    · with_reducible assumption

theorem State.pawnStart_keeps {s0 : State} (s : State) (n : Nat) (hk : Keeps s0 s) :
    Keeps s0 (State.pawnStart s n) := by
  unfold State.pawnStart
  dsimp only
  with_reducible refine ite_keeps ?_ ?_
  · with_reducible apply State.pawnFault_keeps
    with_reducible apply State.setPawn_keeps
    with_reducible assumption
  · with_reducible apply State.setPawn_keeps
    with_reducible apply State.storeRefuse_keeps
    with_reducible assumption

theorem State.pawnTick_keeps {s0 : State} (s : State) (n : Nat) (bit : PawnSt → Bool) (set : PawnSt → PawnSt) (hk : Keeps s0 s) :
    Keeps s0 (State.pawnTick s n bit set) := by
  unfold State.pawnTick
  dsimp only
  with_reducible refine ite_keeps ?_ ?_
  · with_reducible assumption
  · with_reducible refine ite_keeps ?_ ?_
    · with_reducible apply State.setW1c_keeps
      with_reducible assumption
    · with_reducible apply State.setPawn_keeps
      with_reducible assumption

theorem State.pawnSync_keeps {s0 : State} (s : State) (n : Nat) (hk : Keeps s0 s) :
    Keeps s0 (State.pawnSync s n) := by
  unfold State.pawnSync
  with_reducible apply State.pawnTick_keeps
  with_reducible assumption

theorem State.pawnLine_keeps {s0 : State} (s : State) (n : Nat) (hk : Keeps s0 s) :
    Keeps s0 (State.pawnLine s n) := by
  unfold State.pawnLine
  with_reducible apply State.pawnTick_keeps
  with_reducible assumption

theorem State.pawnFrame_keeps {s0 : State} (s : State) (n : Nat) (hk : Keeps s0 s) :
    Keeps s0 (State.pawnFrame s n) := by
  unfold State.pawnFrame
  with_reducible apply State.pawnTick_keeps
  with_reducible assumption

theorem State.pawnGo1_keeps {s0 : State} (s : State) (n : Nat) (hk : Keeps s0 s) :
    Keeps s0 (State.pawnGo1 s n) := by
  unfold State.pawnGo1
  with_reducible refine ite_keeps ?_ ?_
  · with_reducible apply State.pawnSync_keeps
    with_reducible apply State.setPawn_keeps
    with_reducible assumption
  · with_reducible apply State.pawnStart_keeps
    with_reducible assumption

theorem State.pawnsGo_keeps {s0 : State} (s : State) (mask : Nat) (hk : Keeps s0 s) :
    Keeps s0 (State.pawnsGo s mask) := by
  unfold State.pawnsGo
  with_reducible refine ite_keeps ?_ ?_
  · with_reducible refine foldl_keeps ?_ ?_
    · intro t1_0 t1_1 h1
      with_reducible apply State.pawnGo1_keeps
      with_reducible assumption
    · with_reducible assumption
  · with_reducible assumption

theorem State.pawnsFlush_keeps {s0 : State} (s : State) (mask : Nat) (hk : Keeps s0 s) :
    Keeps s0 (State.pawnsFlush s mask) := by
  unfold State.pawnsFlush
  with_reducible refine foldl_keeps ?_ ?_
  · intro t1_0 t1_1 h1
    with_reducible refine ite_keeps ?_ ?_
    · with_reducible assumption
    · with_reducible apply State.setPawn_keeps
      with_reducible assumption
  · with_reducible assumption

theorem State.storeWrite_keeps {s0 : State} (s : State) (w : Nat) (v : Word) (hk : Keeps s0 s) :
    Keeps s0 (State.storeWrite s w v) := by
  unfold State.storeWrite
  with_reducible refine ite_keeps ?_ ?_
  · with_reducible apply State.wr_keeps
    with_reducible apply State.setW1c_keeps
    with_reducible assumption
  · dsimp only
    with_reducible apply State.parityGood_keeps
    with_reducible apply State.wr_keeps
    with_reducible refine keeps_mk_of (keeps_parts ?_)
    with_reducible assumption

theorem State.storePut_keeps {s0 : State} (s : State) (w : Nat) (v : Word) (hk : Keeps s0 s) :
    Keeps s0 (State.storePut s w v) := by
  unfold State.storePut
  with_reducible apply State.parityGood_keeps
  with_reducible apply State.wr_keeps
  with_reducible refine keeps_mk_of (keeps_parts ?_)
  with_reducible assumption

theorem State.pawnCfgWrite_keeps {s0 : State} (s : State) (n off : Nat) (v : Word) (hk : Keeps s0 s) :
    Keeps s0 (State.pawnCfgWrite s n off v) := by
  unfold State.pawnCfgWrite
  with_reducible refine ite_keeps ?_ ?_
  · with_reducible apply State.setW1c_keeps
    with_reducible assumption
  · dsimp only
    with_reducible refine ite_keeps ?_ ?_
    · with_reducible apply State.setPawn_keeps
      with_reducible apply State.setReg_keeps
      with_reducible assumption
    · with_reducible apply State.setReg_keeps
      with_reducible assumption

theorem State.pawnTxWrite_keeps {s0 : State} (s : State) (n : Nat) (v : Word) (hk : Keeps s0 s) :
    Keeps s0 (State.pawnTxWrite s n v) := by
  unfold State.pawnTxWrite
  dsimp only
  with_reducible refine ite_keeps ?_ ?_
  · with_reducible apply State.setW1c_keeps
    with_reducible assumption
  · with_reducible apply State.setPawn_keeps
    with_reducible assumption

theorem State.pawnRxRead_keeps {s0 : State} (s : State) (n : Nat) (hk : Keeps s0 s) :
    Keeps s0 (State.pawnRxRead s n).2 := by
  unfold State.pawnRxRead
  dsimp only
  split
  · with_reducible refine mkpair_keeps ?_
    with_reducible apply State.setW1c_keeps
    with_reducible assumption
  · with_reducible refine mkpair_keeps ?_
    with_reducible apply State.setPawn_keeps
    with_reducible assumption

theorem State.pxWrite_keeps {s0 : State} (s : State) (a : Nat) (v : Word) (hk : Keeps s0 s) :
    Keeps s0 (State.pxWrite s a v) := by
  unfold State.pxWrite
  with_reducible refine ite_keeps ?_ ?_
  · with_reducible assumption
  · with_reducible apply State.setReg_keeps
    with_reducible assumption

theorem State.notePinClr_keeps {s0 : State} (s : State) (j : Nat) (hk : Keeps s0 s) :
    Keeps s0 (State.notePinClr s j) := by
  unfold State.notePinClr
  with_reducible refine keeps_mk_of (keeps_parts ?_)
  with_reducible assumption

theorem State.pinMove1_keeps {s0 : State} (high : Bool) (s : State) (j : Nat) (hk : Keeps s0 s) :
    Keeps s0 (State.pinMove1 high s j) := by
  unfold State.pinMove1
  with_reducible refine ite_keeps ?_ ?_
  · with_reducible apply State.bump_keeps
    with_reducible assumption
  · with_reducible refine ite_keeps ?_ ?_
    · with_reducible assumption
    · dsimp only
      with_reducible refine ite_keeps ?_ ?_
      · with_reducible apply State.hwReg_keeps
        with_reducible apply State.hwReg_keeps
        with_reducible assumption
      · with_reducible apply State.notePinClr_keeps
        with_reducible apply State.hwReg_keeps
        with_reducible apply State.hwReg_keeps
        with_reducible assumption

theorem State.pinMove_keeps {s0 : State} (s : State) (mask : Word) (high : Bool) (hk : Keeps s0 s) :
    Keeps s0 (State.pinMove s mask high) := by
  unfold State.pinMove
  with_reducible refine foldl_keeps ?_ ?_
  · intro t0_0 t0_1 h0
    with_reducible apply State.pinMove1_keeps
    with_reducible assumption
  · with_reducible assumption

theorem State.pawnDone_keeps {s0 : State} (s : State) (n delay pc : Nat) (hk : Keeps s0 s) :
    Keeps s0 (State.pawnDone s n delay pc) := by
  unfold State.pawnDone
  with_reducible apply State.setPawn_keeps
  with_reducible assumption

theorem State.pawnEdge_keeps {s0 : State} (s : State) (n op : Nat) (upset : Bool) (act : State → Nat → Nat → State)
    (ha : ∀ t d v, Keeps s0 t → Keeps s0 (act t d v)) (hk : Keeps s0 s) : Keeps s0 (State.pawnEdge s n op upset act) := by
  unfold State.pawnEdge
  with_reducible refine ite_keeps hk ?_
  extract_lets x0
  have h0 : Keeps s0 x0 := ite_keeps (State.parityLost_keeps _ _ hk) hk
  clear_value x0
  with_reducible refine ite_keeps (State.pawnFault_keeps _ _ _ h0) (ite_keeps (State.pawnFault_keeps _ _ _ h0) (ite_keeps h0 ?_))
  with_reducible refine ite_keeps (State.pawnFault_keeps _ _ _ h0) (ite_keeps (State.pawnFault_keeps _ _ _ h0) (ha _ _ _ h0))

theorem State.pawnDrive_keeps {s0 : State} (n : Nat) (s : State) (delay v : Nat) (hk : Keeps s0 s) :
    Keeps s0 (State.pawnDrive n s delay v) := by
  unfold State.pawnDrive
  extract_lets +onlyGivenNames x1
  clear_value x1
  extract_lets +onlyGivenNames x2
  clear_value x2
  extract_lets +onlyGivenNames x3
  clear_value x3
  extract_lets +onlyGivenNames x4
  clear_value x4
  with_reducible apply State.pawnDone_keeps
  with_reducible apply State.setPawn_keeps
  with_reducible assumption

theorem State.pawnEmit_keeps {s0 : State} (n : Nat) (s : State) (delay v : Nat) (hk : Keeps s0 s) :
    Keeps s0 (State.pawnEmit n s delay v) := by
  unfold State.pawnEmit
  extract_lets +onlyGivenNames x1
  clear_value x1
  extract_lets +onlyGivenNames x2
  clear_value x2
  split
  · extract_lets +onlyGivenNames x3
    clear_value x3
    extract_lets +onlyGivenNames x4
    clear_value x4
    with_reducible apply State.pawnDone_keeps
    with_reducible apply State.setPawn_keeps
    with_reducible assumption

theorem State.pawnSample_keeps {s0 : State} (n : Nat) (px : PxBoard) (s : State) (delay v : Nat) (hk : Keeps s0 s) :
    Keeps s0 (State.pawnSample n px s delay v) := by
  unfold State.pawnSample
  dsimp only
  with_reducible apply State.pawnDone_keeps
  with_reducible apply State.setPawn_keeps
  with_reducible assumption

theorem State.stallOver_keeps {s0 : State} (s : State) (n : Nat) (hk : Keeps s0 s) :
    Keeps s0 (State.stallOver s n) := by
  unfold State.stallOver
  with_reducible apply State.wr_keeps
  with_reducible assumption

theorem State.pawnWait_keeps {s0 : State} (s : State) (n wait : Nat) (hk : Keeps s0 s) :
    Keeps s0 (State.pawnWait s n wait) := by
  unfold State.pawnWait
  dsimp only
  with_reducible refine ite_keeps ?_ ?_
  · with_reducible assumption
  · with_reducible apply State.setPawn_keeps
    with_reducible assumption

theorem State.pawnLoad_keeps {s0 : State} (n : Nat) (s : State) (delay _v : Nat) (hk : Keeps s0 s) :
    Keeps s0 (State.pawnLoad n s delay _v) := by
  unfold State.pawnLoad
  dsimp only
  split
  · with_reducible apply State.pawnWait_keeps
    with_reducible assumption
  · with_reducible apply State.pawnDone_keeps
    with_reducible apply State.cvuTapWord_keeps
    with_reducible apply State.stallOver_keeps
    with_reducible apply State.setPawn_keeps
    with_reducible assumption

theorem State.tbSelect_keeps {s0 : State} (s : State) (hk : Keeps s0 s) :
    Keeps s0 (State.tbSelect s) := by
  unfold State.tbSelect
  dsimp only
  with_reducible refine foldl_keeps ?_ ?_
  · intro t0_0 t0_1 h0
    with_reducible apply State.tbPawnWord_keeps
    with_reducible assumption
  · with_reducible refine ite_keeps ?_ ?_
    · with_reducible apply State.wr_keeps
      with_reducible refine keeps_mk_of (keeps_parts ?_)
      with_reducible assumption
    · with_reducible apply State.setPawn_keeps
      with_reducible apply State.wr_keeps
      with_reducible refine keeps_mk_of (keeps_parts ?_)
      with_reducible assumption

theorem State.tbChanged_keeps {s0 : State} (s old : State) (hk : Keeps s0 s) : Keeps s0 (State.tbChanged s old) :=
  ite_keeps (State.tbSelect_keeps _ (State.tbUnused_keeps _ hk)) (State.tbUnused_keeps _ hk)

theorem State.pawnStoreWord_keeps {s0 : State} (n : Nat) (s : State) (delay _v : Nat) (hk : Keeps s0 s) :
    Keeps s0 (State.pawnStoreWord n s delay _v) := by
  unfold State.pawnStoreWord
  dsimp only
  with_reducible refine ite_keeps ?_ ?_
  · with_reducible apply State.pawnWait_keeps
    with_reducible assumption
  · with_reducible apply State.pawnDone_keeps
    with_reducible apply State.cvuTapWord_keeps
    with_reducible refine ite_keeps ?_ ?_
    · with_reducible apply State.tbPawnWord_keeps
      with_reducible apply State.stallOver_keeps
      with_reducible apply State.setPawn_keeps
      with_reducible assumption
    · with_reducible apply State.stallOver_keeps
      with_reducible apply State.setPawn_keeps
      with_reducible assumption

theorem State.setFlag_keeps {s0 : State} (s : State) (i : Nat) (b : Bool) (hk : Keeps s0 s) :
    Keeps s0 (State.setFlag s i b) := by
  unfold State.setFlag
  dsimp only
  with_reducible refine ite_keeps ?_ ?_
  · with_reducible refine ite_keeps ?_ ?_
    · with_reducible assumption
    · with_reducible apply State.hwReg_keeps
      with_reducible assumption
  · with_reducible refine keeps_mk_of (keeps_parts ?_)
    with_reducible apply State.hwReg_keeps
    with_reducible assumption

theorem State.pawnAwait_keeps {s0 : State} (n : Nat) (px : PxBoard) (rose fell : Word) (s : State) (delay v : Nat) (hk : Keeps s0 s) :
    Keeps s0 (State.pawnAwait n px rose fell s delay v) := by
  unfold State.pawnAwait
  dsimp only
  with_reducible refine ite_keeps ?_ ?_
  · with_reducible apply State.setPawn_keeps
    with_reducible assumption
  · with_reducible apply State.pawnDone_keeps
    split
    · with_reducible apply State.setPawn_keeps
      with_reducible assumption
    · with_reducible apply State.setPawn_keeps
      with_reducible assumption
    · with_reducible apply State.setPawn_keeps
      with_reducible assumption
    · with_reducible refine ite_keeps ?_ ?_
      · with_reducible apply State.setFlag_keeps
        with_reducible assumption
      · with_reducible assumption
    · with_reducible assumption

theorem State.pawnBranch_keeps {s0 : State} (n : Nat) (px : PxBoard) (s : State) (delay v : Nat) (hk : Keeps s0 s) :
    Keeps s0 (State.pawnBranch n px s delay v) := by
  unfold State.pawnBranch
  with_reducible apply State.pawnDone_keeps
  with_reducible assumption

theorem State.pawnLoop_keeps {s0 : State} (n : Nat) (s : State) (delay v : Nat) (hk : Keeps s0 s) :
    Keeps s0 (State.pawnLoop n s delay v) := by
  unfold State.pawnLoop
  extract_lets +onlyGivenNames x1
  clear_value x1
  extract_lets +onlyGivenNames x2
  clear_value x2
  extract_lets +onlyGivenNames x3
  clear_value x3
  with_reducible refine ite_keeps ?_ ?_
  · with_reducible apply State.pawnDone_keeps
    with_reducible assumption
  · extract_lets +onlyGivenNames x4
    clear_value x4
    extract_lets +onlyGivenNames x5
    clear_value x5
    with_reducible apply State.pawnDone_keeps
    with_reducible apply State.setPawn_keeps
    with_reducible assumption

theorem State.pawnCount_keeps {s0 : State} (n : Nat) (s : State) (delay v : Nat) (hk : Keeps s0 s) :
    Keeps s0 (State.pawnCount n s delay v) := by
  unfold State.pawnCount
  extract_lets +onlyGivenNames x1
  clear_value x1
  extract_lets +onlyGivenNames x2
  clear_value x2
  with_reducible apply State.pawnDone_keeps
  with_reducible apply State.setPawn_keeps
  with_reducible assumption

theorem State.pawnSignal_keeps {s0 : State} (n : Nat) (s : State) (delay v : Nat) (hk : Keeps s0 s) :
    Keeps s0 (State.pawnSignal n s delay v) := by
  unfold State.pawnSignal
  dsimp only
  with_reducible apply State.pawnDone_keeps
  split
  · with_reducible apply State.setFlag_keeps
    with_reducible assumption
  · with_reducible apply State.setFlag_keeps
    with_reducible assumption
  · with_reducible apply State.raise_keeps
    with_reducible assumption

theorem execPawnStall_keeps {s0 : State} (at_ : Vt) (n : Fin 8) (s : State) (hk : Keeps s0 s) :
    OKeeps s0 (execPawnStall at_ n s) := by
  unfold execPawnStall
  dsimp only
  with_reducible refine next_okeeps ?_
  with_reducible refine ite_keeps ?_ ?_
  · with_reducible apply State.raise_keeps
    with_reducible apply State.wr_keeps
    with_reducible apply State.setPawn_keeps
    with_reducible apply State.elapseTo_keeps
    with_reducible assumption
  · with_reducible apply State.elapseTo_keeps
    with_reducible assumption

theorem execDrive_keeps {s0 : State} (at_ : Vt) (n : Fin 8) (upset : Bool) (s : State) (hk : Keeps s0 s) :
    OKeeps s0 (execDrive at_ n upset s) := by
  unfold execDrive
  with_reducible refine next_okeeps ?_
  with_reducible apply State.pawnEdge_keeps
  · intro t0_0 t0_1 t0_2 h0
    with_reducible apply State.pawnDrive_keeps
    with_reducible assumption
  · with_reducible apply State.elapseTo_keeps
    with_reducible assumption

theorem execEmit_keeps {s0 : State} (at_ : Vt) (n : Fin 8) (upset : Bool) (s : State) (hk : Keeps s0 s) :
    OKeeps s0 (execEmit at_ n upset s) := by
  unfold execEmit
  with_reducible refine next_okeeps ?_
  with_reducible apply State.pawnEdge_keeps
  · intro t0_0 t0_1 t0_2 h0
    with_reducible apply State.pawnEmit_keeps
    with_reducible assumption
  · with_reducible apply State.elapseTo_keeps
    with_reducible assumption

theorem execSample_keeps {s0 : State} (at_ : Vt) (n : Fin 8) (upset : Bool) (px : PxBoard) (s : State) (hk : Keeps s0 s) :
    OKeeps s0 (execSample at_ n upset px s) := by
  unfold execSample
  with_reducible refine next_okeeps ?_
  with_reducible apply State.pawnEdge_keeps
  · intro t0_0 t0_1 t0_2 h0
    with_reducible apply State.pawnSample_keeps
    with_reducible assumption
  · with_reducible apply State.elapseTo_keeps
    with_reducible assumption

theorem execLoad_keeps {s0 : State} (at_ : Vt) (n : Fin 8) (upset : Bool) (s : State) (hk : Keeps s0 s) :
    OKeeps s0 (execLoad at_ n upset s) := by
  unfold execLoad
  with_reducible refine next_okeeps ?_
  with_reducible apply State.pawnEdge_keeps
  · intro t0_0 t0_1 t0_2 h0
    with_reducible apply State.pawnLoad_keeps
    with_reducible assumption
  · with_reducible apply State.elapseTo_keeps
    with_reducible assumption

theorem execStore_keeps {s0 : State} (at_ : Vt) (n : Fin 8) (upset : Bool) (s : State) (hk : Keeps s0 s) :
    OKeeps s0 (execStore at_ n upset s) := by
  unfold execStore
  with_reducible refine next_okeeps ?_
  with_reducible apply State.pawnEdge_keeps
  · intro t0_0 t0_1 t0_2 h0
    with_reducible apply State.pawnStoreWord_keeps
    with_reducible assumption
  · with_reducible apply State.elapseTo_keeps
    with_reducible assumption

theorem execAwait_keeps {s0 : State} (at_ : Vt) (n : Fin 8) (upset : Bool) (px : PxBoard) (rose fell : Word) (s : State) (hk : Keeps s0 s) :
    OKeeps s0 (execAwait at_ n upset px rose fell s) := by
  unfold execAwait
  with_reducible refine next_okeeps ?_
  with_reducible apply State.pawnEdge_keeps
  · intro t0_0 t0_1 t0_2 h0
    with_reducible apply State.pawnAwait_keeps
    with_reducible assumption
  · with_reducible apply State.elapseTo_keeps
    with_reducible assumption

theorem execBranch_keeps {s0 : State} (at_ : Vt) (n : Fin 8) (upset : Bool) (px : PxBoard) (s : State) (hk : Keeps s0 s) :
    OKeeps s0 (execBranch at_ n upset px s) := by
  unfold execBranch
  with_reducible refine next_okeeps ?_
  with_reducible apply State.pawnEdge_keeps
  · intro t0_0 t0_1 t0_2 h0
    with_reducible apply State.pawnBranch_keeps
    with_reducible assumption
  · with_reducible apply State.elapseTo_keeps
    with_reducible assumption

theorem execLoop_keeps {s0 : State} (at_ : Vt) (n : Fin 8) (upset : Bool) (s : State) (hk : Keeps s0 s) :
    OKeeps s0 (execLoop at_ n upset s) := by
  unfold execLoop
  with_reducible refine next_okeeps ?_
  with_reducible apply State.pawnEdge_keeps
  · intro t0_0 t0_1 t0_2 h0
    with_reducible apply State.pawnLoop_keeps
    with_reducible assumption
  · with_reducible apply State.elapseTo_keeps
    with_reducible assumption

theorem execCount_keeps {s0 : State} (at_ : Vt) (n : Fin 8) (upset : Bool) (s : State) (hk : Keeps s0 s) :
    OKeeps s0 (execCount at_ n upset s) := by
  unfold execCount
  with_reducible refine next_okeeps ?_
  with_reducible apply State.pawnEdge_keeps
  · intro t0_0 t0_1 t0_2 h0
    with_reducible apply State.pawnCount_keeps
    with_reducible assumption
  · with_reducible apply State.elapseTo_keeps
    with_reducible assumption

theorem execSignal_keeps {s0 : State} (at_ : Vt) (n : Fin 8) (upset : Bool) (s : State) (hk : Keeps s0 s) :
    OKeeps s0 (execSignal at_ n upset s) := by
  unfold execSignal
  with_reducible refine next_okeeps ?_
  with_reducible apply State.pawnEdge_keeps
  · intro t0_0 t0_1 t0_2 h0
    with_reducible apply State.pawnSignal_keeps
    with_reducible assumption
  · with_reducible apply State.elapseTo_keeps
    with_reducible assumption

end Sys2Proof.Machine
end

