-- ==== Sys2Proof/Laws/KeepsSpwm.lean ====
section
/-! SUPPORT. The operations of Spwm.lean keep the queue and the canonical forms. -/
namespace Sys2Proof.Machine

theorem State.setSw_keeps {s0 : State} (s : State) (n : Nat) (u : SpwmSt) (hk : Keeps s0 s) :
    Keeps s0 (State.setSw s n u) := by
  unfold State.setSw
  with_reducible refine keeps_mk_of (keeps_parts ?_)
  with_reducible assumption

theorem State.swDisarm_keeps {s0 : State} (s : State) (n : Nat) (hk : Keeps s0 s) :
    Keeps s0 (State.swDisarm s n) := by
  unfold State.swDisarm
  with_reducible apply State.setSw_keeps
  with_reducible apply State.wr_keeps
  with_reducible assumption

theorem State.swCopy_keeps {s0 : State} (s : State) (n : Nat) (set : List Word) (wait : Bool) (hk : Keeps s0 s) :
    Keeps s0 (State.swCopy s n set wait) := by
  unfold State.swCopy
  dsimp only
  with_reducible refine ite_keeps ?_ ?_
  · with_reducible apply State.setW1c_keeps
    with_reducible assumption
  · with_reducible refine ite_keeps ?_ ?_
    · with_reducible apply State.setSw_keeps
      with_reducible apply State.setReg_keeps
      with_reducible apply State.setReg_keeps
      with_reducible apply State.setReg_keeps
      with_reducible assumption
    · with_reducible apply State.setSw_keeps
      with_reducible apply State.setReg_keeps
      with_reducible apply State.setReg_keeps
      with_reducible apply State.setReg_keeps
      with_reducible apply State.setReg_keeps
      with_reducible assumption

theorem State.swTransfer_keeps {s0 : State} (s : State) (n : Nat) (wait : Bool) (hk : Keeps s0 s) :
    Keeps s0 (State.swTransfer s n wait) := by
  unfold State.swTransfer
  with_reducible apply State.swCopy_keeps
  with_reducible apply State.swDisarm_keeps
  with_reducible assumption

theorem State.swSkip_keeps {s0 : State} (s : State) (n b : Nat) (hk : Keeps s0 s) :
    Keeps s0 (State.swSkip s n b) := by
  unfold State.swSkip
  extract_lets +onlyGivenNames x1
  have h1 : Keeps s0 x1 := by
    unfold x1
    with_reducible apply State.bump_keeps
    with_reducible assumption
  clear_value x1
  with_reducible refine ite_keeps ?_ ?_
  · with_reducible apply State.raise_keeps
    with_reducible apply State.setSw_keeps
    with_reducible assumption
  · with_reducible assumption

theorem State.swSoft_keeps {s0 : State} (s : State) (n : Nat) (hk : Keeps s0 s) :
    Keeps s0 (State.swSoft s n) := by
  unfold State.swSoft
  split
  · with_reducible assumption
  · extract_lets +onlyGivenNames x1
    clear_value x1
    with_reducible refine ite_keeps ?_ ?_
    · with_reducible apply State.setSw_keeps
      with_reducible assumption
    · with_reducible refine ite_keeps ?_ ?_
      · with_reducible apply State.setSw_keeps
        with_reducible apply State.wrBoth_keeps
        with_reducible assumption
      · with_reducible apply State.setSw_keeps
        with_reducible assumption

theorem State.swCompute_keeps {s0 : State} (s : State) (n : Nat) (carried : Option Nat) (hk : Keeps s0 s) :
    Keeps s0 (State.swCompute s n carried) := by
  unfold State.swCompute
  dsimp only
  with_reducible refine ite_keeps ?_ ?_
  · with_reducible apply State.swSkip_keeps
    with_reducible refine ite_keeps ?_ ?_
    · with_reducible apply State.swSkip_keeps
      with_reducible apply State.wr_keeps
      with_reducible apply State.wr_keeps
      with_reducible apply State.wrB_keeps
      with_reducible apply State.setSw_keeps
      with_reducible assumption
    · with_reducible apply State.wr_keeps
      with_reducible apply State.wr_keeps
      with_reducible apply State.wrB_keeps
      with_reducible apply State.setSw_keeps
      with_reducible assumption
  · with_reducible refine ite_keeps ?_ ?_
    · with_reducible apply State.swSkip_keeps
      with_reducible apply State.wr_keeps
      with_reducible apply State.wr_keeps
      with_reducible apply State.wrB_keeps
      with_reducible apply State.setSw_keeps
      with_reducible assumption
    · with_reducible apply State.wr_keeps
      with_reducible apply State.wr_keeps
      with_reducible apply State.wrB_keeps
      with_reducible apply State.setSw_keeps
      with_reducible assumption

theorem State.swRecompute_keeps {s0 : State} (s : State) (n pos : Nat) (again : Bool) (hk : Keeps s0 s) :
    Keeps s0 (State.swRecompute s n pos again) := by
  unfold State.swRecompute
  dsimp only
  with_reducible refine ite_keeps ?_ ?_
  · with_reducible assumption
  · with_reducible refine ite_keeps ?_ ?_
    · with_reducible apply State.swSkip_keeps
      with_reducible refine ite_keeps ?_ ?_
      · with_reducible apply State.swSkip_keeps
        with_reducible refine ite_keeps ?_ ?_
        · with_reducible apply State.wr_keeps
          with_reducible refine ite_keeps ?_ ?_
          · with_reducible apply State.wr_keeps
            with_reducible apply State.setSw_keeps
            with_reducible assumption
          · with_reducible apply State.setSw_keeps
            with_reducible assumption
        · with_reducible refine ite_keeps ?_ ?_
          · with_reducible apply State.wr_keeps
            with_reducible apply State.setSw_keeps
            with_reducible assumption
          · with_reducible apply State.setSw_keeps
            with_reducible assumption
      · with_reducible refine ite_keeps ?_ ?_
        · with_reducible apply State.wr_keeps
          with_reducible refine ite_keeps ?_ ?_
          · with_reducible apply State.wr_keeps
            with_reducible apply State.setSw_keeps
            with_reducible assumption
          · with_reducible apply State.setSw_keeps
            with_reducible assumption
        · with_reducible refine ite_keeps ?_ ?_
          · with_reducible apply State.wr_keeps
            with_reducible apply State.setSw_keeps
            with_reducible assumption
          · with_reducible apply State.setSw_keeps
            with_reducible assumption
    · with_reducible refine ite_keeps ?_ ?_
      · with_reducible apply State.swSkip_keeps
        with_reducible refine ite_keeps ?_ ?_
        · with_reducible apply State.wr_keeps
          with_reducible refine ite_keeps ?_ ?_
          · with_reducible apply State.wr_keeps
            with_reducible apply State.setSw_keeps
            with_reducible assumption
          · with_reducible apply State.setSw_keeps
            with_reducible assumption
        · with_reducible refine ite_keeps ?_ ?_
          · with_reducible apply State.wr_keeps
            with_reducible apply State.setSw_keeps
            with_reducible assumption
          · with_reducible apply State.setSw_keeps
            with_reducible assumption
      · with_reducible refine ite_keeps ?_ ?_
        · with_reducible apply State.wr_keeps
          with_reducible refine ite_keeps ?_ ?_
          · with_reducible apply State.wr_keeps
            with_reducible apply State.setSw_keeps
            with_reducible assumption
          · with_reducible apply State.setSw_keeps
            with_reducible assumption
        · with_reducible refine ite_keeps ?_ ?_
          · with_reducible apply State.wr_keeps
            with_reducible apply State.setSw_keeps
            with_reducible assumption
          · with_reducible apply State.setSw_keeps
            with_reducible assumption

theorem State.swTrip_keeps {s0 : State} (s : State) (n : Nat) (hk : Keeps s0 s) :
    Keeps s0 (State.swTrip s n) := by
  unfold State.swTrip
  with_reducible refine ite_keeps ?_ ?_
  · with_reducible assumption
  · dsimp only
    with_reducible refine ite_keeps ?_ ?_
    · with_reducible apply State.raise_keeps
      with_reducible apply State.bump_keeps
      with_reducible apply State.wr_keeps
      with_reducible apply State.setSw_keeps
      with_reducible assumption
    · with_reducible refine ite_keeps ?_ ?_
      · with_reducible apply State.raise_keeps
        with_reducible apply State.setSw_keeps
        with_reducible apply State.bump_keeps
        with_reducible apply State.wr_keeps
        with_reducible apply State.setSw_keeps
        with_reducible assumption
      · with_reducible apply State.bump_keeps
        with_reducible apply State.wr_keeps
        with_reducible apply State.setSw_keeps
        with_reducible assumption

theorem State.swTripCheck_keeps {s0 : State} (s : State) (n : Nat) (hk : Keeps s0 s) :
    Keeps s0 (State.swTripCheck s n) := by
  unfold State.swTripCheck
  with_reducible refine ite_keeps ?_ ?_
  · with_reducible apply State.swTrip_keeps
    with_reducible assumption
  · with_reducible assumption

theorem State.swTripAll_keeps {s0 : State} (s : State) (hk : Keeps s0 s) :
    Keeps s0 (State.swTripAll s) := by
  unfold State.swTripAll
  with_reducible refine foldl_keeps ?_ ?_
  · intro t1_0 t1_1 h1
    with_reducible apply State.swTripCheck_keeps
    with_reducible assumption
  · with_reducible assumption

theorem State.swRearm_keeps {s0 : State} (s : State) (n : Nat) (hk : Keeps s0 s) :
    Keeps s0 (State.swRearm s n) := by
  unfold State.swRearm
  with_reducible apply State.setSw_keeps
  with_reducible apply State.wr_keeps
  with_reducible assumption

theorem State.swBoundaryTrip_keeps {s0 : State} (s : State) (n : Nat) (hk : Keeps s0 s) :
    Keeps s0 (State.swBoundaryTrip s n) := by
  unfold State.swBoundaryTrip
  with_reducible refine ite_keeps ?_ ?_
  · with_reducible refine ite_keeps ?_ ?_
    · with_reducible apply State.wr_keeps
      with_reducible assumption
    · with_reducible refine ite_keeps ?_ ?_
      · with_reducible apply State.swRearm_keeps
        with_reducible assumption
      · with_reducible assumption
  · with_reducible assumption

theorem State.swClr_keeps {s0 : State} (s : State) (n : Nat) (hk : Keeps s0 s) :
    Keeps s0 (State.swClr s n) := by
  unfold State.swClr
  with_reducible refine ite_keeps ?_ ?_
  · extract_lets +onlyGivenNames x1
    have h1 : Keeps s0 x1 := by
      unfold x1
      with_reducible apply State.swRearm_keeps
      with_reducible assumption
    clear_value x1
    with_reducible apply State.setSw_keeps
    with_reducible assumption
  · with_reducible assumption

theorem State.swCastleTransfer_keeps {s0 : State} (s : State) (n : Nat) (set : List Word) (hk : Keeps s0 s) :
    Keeps s0 (State.swCastleTransfer s n set) := by
  unfold State.swCastleTransfer
  dsimp only
  with_reducible apply State.swCopy_keeps
  with_reducible apply State.wrB_keeps
  with_reducible apply State.swDisarm_keeps
  with_reducible apply State.setSw_keeps
  with_reducible assumption

theorem State.swBoundaryTransfer_keeps {s0 : State} (s : State) (n : Nat) (hk : Keeps s0 s) :
    Keeps s0 (State.swBoundaryTransfer s n) := by
  unfold State.swBoundaryTransfer
  dsimp only
  with_reducible apply State.setSw_keeps
  with_reducible refine ite_keeps ?_ ?_
  · with_reducible apply State.swTransfer_keeps
    split
    · with_reducible refine ite_keeps ?_ ?_
      · with_reducible apply State.setSw_keeps
        split
        · with_reducible apply State.setSw_keeps
          with_reducible apply State.setReg_keeps
          with_reducible assumption
        · with_reducible assumption
      · with_reducible apply State.swCastleTransfer_keeps
        split
        · with_reducible apply State.setSw_keeps
          with_reducible apply State.setReg_keeps
          with_reducible assumption
        · with_reducible assumption
    · split
      · with_reducible apply State.setSw_keeps
        with_reducible apply State.setReg_keeps
        with_reducible assumption
      · with_reducible assumption
  · split
    · with_reducible refine ite_keeps ?_ ?_
      · with_reducible apply State.setSw_keeps
        split
        · with_reducible apply State.setSw_keeps
          with_reducible apply State.setReg_keeps
          with_reducible assumption
        · with_reducible assumption
      · with_reducible apply State.swCastleTransfer_keeps
        split
        · with_reducible apply State.setSw_keeps
          with_reducible apply State.setReg_keeps
          with_reducible assumption
        · with_reducible assumption
    · split
      · with_reducible apply State.setSw_keeps
        with_reducible apply State.setReg_keeps
        with_reducible assumption
      · with_reducible assumption

theorem State.swBoundary_keeps {s0 : State} (s : State) (n at_ : Nat) (carried : Option Nat) (hk : Keeps s0 s) :
    Keeps s0 (State.swBoundary s n at_ carried) := by
  unfold State.swBoundary
  dsimp only
  with_reducible apply State.swTripCheck_keeps
  with_reducible apply State.swCompute_keeps
  with_reducible refine ite_keeps ?_ ?_
  · with_reducible apply State.swBoundaryTrip_keeps
    with_reducible refine ite_keeps ?_ ?_
    · with_reducible apply State.setSw_keeps
      with_reducible assumption
    · with_reducible apply State.swBoundaryTransfer_keeps
      with_reducible apply State.setSw_keeps
      with_reducible assumption
  · with_reducible apply State.swSoft_keeps
    with_reducible apply State.swBoundaryTrip_keeps
    with_reducible refine ite_keeps ?_ ?_
    · with_reducible apply State.setSw_keeps
      with_reducible assumption
    · with_reducible apply State.swBoundaryTransfer_keeps
      with_reducible apply State.setSw_keeps
      with_reducible assumption

theorem State.loopCount_keeps {s0 : State} (s : State) (n : Nat) (hk : Keeps s0 s) :
    Keeps s0 (State.loopCount s n) := by
  unfold State.loopCount
  with_reducible refine ite_keeps ?_ ?_
  · extract_lets +onlyGivenNames x1
    clear_value x1
    with_reducible refine keeps_mk_of (keeps_parts ?_)
    with_reducible assumption
  · with_reducible assumption

theorem State.swAtBoundary_keeps {s0 : State} (s : State) (n : Nat) (hk : Keeps s0 s) :
    Keeps s0 (State.swAtBoundary s n) := by
  unfold State.swAtBoundary
  split
  · with_reducible apply State.loopCount_keeps
    with_reducible apply State.swBoundary_keeps
    with_reducible assumption
  · with_reducible refine ite_keeps ?_ ?_
    · with_reducible apply State.loopCount_keeps
      with_reducible apply State.swBoundary_keeps
      with_reducible assumption
    · with_reducible assumption

theorem State.swInner_keeps {s0 : State} (s : State) (n pos : Nat) (again wait : Bool) (hk : Keeps s0 s) :
    Keeps s0 (State.swInner s n pos again wait) := by
  unfold State.swInner
  dsimp only
  with_reducible refine ite_keeps ?_ ?_
  · with_reducible apply State.swRecompute_keeps
    with_reducible apply State.swTransfer_keeps
    with_reducible assumption
  · with_reducible apply State.swTransfer_keeps
    with_reducible assumption

theorem State.swResync_keeps {s0 : State} (s : State) (n inst : Nat) (armed : Bool) (hk : Keeps s0 s) :
    Keeps s0 (State.swResync s n inst armed) := by
  unfold State.swResync
  dsimp only
  split
  · with_reducible apply State.loopCount_keeps
    with_reducible apply State.swBoundary_keeps
    with_reducible refine ite_keeps ?_ ?_
    · with_reducible apply State.swTransfer_keeps
      with_reducible assumption
    · with_reducible assumption
  · with_reducible refine ite_keeps ?_ ?_
    · with_reducible apply State.loopCount_keeps
      with_reducible apply State.swBoundary_keeps
      with_reducible refine ite_keeps ?_ ?_
      · with_reducible apply State.swTransfer_keeps
        with_reducible assumption
      · with_reducible assumption
    · with_reducible refine ite_keeps ?_ ?_
      · with_reducible apply State.wr_keeps
        with_reducible apply State.swInner_keeps
        with_reducible assumption
      · with_reducible assumption

theorem State.swMove1_keeps {s0 : State} (inst : Nat) (s : State) (n : Nat) (hk : Keeps s0 s) :
    Keeps s0 (State.swMove1 inst s n) := by
  unfold State.swMove1
  with_reducible refine ite_keeps ?_ ?_
  · with_reducible assumption
  · dsimp only
    with_reducible refine ite_keeps ?_ ?_
    · with_reducible apply State.swResync_keeps
      with_reducible assumption
    · with_reducible refine ite_keeps ?_ ?_
      · with_reducible apply State.swInner_keeps
        with_reducible assumption
      · with_reducible assumption

theorem State.spwmUpdate_keeps {s0 : State} (s : State) (inst mask : Nat) (hk : Keeps s0 s) :
    Keeps s0 (State.spwmUpdate s inst mask) := by
  unfold State.spwmUpdate
  with_reducible refine ite_keeps ?_ ?_
  · with_reducible refine foldl_keeps ?_ ?_
    · intro t0_0 t0_1 h0
      with_reducible apply State.swMove1_keeps
      with_reducible assumption
    · with_reducible assumption
  · with_reducible assumption

theorem State.swStand_keeps {s0 : State} (s : State) (n : Nat) (hk : Keeps s0 s) :
    Keeps s0 (State.swStand s n) := by
  unfold State.swStand
  with_reducible apply State.setSw_keeps
  with_reducible apply State.wr_keeps
  with_reducible assumption

theorem State.swStart_keeps {s0 : State} (s : State) (n : Nat) (hk : Keeps s0 s) :
    Keeps s0 (State.swStart s n) := by
  unfold State.swStart
  dsimp only
  with_reducible apply State.wrB_keeps
  with_reducible apply State.swTransfer_keeps
  with_reducible apply State.swStand_keeps
  with_reducible apply State.setSw_keeps
  with_reducible assumption

theorem State.swStop_keeps {s0 : State} (s : State) (n : Nat) (hk : Keeps s0 s) :
    Keeps s0 (State.swStop s n) := by
  unfold State.swStop
  with_reducible apply State.setSw_keeps
  with_reducible apply State.swStand_keeps
  with_reducible assumption

theorem State.swCtrlWrite_keeps {s0 : State} (s : State) (n : Nat) (w : Word) (hk : Keeps s0 s) :
    Keeps s0 (State.swCtrlWrite s n w) := by
  unfold State.swCtrlWrite
  dsimp only
  with_reducible refine ite_keeps ?_ ?_
  · with_reducible refine ite_keeps ?_ ?_
    · with_reducible refine ite_keeps ?_ ?_
      · with_reducible apply State.setW1c_keeps
        with_reducible assumption
      · with_reducible assumption
    · with_reducible apply State.swStop_keeps
      with_reducible apply State.wr_keeps
      with_reducible refine ite_keeps ?_ ?_
      · with_reducible apply State.setW1c_keeps
        with_reducible assumption
      · with_reducible assumption
  · with_reducible refine ite_keeps ?_ ?_
    · with_reducible apply State.swStart_keeps
      with_reducible apply State.setReg_keeps
      with_reducible assumption
    · with_reducible apply State.setReg_keeps
      with_reducible assumption

theorem State.swConfigWrite_keeps {s0 : State} (s : State) (n : Nat) (trip : Bool) (w : Word) (hk : Keeps s0 s) :
    Keeps s0 (State.swConfigWrite s n trip w) := by
  unfold State.swConfigWrite
  dsimp only
  with_reducible refine ite_keeps ?_ ?_
  · with_reducible refine ite_keeps ?_ ?_
    · with_reducible assumption
    · with_reducible apply State.setW1c_keeps
      with_reducible assumption
  · with_reducible apply State.swTripCheck_keeps
    with_reducible apply State.setReg_keeps
    with_reducible assumption

theorem State.swShadowWrite_keeps {s0 : State} (s : State) (n k : Nat) (w : Word) (hk : Keeps s0 s) :
    Keeps s0 (State.swShadowWrite s n k w) := by
  unfold State.swShadowWrite
  with_reducible refine ite_keeps ?_ ?_
  · with_reducible apply State.setW1c_keeps
    with_reducible assumption
  · dsimp only
    with_reducible refine ite_keeps ?_ ?_
    · with_reducible apply State.setSw_keeps
      with_reducible apply State.wr_keeps
      with_reducible apply State.setShReg_keeps
      with_reducible assumption
    · with_reducible apply State.setShReg_keeps
      with_reducible assumption

theorem State.tripPolWrite_keeps {s0 : State} (s : State) (w : Word) (hk : Keeps s0 s) :
    Keeps s0 (State.tripPolWrite s w) := by
  unfold State.tripPolWrite
  dsimp only
  with_reducible apply State.swTripAll_keeps
  with_reducible apply State.wr_keeps
  with_reducible assumption

theorem State.swLock1_keeps {s0 : State} (s : State) (n : Nat) (hk : Keeps s0 s) :
    Keeps s0 (State.swLock1 s n) := by
  unfold State.swLock1
  with_reducible refine ite_keeps ?_ ?_
  · with_reducible apply State.setSw_keeps
    with_reducible apply State.wr_keeps
    with_reducible assumption
  · with_reducible assumption

theorem execSpwLock_keeps {s0 : State} (at_ : Vt) (s : State) (hk : Keeps s0 s) :
    OKeeps s0 (execSpwLock at_ s) := by
  unfold execSpwLock
  with_reducible refine next_okeeps ?_
  extract_lets +onlyGivenNames x1
  have h1 : Keeps s0 x1 := by
    unfold x1
    with_reducible apply State.elapseTo_keeps
    with_reducible assumption
  clear_value x1
  with_reducible refine ite_keeps ?_ ?_
  · with_reducible refine foldl_keeps ?_ ?_
    · intro t2_0 t2_1 h2
      with_reducible apply State.swLock1_keeps
      with_reducible assumption
    · with_reducible apply State.wr_keeps
      with_reducible assumption
  · with_reducible assumption

theorem State.swLost1_keeps {s0 : State} (s : State) (n : Nat) (hk : Keeps s0 s) :
    Keeps s0 (State.swLost1 s n) := by
  unfold State.swLost1
  with_reducible refine ite_keeps ?_ ?_
  · with_reducible assumption
  · dsimp only
    with_reducible apply State.raise_keeps
    with_reducible refine ite_keeps ?_ ?_
    · with_reducible apply State.setSw_keeps
      with_reducible apply State.wr_keeps
      with_reducible assumption
    · with_reducible refine ite_keeps ?_ ?_
      · with_reducible apply State.setSw_keeps
        with_reducible apply State.wr_keeps
        with_reducible assumption
      · with_reducible apply State.swStand_keeps
        with_reducible assumption

theorem State.spwStop_keeps {s0 : State} (s : State) (hk : Keeps s0 s) :
    Keeps s0 (State.spwStop s) := by
  unfold State.spwStop
  with_reducible refine ite_keeps ?_ ?_
  · with_reducible assumption
  · dsimp only
    with_reducible apply State.floorFall_keeps
    with_reducible refine ite_keeps ?_ ?_
    · with_reducible apply State.setW1c_keeps
      with_reducible apply State.wr_keeps
      with_reducible refine foldl_keeps ?_ ?_
      · intro t0_0 t0_1 h0
        with_reducible apply State.swLost1_keeps
        with_reducible assumption
      · with_reducible assumption
    · with_reducible apply State.wr_keeps
      with_reducible refine foldl_keeps ?_ ?_
      · intro t1_0 t1_1 h1
        with_reducible apply State.swLost1_keeps
        with_reducible assumption
      · with_reducible assumption

theorem execSpwClockStop_keeps {s0 : State} (at_ : Vt) (s : State) (hk : Keeps s0 s) :
    OKeeps s0 (execSpwClockStop at_ s) := by
  unfold execSpwClockStop
  with_reducible refine next_okeeps ?_
  with_reducible apply State.spwStop_keeps
  with_reducible apply State.elapseTo_keeps
  with_reducible assumption

theorem execSpwClockIdleStop_keeps {s0 : State} (s : State) (hk : Keeps s0 s) :
    OKeeps s0 (execSpwClockIdleStop s) := by
  unfold execSpwClockIdleStop
  with_reducible refine next_okeeps ?_
  with_reducible refine ite_keeps ?_ ?_
  · with_reducible assumption
  · with_reducible apply State.wr_keeps
    with_reducible assumption

theorem State.setTrip_keeps {s0 : State} (s : State) (k : Nat) (on : Bool) (hk : Keeps s0 s) :
    Keeps s0 (State.setTrip s k on) := by
  unfold State.setTrip
  dsimp only
  with_reducible refine keeps_mk_of (keeps_parts ?_)
  with_reducible assumption

theorem execTripAssert_keeps {s0 : State} (at_ : Vt) (k : Fin 8) (s : State) (hk : Keeps s0 s) :
    OKeeps s0 (execTripAssert at_ k s) := by
  unfold execTripAssert
  with_reducible refine next_okeeps ?_
  with_reducible apply State.swTripAll_keeps
  with_reducible apply State.setTrip_keeps
  with_reducible apply State.elapseTo_keeps
  with_reducible assumption

theorem execTripDeassert_keeps {s0 : State} (at_ : Vt) (k : Fin 8) (s : State) (hk : Keeps s0 s) :
    OKeeps s0 (execTripDeassert at_ k s) := by
  unfold execTripDeassert
  with_reducible refine next_okeeps ?_
  with_reducible apply State.setTrip_keeps
  with_reducible apply State.swTripAll_keeps
  with_reducible apply State.elapseTo_keeps
  with_reducible assumption

theorem State.pinLapse_keeps {s0 : State} (s : State) (hk : Keeps s0 s) :
    Keeps s0 (State.pinLapse s) := by
  unfold State.pinLapse
  with_reducible refine ite_keeps ?_ ?_
  · with_reducible apply State.setW1c_keeps
    with_reducible apply State.wr_keeps
    with_reducible assumption
  · with_reducible assumption

theorem State.swHalt1_keeps {s0 : State} (s : State) (n : Nat) (hk : Keeps s0 s) :
    Keeps s0 (State.swHalt1 s n) := by
  unfold State.swHalt1
  with_reducible refine ite_keeps ?_ ?_
  · with_reducible assumption
  · with_reducible apply State.swStand_keeps
    with_reducible assumption

theorem State.pinTo_keeps {s0 : State} (s : State) (pins : BitVec 2) (hk : Keeps s0 s) :
    Keeps s0 (State.pinTo s pins) := by
  unfold State.pinTo
  dsimp only
  with_reducible refine ite_keeps ?_ ?_
  · with_reducible refine foldl_keeps ?_ ?_
    · intro t0_0 t0_1 h0
      with_reducible apply State.swHalt1_keeps
      with_reducible assumption
    · with_reducible refine keeps_mk_of (keeps_parts ?_)
      with_reducible assumption
  · with_reducible refine keeps_mk_of (keeps_parts ?_)
    with_reducible assumption

theorem State.pinLockWrite_keeps {s0 : State} (s : State) (w : Word) (hk : Keeps s0 s) :
    Keeps s0 (State.pinLockWrite s w) := by
  unfold State.pinLockWrite
  dsimp only
  with_reducible refine ite_keeps ?_ ?_
  · with_reducible refine ite_keeps ?_ ?_
    · with_reducible apply State.pinTo_keeps
      with_reducible apply State.wr_keeps
      with_reducible apply State.pinLapse_keeps
      with_reducible assumption
    · with_reducible apply State.setW1c_keeps
      with_reducible apply State.wr_keeps
      with_reducible apply State.pinLapse_keeps
      with_reducible assumption
  · with_reducible refine ite_keeps ?_ ?_
    · with_reducible refine keeps_mk_of (keeps_parts ?_)
      with_reducible apply State.wr_keeps
      with_reducible apply State.pinLapse_keeps
      with_reducible assumption
    · with_reducible apply State.pinLapse_keeps
      with_reducible assumption

theorem execPinLockLapse_keeps {s0 : State} (at_ : Vt) (s : State) (hk : Keeps s0 s) :
    OKeeps s0 (execPinLockLapse at_ s) := by
  unfold execPinLockLapse
  with_reducible refine next_okeeps ?_
  with_reducible apply State.pinLapse_keeps
  with_reducible apply State.elapseTo_keeps
  with_reducible assumption

theorem State.strapStart_keeps {s0 : State} (s : State) (u : Nat) (hk : Keeps s0 s) :
    Keeps s0 (State.strapStart s u) := by
  unfold State.strapStart
  dsimp only
  with_reducible apply State.swTripCheck_keeps
  with_reducible refine keeps_mk_of (keeps_parts ?_)
  with_reducible apply State.setSw_keeps
  with_reducible apply State.swStart_keeps
  with_reducible refine keeps_mk_of (keeps_parts ?_)
  with_reducible apply State.setShReg_keeps
  with_reducible apply State.setShReg_keeps
  with_reducible apply State.setShReg_keeps
  with_reducible apply State.setReg_keeps
  with_reducible apply State.setReg_keeps
  with_reducible apply State.setReg_keeps
  with_reducible assumption

theorem State.strapsStart_keeps {s0 : State} (s : State) (hk : Keeps s0 s) :
    Keeps s0 (State.strapsStart s) := by
  unfold State.strapsStart
  extract_lets +onlyGivenNames x1
  clear_value x1
  extract_lets +onlyGivenNames x2
  clear_value x2
  extract_lets +onlyGivenNames x3
  clear_value x3
  extract_lets +onlyGivenNames x4
  have h4 : Keeps s0 x4 := by
    unfold x4
    with_reducible refine foldl_keeps ?_ ?_
    · intro t5_0 t5_1 h5
      with_reducible apply State.strapStart_keeps
      with_reducible assumption
    · with_reducible assumption
  clear_value x4
  with_reducible apply State.raise_keeps
  with_reducible assumption

theorem State.spwmHalt_keeps {s0 : State} (s : State) (hk : Keeps s0 s) :
    Keeps s0 (State.spwmHalt s) := by
  unfold State.spwmHalt
  with_reducible refine foldl_keeps ?_ ?_
  · intro t0_0 t0_1 h0
    with_reducible apply State.swHalt1_keeps
    with_reducible assumption
  · with_reducible assumption

theorem State.swRelease1_keeps {s0 : State} (s : State) (n : Nat) (hk : Keeps s0 s) :
    Keeps s0 (State.swRelease1 s n) := by
  unfold State.swRelease1
  with_reducible refine ite_keeps ?_ ?_
  · with_reducible apply State.setSw_keeps
    with_reducible apply State.wrB_keeps
    with_reducible assumption
  · with_reducible assumption

theorem State.spwmRelease_keeps {s0 : State} (s : State) (hk : Keeps s0 s) :
    Keeps s0 (State.spwmRelease s) := by
  unfold State.spwmRelease
  with_reducible refine foldl_keeps ?_ ?_
  · intro t0_0 t0_1 h0
    with_reducible apply State.swRelease1_keeps
    with_reducible assumption
  · with_reducible assumption

theorem State.loopDuty_keeps {s0 : State} (s : State) (i d : Nat) (hk : Keeps s0 s) :
    Keeps s0 (State.loopDuty s i d) := by
  unfold State.loopDuty
  extract_lets +onlyGivenNames x1
  have h1 : Keeps s0 x1 := by
    unfold x1
    with_reducible apply State.wr_keeps
    with_reducible apply State.setShReg_keeps
    with_reducible assumption
  clear_value x1
  with_reducible apply State.wr_keeps
  with_reducible apply State.setSw_keeps
  with_reducible assumption

theorem State.loopSetCode_keeps {s0 : State} (s : State) (i : Nat) (hk : Keeps s0 s) :
    Keeps s0 (State.loopSetCode s i).2 := by
  unfold State.loopSetCode
  extract_lets +onlyGivenNames x1
  clear_value x1
  with_reducible refine ite_keeps_snd ?_ ?_
  · with_reducible apply State.draw_keeps
    with_reducible assumption
  · with_reducible refine mkpair_keeps ?_
    with_reducible assumption

theorem State.loopMeas_keeps {s0 : State} (s : State) (i code : Nat) (hk : Keeps s0 s) :
    Keeps s0 (State.loopMeas s i code) := by
  unfold State.loopMeas
  extract_lets +onlyGivenNames x1
  clear_value x1
  with_reducible refine ite_keeps ?_ ?_
  · with_reducible apply State.wr_keeps
    with_reducible assumption
  · split
    · with_reducible apply State.wr_keeps
      with_reducible apply keeps_pair; with_reducible assumption
      with_reducible apply State.draw_keeps
      with_reducible assumption

theorem State.loopLimit_keeps {s0 : State} (s : State) (i : Nat) (e : Int) (d : Nat) (hk : Keeps s0 s) :
    Keeps s0 (State.loopLimit s i e d) := by
  unfold State.loopLimit
  extract_lets +onlyGivenNames x1
  clear_value x1
  extract_lets +onlyGivenNames x2
  clear_value x2
  extract_lets +onlyGivenNames x3
  clear_value x3
  extract_lets +onlyGivenNames x4
  clear_value x4
  extract_lets +onlyGivenNames x5
  have h5 : Keeps s0 x5 := by
    unfold x5
    with_reducible refine keeps_mk_of (keeps_parts ?_)
    with_reducible assumption
  clear_value x5
  with_reducible refine ite_keeps ?_ ?_
  · with_reducible apply State.wr_keeps
    with_reducible assumption
  · with_reducible refine ite_keeps ?_ ?_
    · with_reducible apply State.raise_keeps
      with_reducible apply State.wr_keeps
      with_reducible assumption
    · with_reducible assumption

theorem State.loopRegulate_keeps {s0 : State} (s : State) (i code : Nat) (hk : Keeps s0 s) :
    Keeps s0 (State.loopRegulate s i code) := by
  unfold State.loopRegulate
  extract_lets +onlyGivenNames x1
  clear_value x1
  split
  · extract_lets +onlyGivenNames x2
    clear_value x2
    split
    · extract_lets +onlyGivenNames x3
      clear_value x3
      extract_lets +onlyGivenNames x4
      have h4 : Keeps s0 x4 := by
        unfold x4
        with_reducible refine keeps_mk_of (keeps_parts ?_)
        with_reducible apply keeps_pair; with_reducible assumption
        with_reducible apply State.loopSetCode_keeps
        with_reducible assumption
      clear_value x4
      with_reducible apply State.loopLimit_keeps
      with_reducible apply State.loopDuty_keeps
      with_reducible assumption

theorem State.loopSample_keeps {s0 : State} (s : State) (i code : Nat) (hk : Keeps s0 s) :
    Keeps s0 (State.loopSample s i code) := by
  unfold State.loopSample
  extract_lets +onlyGivenNames x1
  clear_value x1
  extract_lets +onlyGivenNames x2
  clear_value x2
  extract_lets +onlyGivenNames x3
  clear_value x3
  extract_lets +onlyGivenNames x4
  clear_value x4
  extract_lets +onlyGivenNames x5
  clear_value x5
  extract_lets +onlyGivenNames x6
  have h6 : Keeps s0 x6 := by
    unfold x6
    with_reducible refine keeps_mk_of (keeps_parts ?_)
    with_reducible assumption
  clear_value x6
  extract_lets +onlyGivenNames x7
  have h7 : Keeps s0 x7 := by
    unfold x7
    with_reducible apply State.loopMeas_keeps
    with_reducible assumption
  clear_value x7
  split
  · split
    · extract_lets +onlyGivenNames x8
      clear_value x8
      extract_lets +onlyGivenNames x9
      clear_value x9
      extract_lets +onlyGivenNames x10
      have h10 : Keeps s0 x10 := by
        unfold x10
        with_reducible refine keeps_mk_of (keeps_parts ?_)
        with_reducible assumption
      clear_value x10
      with_reducible apply State.loopRegulate_keeps
      with_reducible apply State.wr_keeps
      with_reducible assumption
    · with_reducible apply State.loopDuty_keeps
      with_reducible assumption
  · split
    · with_reducible apply State.loopDuty_keeps
      with_reducible apply State.raise_keeps
      with_reducible apply State.wr_keeps
      with_reducible assumption
    · with_reducible apply State.loopRegulate_keeps
      with_reducible assumption

theorem execLoopSample_keeps {s0 : State} (i : Fin 2) (code : BitVec 12) (s : State) (hk : Keeps s0 s) :
    OKeeps s0 (execLoopSample i code s) := by
  unfold execLoopSample
  with_reducible refine next_okeeps ?_
  with_reducible refine ite_keeps ?_ ?_
  · with_reducible apply State.loopSample_keeps
    with_reducible apply State.wr_keeps
    with_reducible apply State.wr_keeps
    with_reducible assumption
  · with_reducible assumption

end Sys2Proof.Machine
end

