-- ==== Sys2Proof/Laws/KeepsMirror.lean ====
section
/-! SUPPORT. The operations of Mirror.lean keep the queue and the canonical forms. -/
namespace Sys2Proof.Machine

theorem State.mirApply_keeps {s0 : State} (s : State) (hk : Keeps s0 s) :
    Keeps s0 (State.mirApply s) := by
  unfold State.mirApply
  dsimp only
  with_reducible refine ite_keeps ?_ ?_
  · with_reducible assumption
  · with_reducible refine ite_keeps ?_ ?_
    · with_reducible refine foldl_keeps ?_ ?_
      · intro t0_0 t0_1 h0
        with_reducible apply State.setReg_keeps
        with_reducible assumption
      · with_reducible refine keeps_mk_of (keeps_parts ?_)
        with_reducible apply State.wr_keeps
        with_reducible assumption
    · with_reducible apply State.setW1c_keeps
      with_reducible apply State.wr_keeps
      with_reducible assumption

theorem State.mirCountFrame_keeps {s0 : State} (s : State) (hk : Keeps s0 s) :
    Keeps s0 (State.mirCountFrame s) := by
  unfold State.mirCountFrame
  with_reducible apply State.bumpWrap_keeps
  with_reducible assumption

theorem State.mirDrive_keeps {s0 : State} (s : State) (hk : Keeps s0 s) :
    Keeps s0 (State.mirDrive s) := by
  unfold State.mirDrive
  with_reducible refine keeps_mk_of (keeps_parts ?_)
  with_reducible assumption

theorem State.mirBegin_keeps {s0 : State} (s : State) (hk : Keeps s0 s) :
    Keeps s0 (State.mirBegin s) := by
  unfold State.mirBegin
  extract_lets +onlyGivenNames x1
  have h1 : Keeps s0 x1 := by
    unfold x1
    with_reducible apply State.wr_keeps
    with_reducible apply State.wr_keeps
    with_reducible apply State.mirCountFrame_keeps
    with_reducible apply State.mirApply_keeps
    with_reducible assumption
  clear_value x1
  with_reducible refine keeps_mk_of (keeps_parts ?_)
  with_reducible assumption

theorem State.mirWrite_keeps {s0 : State} (s : State) (hk : Keeps s0 s) :
    Keeps s0 (State.mirWrite s) := by
  unfold State.mirWrite
  dsimp only
  with_reducible apply State.mirDrive_keeps
  with_reducible refine keeps_mk_of (keeps_parts ?_)
  with_reducible apply State.wr_keeps
  with_reducible apply State.mirBegin_keeps
  with_reducible assumption

theorem State.mirNoteSource_keeps {s0 : State} (s : State) (hk : Keeps s0 s) :
    Keeps s0 (State.mirNoteSource s) := by
  unfold State.mirNoteSource
  with_reducible refine keeps_mk_of (keeps_parts ?_)
  with_reducible assumption

theorem State.mirRequest_keeps {s0 : State} (s : State) (hk : Keeps s0 s) :
    Keeps s0 (State.mirRequest s) := by
  unfold State.mirRequest
  with_reducible refine ite_keeps ?_ ?_
  · with_reducible assumption
  · dsimp only
    with_reducible refine ite_keeps ?_ ?_
    · with_reducible refine keeps_mk_of (keeps_parts ?_)
      with_reducible apply State.bump_keeps
      with_reducible apply State.mirNoteSource_keeps
      with_reducible assumption
    · with_reducible refine ite_keeps ?_ ?_
      · with_reducible apply State.wr_keeps
        with_reducible refine keeps_mk_of (keeps_parts ?_)
        with_reducible apply State.mirNoteSource_keeps
        with_reducible assumption
      · with_reducible refine keeps_mk_of (keeps_parts ?_)
        with_reducible apply State.mirNoteSource_keeps
        with_reducible assumption

theorem State.mirRetimeBegins_keeps {s0 : State} (s : State) (hk : Keeps s0 s) :
    Keeps s0 (State.mirRetimeBegins s) := by
  unfold State.mirRetimeBegins
  with_reducible refine ite_keeps ?_ ?_
  · dsimp only
    with_reducible refine keeps_mk_of (keeps_parts ?_)
    with_reducible apply State.wr_keeps
    with_reducible assumption
  · with_reducible assumption

theorem State.mirTear_keeps {s0 : State} (s : State) (hk : Keeps s0 s) :
    Keeps s0 (State.mirTear s) := by
  unfold State.mirTear
  with_reducible refine ite_keeps ?_ ?_
  · with_reducible apply State.setW1c_keeps
    with_reducible assumption
  · with_reducible assumption

theorem State.mirLineStep_keeps {s0 : State} (s : State) (hk : Keeps s0 s) :
    Keeps s0 (State.mirLineStep s) := by
  unfold State.mirLineStep
  dsimp only
  split
  · with_reducible apply State.wr_keeps
    with_reducible refine keeps_mk_of (keeps_parts ?_)
    with_reducible apply State.mirRetimeBegins_keeps
    with_reducible assumption
  · with_reducible refine ite_keeps ?_ ?_
    · with_reducible refine keeps_mk_of (keeps_parts ?_)
      with_reducible apply State.wr_keeps
      with_reducible apply State.wr_keeps
      with_reducible refine keeps_mk_of (keeps_parts ?_)
      with_reducible apply State.mirRetimeBegins_keeps
      with_reducible assumption
    · with_reducible refine ite_keeps ?_ ?_
      · with_reducible refine keeps_mk_of (keeps_parts ?_)
        with_reducible apply State.mirTear_keeps
        with_reducible apply State.wr_keeps
        with_reducible apply State.wr_keeps
        with_reducible refine keeps_mk_of (keeps_parts ?_)
        with_reducible apply State.mirRetimeBegins_keeps
        with_reducible assumption
      · with_reducible refine keeps_mk_of (keeps_parts ?_)
        with_reducible apply State.wr_keeps
        with_reducible apply State.wr_keeps
        with_reducible refine keeps_mk_of (keeps_parts ?_)
        with_reducible apply State.mirRetimeBegins_keeps
        with_reducible assumption

theorem State.mirWriteEnds_keeps {s0 : State} (s : State) (hk : Keeps s0 s) :
    Keeps s0 (State.mirWriteEnds s) := by
  unfold State.mirWriteEnds
  dsimp only
  with_reducible refine keeps_mk_of (keeps_parts ?_)
  with_reducible apply State.wr_keeps
  with_reducible assumption

theorem State.mirCommandStep_keeps {s0 : State} (s : State) (hk : Keeps s0 s) :
    Keeps s0 (State.mirCommandStep s) := by
  unfold State.mirCommandStep
  with_reducible refine ite_keeps ?_ ?_
  · with_reducible assumption
  · with_reducible refine ite_keeps ?_ ?_
    · with_reducible apply State.mirWriteEnds_keeps
      with_reducible apply State.mirRetimeBegins_keeps
      with_reducible assumption
    · with_reducible refine ite_keeps ?_ ?_
      · with_reducible assumption
      · dsimp only
        with_reducible refine keeps_mk_of (keeps_parts ?_)
        with_reducible apply State.wr_keeps
        with_reducible apply State.mirTear_keeps
        with_reducible assumption

theorem execMirrorLine_keeps {s0 : State} (at_ : Vt) (s : State) (hk : Keeps s0 s) :
    OKeeps s0 (execMirrorLine at_ s) := by
  unfold execMirrorLine
  with_reducible refine next_okeeps ?_
  dsimp only
  with_reducible refine ite_keeps ?_ ?_
  · with_reducible apply State.mirDrive_keeps
    with_reducible refine ite_keeps ?_ ?_
    · with_reducible refine ite_keeps ?_ ?_
      · with_reducible apply State.mirCommandStep_keeps
        with_reducible apply State.elapseTo_keeps
        with_reducible assumption
      · with_reducible apply State.mirLineStep_keeps
        with_reducible apply State.elapseTo_keeps
        with_reducible assumption
    · with_reducible refine keeps_mk_of (keeps_parts ?_)
      with_reducible refine ite_keeps ?_ ?_
      · with_reducible apply State.mirCommandStep_keeps
        with_reducible apply State.elapseTo_keeps
        with_reducible assumption
      · with_reducible apply State.mirLineStep_keeps
        with_reducible apply State.elapseTo_keeps
        with_reducible assumption
  · with_reducible apply State.elapseTo_keeps
    with_reducible assumption

theorem State.mirVideoStart_keeps {s0 : State} (s : State) (hk : Keeps s0 s) :
    Keeps s0 (State.mirVideoStart s) := by
  unfold State.mirVideoStart
  dsimp only
  with_reducible apply State.mirDrive_keeps
  with_reducible refine keeps_mk_of (keeps_parts ?_)
  with_reducible apply State.wr_keeps
  with_reducible apply State.mirBegin_keeps
  with_reducible assumption

theorem execMirrorFrameStart_keeps {s0 : State} (at_ : Vt) (s : State) (hk : Keeps s0 s) :
    OKeeps s0 (execMirrorFrameStart at_ s) := by
  unfold execMirrorFrameStart
  with_reducible refine next_okeeps ?_
  dsimp only
  with_reducible refine ite_keeps ?_ ?_
  · with_reducible apply State.elapseTo_keeps
    with_reducible assumption
  · with_reducible refine ite_keeps ?_ ?_
    · with_reducible refine ite_keeps ?_ ?_
      · with_reducible apply State.elapseTo_keeps
        with_reducible assumption
      · with_reducible apply State.mirWrite_keeps
        with_reducible apply State.elapseTo_keeps
        with_reducible assumption
    · split
      · with_reducible refine ite_keeps ?_ ?_
        · with_reducible apply State.mirVideoStart_keeps
          with_reducible apply State.elapseTo_keeps
          with_reducible assumption
        · with_reducible apply State.elapseTo_keeps
          with_reducible assumption
      · with_reducible apply State.elapseTo_keeps
        with_reducible assumption

theorem execMirrorSelfStart_keeps {s0 : State} (at_ : Vt) (s : State) (hk : Keeps s0 s) :
    OKeeps s0 (execMirrorSelfStart at_ s) := by
  unfold execMirrorSelfStart
  with_reducible refine next_okeeps ?_
  dsimp only
  with_reducible refine ite_keeps ?_ ?_
  · with_reducible apply State.elapseTo_keeps
    with_reducible assumption
  · split
    · with_reducible refine ite_keeps ?_ ?_
      · with_reducible apply State.bump_keeps
        with_reducible apply State.mirVideoStart_keeps
        with_reducible apply State.elapseTo_keeps
        with_reducible assumption
      · with_reducible apply State.elapseTo_keeps
        with_reducible assumption
    · with_reducible apply State.elapseTo_keeps
      with_reducible assumption

theorem execMirTe_keeps {s0 : State} (at_ : Vt) (s : State) (hk : Keeps s0 s) :
    OKeeps s0 (execMirTe at_ s) := by
  unfold execMirTe
  with_reducible refine next_okeeps ?_
  dsimp only
  with_reducible refine ite_keeps ?_ ?_
  · with_reducible apply State.elapseTo_keeps
    with_reducible assumption
  · with_reducible refine ite_keeps ?_ ?_
    · with_reducible apply State.mirWrite_keeps
      with_reducible refine keeps_mk_of (keeps_parts ?_)
      with_reducible apply State.wr_keeps
      with_reducible apply State.elapseTo_keeps
      with_reducible assumption
    · with_reducible refine keeps_mk_of (keeps_parts ?_)
      with_reducible apply State.wr_keeps
      with_reducible apply State.elapseTo_keeps
      with_reducible assumption

theorem execMirTeMissing_keeps {s0 : State} (s : State) (hk : Keeps s0 s) :
    OKeeps s0 (execMirTeMissing s) := by
  unfold execMirTeMissing
  with_reducible refine next_okeeps ?_
  with_reducible refine ite_keeps ?_ ?_
  · with_reducible apply State.raise_keeps
    with_reducible apply State.wr_keeps
    with_reducible assumption
  · with_reducible assumption

theorem execMirCommandWriteDone_keeps {s0 : State} (at_ : Vt) (s : State) (hk : Keeps s0 s) :
    OKeeps s0 (execMirCommandWriteDone at_ s) := by
  unfold execMirCommandWriteDone
  with_reducible refine next_okeeps ?_
  dsimp only
  with_reducible refine ite_keeps ?_ ?_
  · with_reducible apply State.mirDrive_keeps
    with_reducible apply State.mirWriteEnds_keeps
    with_reducible apply State.mirRetimeBegins_keeps
    with_reducible apply State.elapseTo_keeps
    with_reducible assumption
  · with_reducible apply State.elapseTo_keeps
    with_reducible assumption

theorem State.mirStart_keeps {s0 : State} (s : State) (hk : Keeps s0 s) :
    Keeps s0 (State.mirStart s) := by
  unfold State.mirStart
  with_reducible apply State.mirDrive_keeps
  dsimp only
  with_reducible refine keeps_mk_of (keeps_parts ?_)
  with_reducible apply State.wr_keeps
  with_reducible assumption

theorem State.mirIdle_keeps {s0 : State} (s : State) (hk : Keeps s0 s) :
    Keeps s0 (State.mirIdle s) := by
  unfold State.mirIdle
  dsimp only
  with_reducible apply State.mirDrive_keeps
  with_reducible apply State.mirApply_keeps
  with_reducible apply State.wr_keeps
  with_reducible refine keeps_mk_of (keeps_parts ?_)
  with_reducible apply State.wr_keeps
  with_reducible apply State.wr_keeps
  with_reducible assumption

theorem State.mirFollow_keeps {s0 : State} (s : State) (was : Bool) (hk : Keeps s0 s) :
    Keeps s0 (State.mirFollow s was) := by
  unfold State.mirFollow
  with_reducible refine ite_keeps ?_ ?_
  · with_reducible assumption
  · with_reducible refine ite_keeps ?_ ?_
    · with_reducible apply State.mirIdle_keeps
      with_reducible assumption
    · with_reducible apply State.mirStart_keeps
      with_reducible assumption

theorem State.mirRetime_keeps {s0 : State} (s : State) (clock : Bool) (hk : Keeps s0 s) :
    Keeps s0 (State.mirRetime s clock) := by
  unfold State.mirRetime
  with_reducible refine ite_keeps ?_ ?_
  · with_reducible assumption
  · dsimp only
    with_reducible apply State.mirDrive_keeps
    with_reducible refine ite_keeps ?_ ?_
    · with_reducible apply State.mirRetimeBegins_keeps
      with_reducible refine keeps_mk_of (keeps_parts ?_)
      with_reducible assumption
    · with_reducible refine keeps_mk_of (keeps_parts ?_)
      with_reducible assumption

theorem State.mirModeChanged_keeps {s0 : State} (s : State) (hk : Keeps s0 s) :
    Keeps s0 (State.mirModeChanged s) := by
  unfold State.mirModeChanged
  dsimp only
  with_reducible refine keeps_mk_of (keeps_parts ?_)
  with_reducible apply State.wr_keeps
  with_reducible apply State.wr_keeps
  with_reducible assumption

theorem State.mirCtrlWrite_keeps {s0 : State} (s : State) (w : Word) (hk : Keeps s0 s) :
    Keeps s0 (State.mirCtrlWrite s w) := by
  unfold State.mirCtrlWrite
  dsimp only
  with_reducible refine ite_keeps ?_ ?_
  · with_reducible apply State.mirRetime_keeps
    with_reducible refine ite_keeps ?_ ?_
    · with_reducible apply State.mirDrive_keeps
      with_reducible apply State.mirFollow_keeps
      with_reducible apply State.setReg_keeps
      with_reducible assumption
    · with_reducible apply State.mirModeChanged_keeps
      with_reducible apply State.mirDrive_keeps
      with_reducible apply State.mirFollow_keeps
      with_reducible apply State.setReg_keeps
      with_reducible assumption
  · with_reducible apply State.mirDrive_keeps
    with_reducible apply State.mirFollow_keeps
    with_reducible apply State.setReg_keeps
    with_reducible assumption

theorem State.mirTimingWrite_keeps {s0 : State} (s : State) (r : Nat) (w : Word) (hk : Keeps s0 s) :
    Keeps s0 (State.mirTimingWrite s r w) := by
  unfold State.mirTimingWrite
  split
  · with_reducible apply State.mirRetime_keeps
    with_reducible apply State.setReg_keeps
    with_reducible assumption

theorem execMirClockLock_keeps {s0 : State} (at_ : Vt) (s : State) (hk : Keeps s0 s) :
    OKeeps s0 (execMirClockLock at_ s) := by
  unfold execMirClockLock
  with_reducible refine next_okeeps ?_
  dsimp only
  with_reducible apply State.mirDrive_keeps
  with_reducible refine keeps_mk_of (keeps_parts ?_)
  with_reducible apply State.elapseTo_keeps
  with_reducible assumption

end Sys2Proof.Machine
end

