-- ==== Sys2Proof/Laws/KeepsScan.lean ====
section
/-! SUPPORT. The operations of Scan.lean keep the queue and the canonical forms. -/
namespace Sys2Proof.Machine

theorem State.uncapture_keeps {s0 : State} (s : State) (hk : Keeps s0 s) :
    Keeps s0 (State.uncapture s) := by
  unfold State.uncapture
  dsimp only
  with_reducible refine keeps_mk_of (keeps_parts ?_)
  with_reducible apply State.wr_keeps
  with_reducible assumption

theorem State.scanIdle_keeps {s0 : State} (s : State) (hk : Keeps s0 s) :
    Keeps s0 (State.scanIdle s) := by
  unfold State.scanIdle
  dsimp only
  with_reducible apply State.wr_keeps
  with_reducible apply State.wr_keeps
  with_reducible apply State.wr_keeps
  with_reducible refine ite_keeps ?_ ?_
  · with_reducible refine keeps_mk_of (keeps_parts ?_)
    with_reducible apply State.uncapture_keeps
    with_reducible assumption
  · with_reducible apply State.wr_keeps
    with_reducible refine keeps_mk_of (keeps_parts ?_)
    with_reducible apply State.uncapture_keeps
    with_reducible assumption

theorem State.frameRepeat_keeps {s0 : State} (s : State) (hk : Keeps s0 s) :
    Keeps s0 (State.frameRepeat s) := by
  unfold State.frameRepeat
  with_reducible apply State.raise_keeps
  with_reducible assumption

theorem State.slotSamples_keeps {s0 : State} (s : State) (k l : Nat) (vcol : List (Nat × Nat)) (pulses : List Pulse) (hk : Keeps s0 s) :
    Keeps s0 (State.slotSamples s k l vcol pulses) := by
  unfold State.slotSamples
  extract_lets +onlyGivenNames x1
  clear_value x1
  extract_lets +onlyGivenNames x2
  clear_value x2
  extract_lets +onlyGivenNames x3
  clear_value x3
  with_reducible refine keeps_mk_of (keeps_parts ?_)
  with_reducible assumption

theorem State.lineTicks_keeps {s0 : State} (s : State) (hk : Keeps s0 s) :
    Keeps s0 (State.lineTicks s) := by
  unfold State.lineTicks
  with_reducible refine ite_keeps ?_ ?_
  · with_reducible refine foldl_keeps ?_ ?_
    · intro t1_0 t1_1 h1
      with_reducible apply State.pawnLine_keeps
      with_reducible assumption
    · with_reducible assumption
  · with_reducible assumption

theorem State.frameTicks_keeps {s0 : State} (s : State) (hk : Keeps s0 s) :
    Keeps s0 (State.frameTicks s) := by
  unfold State.frameTicks
  with_reducible refine ite_keeps ?_ ?_
  · with_reducible refine foldl_keeps ?_ ?_
    · intro t1_0 t1_1 h1
      with_reducible apply State.pawnFrame_keeps
      with_reducible assumption
    · with_reducible assumption
  · with_reducible assumption

theorem State.setPhases_keeps {s0 : State} (s : State) (ph : List (Nat × LinePins)) (hk : Keeps s0 s) :
    Keeps s0 (State.setPhases s ph) := by
  unfold State.setPhases
  with_reducible refine keeps_mk_of (keeps_parts ?_)
  with_reducible assumption

theorem State.slotPhases_keeps {s0 : State} (s : State) (p : Slot) (l : Nat) (hk : Keeps s0 s) :
    Keeps s0 (State.slotPhases s p l) := by
  unfold State.slotPhases
  dsimp only
  with_reducible apply State.lineTicks_keeps
  with_reducible apply State.setPhases_keeps
  with_reducible assumption

theorem State.closeSubframe_keeps {s0 : State} (s : State) (p : Slot) (hk : Keeps s0 s) :
    Keeps s0 (State.closeSubframe s p) := by
  unfold State.closeSubframe
  with_reducible refine ite_keeps ?_ ?_
  · with_reducible assumption
  · with_reducible refine keeps_mk_of (keeps_parts ?_)
    with_reducible assumption

theorem State.slotStall_keeps {s0 : State} (s : State) (p : Slot) (hk : Keeps s0 s) :
    Keeps s0 (State.slotStall s p) := by
  unfold State.slotStall
  with_reducible apply State.bump_keeps
  with_reducible apply State.raise_keeps
  with_reducible assumption

theorem State.runSlot_keeps {s0 : State} (s : State) (p : Slot) (fetched : Bool) (vcol : List (Nat × Nat)) (hk : Keeps s0 s) :
    Keeps s0 (State.runSlot s p fetched vcol) := by
  unfold State.runSlot
  with_reducible refine ite_keeps ?_ ?_
  · dsimp only
    with_reducible refine keeps_mk_of (keeps_parts ?_)
    with_reducible apply State.setPhases_keeps
    with_reducible assumption
  · dsimp only
    with_reducible apply State.slotPhases_keeps
    with_reducible apply State.slotSamples_keeps
    with_reducible refine keeps_mk_of (keeps_parts ?_)
    with_reducible refine ite_keeps ?_ ?_
    · with_reducible refine ite_keeps ?_ ?_
      · with_reducible refine keeps_mk_of (keeps_parts ?_)
        with_reducible assumption
      · with_reducible assumption
    · with_reducible apply State.slotStall_keeps
      with_reducible refine ite_keeps ?_ ?_
      · with_reducible refine keeps_mk_of (keeps_parts ?_)
        with_reducible assumption
      · with_reducible assumption

theorem execLineSlot_keeps {s0 : State} (fetched : Bool) (vcol : List (Nat × Nat)) (s : State) (hk : Keeps s0 s) :
    OKeeps s0 (execLineSlot fetched vcol s) := by
  unfold execLineSlot
  with_reducible refine next_okeeps ?_
  dsimp only
  with_reducible refine ite_keeps ?_ ?_
  · with_reducible assumption
  · with_reducible apply State.censusFlush_keeps
    with_reducible apply State.wr_keeps
    with_reducible apply State.wr_keeps
    with_reducible apply State.closeSubframe_keeps
    with_reducible apply State.runSlot_keeps
    with_reducible assumption

theorem State.flipPlanes_keeps {s0 : State} (s : State) (c : Comp) (hk : Keeps s0 s) :
    Keeps s0 (State.flipPlanes s c) := by
  unfold State.flipPlanes
  extract_lets +onlyGivenNames x1
  have h1 : Keeps s0 x1 := by
    unfold x1
    split
    · with_reducible apply State.setBoard_keeps
      with_reducible assumption
    · with_reducible assumption
  clear_value x1
  extract_lets +onlyGivenNames x2
  have h2 : Keeps s0 x2 := by
    unfold x2
    with_reducible refine ite_keeps ?_ ?_
    · split
      · extract_lets +onlyGivenNames x3
        clear_value x3
        extract_lets +onlyGivenNames x4
        have h4 : Keeps s0 x4 := by
          unfold x4
          with_reducible apply State.setBoard_keeps
          with_reducible assumption
        clear_value x4
        with_reducible refine keeps_mk_of (keeps_parts ?_)
        with_reducible assumption
      · with_reducible assumption
    · with_reducible assumption
  clear_value x2
  extract_lets +onlyGivenNames x5
  have h5 : Keeps s0 x5 := by
    unfold x5
    with_reducible apply State.wr_keeps
    with_reducible assumption
  clear_value x5
  extract_lets +onlyGivenNames x6
  clear_value x6
  extract_lets +onlyGivenNames x7
  have h7 : Keeps s0 x7 := by
    unfold x7
    with_reducible refine keeps_mk_of (keeps_parts ?_)
    with_reducible assumption
  clear_value x7
  with_reducible refine ite_keeps ?_ ?_
  · with_reducible refine keeps_mk_of (keeps_parts ?_)
    with_reducible assumption
  · with_reducible assumption

theorem State.followFallback_keeps {s0 : State} (s : State) (c : Comp) (hk : Keeps s0 s) :
    Keeps s0 (State.followFallback s c) := by
  unfold State.followFallback
  with_reducible refine ite_keeps ?_ ?_
  · with_reducible apply State.fbStart_keeps
    with_reducible assumption
  · with_reducible refine ite_keeps ?_ ?_
    · with_reducible apply State.fbEnd_keeps
      with_reducible assumption
    · with_reducible assumption

theorem State.darkFrame_keeps {s0 : State} (s : State) (hk : Keeps s0 s) :
    Keeps s0 (State.darkFrame s) := by
  unfold State.darkFrame
  extract_lets +onlyGivenNames x1
  have h1 : Keeps s0 x1 := by
    unfold x1
    with_reducible apply State.wr_keeps
    with_reducible apply State.bump_keeps
    with_reducible assumption
  clear_value x1
  with_reducible refine keeps_mk_of (keeps_parts ?_)
  with_reducible assumption

theorem State.litFrame_keeps {s0 : State} (s : State) (hk : Keeps s0 s) :
    Keeps s0 (State.litFrame s) := by
  unfold State.litFrame
  extract_lets +onlyGivenNames x1
  have h1 : Keeps s0 x1 := by
    unfold x1
    with_reducible apply State.wr_keeps
    with_reducible assumption
  clear_value x1
  with_reducible refine keeps_mk_of (keeps_parts ?_)
  with_reducible assumption

theorem State.repeatFrame_keeps {s0 : State} (s : State) (event : Bool) (hk : Keeps s0 s) :
    Keeps s0 (State.repeatFrame s event) := by
  unfold State.repeatFrame
  extract_lets +onlyGivenNames x1
  clear_value x1
  extract_lets +onlyGivenNames x2
  have h2 : Keeps s0 x2 := by
    unfold x2
    with_reducible refine ite_keeps ?_ ?_
    · with_reducible apply State.frameRepeat_keeps
      with_reducible assumption
    · with_reducible assumption
  clear_value x2
  with_reducible refine ite_keeps ?_ ?_
  · with_reducible apply State.litFrame_keeps
    with_reducible assumption
  · with_reducible apply State.darkFrame_keeps
    with_reducible assumption

theorem State.releaseFlip_keeps {s0 : State} (s : State) (f : Word) (hk : Keeps s0 s) :
    Keeps s0 (State.releaseFlip s f) := by
  unfold State.releaseFlip
  split
  · dsimp only
    with_reducible refine ite_keeps ?_ ?_
    · with_reducible apply State.setBoard_keeps
      with_reducible apply State.fixTarget_keeps
      with_reducible assumption
    · with_reducible assumption
  · with_reducible assumption

theorem State.spendFlips_keeps {s0 : State} (s : State) (gone : Word → Bool) (hk : Keeps s0 s) :
    Keeps s0 (State.spendFlips s gone) := by
  unfold State.spendFlips
  dsimp only
  with_reducible refine keeps_mk_of (keeps_parts ?_)
  with_reducible refine foldl_keeps ?_ ?_
  · intro t0_0 t0_1 h0
    with_reducible apply State.releaseFlip_keeps
    with_reducible assumption
  · with_reducible assumption

theorem State.endFlips_keeps {s0 : State} (s : State) (hk : Keeps s0 s) :
    Keeps s0 (State.endFlips s) := by
  unfold State.endFlips
  with_reducible apply State.spendFlips_keeps
  with_reducible assumption

theorem State.braceFlips_keeps {s0 : State} (s : State) (hk : Keeps s0 s) :
    Keeps s0 (State.braceFlips s) := by
  unfold State.braceFlips
  dsimp only
  with_reducible refine ite_keeps ?_ ?_
  · with_reducible apply State.spendFlips_keeps
    with_reducible apply State.frameRepeat_keeps
    with_reducible refine keeps_mk_of (keeps_parts ?_)
    with_reducible assumption
  · with_reducible refine keeps_mk_of (keeps_parts ?_)
    with_reducible assumption

theorem State.showFrame_keeps {s0 : State} (s : State) (maxRepeat : Bool) (hk : Keeps s0 s) :
    Keeps s0 (State.showFrame s maxRepeat) := by
  unfold State.showFrame
  with_reducible refine ite_keeps ?_ ?_
  · with_reducible apply State.darkFrame_keeps
    with_reducible assumption
  · with_reducible refine ite_keeps ?_ ?_
    · dsimp only
      with_reducible refine ite_keeps ?_ ?_
      · with_reducible apply State.darkFrame_keeps
        with_reducible apply State.braceFlips_keeps
        with_reducible assumption
      · with_reducible apply State.repeatFrame_keeps
        with_reducible apply State.bump_keeps
        with_reducible apply State.braceFlips_keeps
        with_reducible assumption
    · dsimp only
      split
      · with_reducible apply State.litFrame_keeps
        with_reducible apply State.followFallback_keeps
        with_reducible apply State.flipPlanes_keeps
        with_reducible apply State.endFlips_keeps
        with_reducible refine ite_keeps ?_ ?_
        · with_reducible apply State.frameRepeat_keeps
          with_reducible assumption
        · with_reducible assumption
      · with_reducible refine ite_keeps ?_ ?_
        · with_reducible apply State.darkFrame_keeps
          with_reducible assumption
        · with_reducible apply State.endFlips_keeps
          with_reducible apply State.repeatFrame_keeps
          with_reducible assumption

theorem State.preFrame_keeps {s0 : State} (s : State) (hk : Keeps s0 s) :
    Keeps s0 (State.preFrame s) := by
  unfold State.preFrame
  extract_lets +onlyGivenNames x1
  have h1 : Keeps s0 x1 := by
    unfold x1
    with_reducible apply State.frameTicks_keeps
    with_reducible assumption
  clear_value x1
  extract_lets +onlyGivenNames x2
  clear_value x2
  extract_lets +onlyGivenNames x3
  clear_value x3
  with_reducible apply State.lineTicks_keeps
  with_reducible apply State.setPhases_keeps
  with_reducible assumption

theorem State.startFrame_keeps {s0 : State} (s : State) (maxRepeat : Bool) (hk : Keeps s0 s) :
    Keeps s0 (State.startFrame s maxRepeat) := by
  unfold State.startFrame
  dsimp only
  with_reducible apply State.mirRequest_keeps
  with_reducible apply State.preFrame_keeps
  with_reducible apply State.censusFrameStart_keeps
  with_reducible apply State.wr_keeps
  with_reducible apply State.wr_keeps
  with_reducible apply State.wr_keeps
  with_reducible apply State.wr_keeps
  with_reducible refine keeps_mk_of (keeps_parts ?_)
  with_reducible apply State.showFrame_keeps
  with_reducible refine ite_keeps ?_ ?_
  · with_reducible apply State.loopsStart_keeps
    with_reducible refine keeps_mk_of (keeps_parts ?_)
    with_reducible assumption
  · with_reducible refine keeps_mk_of (keeps_parts ?_)
    with_reducible assumption

theorem execFrameStart_keeps {s0 : State} (at_ : Vt) (s : State) (hk : Keeps s0 s) :
    OKeeps s0 (execFrameStart at_ s) := by
  unfold execFrameStart
  with_reducible refine next_okeeps ?_
  extract_lets +onlyGivenNames x1
  have h1 : Keeps s0 x1 := by
    unfold x1
    with_reducible apply State.elapseTo_keeps
    with_reducible assumption
  clear_value x1
  with_reducible refine ite_keeps ?_ ?_
  · with_reducible apply State.startFrame_keeps
    with_reducible assumption
  · with_reducible assumption

theorem execFrameMaxRepeat_keeps {s0 : State} (at_ : Vt) (s : State) (hk : Keeps s0 s) :
    OKeeps s0 (execFrameMaxRepeat at_ s) := by
  unfold execFrameMaxRepeat
  with_reducible refine next_okeeps ?_
  extract_lets +onlyGivenNames x1
  have h1 : Keeps s0 x1 := by
    unfold x1
    with_reducible apply State.elapseTo_keeps
    with_reducible assumption
  clear_value x1
  with_reducible refine ite_keeps ?_ ?_
  · with_reducible apply State.startFrame_keeps
    with_reducible assumption
  · with_reducible assumption

end Sys2Proof.Machine
end

