-- ==== Sys2Proof/Laws/KeepsCastle.lean ====
section
/-! SUPPORT. The operations of Castle.lean keep the queue and the canonical forms. -/
namespace Sys2Proof.Machine

theorem State.keepWord_keeps {s0 : State} (s : State) (a : Nat) (hk : Keeps s0 s) :
    Keeps s0 (State.keepWord s a) := by
  unfold State.keepWord
  with_reducible refine keeps_mk_of (keeps_parts ?_)
  with_reducible assumption

theorem State.keepField_keeps {s0 : State} (s : State) (f : Fld) (hk : Keeps s0 s) :
    Keeps s0 (State.keepField s f) := by
  unfold State.keepField
  extract_lets +onlyGivenNames x1
  clear_value x1
  with_reducible refine keeps_mk_of (keeps_parts ?_)
  with_reducible assumption

theorem State.refuseGroup_keeps {s0 : State} (s : State) (g : CastleGroup) (hk : Keeps s0 s) :
    Keeps s0 (State.refuseGroup s g) := by
  unfold State.refuseGroup
  with_reducible refine keeps_mk_of (keeps_parts ?_)
  with_reducible assumption

theorem State.checkLines_keeps {s0 : State} (s : State) (hk : Keeps s0 s) :
    Keeps s0 (State.checkLines s) := by
  unfold State.checkLines
  dsimp only
  with_reducible refine ite_keeps ?_ ?_
  · with_reducible apply State.setW1c_keeps
    with_reducible apply State.keepWord_keeps
    with_reducible assumption
  · with_reducible assumption

theorem State.refusePhases_keeps {s0 : State} (s : State) (hk : Keeps s0 s) :
    Keeps s0 (State.refusePhases s) := by
  unfold State.refusePhases
  with_reducible apply State.setW1c_keeps
  with_reducible apply State.keepWord_keeps
  with_reducible apply State.keepWord_keeps
  with_reducible assumption

theorem State.checkGeom_keeps {s0 : State} (s : State) (hk : Keeps s0 s) :
    Keeps s0 (State.checkGeom s) := by
  unfold State.checkGeom
  with_reducible refine ite_keeps ?_ ?_
  · with_reducible apply State.checkLines_keeps
    with_reducible assumption
  · with_reducible apply State.refusePhases_keeps
    with_reducible apply State.checkLines_keeps
    with_reducible assumption

theorem State.checkOrder_keeps {s0 : State} (s : State) (hk : Keeps s0 s) :
    Keeps s0 (State.checkOrder s) := by
  unfold State.checkOrder
  with_reducible refine ite_keeps ?_ ?_
  · with_reducible apply State.setW1c_keeps
    with_reducible refine foldl_keeps ?_ ?_
    · intro t0_0 t0_1 h0
      with_reducible apply State.keepWord_keeps
      with_reducible assumption
    · with_reducible apply State.keepField_keeps
      with_reducible assumption
  · with_reducible assumption

theorem State.checkModes_keeps {s0 : State} (s : State) (hk : Keeps s0 s) :
    Keeps s0 (State.checkModes s) := by
  unfold State.checkModes
  extract_lets +onlyGivenNames x1
  have h1 : Keeps s0 x1 := by
    unfold x1
    with_reducible refine ite_keeps ?_ ?_
    · with_reducible apply State.keepField_keeps
      with_reducible assumption
    · with_reducible assumption
  clear_value x1
  with_reducible refine ite_keeps ?_ ?_
  · with_reducible apply State.keepField_keeps
    with_reducible assumption
  · with_reducible assumption

theorem State.checkShift_keeps {s0 : State} (s : State) (hk : Keeps s0 s) :
    Keeps s0 (State.checkShift s) := by
  unfold State.checkShift
  with_reducible refine ite_keeps ?_ ?_
  · with_reducible apply State.setW1c_keeps
    with_reducible apply State.keepField_keeps
    with_reducible apply State.keepWord_keeps
    with_reducible assumption
  · with_reducible assumption

theorem State.checkScan_keeps {s0 : State} (s : State) (hk : Keeps s0 s) :
    Keeps s0 (State.checkScan s) := by
  unfold State.checkScan
  with_reducible refine ite_keeps ?_ ?_
  · with_reducible apply State.checkOrder_keeps
    with_reducible apply State.checkShift_keeps
    with_reducible apply State.checkModes_keeps
    with_reducible apply State.checkGeom_keeps
    with_reducible assumption
  · with_reducible assumption

theorem State.checkGrey_keeps {s0 : State} (s : State) (hk : Keeps s0 s) :
    Keeps s0 (State.checkGrey s) := by
  unfold State.checkGrey
  with_reducible refine ite_keeps ?_ ?_
  · with_reducible apply State.setW1c_keeps
    with_reducible apply State.keepWord_keeps
    with_reducible assumption
  · with_reducible assumption

theorem State.checkPipe_keeps {s0 : State} (s : State) (hk : Keeps s0 s) :
    Keeps s0 (State.checkPipe s) := by
  unfold State.checkPipe
  with_reducible refine ite_keeps ?_ ?_
  · with_reducible assumption
  · dsimp only
    with_reducible refine ite_keeps ?_ ?_
    · with_reducible apply State.raise_keeps
      with_reducible apply State.keepWord_keeps
      with_reducible refine ite_keeps ?_ ?_
      · with_reducible assumption
      · with_reducible apply State.setW1c_keeps
        with_reducible apply State.keepWord_keeps
        with_reducible apply State.keepWord_keeps
        with_reducible assumption
    · with_reducible refine ite_keeps ?_ ?_
      · with_reducible assumption
      · with_reducible apply State.setW1c_keeps
        with_reducible apply State.keepWord_keeps
        with_reducible apply State.keepWord_keeps
        with_reducible assumption

theorem State.checkSink_keeps {s0 : State} (s : State) (hk : Keeps s0 s) :
    Keeps s0 (State.checkSink s) := by
  unfold State.checkSink
  with_reducible refine ite_keeps ?_ ?_
  · with_reducible apply State.setW1c_keeps
    with_reducible apply State.keepWord_keeps
    with_reducible assumption
  · with_reducible assumption

theorem State.checkLoop_keeps {s0 : State} (s : State) (i : Nat) (hk : Keeps s0 s) :
    Keeps s0 (State.checkLoop s i) := by
  unfold State.checkLoop
  with_reducible refine ite_keeps ?_ ?_
  · with_reducible apply State.setW1c_keeps
    with_reducible refine foldl_keeps ?_ ?_
    · intro t0_0 t0_1 h0
      with_reducible apply State.keepWord_keeps
      with_reducible assumption
    · with_reducible assumption
  · with_reducible assumption

theorem State.checkCensus_keeps {s0 : State} (s : State) (hk : Keeps s0 s) :
    Keeps s0 (State.checkCensus s) := by
  unfold State.checkCensus
  with_reducible refine ite_keeps ?_ ?_
  · with_reducible apply State.raise_keeps
    with_reducible apply State.setW1c_keeps
    with_reducible apply State.refuseGroup_keeps
    with_reducible assumption
  · with_reducible assumption

theorem State.checkPeriod_keeps {s0 : State} (s : State) (hk : Keeps s0 s) :
    Keeps s0 (State.checkPeriod s) := by
  unfold State.checkPeriod
  extract_lets +onlyGivenNames x1
  clear_value x1
  with_reducible refine ite_keeps ?_ ?_
  · with_reducible apply State.raise_keeps
    with_reducible apply State.refuseGroup_keeps
    with_reducible assumption
  · with_reducible assumption

theorem State.checkFit_keeps {s0 : State} (s : State) (hk : Keeps s0 s) :
    Keeps s0 (State.checkFit s) := by
  unfold State.checkFit
  with_reducible refine ite_keeps ?_ ?_
  · with_reducible apply State.raise_keeps
    with_reducible apply State.setW1c_keeps
    with_reducible apply State.refuseGroup_keeps
    with_reducible apply State.refuseGroup_keeps
    with_reducible apply State.refuseGroup_keeps
    with_reducible apply State.refuseGroup_keeps
    with_reducible assumption
  · with_reducible assumption

theorem State.spwmCaptured_keeps {s0 : State} (s : State) (mask : Nat) (hk : Keeps s0 s) :
    Keeps s0 (State.spwmCaptured s mask) := by
  unfold State.spwmCaptured
  with_reducible refine ite_keeps ?_ ?_
  · with_reducible refine foldl_keeps ?_ ?_
    · intro t0_0 t0_1 h0
      with_reducible apply State.setSw_keeps
      with_reducible assumption
    · with_reducible assumption
  · with_reducible assumption

theorem State.castleSetup_keeps {s0 : State} (s : State) (hk : Keeps s0 s) :
    Keeps s0 (State.castleSetup s) := by
  unfold State.castleSetup
  dsimp only
  with_reducible apply State.checkFit_keeps
  with_reducible apply State.checkPeriod_keeps
  with_reducible apply State.checkCensus_keeps
  with_reducible apply State.checkLoop_keeps
  with_reducible apply State.checkLoop_keeps
  with_reducible apply State.checkSink_keeps
  with_reducible apply State.checkPipe_keeps
  with_reducible apply State.checkGrey_keeps
  with_reducible apply State.checkScan_keeps
  with_reducible apply State.spwmCaptured_keeps
  with_reducible refine keeps_mk_of (keeps_parts ?_)
  with_reducible apply State.wr_keeps
  with_reducible assumption

theorem State.remap_keeps {s0 : State} (t s : State) (hk : Keeps s0 t) :
    Keeps s0 (State.remap t s) := by
  unfold State.remap
  with_reducible apply State.refreshBoards_keeps
  refine foldl_keeps (fun t m h => ite_keeps (State.clearCoverage_keeps t _ _ h) h) ?_
  exact ite_keeps hk (State.mirMapLost_keeps t s hk)

theorem State.restartMotifs_keeps {s0 : State} (t s : State) (hk : Keeps s0 t) :
    Keeps s0 (State.restartMotifs t s) := by
  unfold State.restartMotifs
  with_reducible refine foldl_keeps ?_ ?_
  · intro t1_0 t1_1 h1
    with_reducible refine ite_keeps ?_ ?_
    · with_reducible apply State.motifEnabled_keeps
      with_reducible assumption
    · with_reducible assumption
  · with_reducible assumption

theorem State.spwmCastle_keeps {s0 : State} (s : State) (hk : Keeps s0 s) :
    Keeps s0 (State.spwmCastle s) := by
  unfold State.spwmCastle
  with_reducible refine ite_keeps ?_ ?_
  · with_reducible assumption
  · with_reducible refine foldl_keeps ?_ ?_
    · intro t1_0 t1_1 h1
      with_reducible refine ite_keeps ?_ ?_
      · with_reducible apply State.setSw_keeps
        with_reducible assumption
      · with_reducible assumption
    · with_reducible assumption

theorem State.gridChanged_keeps {s0 : State} (s : State) (hk : Keeps s0 s) :
    Keeps s0 (State.gridChanged s) := by
  unfold State.gridChanged
  extract_lets +onlyGivenNames x1
  have h1 : Keeps s0 x1 := by
    unfold x1
    with_reducible apply State.raise_keeps
    with_reducible assumption
  clear_value x1
  with_reducible refine keeps_mk_of (keeps_parts ?_)
  with_reducible assumption

theorem State.noteFollow_keeps {s0 : State} (s : State) (hk : Keeps s0 s) :
    Keeps s0 (State.noteFollow s) := by
  unfold State.noteFollow
  dsimp only
  with_reducible refine ite_keeps ?_ ?_
  · with_reducible refine keeps_mk_of (keeps_parts ?_)
    with_reducible assumption
  · with_reducible assumption

theorem State.freeMaps_keeps {s0 : State} (s : State) (hk : Keeps s0 s) :
    Keeps s0 (State.freeMaps s) := by
  unfold State.freeMaps
  with_reducible refine keeps_mk_of (keeps_parts ?_)
  with_reducible assumption

theorem State.copyCaptured_keeps {s0 : State} (s : State) (hk : Keeps s0 s) :
    Keeps s0 (State.copyCaptured s) := by
  unfold State.copyCaptured
  exact keeps_regs hk (SMap.copySel_wf _ _ _ _)

theorem State.clearAccs_keeps {s0 : State} (s : State) (hk : Keeps s0 s) :
    Keeps s0 (State.clearAccs s) := by
  unfold State.clearAccs
  with_reducible refine keeps_mk_of (keeps_parts ?_)
  with_reducible assumption

theorem State.castleApply_keeps {s0 : State} (s : State) (hk : Keeps s0 s) :
    Keeps s0 (State.castleApply s) := by
  unfold State.castleApply
  dsimp only
  with_reducible refine ite_keeps ?_ ?_
  · with_reducible apply State.foldOff_keeps
    with_reducible refine ite_keeps ?_ ?_
    · with_reducible apply State.freeMaps_keeps
      with_reducible refine ite_keeps ?_ ?_
      · with_reducible apply State.noteFollow_keeps
        with_reducible refine ite_keeps ?_ ?_
        · with_reducible apply State.retarget_keeps
          with_reducible refine ite_keeps ?_ ?_
          · with_reducible apply State.gridChanged_keeps
            with_reducible refine keeps_mk_of (keeps_parts ?_)
            with_reducible refine ite_keeps ?_ ?_
            · with_reducible apply State.clearAccs_keeps
              with_reducible apply State.wr_keeps
              with_reducible apply State.greyStat_keeps
              with_reducible apply State.spwmCastle_keeps
              with_reducible apply State.restartMotifs_keeps
              with_reducible apply State.remap_keeps
              with_reducible apply State.copyCaptured_keeps
              with_reducible apply State.deadlinesDue_keeps
              with_reducible assumption
            · with_reducible apply State.wr_keeps
              with_reducible apply State.greyStat_keeps
              with_reducible apply State.spwmCastle_keeps
              with_reducible apply State.restartMotifs_keeps
              with_reducible apply State.remap_keeps
              with_reducible apply State.copyCaptured_keeps
              with_reducible apply State.deadlinesDue_keeps
              with_reducible assumption
          · with_reducible refine keeps_mk_of (keeps_parts ?_)
            with_reducible refine ite_keeps ?_ ?_
            · with_reducible apply State.clearAccs_keeps
              with_reducible apply State.wr_keeps
              with_reducible apply State.greyStat_keeps
              with_reducible apply State.spwmCastle_keeps
              with_reducible apply State.restartMotifs_keeps
              with_reducible apply State.remap_keeps
              with_reducible apply State.copyCaptured_keeps
              with_reducible apply State.deadlinesDue_keeps
              with_reducible assumption
            · with_reducible apply State.wr_keeps
              with_reducible apply State.greyStat_keeps
              with_reducible apply State.spwmCastle_keeps
              with_reducible apply State.restartMotifs_keeps
              with_reducible apply State.remap_keeps
              with_reducible apply State.copyCaptured_keeps
              with_reducible apply State.deadlinesDue_keeps
              with_reducible assumption
        · with_reducible refine ite_keeps ?_ ?_
          · with_reducible apply State.gridChanged_keeps
            with_reducible refine keeps_mk_of (keeps_parts ?_)
            with_reducible refine ite_keeps ?_ ?_
            · with_reducible apply State.clearAccs_keeps
              with_reducible apply State.wr_keeps
              with_reducible apply State.greyStat_keeps
              with_reducible apply State.spwmCastle_keeps
              with_reducible apply State.restartMotifs_keeps
              with_reducible apply State.remap_keeps
              with_reducible apply State.copyCaptured_keeps
              with_reducible apply State.deadlinesDue_keeps
              with_reducible assumption
            · with_reducible apply State.wr_keeps
              with_reducible apply State.greyStat_keeps
              with_reducible apply State.spwmCastle_keeps
              with_reducible apply State.restartMotifs_keeps
              with_reducible apply State.remap_keeps
              with_reducible apply State.copyCaptured_keeps
              with_reducible apply State.deadlinesDue_keeps
              with_reducible assumption
          · with_reducible refine keeps_mk_of (keeps_parts ?_)
            with_reducible refine ite_keeps ?_ ?_
            · with_reducible apply State.clearAccs_keeps
              with_reducible apply State.wr_keeps
              with_reducible apply State.greyStat_keeps
              with_reducible apply State.spwmCastle_keeps
              with_reducible apply State.restartMotifs_keeps
              with_reducible apply State.remap_keeps
              with_reducible apply State.copyCaptured_keeps
              with_reducible apply State.deadlinesDue_keeps
              with_reducible assumption
            · with_reducible apply State.wr_keeps
              with_reducible apply State.greyStat_keeps
              with_reducible apply State.spwmCastle_keeps
              with_reducible apply State.restartMotifs_keeps
              with_reducible apply State.remap_keeps
              with_reducible apply State.copyCaptured_keeps
              with_reducible apply State.deadlinesDue_keeps
              with_reducible assumption
      · with_reducible refine ite_keeps ?_ ?_
        · with_reducible apply State.retarget_keeps
          with_reducible refine ite_keeps ?_ ?_
          · with_reducible apply State.gridChanged_keeps
            with_reducible refine keeps_mk_of (keeps_parts ?_)
            with_reducible refine ite_keeps ?_ ?_
            · with_reducible apply State.clearAccs_keeps
              with_reducible apply State.wr_keeps
              with_reducible apply State.greyStat_keeps
              with_reducible apply State.spwmCastle_keeps
              with_reducible apply State.restartMotifs_keeps
              with_reducible apply State.remap_keeps
              with_reducible apply State.copyCaptured_keeps
              with_reducible apply State.deadlinesDue_keeps
              with_reducible assumption
            · with_reducible apply State.wr_keeps
              with_reducible apply State.greyStat_keeps
              with_reducible apply State.spwmCastle_keeps
              with_reducible apply State.restartMotifs_keeps
              with_reducible apply State.remap_keeps
              with_reducible apply State.copyCaptured_keeps
              with_reducible apply State.deadlinesDue_keeps
              with_reducible assumption
          · with_reducible refine keeps_mk_of (keeps_parts ?_)
            with_reducible refine ite_keeps ?_ ?_
            · with_reducible apply State.clearAccs_keeps
              with_reducible apply State.wr_keeps
              with_reducible apply State.greyStat_keeps
              with_reducible apply State.spwmCastle_keeps
              with_reducible apply State.restartMotifs_keeps
              with_reducible apply State.remap_keeps
              with_reducible apply State.copyCaptured_keeps
              with_reducible apply State.deadlinesDue_keeps
              with_reducible assumption
            · with_reducible apply State.wr_keeps
              with_reducible apply State.greyStat_keeps
              with_reducible apply State.spwmCastle_keeps
              with_reducible apply State.restartMotifs_keeps
              with_reducible apply State.remap_keeps
              with_reducible apply State.copyCaptured_keeps
              with_reducible apply State.deadlinesDue_keeps
              with_reducible assumption
        · with_reducible refine ite_keeps ?_ ?_
          · with_reducible apply State.gridChanged_keeps
            with_reducible refine keeps_mk_of (keeps_parts ?_)
            with_reducible refine ite_keeps ?_ ?_
            · with_reducible apply State.clearAccs_keeps
              with_reducible apply State.wr_keeps
              with_reducible apply State.greyStat_keeps
              with_reducible apply State.spwmCastle_keeps
              with_reducible apply State.restartMotifs_keeps
              with_reducible apply State.remap_keeps
              with_reducible apply State.copyCaptured_keeps
              with_reducible apply State.deadlinesDue_keeps
              with_reducible assumption
            · with_reducible apply State.wr_keeps
              with_reducible apply State.greyStat_keeps
              with_reducible apply State.spwmCastle_keeps
              with_reducible apply State.restartMotifs_keeps
              with_reducible apply State.remap_keeps
              with_reducible apply State.copyCaptured_keeps
              with_reducible apply State.deadlinesDue_keeps
              with_reducible assumption
          · with_reducible refine keeps_mk_of (keeps_parts ?_)
            with_reducible refine ite_keeps ?_ ?_
            · with_reducible apply State.clearAccs_keeps
              with_reducible apply State.wr_keeps
              with_reducible apply State.greyStat_keeps
              with_reducible apply State.spwmCastle_keeps
              with_reducible apply State.restartMotifs_keeps
              with_reducible apply State.remap_keeps
              with_reducible apply State.copyCaptured_keeps
              with_reducible apply State.deadlinesDue_keeps
              with_reducible assumption
            · with_reducible apply State.wr_keeps
              with_reducible apply State.greyStat_keeps
              with_reducible apply State.spwmCastle_keeps
              with_reducible apply State.restartMotifs_keeps
              with_reducible apply State.remap_keeps
              with_reducible apply State.copyCaptured_keeps
              with_reducible apply State.deadlinesDue_keeps
              with_reducible assumption
    · with_reducible refine ite_keeps ?_ ?_
      · with_reducible apply State.noteFollow_keeps
        with_reducible refine ite_keeps ?_ ?_
        · with_reducible apply State.retarget_keeps
          with_reducible refine ite_keeps ?_ ?_
          · with_reducible apply State.gridChanged_keeps
            with_reducible refine keeps_mk_of (keeps_parts ?_)
            with_reducible refine ite_keeps ?_ ?_
            · with_reducible apply State.clearAccs_keeps
              with_reducible apply State.wr_keeps
              with_reducible apply State.greyStat_keeps
              with_reducible apply State.spwmCastle_keeps
              with_reducible apply State.restartMotifs_keeps
              with_reducible apply State.remap_keeps
              with_reducible apply State.copyCaptured_keeps
              with_reducible apply State.deadlinesDue_keeps
              with_reducible assumption
            · with_reducible apply State.wr_keeps
              with_reducible apply State.greyStat_keeps
              with_reducible apply State.spwmCastle_keeps
              with_reducible apply State.restartMotifs_keeps
              with_reducible apply State.remap_keeps
              with_reducible apply State.copyCaptured_keeps
              with_reducible apply State.deadlinesDue_keeps
              with_reducible assumption
          · with_reducible refine keeps_mk_of (keeps_parts ?_)
            with_reducible refine ite_keeps ?_ ?_
            · with_reducible apply State.clearAccs_keeps
              with_reducible apply State.wr_keeps
              with_reducible apply State.greyStat_keeps
              with_reducible apply State.spwmCastle_keeps
              with_reducible apply State.restartMotifs_keeps
              with_reducible apply State.remap_keeps
              with_reducible apply State.copyCaptured_keeps
              with_reducible apply State.deadlinesDue_keeps
              with_reducible assumption
            · with_reducible apply State.wr_keeps
              with_reducible apply State.greyStat_keeps
              with_reducible apply State.spwmCastle_keeps
              with_reducible apply State.restartMotifs_keeps
              with_reducible apply State.remap_keeps
              with_reducible apply State.copyCaptured_keeps
              with_reducible apply State.deadlinesDue_keeps
              with_reducible assumption
        · with_reducible refine ite_keeps ?_ ?_
          · with_reducible apply State.gridChanged_keeps
            with_reducible refine keeps_mk_of (keeps_parts ?_)
            with_reducible refine ite_keeps ?_ ?_
            · with_reducible apply State.clearAccs_keeps
              with_reducible apply State.wr_keeps
              with_reducible apply State.greyStat_keeps
              with_reducible apply State.spwmCastle_keeps
              with_reducible apply State.restartMotifs_keeps
              with_reducible apply State.remap_keeps
              with_reducible apply State.copyCaptured_keeps
              with_reducible apply State.deadlinesDue_keeps
              with_reducible assumption
            · with_reducible apply State.wr_keeps
              with_reducible apply State.greyStat_keeps
              with_reducible apply State.spwmCastle_keeps
              with_reducible apply State.restartMotifs_keeps
              with_reducible apply State.remap_keeps
              with_reducible apply State.copyCaptured_keeps
              with_reducible apply State.deadlinesDue_keeps
              with_reducible assumption
          · with_reducible refine keeps_mk_of (keeps_parts ?_)
            with_reducible refine ite_keeps ?_ ?_
            · with_reducible apply State.clearAccs_keeps
              with_reducible apply State.wr_keeps
              with_reducible apply State.greyStat_keeps
              with_reducible apply State.spwmCastle_keeps
              with_reducible apply State.restartMotifs_keeps
              with_reducible apply State.remap_keeps
              with_reducible apply State.copyCaptured_keeps
              with_reducible apply State.deadlinesDue_keeps
              with_reducible assumption
            · with_reducible apply State.wr_keeps
              with_reducible apply State.greyStat_keeps
              with_reducible apply State.spwmCastle_keeps
              with_reducible apply State.restartMotifs_keeps
              with_reducible apply State.remap_keeps
              with_reducible apply State.copyCaptured_keeps
              with_reducible apply State.deadlinesDue_keeps
              with_reducible assumption
      · with_reducible refine ite_keeps ?_ ?_
        · with_reducible apply State.retarget_keeps
          with_reducible refine ite_keeps ?_ ?_
          · with_reducible apply State.gridChanged_keeps
            with_reducible refine keeps_mk_of (keeps_parts ?_)
            with_reducible refine ite_keeps ?_ ?_
            · with_reducible apply State.clearAccs_keeps
              with_reducible apply State.wr_keeps
              with_reducible apply State.greyStat_keeps
              with_reducible apply State.spwmCastle_keeps
              with_reducible apply State.restartMotifs_keeps
              with_reducible apply State.remap_keeps
              with_reducible apply State.copyCaptured_keeps
              with_reducible apply State.deadlinesDue_keeps
              with_reducible assumption
            · with_reducible apply State.wr_keeps
              with_reducible apply State.greyStat_keeps
              with_reducible apply State.spwmCastle_keeps
              with_reducible apply State.restartMotifs_keeps
              with_reducible apply State.remap_keeps
              with_reducible apply State.copyCaptured_keeps
              with_reducible apply State.deadlinesDue_keeps
              with_reducible assumption
          · with_reducible refine keeps_mk_of (keeps_parts ?_)
            with_reducible refine ite_keeps ?_ ?_
            · with_reducible apply State.clearAccs_keeps
              with_reducible apply State.wr_keeps
              with_reducible apply State.greyStat_keeps
              with_reducible apply State.spwmCastle_keeps
              with_reducible apply State.restartMotifs_keeps
              with_reducible apply State.remap_keeps
              with_reducible apply State.copyCaptured_keeps
              with_reducible apply State.deadlinesDue_keeps
              with_reducible assumption
            · with_reducible apply State.wr_keeps
              with_reducible apply State.greyStat_keeps
              with_reducible apply State.spwmCastle_keeps
              with_reducible apply State.restartMotifs_keeps
              with_reducible apply State.remap_keeps
              with_reducible apply State.copyCaptured_keeps
              with_reducible apply State.deadlinesDue_keeps
              with_reducible assumption
        · with_reducible refine ite_keeps ?_ ?_
          · with_reducible apply State.gridChanged_keeps
            with_reducible refine keeps_mk_of (keeps_parts ?_)
            with_reducible refine ite_keeps ?_ ?_
            · with_reducible apply State.clearAccs_keeps
              with_reducible apply State.wr_keeps
              with_reducible apply State.greyStat_keeps
              with_reducible apply State.spwmCastle_keeps
              with_reducible apply State.restartMotifs_keeps
              with_reducible apply State.remap_keeps
              with_reducible apply State.copyCaptured_keeps
              with_reducible apply State.deadlinesDue_keeps
              with_reducible assumption
            · with_reducible apply State.wr_keeps
              with_reducible apply State.greyStat_keeps
              with_reducible apply State.spwmCastle_keeps
              with_reducible apply State.restartMotifs_keeps
              with_reducible apply State.remap_keeps
              with_reducible apply State.copyCaptured_keeps
              with_reducible apply State.deadlinesDue_keeps
              with_reducible assumption
          · with_reducible refine keeps_mk_of (keeps_parts ?_)
            with_reducible refine ite_keeps ?_ ?_
            · with_reducible apply State.clearAccs_keeps
              with_reducible apply State.wr_keeps
              with_reducible apply State.greyStat_keeps
              with_reducible apply State.spwmCastle_keeps
              with_reducible apply State.restartMotifs_keeps
              with_reducible apply State.remap_keeps
              with_reducible apply State.copyCaptured_keeps
              with_reducible apply State.deadlinesDue_keeps
              with_reducible assumption
            · with_reducible apply State.wr_keeps
              with_reducible apply State.greyStat_keeps
              with_reducible apply State.spwmCastle_keeps
              with_reducible apply State.restartMotifs_keeps
              with_reducible apply State.remap_keeps
              with_reducible apply State.copyCaptured_keeps
              with_reducible apply State.deadlinesDue_keeps
              with_reducible assumption
  · with_reducible apply State.raise_keeps
    with_reducible apply State.wr_keeps
    with_reducible apply State.foldOff_keeps
    with_reducible refine ite_keeps ?_ ?_
    · with_reducible apply State.freeMaps_keeps
      with_reducible refine ite_keeps ?_ ?_
      · with_reducible apply State.noteFollow_keeps
        with_reducible refine ite_keeps ?_ ?_
        · with_reducible apply State.retarget_keeps
          with_reducible refine ite_keeps ?_ ?_
          · with_reducible apply State.gridChanged_keeps
            with_reducible refine keeps_mk_of (keeps_parts ?_)
            with_reducible refine ite_keeps ?_ ?_
            · with_reducible apply State.clearAccs_keeps
              with_reducible apply State.wr_keeps
              with_reducible apply State.greyStat_keeps
              with_reducible apply State.spwmCastle_keeps
              with_reducible apply State.restartMotifs_keeps
              with_reducible apply State.remap_keeps
              with_reducible apply State.copyCaptured_keeps
              with_reducible apply State.deadlinesDue_keeps
              with_reducible assumption
            · with_reducible apply State.wr_keeps
              with_reducible apply State.greyStat_keeps
              with_reducible apply State.spwmCastle_keeps
              with_reducible apply State.restartMotifs_keeps
              with_reducible apply State.remap_keeps
              with_reducible apply State.copyCaptured_keeps
              with_reducible apply State.deadlinesDue_keeps
              with_reducible assumption
          · with_reducible refine keeps_mk_of (keeps_parts ?_)
            with_reducible refine ite_keeps ?_ ?_
            · with_reducible apply State.clearAccs_keeps
              with_reducible apply State.wr_keeps
              with_reducible apply State.greyStat_keeps
              with_reducible apply State.spwmCastle_keeps
              with_reducible apply State.restartMotifs_keeps
              with_reducible apply State.remap_keeps
              with_reducible apply State.copyCaptured_keeps
              with_reducible apply State.deadlinesDue_keeps
              with_reducible assumption
            · with_reducible apply State.wr_keeps
              with_reducible apply State.greyStat_keeps
              with_reducible apply State.spwmCastle_keeps
              with_reducible apply State.restartMotifs_keeps
              with_reducible apply State.remap_keeps
              with_reducible apply State.copyCaptured_keeps
              with_reducible apply State.deadlinesDue_keeps
              with_reducible assumption
        · with_reducible refine ite_keeps ?_ ?_
          · with_reducible apply State.gridChanged_keeps
            with_reducible refine keeps_mk_of (keeps_parts ?_)
            with_reducible refine ite_keeps ?_ ?_
            · with_reducible apply State.clearAccs_keeps
              with_reducible apply State.wr_keeps
              with_reducible apply State.greyStat_keeps
              with_reducible apply State.spwmCastle_keeps
              with_reducible apply State.restartMotifs_keeps
              with_reducible apply State.remap_keeps
              with_reducible apply State.copyCaptured_keeps
              with_reducible apply State.deadlinesDue_keeps
              with_reducible assumption
            · with_reducible apply State.wr_keeps
              with_reducible apply State.greyStat_keeps
              with_reducible apply State.spwmCastle_keeps
              with_reducible apply State.restartMotifs_keeps
              with_reducible apply State.remap_keeps
              with_reducible apply State.copyCaptured_keeps
              with_reducible apply State.deadlinesDue_keeps
              with_reducible assumption
          · with_reducible refine keeps_mk_of (keeps_parts ?_)
            with_reducible refine ite_keeps ?_ ?_
            · with_reducible apply State.clearAccs_keeps
              with_reducible apply State.wr_keeps
              with_reducible apply State.greyStat_keeps
              with_reducible apply State.spwmCastle_keeps
              with_reducible apply State.restartMotifs_keeps
              with_reducible apply State.remap_keeps
              with_reducible apply State.copyCaptured_keeps
              with_reducible apply State.deadlinesDue_keeps
              with_reducible assumption
            · with_reducible apply State.wr_keeps
              with_reducible apply State.greyStat_keeps
              with_reducible apply State.spwmCastle_keeps
              with_reducible apply State.restartMotifs_keeps
              with_reducible apply State.remap_keeps
              with_reducible apply State.copyCaptured_keeps
              with_reducible apply State.deadlinesDue_keeps
              with_reducible assumption
      · with_reducible refine ite_keeps ?_ ?_
        · with_reducible apply State.retarget_keeps
          with_reducible refine ite_keeps ?_ ?_
          · with_reducible apply State.gridChanged_keeps
            with_reducible refine keeps_mk_of (keeps_parts ?_)
            with_reducible refine ite_keeps ?_ ?_
            · with_reducible apply State.clearAccs_keeps
              with_reducible apply State.wr_keeps
              with_reducible apply State.greyStat_keeps
              with_reducible apply State.spwmCastle_keeps
              with_reducible apply State.restartMotifs_keeps
              with_reducible apply State.remap_keeps
              with_reducible apply State.copyCaptured_keeps
              with_reducible apply State.deadlinesDue_keeps
              with_reducible assumption
            · with_reducible apply State.wr_keeps
              with_reducible apply State.greyStat_keeps
              with_reducible apply State.spwmCastle_keeps
              with_reducible apply State.restartMotifs_keeps
              with_reducible apply State.remap_keeps
              with_reducible apply State.copyCaptured_keeps
              with_reducible apply State.deadlinesDue_keeps
              with_reducible assumption
          · with_reducible refine keeps_mk_of (keeps_parts ?_)
            with_reducible refine ite_keeps ?_ ?_
            · with_reducible apply State.clearAccs_keeps
              with_reducible apply State.wr_keeps
              with_reducible apply State.greyStat_keeps
              with_reducible apply State.spwmCastle_keeps
              with_reducible apply State.restartMotifs_keeps
              with_reducible apply State.remap_keeps
              with_reducible apply State.copyCaptured_keeps
              with_reducible apply State.deadlinesDue_keeps
              with_reducible assumption
            · with_reducible apply State.wr_keeps
              with_reducible apply State.greyStat_keeps
              with_reducible apply State.spwmCastle_keeps
              with_reducible apply State.restartMotifs_keeps
              with_reducible apply State.remap_keeps
              with_reducible apply State.copyCaptured_keeps
              with_reducible apply State.deadlinesDue_keeps
              with_reducible assumption
        · with_reducible refine ite_keeps ?_ ?_
          · with_reducible apply State.gridChanged_keeps
            with_reducible refine keeps_mk_of (keeps_parts ?_)
            with_reducible refine ite_keeps ?_ ?_
            · with_reducible apply State.clearAccs_keeps
              with_reducible apply State.wr_keeps
              with_reducible apply State.greyStat_keeps
              with_reducible apply State.spwmCastle_keeps
              with_reducible apply State.restartMotifs_keeps
              with_reducible apply State.remap_keeps
              with_reducible apply State.copyCaptured_keeps
              with_reducible apply State.deadlinesDue_keeps
              with_reducible assumption
            · with_reducible apply State.wr_keeps
              with_reducible apply State.greyStat_keeps
              with_reducible apply State.spwmCastle_keeps
              with_reducible apply State.restartMotifs_keeps
              with_reducible apply State.remap_keeps
              with_reducible apply State.copyCaptured_keeps
              with_reducible apply State.deadlinesDue_keeps
              with_reducible assumption
          · with_reducible refine keeps_mk_of (keeps_parts ?_)
            with_reducible refine ite_keeps ?_ ?_
            · with_reducible apply State.clearAccs_keeps
              with_reducible apply State.wr_keeps
              with_reducible apply State.greyStat_keeps
              with_reducible apply State.spwmCastle_keeps
              with_reducible apply State.restartMotifs_keeps
              with_reducible apply State.remap_keeps
              with_reducible apply State.copyCaptured_keeps
              with_reducible apply State.deadlinesDue_keeps
              with_reducible assumption
            · with_reducible apply State.wr_keeps
              with_reducible apply State.greyStat_keeps
              with_reducible apply State.spwmCastle_keeps
              with_reducible apply State.restartMotifs_keeps
              with_reducible apply State.remap_keeps
              with_reducible apply State.copyCaptured_keeps
              with_reducible apply State.deadlinesDue_keeps
              with_reducible assumption
    · with_reducible refine ite_keeps ?_ ?_
      · with_reducible apply State.noteFollow_keeps
        with_reducible refine ite_keeps ?_ ?_
        · with_reducible apply State.retarget_keeps
          with_reducible refine ite_keeps ?_ ?_
          · with_reducible apply State.gridChanged_keeps
            with_reducible refine keeps_mk_of (keeps_parts ?_)
            with_reducible refine ite_keeps ?_ ?_
            · with_reducible apply State.clearAccs_keeps
              with_reducible apply State.wr_keeps
              with_reducible apply State.greyStat_keeps
              with_reducible apply State.spwmCastle_keeps
              with_reducible apply State.restartMotifs_keeps
              with_reducible apply State.remap_keeps
              with_reducible apply State.copyCaptured_keeps
              with_reducible apply State.deadlinesDue_keeps
              with_reducible assumption
            · with_reducible apply State.wr_keeps
              with_reducible apply State.greyStat_keeps
              with_reducible apply State.spwmCastle_keeps
              with_reducible apply State.restartMotifs_keeps
              with_reducible apply State.remap_keeps
              with_reducible apply State.copyCaptured_keeps
              with_reducible apply State.deadlinesDue_keeps
              with_reducible assumption
          · with_reducible refine keeps_mk_of (keeps_parts ?_)
            with_reducible refine ite_keeps ?_ ?_
            · with_reducible apply State.clearAccs_keeps
              with_reducible apply State.wr_keeps
              with_reducible apply State.greyStat_keeps
              with_reducible apply State.spwmCastle_keeps
              with_reducible apply State.restartMotifs_keeps
              with_reducible apply State.remap_keeps
              with_reducible apply State.copyCaptured_keeps
              with_reducible apply State.deadlinesDue_keeps
              with_reducible assumption
            · with_reducible apply State.wr_keeps
              with_reducible apply State.greyStat_keeps
              with_reducible apply State.spwmCastle_keeps
              with_reducible apply State.restartMotifs_keeps
              with_reducible apply State.remap_keeps
              with_reducible apply State.copyCaptured_keeps
              with_reducible apply State.deadlinesDue_keeps
              with_reducible assumption
        · with_reducible refine ite_keeps ?_ ?_
          · with_reducible apply State.gridChanged_keeps
            with_reducible refine keeps_mk_of (keeps_parts ?_)
            with_reducible refine ite_keeps ?_ ?_
            · with_reducible apply State.clearAccs_keeps
              with_reducible apply State.wr_keeps
              with_reducible apply State.greyStat_keeps
              with_reducible apply State.spwmCastle_keeps
              with_reducible apply State.restartMotifs_keeps
              with_reducible apply State.remap_keeps
              with_reducible apply State.copyCaptured_keeps
              with_reducible apply State.deadlinesDue_keeps
              with_reducible assumption
            · with_reducible apply State.wr_keeps
              with_reducible apply State.greyStat_keeps
              with_reducible apply State.spwmCastle_keeps
              with_reducible apply State.restartMotifs_keeps
              with_reducible apply State.remap_keeps
              with_reducible apply State.copyCaptured_keeps
              with_reducible apply State.deadlinesDue_keeps
              with_reducible assumption
          · with_reducible refine keeps_mk_of (keeps_parts ?_)
            with_reducible refine ite_keeps ?_ ?_
            · with_reducible apply State.clearAccs_keeps
              with_reducible apply State.wr_keeps
              with_reducible apply State.greyStat_keeps
              with_reducible apply State.spwmCastle_keeps
              with_reducible apply State.restartMotifs_keeps
              with_reducible apply State.remap_keeps
              with_reducible apply State.copyCaptured_keeps
              with_reducible apply State.deadlinesDue_keeps
              with_reducible assumption
            · with_reducible apply State.wr_keeps
              with_reducible apply State.greyStat_keeps
              with_reducible apply State.spwmCastle_keeps
              with_reducible apply State.restartMotifs_keeps
              with_reducible apply State.remap_keeps
              with_reducible apply State.copyCaptured_keeps
              with_reducible apply State.deadlinesDue_keeps
              with_reducible assumption
      · with_reducible refine ite_keeps ?_ ?_
        · with_reducible apply State.retarget_keeps
          with_reducible refine ite_keeps ?_ ?_
          · with_reducible apply State.gridChanged_keeps
            with_reducible refine keeps_mk_of (keeps_parts ?_)
            with_reducible refine ite_keeps ?_ ?_
            · with_reducible apply State.clearAccs_keeps
              with_reducible apply State.wr_keeps
              with_reducible apply State.greyStat_keeps
              with_reducible apply State.spwmCastle_keeps
              with_reducible apply State.restartMotifs_keeps
              with_reducible apply State.remap_keeps
              with_reducible apply State.copyCaptured_keeps
              with_reducible apply State.deadlinesDue_keeps
              with_reducible assumption
            · with_reducible apply State.wr_keeps
              with_reducible apply State.greyStat_keeps
              with_reducible apply State.spwmCastle_keeps
              with_reducible apply State.restartMotifs_keeps
              with_reducible apply State.remap_keeps
              with_reducible apply State.copyCaptured_keeps
              with_reducible apply State.deadlinesDue_keeps
              with_reducible assumption
          · with_reducible refine keeps_mk_of (keeps_parts ?_)
            with_reducible refine ite_keeps ?_ ?_
            · with_reducible apply State.clearAccs_keeps
              with_reducible apply State.wr_keeps
              with_reducible apply State.greyStat_keeps
              with_reducible apply State.spwmCastle_keeps
              with_reducible apply State.restartMotifs_keeps
              with_reducible apply State.remap_keeps
              with_reducible apply State.copyCaptured_keeps
              with_reducible apply State.deadlinesDue_keeps
              with_reducible assumption
            · with_reducible apply State.wr_keeps
              with_reducible apply State.greyStat_keeps
              with_reducible apply State.spwmCastle_keeps
              with_reducible apply State.restartMotifs_keeps
              with_reducible apply State.remap_keeps
              with_reducible apply State.copyCaptured_keeps
              with_reducible apply State.deadlinesDue_keeps
              with_reducible assumption
        · with_reducible refine ite_keeps ?_ ?_
          · with_reducible apply State.gridChanged_keeps
            with_reducible refine keeps_mk_of (keeps_parts ?_)
            with_reducible refine ite_keeps ?_ ?_
            · with_reducible apply State.clearAccs_keeps
              with_reducible apply State.wr_keeps
              with_reducible apply State.greyStat_keeps
              with_reducible apply State.spwmCastle_keeps
              with_reducible apply State.restartMotifs_keeps
              with_reducible apply State.remap_keeps
              with_reducible apply State.copyCaptured_keeps
              with_reducible apply State.deadlinesDue_keeps
              with_reducible assumption
            · with_reducible apply State.wr_keeps
              with_reducible apply State.greyStat_keeps
              with_reducible apply State.spwmCastle_keeps
              with_reducible apply State.restartMotifs_keeps
              with_reducible apply State.remap_keeps
              with_reducible apply State.copyCaptured_keeps
              with_reducible apply State.deadlinesDue_keeps
              with_reducible assumption
          · with_reducible refine keeps_mk_of (keeps_parts ?_)
            with_reducible refine ite_keeps ?_ ?_
            · with_reducible apply State.clearAccs_keeps
              with_reducible apply State.wr_keeps
              with_reducible apply State.greyStat_keeps
              with_reducible apply State.spwmCastle_keeps
              with_reducible apply State.restartMotifs_keeps
              with_reducible apply State.remap_keeps
              with_reducible apply State.copyCaptured_keeps
              with_reducible apply State.deadlinesDue_keeps
              with_reducible assumption
            · with_reducible apply State.wr_keeps
              with_reducible apply State.greyStat_keeps
              with_reducible apply State.spwmCastle_keeps
              with_reducible apply State.restartMotifs_keeps
              with_reducible apply State.remap_keeps
              with_reducible apply State.copyCaptured_keeps
              with_reducible apply State.deadlinesDue_keeps
              with_reducible assumption

theorem State.relock_keeps {s0 : State} (s : State) (from_ : Option Nat) (hk : Keeps s0 s) :
    Keeps s0 (State.relock s from_) := by
  unfold State.relock
  dsimp only
  with_reducible apply State.floorFall_keeps
  with_reducible refine keeps_mk_of (keeps_parts ?_)
  with_reducible apply State.wr_keeps
  with_reducible apply State.wr_keeps
  with_reducible apply State.scanIdle_keeps
  with_reducible assumption

theorem State.classCNow_keeps {s0 : State} (s : State) (hk : Keeps s0 s) :
    Keeps s0 (State.classCNow s) := by
  unfold State.classCNow
  with_reducible refine ite_keeps ?_ ?_
  · with_reducible apply State.relock_keeps
    with_reducible assumption
  · with_reducible refine ite_keeps ?_ ?_
    · with_reducible refine keeps_mk_of (keeps_parts ?_)
      with_reducible assumption
    · with_reducible assumption

theorem State.castleNow_keeps {s0 : State} (s : State) (hk : Keeps s0 s) :
    Keeps s0 (State.castleNow s) := by
  unfold State.castleNow
  with_reducible refine ite_keeps ?_ ?_
  · with_reducible assumption
  · dsimp only
    with_reducible refine ite_keeps ?_ ?_
    · with_reducible apply State.classCNow_keeps
      with_reducible refine keeps_mk_of (keeps_parts ?_)
      with_reducible apply State.castleApply_keeps
      with_reducible apply State.castleSetup_keeps
      with_reducible assumption
    · with_reducible refine keeps_mk_of (keeps_parts ?_)
      with_reducible apply State.castleApply_keeps
      with_reducible apply State.castleSetup_keeps
      with_reducible assumption

theorem State.castleCommit_keeps {s0 : State} (s : State) (mask : Nat) (hk : Keeps s0 s) :
    Keeps s0 (State.castleCommit s mask) := by
  unfold State.castleCommit
  dsimp only
  with_reducible refine ite_keeps ?_ ?_
  · with_reducible assumption
  · with_reducible refine ite_keeps ?_ ?_
    · with_reducible apply State.mirApply_keeps
      with_reducible refine ite_keeps ?_ ?_
      · with_reducible apply State.wr_keeps
        with_reducible assumption
      · with_reducible refine ite_keeps ?_ ?_
        · with_reducible apply State.castleNow_keeps
          with_reducible apply State.wr_keeps
          with_reducible assumption
        · with_reducible refine ite_keeps ?_ ?_
          · with_reducible apply State.raise_keeps
            with_reducible apply State.setW1c_keeps
            with_reducible apply State.wr_keeps
            with_reducible assumption
          · with_reducible apply State.wr_keeps
            with_reducible assumption
    · with_reducible refine ite_keeps ?_ ?_
      · with_reducible apply State.wr_keeps
        with_reducible assumption
      · with_reducible refine ite_keeps ?_ ?_
        · with_reducible apply State.castleNow_keeps
          with_reducible apply State.wr_keeps
          with_reducible assumption
        · with_reducible refine ite_keeps ?_ ?_
          · with_reducible apply State.raise_keeps
            with_reducible apply State.setW1c_keeps
            with_reducible apply State.wr_keeps
            with_reducible assumption
          · with_reducible apply State.wr_keeps
            with_reducible assumption

theorem State.writeEpoch_keeps {s0 : State} (s : State) (e : Nat) (hk : Keeps s0 s) :
    Keeps s0 (State.writeEpoch s e) := by
  unfold State.writeEpoch
  dsimp only
  with_reducible apply State.hwWrBoth_keeps
  with_reducible apply State.hwWrBoth_keeps
  with_reducible apply State.hwWrBoth_keeps
  with_reducible assumption

theorem State.genlockEpoch_keeps {s0 : State} (s : State) (e : Nat) (hk : Keeps s0 s) :
    Keeps s0 (State.genlockEpoch s e) := by
  unfold State.genlockEpoch
  with_reducible apply State.retarget_keeps
  with_reducible apply State.gridChanged_keeps
  with_reducible apply State.writeEpoch_keeps
  with_reducible assumption

theorem State.stepNow_keeps {s0 : State} (s : State) (hk : Keeps s0 s) :
    Keeps s0 (State.stepNow s) := by
  unfold State.stepNow
  split
  · with_reducible refine ite_keeps ?_ ?_
    · with_reducible apply State.dropStep_keeps
      with_reducible assumption
    · with_reducible apply State.applyStep_keeps
      with_reducible assumption
  · with_reducible assumption

theorem State.epochNow_keeps {s0 : State} (s : State) (hk : Keeps s0 s) :
    Keeps s0 (State.epochNow s) := by
  unfold State.epochNow
  split
  · with_reducible apply State.genlockEpoch_keeps
    with_reducible refine keeps_mk_of (keeps_parts ?_)
    with_reducible assumption
  · with_reducible assumption

theorem State.followNow_keeps {s0 : State} (s : State) (hk : Keeps s0 s) :
    Keeps s0 (State.followNow s) := by
  unfold State.followNow
  split
  · dsimp only
    with_reducible apply State.retarget_keeps
    with_reducible refine keeps_mk_of (keeps_parts ?_)
    with_reducible apply State.hwWrBoth_keeps
    with_reducible apply State.hwWrBoth_keeps
    with_reducible apply State.writeEpoch_keeps
    with_reducible refine keeps_mk_of (keeps_parts ?_)
    with_reducible assumption
  · with_reducible assumption

theorem State.ownChanges_keeps {s0 : State} (s : State) (hk : Keeps s0 s) :
    Keeps s0 (State.ownChanges s) := by
  unfold State.ownChanges
  with_reducible apply State.followNow_keeps
  with_reducible apply State.epochNow_keeps
  with_reducible apply State.stepNow_keeps
  with_reducible assumption

theorem State.adjust_keeps {s0 : State} (s : State) (hk : Keeps s0 s) :
    Keeps s0 (State.adjust s) := by
  unfold State.adjust
  with_reducible apply State.loopUpdate_keeps
  with_reducible apply State.loopUpdate_keeps
  with_reducible apply State.hrClose_keeps
  with_reducible apply State.thermStep_keeps
  with_reducible apply State.foldStep_keeps
  with_reducible assumption

theorem State.enterBlank_keeps {s0 : State} (s : State) (hk : Keeps s0 s) :
    Keeps s0 (State.enterBlank s) := by
  unfold State.enterBlank
  dsimp only
  with_reducible refine keeps_mk_of (keeps_parts ?_)
  with_reducible apply State.setPhases_keeps
  with_reducible apply State.wr_keeps
  with_reducible assumption

theorem State.classify_keeps {s0 : State} (s old : State) (hk : Keeps s0 s) :
    Keeps s0 (State.classify s old) := by
  unfold State.classify
  with_reducible refine ite_keeps ?_ ?_
  · with_reducible apply State.relock_keeps
    with_reducible assumption
  · with_reducible refine ite_keeps ?_ ?_
    · with_reducible refine keeps_mk_of (keeps_parts ?_)
      with_reducible assumption
    · with_reducible assumption

theorem State.castlePoint_keeps {s0 : State} (s : State) (hk : Keeps s0 s) :
    Keeps s0 (State.castlePoint s) := by
  unfold State.castlePoint
  with_reducible refine ite_keeps ?_ ?_
  · with_reducible apply State.censusFlush_keeps
    with_reducible apply State.enterBlank_keeps
    with_reducible apply State.uncapture_keeps
    with_reducible assumption
  · dsimp only
    with_reducible apply State.censusFlush_keeps
    with_reducible apply State.classify_keeps
    with_reducible refine keeps_mk_of (keeps_parts ?_)
    with_reducible apply State.enterBlank_keeps
    with_reducible apply State.adjust_keeps
    with_reducible apply State.ownChanges_keeps
    with_reducible apply State.castleApply_keeps
    with_reducible assumption

theorem State.resumePoint_keeps {s0 : State} (s : State) (hk : Keeps s0 s) :
    Keeps s0 (State.resumePoint s) := by
  unfold State.resumePoint
  extract_lets +onlyGivenNames x1
  have h1 : Keeps s0 x1 := by
    unfold x1
    with_reducible apply State.adjust_keeps
    with_reducible apply State.ownChanges_keeps
    with_reducible apply State.castleNow_keeps
    with_reducible assumption
  clear_value x1
  with_reducible refine keeps_mk_of (keeps_parts ?_)
  with_reducible assumption

theorem execCastleSetup_keeps {s0 : State} (at_ : Vt) (s : State) (hk : Keeps s0 s) :
    OKeeps s0 (execCastleSetup at_ s) := by
  unfold execCastleSetup
  with_reducible refine next_okeeps ?_
  extract_lets +onlyGivenNames x1
  have h1 : Keeps s0 x1 := by
    unfold x1
    with_reducible apply State.elapseTo_keeps
    with_reducible assumption
  clear_value x1
  with_reducible refine ite_keeps ?_ ?_
  · with_reducible apply State.castleSetup_keeps
    with_reducible assumption
  · with_reducible assumption

theorem execCastlingPoint_keeps {s0 : State} (at_ : Vt) (s : State) (hk : Keeps s0 s) :
    OKeeps s0 (execCastlingPoint at_ s) := by
  unfold execCastlingPoint
  with_reducible refine next_okeeps ?_
  extract_lets +onlyGivenNames x1
  have h1 : Keeps s0 x1 := by
    unfold x1
    with_reducible apply State.elapseTo_keeps
    with_reducible assumption
  clear_value x1
  with_reducible refine ite_keeps ?_ ?_
  · with_reducible refine ite_keeps ?_ ?_
    · with_reducible apply State.resumePoint_keeps
      with_reducible assumption
    · with_reducible assumption
  · with_reducible refine ite_keeps ?_ ?_
    · with_reducible apply State.castlePoint_keeps
      with_reducible assumption
    · with_reducible assumption

theorem execGckUnlock_keeps {s0 : State} (at_ : Vt) (s : State) (hk : Keeps s0 s) :
    OKeeps s0 (execGckUnlock at_ s) := by
  unfold execGckUnlock
  with_reducible refine next_okeeps ?_
  dsimp only
  with_reducible refine ite_keeps ?_ ?_
  · with_reducible apply State.castleNow_keeps
    with_reducible apply State.raise_keeps
    with_reducible apply State.relock_keeps
    with_reducible apply State.elapseTo_keeps
    with_reducible assumption
  · with_reducible apply State.elapseTo_keeps
    with_reducible assumption

theorem execGckRelock_keeps {s0 : State} (at_ : Vt) (s : State) (hk : Keeps s0 s) :
    OKeeps s0 (execGckRelock at_ s) := by
  unfold execGckRelock
  with_reducible refine next_okeeps ?_
  extract_lets +onlyGivenNames x1
  have h1 : Keeps s0 x1 := by
    unfold x1
    with_reducible apply State.elapseTo_keeps
    with_reducible assumption
  clear_value x1
  with_reducible refine ite_keeps ?_ ?_
  · with_reducible assumption
  · extract_lets +onlyGivenNames x2
    clear_value x2
    extract_lets +onlyGivenNames x3
    have h3 : Keeps s0 x3 := by
      unfold x3
      with_reducible apply State.wr_keeps
      with_reducible assumption
    clear_value x3
    extract_lets +onlyGivenNames x4
    have h4 : Keeps s0 x4 := by
      unfold x4
      with_reducible refine ite_keeps ?_ ?_
      · with_reducible apply State.wr_keeps
        with_reducible apply State.bump_keeps
        with_reducible assumption
      · with_reducible assumption
    clear_value x4
    with_reducible refine keeps_mk_of (keeps_parts ?_)
    with_reducible assumption

theorem execGckLockTimeout_keeps {s0 : State} (at_ : Vt) (s : State) (hk : Keeps s0 s) :
    OKeeps s0 (execGckLockTimeout at_ s) := by
  unfold execGckLockTimeout
  with_reducible refine next_okeeps ?_
  extract_lets +onlyGivenNames x1
  have h1 : Keeps s0 x1 := by
    unfold x1
    with_reducible apply State.elapseTo_keeps
    with_reducible assumption
  clear_value x1
  split
  · with_reducible refine ite_keeps ?_ ?_
    · extract_lets +onlyGivenNames x2
      have h2 : Keeps s0 x2 := by
        unfold x2
        with_reducible apply State.raise_keeps
        with_reducible assumption
      clear_value x2
      with_reducible refine keeps_mk_of (keeps_parts ?_)
      with_reducible assumption
    · with_reducible assumption
  · with_reducible assumption

theorem State.genlockFirst_keeps {s0 : State} (s : State) (point : Nat) (hk : Keeps s0 s) :
    Keeps s0 (State.genlockFirst s point) := by
  unfold State.genlockFirst
  dsimp only
  with_reducible refine ite_keeps ?_ ?_
  · with_reducible apply State.genlockEpoch_keeps
    with_reducible refine keeps_mk_of (keeps_parts ?_)
    with_reducible apply State.measure_keeps
    with_reducible assumption
  · with_reducible refine keeps_mk_of (keeps_parts ?_)
    with_reducible apply State.measure_keeps
    with_reducible assumption

theorem execGenlockInEdge_keeps {s0 : State} (at_ : Vt) (falling : Bool) (s : State) (hk : Keeps s0 s) :
    OKeeps s0 (execGenlockInEdge at_ falling s) := by
  unfold execGenlockInEdge
  dsimp only
  with_reducible refine next_okeeps ?_
  with_reducible refine ite_keeps ?_ ?_
  · with_reducible apply State.elapseTo_keeps
    with_reducible assumption
  · with_reducible refine ite_keeps ?_ ?_
    · with_reducible apply State.bump_keeps
      with_reducible apply State.elapseTo_keeps
      with_reducible assumption
    · with_reducible refine ite_keeps ?_ ?_
      · with_reducible apply State.measure_keeps
        with_reducible apply State.elapseTo_keeps
        with_reducible assumption
      · with_reducible apply State.genlockFirst_keeps
        with_reducible apply State.elapseTo_keeps
        with_reducible assumption

end Sys2Proof.Machine
end

