-- ==== Sys2Proof/Laws/KeepsMoves.lean ====
section
/-! SUPPORT. The operations of Moves.lean keep the queue and the canonical forms. -/
namespace Sys2Proof.Machine

theorem State.moveAct_keeps {s0 : State} (s : State) (m : Move) (inst : Nat) (hk : Keeps s0 s) :
    Keeps s0 (State.moveAct s m inst) := by
  unfold State.moveAct
  dsimp only
  split
  · with_reducible apply State.flip_keeps
    with_reducible assumption
  · with_reducible apply State.castleCommit_keeps
    with_reducible assumption
  · with_reducible apply State.pawnsGo_keeps
    with_reducible assumption
  · with_reducible apply State.motifStep_keeps
    with_reducible assumption
  · with_reducible apply State.spwmUpdate_keeps
    with_reducible assumption
  · with_reducible apply State.pinMove_keeps
    with_reducible assumption
  · with_reducible apply State.pinMove_keeps
    with_reducible assumption
  · with_reducible apply State.cvuSnap_keeps
    with_reducible assumption
  · with_reducible apply State.raiseAs_keeps
    with_reducible assumption
  · with_reducible assumption

theorem State.moveRunLate_keeps {s0 : State} (s : State) (m : Move) (idx : Nat) (hk : Keeps s0 s) :
    Keeps s0 (State.moveRunLate s m idx) := by
  unfold State.moveRunLate
  with_reducible apply State.moveAct_keeps
  with_reducible apply State.bump_keeps
  with_reducible apply State.raise_keeps
  with_reducible assumption

theorem State.moveDrop_keeps {s0 : State} (s : State) (m : Move) (idx : Nat) (hk : Keeps s0 s) :
    Keeps s0 (State.moveDrop s m idx) := by
  unfold State.moveDrop
  with_reducible apply State.bump_keeps
  with_reducible apply State.raise_keeps
  with_reducible assumption

theorem State.moveFree_keeps {s0 : State} (s : State) (i : Nat) (hk : Keeps s0 s) :
    Keeps s0 (State.moveFree s i) := by
  unfold State.moveFree
  with_reducible apply State.advanceGen_keeps
  with_reducible refine keeps_mk_of (keeps_parts ?_)
  with_reducible assumption

theorem State.moveAdd_keeps {s0 : State} (s : State) (m : Move) (hk : Keeps s0 s) :
    Keeps s0 (State.moveAdd s m).2.2 := by
  unfold State.moveAdd
  extract_lets +onlyGivenNames x1
  clear_value x1
  split
  · split
    · with_reducible refine mkpair_keeps ?_
      with_reducible refine keeps_mk_of (keeps_parts ?_)
      with_reducible assumption
    · with_reducible refine mkpair_keeps ?_
      with_reducible apply State.bump_keeps
      with_reducible apply State.raise_keeps
      with_reducible assumption
  · split
    · with_reducible refine mkpair_keeps ?_
      with_reducible apply State.moveRunLate_keeps
      with_reducible assumption
    · with_reducible refine mkpair_keeps ?_
      with_reducible apply State.moveDrop_keeps
      with_reducible assumption

theorem State.moveExamine_keeps {s0 : State} (s : State) (e : Nat × Move) (hk : Keeps s0 s) :
    Keeps s0 (State.moveExamine s e) := by
  unfold State.moveExamine
  dsimp only
  with_reducible refine ite_keeps ?_ ?_
  · with_reducible apply State.moveAct_keeps
    with_reducible apply State.moveFree_keeps
    with_reducible assumption
  · with_reducible refine ite_keeps ?_ ?_
    · with_reducible refine keeps_mk_of (keeps_parts ?_)
      with_reducible assumption
    · with_reducible refine ite_keeps ?_ ?_
      · with_reducible apply State.moveRunLate_keeps
        with_reducible apply State.moveFree_keeps
        with_reducible assumption
      · with_reducible apply State.moveDrop_keeps
        with_reducible apply State.moveFree_keeps
        with_reducible assumption

theorem State.movesDue_keeps {s0 : State} (s : State) (hk : Keeps s0 s) :
    Keeps s0 (State.movesDue s) := by
  unfold State.movesDue
  refine foldl_keeps_snd ?_ hk
  intro q e h
  unfold State.moveTurn
  dsimp only
  apply State.moveExamine_keeps
  with_reducible refine ite_keeps h ?_
  exact keeps_mk_of (keeps_parts h)

theorem State.moveCancel_keeps {s0 : State} (s : State) (h : Nat) (hk : Keeps s0 s) :
    Keeps s0 (State.moveCancel s h).2 := by
  unfold State.moveCancel
  dsimp only
  split
  · with_reducible refine mkpair_keeps ?_
    with_reducible apply State.moveFree_keeps
    with_reducible apply State.movesDue_keeps
    with_reducible assumption
  · with_reducible refine mkpair_keeps ?_
    with_reducible apply State.movesDue_keeps
    with_reducible assumption

theorem execMoveDue_keeps {s0 : State} (at_ : Vt) (s : State) (hk : Keeps s0 s) :
    OKeeps s0 (execMoveDue at_ s) := by
  unfold execMoveDue
  with_reducible refine next_okeeps ?_
  with_reducible apply State.movesDue_keeps
  with_reducible apply State.elapseTo_keeps
  with_reducible assumption

theorem execSpwmBoundary_keeps {s0 : State} (at_ : Vt) (n : Fin 8) (s : State) (hk : Keeps s0 s) :
    OKeeps s0 (execSpwmBoundary at_ n s) := by
  unfold execSpwmBoundary
  with_reducible refine next_okeeps ?_
  dsimp only
  with_reducible refine ite_keeps ?_ ?_
  · with_reducible apply State.swAtBoundary_keeps
    with_reducible apply State.swTripCheck_keeps
    with_reducible apply State.movesDue_keeps
    with_reducible apply State.elapseTo_keeps
    with_reducible assumption
  · with_reducible apply State.movesDue_keeps
    with_reducible apply State.elapseTo_keeps
    with_reducible assumption

theorem execSpwmMidpoint_keeps {s0 : State} (at_ : Vt) (n : Fin 8) (s : State) (hk : Keeps s0 s) :
    OKeeps s0 (execSpwmMidpoint at_ n s) := by
  unfold execSpwmMidpoint
  with_reducible refine next_okeeps ?_
  dsimp only
  with_reducible refine ite_keeps ?_ ?_
  · with_reducible refine ite_keeps ?_ ?_
    · with_reducible apply State.swInner_keeps
      with_reducible apply State.setSw_keeps
      with_reducible apply State.swTripCheck_keeps
      with_reducible apply State.movesDue_keeps
      with_reducible apply State.elapseTo_keeps
      with_reducible assumption
    · with_reducible apply State.setSw_keeps
      with_reducible apply State.swTripCheck_keeps
      with_reducible apply State.movesDue_keeps
      with_reducible apply State.elapseTo_keeps
      with_reducible assumption
  · with_reducible apply State.movesDue_keeps
    with_reducible apply State.elapseTo_keeps
    with_reducible assumption

theorem State.movesLost_keeps {s0 : State} (s : State) (hk : Keeps s0 s) :
    Keeps s0 (State.movesLost s) := by
  unfold State.movesLost
  with_reducible refine foldl_keeps ?_ ?_
  · intro t1_0 t1_1 h1
    with_reducible apply State.advanceGen_keeps
    with_reducible assumption
  · with_reducible refine keeps_mk_of (keeps_parts ?_)
    with_reducible assumption

theorem State.moveNewResult_keeps {s0 : State} (s : State) (st : Status) (h : Option Nat) (hk : Keeps s0 s) :
    Keeps s0 (State.moveNewResult s st h) := by
  unfold State.moveNewResult
  extract_lets +onlyGivenNames x1
  have h1 : Keeps s0 x1 := by
    unfold x1
    with_reducible apply State.wr_keeps
    with_reducible apply State.wr_keeps
    with_reducible assumption
  clear_value x1
  split
  · with_reducible apply State.wr_keeps
    with_reducible assumption
  · with_reducible assumption

theorem State.moveNewAdd_keeps {s0 : State} (s : State) (hk : Keeps s0 s) :
    Keeps s0 (State.moveNewAdd s) := by
  unfold State.moveNewAdd
  extract_lets +onlyGivenNames x1
  clear_value x1
  extract_lets +onlyGivenNames x2
  clear_value x2
  with_reducible refine ite_keeps ?_ ?_
  · split
    · with_reducible apply State.moveNewResult_keeps
      with_reducible apply keeps_pair3; with_reducible assumption
      with_reducible apply State.moveAdd_keeps
      with_reducible assumption
  · with_reducible apply State.moveNewResult_keeps
    with_reducible assumption

theorem State.moveNewCancel_keeps {s0 : State} (s : State) (hk : Keeps s0 s) :
    Keeps s0 (State.moveNewCancel s) := by
  unfold State.moveNewCancel
  split
  · with_reducible apply State.moveNewResult_keeps
    with_reducible apply keeps_pair; with_reducible assumption
    with_reducible apply State.moveCancel_keeps
    with_reducible assumption

end Sys2Proof.Machine
end

