-- ==== Sys2Proof/Laws/KeepsLinks.lean ====
section
/-! SUPPORT. The operations of Links.lean keep the queue and the canonical forms. -/
namespace Sys2Proof.Machine

theorem State.setPort_keeps {s0 : State} (s : State) (p : Nat) (x : PortSt) (hk : Keeps s0 s) :
    Keeps s0 (State.setPort s p x) := by
  unfold State.setPort
  with_reducible refine keeps_mk_of (keeps_parts ?_)
  with_reducible assumption

theorem State.lpiWake_keeps {s0 : State} (s : State) (p : Nat) (hk : Keeps s0 s) :
    Keeps s0 (State.lpiWake s p) := by
  unfold State.lpiWake
  with_reducible refine ite_keeps ?_ ?_
  · extract_lets +onlyGivenNames x1
    have h1 : Keeps s0 x1 := by
      unfold x1
      with_reducible apply State.bump_keeps
      with_reducible apply State.wr_keeps
      with_reducible assumption
    clear_value x1
    with_reducible apply State.setPort_keeps
    with_reducible assumption
  · with_reducible assumption

theorem State.queuePause_keeps {s0 : State} (s : State) (quanta p : Nat) (hk : Keeps s0 s) :
    Keeps s0 (State.queuePause s quanta p) := by
  unfold State.queuePause
  with_reducible refine ite_keeps ?_ ?_
  · dsimp only
    with_reducible apply State.setPort_keeps
    with_reducible apply State.lpiWake_keeps
    with_reducible assumption
  · with_reducible assumption

theorem State.sendPause_keeps {s0 : State} (s : State) (quanta : Nat) (hk : Keeps s0 s) :
    Keeps s0 (State.sendPause s quanta) := by
  unfold State.sendPause
  with_reducible refine foldl_keeps ?_ ?_
  · intro t0_0 t0_1 h0
    with_reducible apply State.queuePause_keeps
    with_reducible assumption
  · with_reducible assumption

theorem State.flowCheck_keeps {s0 : State} (s : State) (hk : Keeps s0 s) :
    Keeps s0 (State.flowCheck s) := by
  unfold State.flowCheck
  with_reducible refine ite_keeps ?_ ?_
  · with_reducible apply State.sendPause_keeps
    with_reducible apply State.raise_keeps
    with_reducible refine keeps_mk_of (keeps_parts ?_)
    with_reducible assumption
  · with_reducible refine ite_keeps ?_ ?_
    · with_reducible apply State.sendPause_keeps
      with_reducible refine keeps_mk_of (keeps_parts ?_)
      with_reducible assumption
    · with_reducible assumption

theorem State.setPkb_keeps {s0 : State} (s : State) (l : List Pkt) (hk : Keeps s0 s) :
    Keeps s0 (State.setPkb s l) := by
  unfold State.setPkb
  with_reducible apply State.flowCheck_keeps
  with_reducible refine keeps_mk_of (keeps_parts ?_)
  with_reducible assumption

theorem State.updPkt_keeps {s0 : State} (s : State) (id : Nat) (f : Pkt → Pkt) (hk : Keeps s0 s) :
    Keeps s0 (State.updPkt s id f) := by
  unfold State.updPkt
  with_reducible apply State.setPkb_keeps
  with_reducible assumption

theorem State.rxDiscard_keeps {s0 : State} (s : State) (p cause : Nat) (hk : Keeps s0 s) :
    Keeps s0 (State.rxDiscard s p cause) := by
  unfold State.rxDiscard
  extract_lets +onlyGivenNames x1
  clear_value x1
  split
  · with_reducible apply State.raise_keeps
    with_reducible apply State.setPort_keeps
    with_reducible assumption
  · with_reducible assumption

theorem State.noCell_keeps {s0 : State} (s : State) (p : Nat) (hk : Keeps s0 s) :
    Keeps s0 (State.noCell s p) := by
  unfold State.noCell
  with_reducible apply State.bump_keeps
  with_reducible apply State.bump_keeps
  with_reducible assumption

theorem State.countStomp_keeps {s0 : State} (s : State) (n : Nat) (hk : Keeps s0 s) :
    Keeps s0 (State.countStomp s n) := by
  unfold State.countStomp
  with_reducible apply State.bumpBy_keeps
  with_reducible assumption

theorem State.cutTx_keeps {s0 : State} (s : State) (f : List Byte) (e : Nat) (hk : Keeps s0 s) :
    Keeps s0 (State.cutTx s f e) := by
  unfold State.cutTx
  dsimp only
  with_reducible apply State.setPort_keeps
  with_reducible apply State.countStomp_keeps
  with_reducible assumption

theorem State.ringEval_keeps {s0 : State} (s : State) (hk : Keeps s0 s) :
    Keeps s0 (State.ringEval s) := by
  unfold State.ringEval
  extract_lets +onlyGivenNames x1
  clear_value x1
  extract_lets +onlyGivenNames x2
  clear_value x2
  extract_lets +onlyGivenNames x3
  have h3 : Keeps s0 x3 := by
    unfold x3
    with_reducible apply State.wrB_keeps
    with_reducible apply State.wrB_keeps
    with_reducible assumption
  clear_value x3
  extract_lets +onlyGivenNames x4
  clear_value x4
  extract_lets +onlyGivenNames x5
  clear_value x5
  extract_lets +onlyGivenNames x6
  clear_value x6
  extract_lets +onlyGivenNames x7
  clear_value x7
  extract_lets +onlyGivenNames x8
  have h8 : Keeps s0 x8 := by
    unfold x8
    with_reducible apply State.wr_keeps
    with_reducible apply State.wr_keeps
    with_reducible assumption
  clear_value x8
  with_reducible refine ite_keeps ?_ ?_
  · with_reducible assumption
  · with_reducible refine ite_keeps ?_ ?_
    · with_reducible apply State.raise_keeps
      with_reducible assumption
    · with_reducible refine ite_keeps ?_ ?_
      · with_reducible apply State.raise_keeps
        with_reducible assumption
      · with_reducible assumption

theorem State.ringMark_keeps {s0 : State} (s : State) (p : Nat) (hk : Keeps s0 s) :
    Keeps s0 (State.ringMark s p) := by
  unfold State.ringMark
  with_reducible refine ite_keeps ?_ ?_
  · with_reducible apply State.ringEval_keeps
    with_reducible apply State.setPort_keeps
    with_reducible assumption
  · with_reducible assumption

theorem execRingDeliveryTimeout_keeps {s0 : State} (at_ : Vt) (s : State) (hk : Keeps s0 s) :
    OKeeps s0 (execRingDeliveryTimeout at_ s) := by
  unfold execRingDeliveryTimeout
  extract_lets +onlyGivenNames x1
  have h1 : Keeps s0 x1 := by
    unfold x1
    with_reducible apply State.elapseTo_keeps
    with_reducible assumption
  clear_value x1
  with_reducible refine next_okeeps ?_
  with_reducible refine ite_keeps ?_ ?_
  · with_reducible apply State.ringEval_keeps
    with_reducible assumption
  · with_reducible assumption

theorem State.abortRx_keeps {s0 : State} (s : State) (p : Nat) (hk : Keeps s0 s) :
    Keeps s0 (State.abortRx s p) := by
  unfold State.abortRx
  dsimp only
  split
  · with_reducible apply State.updPkt_keeps
    with_reducible apply State.countStomp_keeps
    with_reducible apply State.setPort_keeps
    with_reducible refine ite_keeps ?_ ?_
    · with_reducible apply State.cvuTapCut_keeps
      with_reducible assumption
    · with_reducible assumption
  · with_reducible apply State.setPort_keeps
    with_reducible refine ite_keeps ?_ ?_
    · with_reducible apply State.cvuTapCut_keeps
      with_reducible assumption
    · with_reducible assumption

theorem State.flushTx_keeps {s0 : State} (s : State) (p : Nat) (hk : Keeps s0 s) :
    Keeps s0 (State.flushTx s p) := by
  unfold State.flushTx
  dsimp only
  with_reducible apply State.setPkb_keeps
  with_reducible apply State.setPort_keeps
  with_reducible refine ite_keeps ?_ ?_
  · with_reducible apply State.cvuTapCut_keeps
    with_reducible refine ite_keeps ?_ ?_
    · with_reducible apply State.countStomp_keeps
      with_reducible assumption
    · with_reducible assumption
  · with_reducible refine ite_keeps ?_ ?_
    · with_reducible apply State.countStomp_keeps
      with_reducible assumption
    · with_reducible assumption

theorem State.linkDown_keeps {s0 : State} (s : State) (p fault : Nat) (hk : Keeps s0 s) :
    Keeps s0 (State.linkDown s p fault) := by
  unfold State.linkDown
  dsimp only
  with_reducible refine ite_keeps ?_ ?_
  · with_reducible apply State.ptpPortDown_keeps
    with_reducible apply State.ringEval_keeps
    with_reducible apply State.floorFall_keeps
    with_reducible apply State.raise_keeps
    with_reducible apply State.wr_keeps
    with_reducible apply State.wr_keeps
    with_reducible apply State.wr_keeps
    with_reducible apply State.wr_keeps
    with_reducible apply State.wr_keeps
    with_reducible apply State.wr_keeps
    with_reducible apply State.wr_keeps
    with_reducible apply State.wr_keeps
    with_reducible apply State.flushTx_keeps
    with_reducible apply State.abortRx_keeps
    with_reducible assumption
  · with_reducible apply State.wr_keeps
    with_reducible apply State.wr_keeps
    with_reducible apply State.wr_keeps
    with_reducible apply State.wr_keeps
    with_reducible apply State.wr_keeps
    with_reducible apply State.wr_keeps
    with_reducible apply State.wr_keeps
    with_reducible apply State.wr_keeps
    with_reducible apply State.flushTx_keeps
    with_reducible apply State.abortRx_keeps
    with_reducible assumption

theorem execLinkUp_keeps {s0 : State} (port : Fin 6) (fec refused : Bool) (s : State) (hk : Keeps s0 s) :
    OKeeps s0 (execLinkUp port fec refused s) := by
  unfold execLinkUp
  dsimp only
  with_reducible refine next_okeeps ?_
  with_reducible refine ite_keeps ?_ ?_
  · with_reducible assumption
  · with_reducible refine ite_keeps ?_ ?_
    · with_reducible apply State.setW1c_keeps
      with_reducible assumption
    · with_reducible apply State.ringEval_keeps
      with_reducible apply State.raise_keeps
      with_reducible apply State.wrB_keeps
      with_reducible apply State.wrB_keeps
      with_reducible apply State.wr_keeps
      with_reducible apply State.wr_keeps
      with_reducible apply State.wr_keeps
      with_reducible assumption

theorem execLinkDown_keeps {s0 : State} (port : Fin 6) (fault : Fin 3) (s : State) (hk : Keeps s0 s) :
    OKeeps s0 (execLinkDown port fault s) := by
  unfold execLinkDown
  with_reducible refine next_okeeps ?_
  with_reducible refine ite_keeps ?_ ?_
  · with_reducible apply State.linkDown_keeps
    with_reducible assumption
  · with_reducible assumption

theorem State.linkModeWrite_keeps {s0 : State} (s : State) (p : Nat) (w : Word) (hk : Keeps s0 s) :
    Keeps s0 (State.linkModeWrite s p w) := by
  unfold State.linkModeWrite
  dsimp only
  with_reducible refine ite_keeps ?_ ?_
  · with_reducible apply State.setPort_keeps
    with_reducible apply State.setReg_keeps
    with_reducible apply State.linkDown_keeps
    with_reducible assumption
  · with_reducible apply State.setW1c_keeps
    with_reducible apply State.setPort_keeps
    with_reducible apply State.setReg_keeps
    with_reducible apply State.linkDown_keeps
    with_reducible assumption

theorem State.storeFrame_keeps {s0 : State} (s : State) (k : Pkt) (hk : Keeps s0 s) :
    Keeps s0 (State.storeFrame s k) := by
  unfold State.storeFrame
  extract_lets +onlyGivenNames x1
  clear_value x1
  extract_lets +onlyGivenNames x2
  have h2 : Keeps s0 x2 := by
    unfold x2
    with_reducible refine keeps_mk_of (keeps_parts ?_)
    with_reducible assumption
  clear_value x2
  with_reducible apply State.setPkb_keeps
  with_reducible refine foldl_keeps ?_ ?_
  · intro t3_0 t3_1 h3
    with_reducible apply State.lpiWake_keeps
    with_reducible assumption
  · with_reducible assumption

theorem State.originateOn_keeps {s0 : State} (s : State) (ports : List Nat) (ingress : Option (Nat × Nat)) (body : List Byte) (prio : Nat) (hk : Keeps s0 s) :
    Keeps s0 (State.originateOn s ports ingress body prio) := by
  unfold State.originateOn
  dsimp only
  with_reducible refine ite_keeps ?_ ?_
  · with_reducible assumption
  · with_reducible refine ite_keeps ?_ ?_
    · with_reducible refine foldl_keeps ?_ ?_
      · intro t0_0 t0_1 h0
        with_reducible apply State.noCell_keeps
        with_reducible assumption
      · with_reducible assumption
    · with_reducible apply State.storeFrame_keeps
      with_reducible refine foldl_keeps ?_ ?_
      · intro t1_0 t1_1 h1
        with_reducible apply State.noCell_keeps
        with_reducible assumption
      · with_reducible assumption

theorem State.originate_keeps {s0 : State} (s : State) (body : List Byte) (prio : Nat) (hk : Keeps s0 s) :
    Keeps s0 (State.originate s body prio) := by
  unfold State.originate
  with_reducible apply State.originateOn_keeps
  with_reducible assumption

theorem State.eventStamp_keeps {s0 : State} (s : State) (f : List Byte) (t : Nat) (hk : Keeps s0 s) :
    Keeps s0 (State.eventStamp s f t).2 := by
  unfold State.eventStamp
  split
  · with_reducible refine ite_keeps_snd ?_ ?_
    · with_reducible apply State.portStamp_keeps
      with_reducible assumption
    · with_reducible assumption
  · with_reducible assumption

theorem State.startTx_keeps {s0 : State} (s : State) (p : Nat) (t : TxSt) (f : List Byte) (hk : Keeps s0 s) :
    Keeps s0 (State.startTx s p t f) := by
  unfold State.startTx
  with_reducible apply State.cvuTapHead_keeps
  with_reducible apply State.setPort_keeps
  with_reducible assumption

theorem State.beginTx_keeps {s0 : State} (s : State) (p id : Nat) (hk : Keeps s0 s) :
    Keeps s0 (State.beginTx s p id) := by
  unfold State.beginTx
  split
  · with_reducible assumption
  · split
    with_reducible apply State.updPkt_keeps
    with_reducible apply State.startTx_keeps
    with_reducible apply keeps_pair; with_reducible assumption
    with_reducible apply State.eventStamp_keeps
    with_reducible assumption

theorem execTxQueueStart_keeps {s0 : State} (at_ : Vt) (port : Fin 6) (s : State) (hk : Keeps s0 s) :
    OKeeps s0 (execTxQueueStart at_ port s) := by
  unfold execTxQueueStart
  dsimp only
  with_reducible refine next_okeeps ?_
  with_reducible refine ite_keeps ?_ ?_
  · with_reducible apply State.elapseTo_keeps
    with_reducible assumption
  · split
    · with_reducible apply State.startTx_keeps
      with_reducible apply State.setPort_keeps
      with_reducible apply State.elapseTo_keeps
      with_reducible assumption
    · with_reducible refine ite_keeps ?_ ?_
      · with_reducible apply State.elapseTo_keeps
        with_reducible assumption
      · split
        · with_reducible apply State.beginTx_keeps
          with_reducible apply State.elapseTo_keeps
          with_reducible assumption
        · with_reducible apply State.elapseTo_keeps
          with_reducible assumption

theorem State.startPause_keeps {s0 : State} (s : State) (p : Nat) (hk : Keeps s0 s) :
    Keeps s0 (State.startPause s p) := by
  unfold State.startPause
  split
  · with_reducible apply State.setPort_keeps
    with_reducible assumption
  · with_reducible assumption

theorem State.endTx_keeps {s0 : State} (s : State) (p : Nat) (t : TxSt) (hk : Keeps s0 s) :
    Keeps s0 (State.endTx s p t) := by
  unfold State.endTx
  split
  · with_reducible apply State.setPort_keeps
    with_reducible apply State.cvuTapRest_keeps
    with_reducible assumption
  · with_reducible apply State.setPort_keeps
    with_reducible apply State.cvuTapRest_keeps
    with_reducible assumption
  · split
    · with_reducible apply State.setPort_keeps
      with_reducible assumption
    · with_reducible refine ite_keeps ?_ ?_
      · with_reducible assumption
      · dsimp only
        with_reducible apply State.updPkt_keeps
        with_reducible apply State.setPort_keeps
        with_reducible apply State.cvuTapRest_keeps
        with_reducible assumption

theorem execTxFrameDone_keeps {s0 : State} (at_ : Vt) (port : Fin 6) (s : State) (hk : Keeps s0 s) :
    OKeeps s0 (execTxFrameDone at_ port s) := by
  unfold execTxFrameDone
  extract_lets +onlyGivenNames x1
  have h1 : Keeps s0 x1 := by
    unfold x1
    with_reducible apply State.elapseTo_keeps
    with_reducible assumption
  clear_value x1
  with_reducible refine next_okeeps ?_
  split
  · extract_lets +onlyGivenNames x2
    have h2 : Keeps s0 x2 := by
      unfold x2
      with_reducible apply State.endTx_keeps
      with_reducible assumption
    clear_value x2
    with_reducible refine ite_keeps ?_ ?_
    · with_reducible apply State.startPause_keeps
      with_reducible assumption
    · with_reducible assumption
  · with_reducible assumption

theorem execCellRelease_keeps {s0 : State} (core : Bool) (s : State) (hk : Keeps s0 s) :
    OKeeps s0 (execCellRelease core s) := by
  unfold execCellRelease
  extract_lets +onlyGivenNames x1
  clear_value x1
  with_reducible refine next_okeeps ?_
  split
  · with_reducible apply State.updPkt_keeps
    with_reducible assumption
  · with_reducible assumption

theorem State.freeCoreCells_keeps {s0 : State} (s : State) (hk : Keeps s0 s) :
    Keeps s0 (State.freeCoreCells s) := by
  unfold State.freeCoreCells
  with_reducible apply State.setPkb_keeps
  with_reducible assumption

theorem execFlowControlPauseResend_keeps {s0 : State} (port : Fin 6) (s : State) (hk : Keeps s0 s) :
    OKeeps s0 (execFlowControlPauseResend port s) := by
  unfold execFlowControlPauseResend
  with_reducible refine next_okeeps ?_
  with_reducible refine ite_keeps ?_ ?_
  · with_reducible apply State.queuePause_keeps
    with_reducible assumption
  · with_reducible assumption

theorem State.pauseRx_keeps {s0 : State} (s : State) (p q : Nat) (hk : Keeps s0 s) :
    Keeps s0 (State.pauseRx s p q) := by
  unfold State.pauseRx
  with_reducible refine ite_keeps ?_ ?_
  · with_reducible assumption
  · with_reducible refine ite_keeps ?_ ?_
    · with_reducible apply State.wr_keeps
      with_reducible apply State.setPort_keeps
      with_reducible assumption
    · extract_lets +onlyGivenNames x1
      clear_value x1
      extract_lets +onlyGivenNames x2
      clear_value x2
      extract_lets +onlyGivenNames x3
      clear_value x3
      extract_lets +onlyGivenNames x4
      have h4 : Keeps s0 x4 := by
        unfold x4
        with_reducible apply State.wr_keeps
        with_reducible apply State.setPort_keeps
        with_reducible assumption
      clear_value x4
      with_reducible refine ite_keeps ?_ ?_
      · with_reducible assumption
      · with_reducible apply State.raise_keeps
        with_reducible assumption

theorem execPauseExpiry_keeps {s0 : State} (at_ : Vt) (port : Fin 6) (s : State) (hk : Keeps s0 s) :
    OKeeps s0 (execPauseExpiry at_ port s) := by
  unfold execPauseExpiry
  extract_lets +onlyGivenNames x1
  have h1 : Keeps s0 x1 := by
    unfold x1
    with_reducible apply State.elapseTo_keeps
    with_reducible assumption
  clear_value x1
  extract_lets +onlyGivenNames x2
  clear_value x2
  with_reducible refine next_okeeps ?_
  with_reducible refine ite_keeps ?_ ?_
  · with_reducible apply State.wr_keeps
    with_reducible apply State.setPort_keeps
    with_reducible assumption
  · with_reducible assumption

theorem execLpiEnter_keeps {s0 : State} (at_ : Vt) (port : Fin 6) (due : Bool) (s : State) (hk : Keeps s0 s) :
    OKeeps s0 (execLpiEnter at_ port due s) := by
  unfold execLpiEnter
  extract_lets +onlyGivenNames x1
  have h1 : Keeps s0 x1 := by
    unfold x1
    with_reducible apply State.elapseTo_keeps
    with_reducible assumption
  clear_value x1
  extract_lets +onlyGivenNames x2
  clear_value x2
  extract_lets +onlyGivenNames x3
  clear_value x3
  with_reducible refine next_okeeps ?_
  with_reducible refine ite_keeps ?_ ?_
  · with_reducible apply State.wr_keeps
    with_reducible assumption
  · with_reducible assumption

theorem execLpiExit_keeps {s0 : State} (at_ : Vt) (port : Fin 6) (due : Bool) (s : State) (hk : Keeps s0 s) :
    OKeeps s0 (execLpiExit at_ port due s) := by
  unfold execLpiExit
  extract_lets +onlyGivenNames x1
  have h1 : Keeps s0 x1 := by
    unfold x1
    with_reducible apply State.elapseTo_keeps
    with_reducible assumption
  clear_value x1
  extract_lets +onlyGivenNames x2
  clear_value x2
  extract_lets +onlyGivenNames x3
  clear_value x3
  with_reducible refine next_okeeps ?_
  with_reducible refine ite_keeps ?_ ?_
  · with_reducible apply State.setPort_keeps
    with_reducible apply State.wr_keeps
    with_reducible assumption
  · with_reducible assumption

theorem execLpiWakeFrame_keeps {s0 : State} (at_ : Vt) (port : Fin 6) (s : State) (hk : Keeps s0 s) :
    OKeeps s0 (execLpiWakeFrame at_ port s) := by
  unfold execLpiWakeFrame
  with_reducible refine next_okeeps ?_
  with_reducible apply State.lpiWake_keeps
  with_reducible apply State.elapseTo_keeps
  with_reducible assumption

theorem execPartnerLpi_keeps {s0 : State} (port : Fin 6) (enter : Bool) (s : State) (hk : Keeps s0 s) :
    OKeeps s0 (execPartnerLpi port enter s) := by
  unfold execPartnerLpi
  with_reducible refine next_okeeps ?_
  with_reducible refine ite_keeps ?_ ?_
  · with_reducible apply State.wrB_keeps
    with_reducible assumption
  · with_reducible assumption

theorem State.fwdCfgWrite_keeps {s0 : State} (s : State) (w : Word) (hk : Keeps s0 s) :
    Keeps s0 (State.fwdCfgWrite s w) := by
  unfold State.fwdCfgWrite
  dsimp only
  with_reducible apply State.ringEval_keeps
  with_reducible refine ite_keeps ?_ ?_
  · with_reducible apply State.setReg_keeps
    with_reducible assumption
  · with_reducible apply State.setW1c_keeps
    with_reducible apply State.wr_keeps
    with_reducible apply State.setReg_keeps
    with_reducible assumption

theorem State.fwdXoffWrite_keeps {s0 : State} (s : State) (w : Word) (hk : Keeps s0 s) :
    Keeps s0 (State.fwdXoffWrite s w) := by
  unfold State.fwdXoffWrite
  with_reducible refine ite_keeps ?_ ?_
  · with_reducible apply State.flowCheck_keeps
    with_reducible apply State.setReg_keeps
    with_reducible assumption
  · with_reducible apply State.setW1c_keeps
    with_reducible assumption

theorem State.ledgerSnap_keeps {s0 : State} (s : State) (hk : Keeps s0 s) :
    Keeps s0 (State.ledgerSnap s) := by
  unfold State.ledgerSnap
  extract_lets +onlyGivenNames x1
  have h1 : Keeps s0 x1 := by
    unfold x1
    with_reducible apply State.wr_keeps
    with_reducible apply State.wr_keeps
    with_reducible assumption
  clear_value x1
  with_reducible apply State.wr_keeps
  with_reducible apply State.wr_keeps
  with_reducible assumption

theorem State.dupTest_keeps {s0 : State} (s : State) (src cls session : Nat) (seq : Word) (hk : Keeps s0 s) :
    Keeps s0 (State.dupTest s src cls session seq).2 := by
  unfold State.dupTest
  with_reducible refine ite_keeps_snd ?_ ?_
  · with_reducible assumption
  · dsimp only
    split
    · with_reducible refine ite_keeps ?_ ?_
      · with_reducible apply State.bump_keeps
        with_reducible refine ite_keeps ?_ ?_
        · with_reducible apply State.bump_keeps
          with_reducible refine keeps_mk_of (keeps_parts ?_)
          with_reducible assumption
        · with_reducible refine keeps_mk_of (keeps_parts ?_)
          with_reducible assumption
      · with_reducible refine ite_keeps ?_ ?_
        · with_reducible apply State.bump_keeps
          with_reducible refine keeps_mk_of (keeps_parts ?_)
          with_reducible assumption
        · with_reducible refine keeps_mk_of (keeps_parts ?_)
          with_reducible assumption
    · with_reducible apply State.bumpWrap_keeps
      with_reducible refine ite_keeps ?_ ?_
      · with_reducible apply State.bump_keeps
        with_reducible refine ite_keeps ?_ ?_
        · with_reducible apply State.bump_keeps
          with_reducible refine keeps_mk_of (keeps_parts ?_)
          with_reducible assumption
        · with_reducible refine keeps_mk_of (keeps_parts ?_)
          with_reducible assumption
      · with_reducible refine ite_keeps ?_ ?_
        · with_reducible apply State.bump_keeps
          with_reducible refine keeps_mk_of (keeps_parts ?_)
          with_reducible assumption
        · with_reducible refine keeps_mk_of (keeps_parts ?_)
          with_reducible assumption
    · with_reducible apply State.bump_keeps
      with_reducible refine ite_keeps ?_ ?_
      · with_reducible apply State.bump_keeps
        with_reducible refine ite_keeps ?_ ?_
        · with_reducible apply State.bump_keeps
          with_reducible refine keeps_mk_of (keeps_parts ?_)
          with_reducible assumption
        · with_reducible refine keeps_mk_of (keeps_parts ?_)
          with_reducible assumption
      · with_reducible refine ite_keeps ?_ ?_
        · with_reducible apply State.bump_keeps
          with_reducible refine keeps_mk_of (keeps_parts ?_)
          with_reducible assumption
        · with_reducible refine keeps_mk_of (keeps_parts ?_)
          with_reducible assumption

theorem execDupWindowAge_keeps {s0 : State} (at_ : Vt) (s : State) (hk : Keeps s0 s) :
    OKeeps s0 (execDupWindowAge at_ s) := by
  unfold execDupWindowAge
  extract_lets +onlyGivenNames x1
  have h1 : Keeps s0 x1 := by
    unfold x1
    with_reducible apply State.elapseTo_keeps
    with_reducible assumption
  clear_value x1
  extract_lets +onlyGivenNames x2
  clear_value x2
  with_reducible refine next_okeeps ?_
  with_reducible refine keeps_mk_of (keeps_parts ?_)
  with_reducible assumption

end Sys2Proof.Machine
end

