-- ==== Sys2Proof/Laws/KeepsKlp.lean ====
section
/-! SUPPORT. The operations of Klp.lean keep the queue and the canonical forms. -/
namespace Sys2Proof.Machine

theorem State.setSession_keeps {s0 : State} (s : State) (i : Nat) (x : Session) (hk : Keeps s0 s) :
    Keeps s0 (State.setSession s i x) := by
  unfold State.setSession
  with_reducible refine keeps_mk_of (keeps_parts ?_)
  with_reducible assumption

theorem State.updSession_keeps {s0 : State} (s : State) (h : Nat) (f : Session → Session) (hk : Keeps s0 s) :
    Keeps s0 (State.updSession s h f) := by
  unfold State.updSession
  split
  · with_reducible apply State.setSession_keeps
    with_reducible assumption
  · with_reducible assumption

theorem State.closeSession_keeps {s0 : State} (s : State) (i : Nat) (hk : Keeps s0 s) :
    Keeps s0 (State.closeSession s i) := by
  unfold State.closeSession
  split
  · with_reducible assumption
  · dsimp only
    with_reducible apply State.advanceGen_keeps
    with_reducible refine keeps_mk_of (keeps_parts ?_)
    with_reducible refine foldl_keeps ?_ ?_
    · intro t0_0 t0_1 h0
      with_reducible apply State.advanceGen_keeps
      with_reducible refine keeps_mk_of (keeps_parts ?_)
      with_reducible assumption
    · with_reducible assumption

theorem State.closeSessions_keeps {s0 : State} (s : State) (hk : Keeps s0 s) :
    Keeps s0 (State.closeSessions s) := by
  unfold State.closeSessions
  with_reducible refine foldl_keeps ?_ ?_
  · intro t1_0 t1_1 h1
    with_reducible apply State.closeSession_keeps
    with_reducible assumption
  · with_reducible assumption

theorem State.hearPartner_keeps {s0 : State} (s : State) (src : Nat) (hk : Keeps s0 s) :
    Keeps s0 (State.hearPartner s src) := by
  unfold State.hearPartner
  with_reducible refine keeps_mk_of (keeps_parts ?_)
  with_reducible assumption

theorem execSessionIdleTimeout_keeps {s0 : State} (at_ : Vt) (n : Fin 32) (s : State) (hk : Keeps s0 s) :
    OKeeps s0 (execSessionIdleTimeout at_ n s) := by
  unfold execSessionIdleTimeout
  extract_lets +onlyGivenNames x1
  have h1 : Keeps s0 x1 := by
    unfold x1
    with_reducible apply State.elapseTo_keeps
    with_reducible assumption
  clear_value x1
  with_reducible refine next_okeeps ?_
  split
  · extract_lets +onlyGivenNames x2
    clear_value x2
    with_reducible refine ite_keeps ?_ ?_
    · with_reducible apply State.closeSession_keeps
      with_reducible assumption
    · with_reducible assumption
  · with_reducible assumption

theorem State.setGrant_keeps {s0 : State} (s : State) (h want : Nat) (hk : Keeps s0 s) :
    Keeps s0 (State.setGrant s h want).2 := by
  unfold State.setGrant
  split
  · extract_lets +onlyGivenNames x1
    clear_value x1
    with_reducible refine mkpair_keeps ?_
    with_reducible apply State.setSession_keeps
    with_reducible assumption
  · with_reducible refine mkpair_keeps ?_
    with_reducible assumption

theorem State.ipHead_keeps {s0 : State} (s : State) (ip len : Nat) (hk : Keeps s0 s) :
    Keeps s0 (State.ipHead s ip len).2 := by
  unfold State.ipHead
  split
  dsimp only
  with_reducible apply keeps_pair; with_reducible assumption
  with_reducible apply State.draw_keeps
  with_reducible assumption

theorem State.udpHead_keeps {s0 : State} (s : State) (ip port : Nat) (packet : List Byte) (hk : Keeps s0 s) :
    Keeps s0 (State.udpHead s ip port packet).2 := by
  unfold State.udpHead
  dsimp only
  with_reducible apply State.ipHead_keeps
  with_reducible assumption

theorem State.sendKlp_keeps {s0 : State} (s : State) (peer : ReplyTo) (h : KlpHdr) (body : List Byte) (hk : Keeps s0 s) :
    Keeps s0 (State.sendKlp s peer h body) := by
  unfold State.sendKlp
  extract_lets +onlyGivenNames x1
  clear_value x1
  split
  · with_reducible apply State.originate_keeps
    with_reducible apply keeps_pair; with_reducible assumption
    split
    · with_reducible apply State.udpHead_keeps
      with_reducible assumption
    · with_reducible refine mkpair_keeps ?_
      with_reducible assumption

theorem State.streamSeq_keeps {s0 : State} (s : State) (m : OutMsg) (hk : Keeps s0 s) :
    Keeps s0 (State.streamSeq s m).2 := by
  unfold State.streamSeq
  dsimp only
  with_reducible refine ite_keeps ?_ ?_
  · with_reducible refine keeps_mk_of (keeps_parts ?_)
    split
    · with_reducible assumption
    · with_reducible apply State.draw_keeps
      with_reducible assumption
  · split
    · with_reducible assumption
    · with_reducible apply State.draw_keeps
      with_reducible assumption

theorem State.sendOut_keeps {s0 : State} (s : State) (m : OutMsg) (hk : Keeps s0 s) :
    Keeps s0 (State.sendOut s m) := by
  unfold State.sendOut
  dsimp only
  split
  · with_reducible apply State.updSession_keeps
    with_reducible refine ite_keeps ?_ ?_
    · with_reducible apply State.sendKlp_keeps
      split
      · with_reducible assumption
      · with_reducible apply State.streamSeq_keeps
        with_reducible assumption
    · split
      · with_reducible assumption
      · with_reducible apply State.streamSeq_keeps
        with_reducible assumption
  · with_reducible refine ite_keeps ?_ ?_
    · with_reducible apply State.sendKlp_keeps
      split
      · with_reducible assumption
      · with_reducible apply State.streamSeq_keeps
        with_reducible assumption
    · split
      · with_reducible assumption
      · with_reducible apply State.streamSeq_keeps
        with_reducible assumption

theorem State.queueOut_keeps {s0 : State} (s : State) (m : OutMsg) (hk : Keeps s0 s) :
    Keeps s0 (State.queueOut s m) := by
  unfold State.queueOut
  with_reducible refine keeps_mk_of (keeps_parts ?_)
  with_reducible assumption

theorem State.refuseCommand_keeps {s0 : State} (s : State) (peer : ReplyTo) (session : Option Nat) (field tag op : Nat) (st : Status) (hk : Keeps s0 s) :
    Keeps s0 (State.refuseCommand s peer session field tag op st) := by
  unfold State.refuseCommand
  extract_lets +onlyGivenNames x1
  clear_value x1
  with_reducible apply State.queueOut_keeps
  with_reducible assumption

theorem State.helloRefuse_keeps {s0 : State} (s : State) (peer : ReplyTo) (tag index : Nat) (st : Status) (hk : Keeps s0 s) :
    Keeps s0 (State.helloRefuse s peer tag index st) := by
  unfold State.helloRefuse
  with_reducible apply State.queueOut_keeps
  with_reducible assumption

theorem State.authFail_keeps {s0 : State} (s : State) (src : Nat) (hk : Keeps s0 s) :
    Keeps s0 (State.authFail s src) := by
  unfold State.authFail
  with_reducible apply State.bump_keeps
  with_reducible apply State.raise_keeps
  with_reducible assumption

theorem State.helloOpen_keeps {s0 : State} (s : State) (peer : ReplyTo) (tag key index credits caps : Nat) (v : Nat × Nat) (hk : Keeps s0 s) :
    Keeps s0 (State.helloOpen s peer tag key index credits caps v) := by
  unfold State.helloOpen
  extract_lets +onlyGivenNames x1
  have h1 : Keeps s0 x1 := by
    unfold x1
    with_reducible refine ite_keeps ?_ ?_
    · with_reducible apply State.closeSession_keeps
      with_reducible assumption
    · with_reducible assumption
  clear_value x1
  extract_lets +onlyGivenNames x2
  clear_value x2
  extract_lets +onlyGivenNames x3
  clear_value x3
  extract_lets +onlyGivenNames x4
  clear_value x4
  extract_lets +onlyGivenNames x5
  have h5 : Keeps s0 x5 := by
    unfold x5
    with_reducible refine ite_keeps ?_ ?_
    · with_reducible refine keeps_mk_of (keeps_parts ?_)
      with_reducible assumption
    · with_reducible assumption
  clear_value x5
  extract_lets +onlyGivenNames x6
  clear_value x6
  extract_lets +onlyGivenNames x7
  clear_value x7
  extract_lets +onlyGivenNames x8
  clear_value x8
  extract_lets +onlyGivenNames x9
  clear_value x9
  extract_lets +onlyGivenNames x10
  have h10 : Keeps s0 x10 := by
    unfold x10
    with_reducible apply State.setSession_keeps
    with_reducible assumption
  clear_value x10
  with_reducible apply State.queueOut_keeps
  with_reducible assumption

theorem State.helloRx_keeps {s0 : State} (s : State) (peer : ReplyTo) (tag : Nat) (p : List Byte) (hk : Keeps s0 s) :
    Keeps s0 (State.helloRx s peer tag p) := by
  unfold State.helloRx
  extract_lets +onlyGivenNames x1
  clear_value x1
  extract_lets +onlyGivenNames x2
  clear_value x2
  with_reducible refine ite_keeps ?_ ?_
  · with_reducible assumption
  · with_reducible refine ite_keeps ?_ ?_
    · with_reducible apply State.helloRefuse_keeps
      with_reducible assumption
    · with_reducible refine ite_keeps ?_ ?_
      · with_reducible apply State.helloRefuse_keeps
        with_reducible assumption
      · split
        · with_reducible apply State.helloRefuse_keeps
          with_reducible assumption
        · split
          · with_reducible apply State.helloRefuse_keeps
            with_reducible apply State.authFail_keeps
            with_reducible assumption
          · with_reducible apply State.helloRefuse_keeps
            with_reducible assumption
          · with_reducible apply State.helloOpen_keeps
            with_reducible assumption

theorem execHello_keeps {s0 : State} (at_ : Vt) (src : BitVec 12) (mac : BitVec 48) (udp : Option (Nat × Nat)) (tag : Word) (payload : List Byte) (s : State) (hk : Keeps s0 s) :
    OKeeps s0 (execHello at_ src mac udp tag payload s) := by
  unfold execHello
  with_reducible refine next_okeeps ?_
  with_reducible apply State.helloRx_keeps
  with_reducible apply State.hearPartner_keeps
  with_reducible apply State.elapseTo_keeps
  with_reducible assumption

theorem State.followTake_keeps {s0 : State} (s : State) (p : List Byte) (hk : Keeps s0 s) :
    Keeps s0 (State.followTake s p) := by
  unfold State.followTake
  dsimp only
  with_reducible refine keeps_mk_of (keeps_parts ?_)
  with_reducible apply State.hwWrSh_keeps
  with_reducible apply State.hwWrSh_keeps
  with_reducible apply State.hwWrSh_keeps
  with_reducible apply State.hwWrSh_keeps
  with_reducible apply State.hwWrSh_keeps
  with_reducible assumption

theorem State.timeRx_keeps {s0 : State} (s : State) (verMaj session : Nat) (p : List Byte) (hk : Keeps s0 s) :
    Keeps s0 (State.timeRx s verMaj session p) := by
  unfold State.timeRx
  with_reducible refine ite_keeps ?_ ?_
  · with_reducible assumption
  · split
    · with_reducible refine ite_keeps ?_ ?_
      · with_reducible assumption
      · with_reducible refine ite_keeps ?_ ?_
        · with_reducible apply State.followTake_keeps
          with_reducible assumption
        · with_reducible apply State.bump_keeps
          with_reducible assumption
    · with_reducible apply State.bump_keeps
      with_reducible assumption

theorem execTimePacket_keeps {s0 : State} (verMaj : BitVec 8) (session : Word) (payload : List Byte) (s : State) (hk : Keeps s0 s) :
    OKeeps s0 (execTimePacket verMaj session payload s) := by
  unfold execTimePacket
  with_reducible refine next_okeeps ?_
  with_reducible apply State.timeRx_keeps
  with_reducible assumption

theorem State.deliverEvents_keeps {s0 : State} (s : State) (i : Nat) (hk : Keeps s0 s) :
    Keeps s0 (State.deliverEvents s i) := by
  unfold State.deliverEvents
  split
  · with_reducible assumption
  · split
    · with_reducible assumption
    · with_reducible refine ite_keeps ?_ ?_
      · with_reducible assumption
      · dsimp only
        with_reducible apply State.updSession_keeps
        with_reducible apply State.sendKlp_keeps
        with_reducible refine keeps_mk_of (keeps_parts ?_)
        with_reducible assumption

theorem execEventDelivery_keeps {s0 : State} (at_ : Vt) (sub : Fin 128) (s : State) (hk : Keeps s0 s) :
    OKeeps s0 (execEventDelivery at_ sub s) := by
  unfold execEventDelivery
  with_reducible refine next_okeeps ?_
  with_reducible apply State.deliverEvents_keeps
  with_reducible apply State.elapseTo_keeps
  with_reducible assumption

theorem State.sendCensus_keeps {s0 : State} (s : State) (i frame : Nat) (body : List Byte) (hk : Keeps s0 s) :
    Keeps s0 (State.sendCensus s i frame body) := by
  unfold State.sendCensus
  split
  · with_reducible refine ite_keeps ?_ ?_
    · with_reducible assumption
    · extract_lets +onlyGivenNames x1
      have h1 : Keeps s0 x1 := by
        unfold x1
        with_reducible apply State.sendKlp_keeps
        with_reducible assumption
      clear_value x1
      with_reducible apply State.updSession_keeps
      with_reducible assumption
  · with_reducible assumption

theorem State.sendMap_keeps {s0 : State} (s : State) (i : Nat) (hk : Keeps s0 s) :
    Keeps s0 (State.sendMap s i) := by
  unfold State.sendMap
  with_reducible refine foldl_keeps ?_ ?_
  · intro t1_0 t1_1 h1
    with_reducible apply State.sendCensus_keeps
    with_reducible assumption
  · with_reducible assumption

theorem State.sendChanges_keeps {s0 : State} (s : State) (frame : Nat) (l : List MapChange) (i : Nat) (hk : Keeps s0 s) :
    Keeps s0 (State.sendChanges s frame l i) := by
  unfold State.sendChanges
  dsimp only
  with_reducible refine foldl_keeps ?_ ?_
  · intro t0_0 t0_1 h0
    with_reducible apply State.sendCensus_keeps
    with_reducible assumption
  · with_reducible assumption

theorem State.censusReport_keeps {s0 : State} (s : State) (hk : Keeps s0 s) :
    Keeps s0 (State.censusReport s) := by
  unfold State.censusReport
  with_reducible refine ite_keeps ?_ ?_
  · with_reducible assumption
  · extract_lets +onlyGivenNames x1
    have h1 : Keeps s0 x1 := by
      unfold x1
      with_reducible refine foldl_keeps ?_ ?_
      · intro t2_0 t2_1 h2
        with_reducible apply State.sendMap_keeps
        with_reducible assumption
      · with_reducible assumption
    clear_value x1
    extract_lets +onlyGivenNames x3
    clear_value x3
    extract_lets +onlyGivenNames x4
    have h4 : Keeps s0 x4 := by
      unfold x4
      with_reducible refine ite_keeps ?_ ?_
      · with_reducible refine keeps_mk_of (keeps_parts ?_)
        with_reducible assumption
      · with_reducible assumption
    clear_value x4
    split
    · with_reducible assumption
    · extract_lets +onlyGivenNames x5
      clear_value x5
      extract_lets +onlyGivenNames x6
      have h6 : Keeps s0 x6 := by
        unfold x6
        with_reducible refine foldl_keeps ?_ ?_
        · intro t7_0 t7_1 h7
          with_reducible apply State.sendChanges_keeps
          with_reducible assumption
        · with_reducible assumption
      clear_value x6
      with_reducible refine keeps_mk_of (keeps_parts ?_)
      with_reducible assumption

theorem execCensusReport_keeps {s0 : State} (at_ : Vt) (s : State) (hk : Keeps s0 s) :
    OKeeps s0 (execCensusReport at_ s) := by
  unfold execCensusReport
  with_reducible refine next_okeeps ?_
  with_reducible apply State.censusReport_keeps
  with_reducible apply State.elapseTo_keeps
  with_reducible assumption

end Sys2Proof.Machine
end

