-- ==== Sys2Proof/Laws/KeepsPtp.lean ====
section
/-! SUPPORT. The operations of Ptp.lean keep the queue and the canonical forms. -/
namespace Sys2Proof.Machine

theorem State.ptpSend_keeps {s0 : State} (s : State) (p : Nat) (udp : Bool) (ingress : Option (Nat × Nat)) (m : PtpBody) (hk : Keeps s0 s) :
    Keeps s0 (State.ptpSend s p udp ingress m) := by
  unfold State.ptpSend
  dsimp only
  with_reducible refine ite_keeps ?_ ?_
  · with_reducible assumption
  · with_reducible apply State.originateOn_keeps
    with_reducible refine ite_keeps_snd ?_ ?_
    · with_reducible refine mkpair_keeps ?_
      with_reducible apply State.ipHead_keeps
      with_reducible assumption
    · with_reducible assumption

theorem State.ptpNext_keeps {s0 : State} (s : State) (p type : Nat) (hk : Keeps s0 s) :
    Keeps s0 (State.ptpNext s p type).2 := by
  unfold State.ptpNext
  dsimp only
  with_reducible refine keeps_mk_of (keeps_parts ?_)
  with_reducible assumption

theorem State.ptpOwn_keeps {s0 : State} (s : State) (p type flags interval : Nat) (tail : List Byte) (carriers : List Bool) (hk : Keeps s0 s) :
    Keeps s0 (State.ptpOwn s p type flags interval tail carriers) := by
  unfold State.ptpOwn
  split
  with_reducible refine foldl_keeps ?_ ?_
  · intro t0_0 t0_1 h0
    with_reducible apply State.ptpSend_keeps
    with_reducible assumption
  · with_reducible apply keeps_pair; with_reducible assumption
    with_reducible apply State.ptpNext_keeps
    with_reducible assumption

theorem State.sendDelayReq_keeps {s0 : State} (s : State) (p : Nat) (hk : Keeps s0 s) :
    Keeps s0 (State.sendDelayReq s p) := by
  unfold State.sendDelayReq
  with_reducible refine ite_keeps ?_ ?_
  · with_reducible apply State.ptpOwn_keeps
    with_reducible assumption
  · dsimp only
    with_reducible apply State.ptpOwn_keeps
    with_reducible assumption

theorem State.setDelay_keeps {s0 : State} (s : State) (p d next : Nat) (hk : Keeps s0 s) :
    Keeps s0 (State.setDelay s p d next) := by
  unfold State.setDelay
  dsimp only
  with_reducible refine ite_keeps ?_ ?_
  · with_reducible apply State.setTimePort_keeps
    with_reducible refine keeps_mk_of (keeps_parts ?_)
    with_reducible assumption
  · with_reducible refine keeps_mk_of (keeps_parts ?_)
    with_reducible assumption

theorem execDelayMeasurement_keeps {s0 : State} (at_ : Vt) (port : Fin 6) (delay : BitVec 48) (logInterval : BitVec 8) (s : State) (hk : Keeps s0 s) :
    OKeeps s0 (execDelayMeasurement at_ port delay logInterval s) := by
  unfold execDelayMeasurement
  dsimp only
  with_reducible refine next_okeeps ?_
  with_reducible refine ite_keeps ?_ ?_
  · with_reducible apply State.setDelay_keeps
    with_reducible apply State.sendDelayReq_keeps
    with_reducible apply State.elapseTo_keeps
    with_reducible assumption
  · with_reducible apply State.elapseTo_keeps
    with_reducible assumption

theorem State.announceTail_keeps {s0 : State} (s : State) (hk : Keeps s0 s) :
    Keeps s0 (State.announceTail s).2 := by
  unfold State.announceTail
  split
  with_reducible refine mkpair_keeps ?_
  with_reducible apply keeps_pair; with_reducible assumption
  with_reducible apply State.draw_keeps
  with_reducible assumption

theorem State.gmSend_keeps {s0 : State} (s : State) (p : Nat) (hk : Keeps s0 s) :
    Keeps s0 (State.gmSend s p) := by
  unfold State.gmSend
  split
  split
  with_reducible apply State.ptpOwn_keeps
  with_reducible apply State.ptpOwn_keeps
  with_reducible apply keeps_pair; with_reducible assumption
  with_reducible apply State.announceTail_keeps
  with_reducible apply keeps_pair; with_reducible assumption
  with_reducible apply State.draw_keeps
  with_reducible assumption

theorem execGmSyncAnnounce_keeps {s0 : State} (at_ : Vt) (s : State) (hk : Keeps s0 s) :
    OKeeps s0 (execGmSyncAnnounce at_ s) := by
  unfold execGmSyncAnnounce
  dsimp only
  with_reducible refine next_okeeps ?_
  with_reducible refine ite_keeps ?_ ?_
  · with_reducible refine foldl_keeps ?_ ?_
    · intro t0_0 t0_1 h0
      with_reducible apply State.gmSend_keeps
      with_reducible assumption
    · with_reducible apply State.elapseTo_keeps
      with_reducible assumption
  · with_reducible apply State.elapseTo_keeps
    with_reducible assumption

theorem State.delayResp_keeps {s0 : State} (s : State) (p : Nat) (udp : Bool) (at_ : Nat) (msg : List Byte) (hk : Keeps s0 s) :
    Keeps s0 (State.delayResp s p udp at_ msg) := by
  unfold State.delayResp
  dsimp only
  with_reducible apply State.ptpSend_keeps
  with_reducible assumption

theorem State.pdelayResp_keeps {s0 : State} (s : State) (p : Nat) (udp : Bool) (at_ : Nat) (msg : List Byte) (hk : Keeps s0 s) :
    Keeps s0 (State.pdelayResp s p udp at_ msg) := by
  unfold State.pdelayResp
  with_reducible apply State.ptpSend_keeps
  with_reducible assumption

theorem State.ptpRx_keeps {s0 : State} (s : State) (p : Nat) (f : List Byte) (at_ : Nat) (hk : Keeps s0 s) :
    Keeps s0 (State.ptpRx s p f at_) := by
  unfold State.ptpRx
  split
  · with_reducible assumption
  · dsimp only
    with_reducible refine ite_keeps ?_ ?_
    · with_reducible assumption
    · with_reducible refine ite_keeps ?_ ?_
      · with_reducible apply State.delayResp_keeps
        with_reducible assumption
      · with_reducible refine ite_keeps ?_ ?_
        · with_reducible apply State.pdelayResp_keeps
          with_reducible assumption
        · with_reducible assumption

end Sys2Proof.Machine
end

