-- ==== Sys2Proof/Laws/KeepsRook.lean ====
section
/-! SUPPORT. The operations of Rook.lean keep the queue and the canonical forms. -/
namespace Sys2Proof.Machine

theorem State.goIdle_keeps {s0 : State} (s : State) (hk : Keeps s0 s) :
    Keeps s0 (State.goIdle s) := by
  unfold State.goIdle
  dsimp only
  with_reducible refine ite_keeps ?_ ?_
  · with_reducible apply State.epochNow_keeps
    with_reducible apply State.stepNow_keeps
    with_reducible apply State.castleNow_keeps
    with_reducible apply State.scanIdle_keeps
    with_reducible assumption
  · with_reducible apply State.scanIdle_keeps
    with_reducible assumption

theorem State.gckStop_keeps {s0 : State} (s : State) (hk : Keeps s0 s) :
    Keeps s0 (State.gckStop s) := by
  unfold State.gckStop
  dsimp only
  with_reducible refine keeps_mk_of (keeps_parts ?_)
  with_reducible apply State.wr_keeps
  with_reducible apply State.wr_keeps
  with_reducible assumption

theorem State.enterState_keeps {s0 : State} (s : State) (st : Nat) (hk : Keeps s0 s) :
    Keeps s0 (State.enterState s st) := by
  unfold State.enterState
  dsimp only
  with_reducible apply State.floorFall_keeps
  with_reducible apply State.mirFollow_keeps
  with_reducible refine ite_keeps ?_ ?_
  · with_reducible refine ite_keeps ?_ ?_
    · with_reducible apply State.wr_keeps
      with_reducible assumption
    · with_reducible apply State.goIdle_keeps
      with_reducible apply State.wr_keeps
      with_reducible assumption
  · with_reducible apply State.gckStop_keeps
    with_reducible apply State.pawnsHalt_keeps
    with_reducible refine ite_keeps ?_ ?_
    · with_reducible apply State.wr_keeps
      with_reducible assumption
    · with_reducible apply State.goIdle_keeps
      with_reducible apply State.wr_keeps
      with_reducible assumption

theorem State.darkEnter_keeps {s0 : State} (s : State) (cause : Nat) (hk : Keeps s0 s) :
    Keeps s0 (State.darkEnter s cause) := by
  unfold State.darkEnter
  dsimp only
  with_reducible refine ite_keeps ?_ ?_
  · with_reducible apply State.floorFall_keeps
    with_reducible apply State.mirFollow_keeps
    with_reducible apply State.pawnsHalt_keeps
    with_reducible apply State.goIdle_keeps
    with_reducible apply State.wr_keeps
    with_reducible refine keeps_mk_of (keeps_parts ?_)
    with_reducible assumption
  · with_reducible apply State.wr_keeps
    with_reducible refine keeps_mk_of (keeps_parts ?_)
    with_reducible assumption

theorem State.darkLeave_keeps {s0 : State} (s : State) (cause : Nat) (hk : Keeps s0 s) :
    Keeps s0 (State.darkLeave s cause) := by
  unfold State.darkLeave
  extract_lets +onlyGivenNames x1
  clear_value x1
  extract_lets +onlyGivenNames x2
  clear_value x2
  extract_lets +onlyGivenNames x3
  clear_value x3
  extract_lets +onlyGivenNames x4
  have h4 : Keeps s0 x4 := by
    unfold x4
    with_reducible refine keeps_mk_of (keeps_parts ?_)
    with_reducible assumption
  clear_value x4
  with_reducible refine ite_keeps ?_ ?_
  · extract_lets +onlyGivenNames x5
    have h5 : Keeps s0 x5 := by
      unfold x5
      with_reducible apply State.wr_keeps
      with_reducible assumption
    clear_value x5
    extract_lets +onlyGivenNames x6
    have h6 : Keeps s0 x6 := by
      unfold x6
      with_reducible apply State.mirFollow_keeps
      with_reducible assumption
    clear_value x6
    with_reducible refine keeps_mk_of (keeps_parts ?_)
    with_reducible assumption
  · with_reducible assumption

theorem execDieTempWarn_keeps {s0 : State} (at_ : Vt) (s : State) (hk : Keeps s0 s) :
    OKeeps s0 (execDieTempWarn at_ s) := by
  unfold execDieTempWarn
  extract_lets +onlyGivenNames x1
  have h1 : Keeps s0 x1 := by
    unfold x1
    with_reducible apply State.elapseTo_keeps
    with_reducible assumption
  clear_value x1
  with_reducible refine next_okeeps ?_
  with_reducible refine ite_keeps ?_ ?_
  · with_reducible assumption
  · with_reducible apply State.raise_keeps
    with_reducible apply State.wr_keeps
    with_reducible assumption

theorem execDieTempWarnClear_keeps {s0 : State} (s : State) (hk : Keeps s0 s) :
    OKeeps s0 (execDieTempWarnClear s) := by
  unfold execDieTempWarnClear
  with_reducible refine next_okeeps ?_
  with_reducible apply State.wr_keeps
  with_reducible assumption

theorem execDieTempShutdown_keeps {s0 : State} (at_ : Vt) (s : State) (hk : Keeps s0 s) :
    OKeeps s0 (execDieTempShutdown at_ s) := by
  unfold execDieTempShutdown
  extract_lets +onlyGivenNames x1
  have h1 : Keeps s0 x1 := by
    unfold x1
    with_reducible apply State.elapseTo_keeps
    with_reducible assumption
  clear_value x1
  with_reducible refine next_okeeps ?_
  with_reducible refine ite_keeps ?_ ?_
  · with_reducible assumption
  · with_reducible apply State.raise_keeps
    with_reducible apply State.darkEnter_keeps
    with_reducible assumption

theorem execDieCoolResume_keeps {s0 : State} (at_ : Vt) (s : State) (hk : Keeps s0 s) :
    OKeeps s0 (execDieCoolResume at_ s) := by
  unfold execDieCoolResume
  extract_lets +onlyGivenNames x1
  have h1 : Keeps s0 x1 := by
    unfold x1
    with_reducible apply State.elapseTo_keeps
    with_reducible assumption
  clear_value x1
  with_reducible refine next_okeeps ?_
  with_reducible refine ite_keeps ?_ ?_
  · with_reducible apply State.raise_keeps
    with_reducible apply State.darkLeave_keeps
    with_reducible assumption
  · with_reducible assumption

theorem State.coreStop_keeps {s0 : State} (s : State) (hk : Keeps s0 s) :
    Keeps s0 (State.coreStop s) := by
  unfold State.coreStop
  extract_lets +onlyGivenNames x1
  clear_value x1
  extract_lets +onlyGivenNames x2
  have h2 : Keeps s0 x2 := by
    unfold x2
    with_reducible refine keeps_mk_of (keeps_parts ?_)
    with_reducible assumption
  clear_value x2
  with_reducible apply State.floorFall_keeps
  with_reducible apply State.wr_keeps
  with_reducible assumption

theorem State.coreRun_keeps {s0 : State} (s : State) (hk : Keeps s0 s) :
    Keeps s0 (State.coreRun s) := by
  unfold State.coreRun
  extract_lets +onlyGivenNames x1
  clear_value x1
  extract_lets +onlyGivenNames x2
  clear_value x2
  extract_lets +onlyGivenNames x3
  clear_value x3
  extract_lets +onlyGivenNames x4
  have h4 : Keeps s0 x4 := by
    unfold x4
    with_reducible refine keeps_mk_of (keeps_parts ?_)
    with_reducible assumption
  clear_value x4
  with_reducible apply State.wr_keeps
  with_reducible assumption

theorem State.coreRestart_keeps {s0 : State} (s : State) (hk : Keeps s0 s) :
    Keeps s0 (State.coreRestart s) := by
  unfold State.coreRestart
  extract_lets +onlyGivenNames x1
  have h1 : Keeps s0 x1 := by
    unfold x1
    with_reducible apply State.coreStop_keeps
    with_reducible apply State.bump_keeps
    with_reducible apply State.freeCoreCells_keeps
    with_reducible assumption
  clear_value x1
  with_reducible refine keeps_mk_of (keeps_parts ?_)
  with_reducible assumption

theorem State.debugAccess_keeps {s0 : State} (s : State) (hk : Keeps s0 s) :
    Keeps s0 (State.debugAccess s) := by
  unfold State.debugAccess
  with_reducible refine ite_keeps ?_ ?_
  · with_reducible assumption
  · extract_lets +onlyGivenNames x1
    have h1 : Keeps s0 x1 := by
      unfold x1
      with_reducible apply State.raise_keeps
      with_reducible assumption
    clear_value x1
    with_reducible refine keeps_mk_of (keeps_parts ?_)
    with_reducible assumption

theorem execDebugAccess_keeps {s0 : State} (s : State) (hk : Keeps s0 s) :
    OKeeps s0 (execDebugAccess s) := by
  unfold execDebugAccess
  with_reducible refine next_okeeps ?_
  extract_lets +onlyGivenNames x1
  have h1 : Keeps s0 x1 := by
    unfold x1
    with_reducible apply State.debugAccess_keeps
    with_reducible assumption
  clear_value x1
  with_reducible refine keeps_mk_of (keeps_parts ?_)
  with_reducible assumption

theorem execDebugHalt_keeps {s0 : State} (at_ : Vt) (s : State) (hk : Keeps s0 s) :
    OKeeps s0 (execDebugHalt at_ s) := by
  unfold execDebugHalt
  extract_lets +onlyGivenNames x1
  have h1 : Keeps s0 x1 := by
    unfold x1
    with_reducible apply State.elapseTo_keeps
    with_reducible assumption
  clear_value x1
  with_reducible refine next_okeeps ?_
  with_reducible refine ite_keeps ?_ ?_
  · with_reducible assumption
  · extract_lets +onlyGivenNames x2
    have h2 : Keeps s0 x2 := by
      unfold x2
      with_reducible apply State.debugAccess_keeps
      with_reducible assumption
    clear_value x2
    extract_lets +onlyGivenNames x3
    clear_value x3
    extract_lets +onlyGivenNames x4
    have h4 : Keeps s0 x4 := by
      unfold x4
      with_reducible refine keeps_mk_of (keeps_parts ?_)
      with_reducible assumption
    clear_value x4
    with_reducible apply State.raise_keeps
    with_reducible apply State.spwmHalt_keeps
    with_reducible apply State.coreStop_keeps
    with_reducible apply State.wr_keeps
    with_reducible assumption

theorem execDebugRelease_keeps {s0 : State} (at_ : Vt) (s : State) (hk : Keeps s0 s) :
    OKeeps s0 (execDebugRelease at_ s) := by
  unfold execDebugRelease
  extract_lets +onlyGivenNames x1
  have h1 : Keeps s0 x1 := by
    unfold x1
    with_reducible apply State.elapseTo_keeps
    with_reducible assumption
  clear_value x1
  with_reducible refine next_okeeps ?_
  with_reducible refine ite_keeps ?_ ?_
  · with_reducible assumption
  · extract_lets +onlyGivenNames x2
    clear_value x2
    extract_lets +onlyGivenNames x3
    have h3 : Keeps s0 x3 := by
      unfold x3
      with_reducible refine keeps_mk_of (keeps_parts ?_)
      with_reducible assumption
    clear_value x3
    extract_lets +onlyGivenNames x4
    have h4 : Keeps s0 x4 := by
      unfold x4
      with_reducible apply State.wr_keeps
      with_reducible assumption
    clear_value x4
    with_reducible apply State.raise_keeps
    with_reducible apply State.spwmRelease_keeps
    with_reducible refine ite_keeps ?_ ?_
    · with_reducible assumption
    · with_reducible apply State.coreRun_keeps
      with_reducible assumption

theorem State.jtagTo_keeps {s0 : State} (s : State) (j : Jtag) (hk : Keeps s0 s) :
    Keeps s0 (State.jtagTo s j) := by
  unfold State.jtagTo
  with_reducible refine ite_keeps ?_ ?_
  · with_reducible refine keeps_mk_of (keeps_parts ?_)
    with_reducible assumption
  · with_reducible assumption

theorem execIdcode_keeps {s0 : State} (s : State) (hk : Keeps s0 s) :
    OKeeps s0 (execIdcode s) := by
  unfold execIdcode
  with_reducible refine next_okeeps ?_
  with_reducible apply State.jtagTo_keeps
  with_reducible assumption

theorem execBypass_keeps {s0 : State} (s : State) (hk : Keeps s0 s) :
    OKeeps s0 (execBypass s) := by
  unfold execBypass
  with_reducible refine next_okeeps ?_
  with_reducible apply State.jtagTo_keeps
  with_reducible assumption

theorem State.capturePins_keeps {s0 : State} (s : State) (hk : Keeps s0 s) :
    Keeps s0 (State.capturePins s) := by
  unfold State.capturePins
  split
  with_reducible refine keeps_mk_of (keeps_parts ?_)
  with_reducible apply keeps_pair; with_reducible assumption
  with_reducible apply State.draw_keeps
  with_reducible assumption

theorem execSamplePreload_keeps {s0 : State} (cells : List (BsPin × Bool)) (s : State) (hk : Keeps s0 s) :
    OKeeps s0 (execSamplePreload cells s) := by
  unfold execSamplePreload
  with_reducible refine next_okeeps ?_
  with_reducible refine ite_keeps ?_ ?_
  · dsimp only
    with_reducible refine keeps_mk_of (keeps_parts ?_)
    with_reducible apply State.capturePins_keeps
    with_reducible assumption
  · with_reducible assumption

theorem execExtest_keeps {s0 : State} (s : State) (hk : Keeps s0 s) :
    OKeeps s0 (execExtest s) := by
  unfold execExtest
  with_reducible refine next_okeeps ?_
  with_reducible refine ite_keeps ?_ ?_
  · with_reducible apply State.capturePins_keeps
    with_reducible apply State.jtagTo_keeps
    with_reducible apply State.darkEnter_keeps
    with_reducible assumption
  · with_reducible assumption

theorem execTrstN_keeps {s0 : State} (s : State) (hk : Keeps s0 s) :
    OKeeps s0 (execTrstN s) := by
  unfold execTrstN
  with_reducible refine next_okeeps ?_
  with_reducible apply State.darkLeave_keeps
  with_reducible refine keeps_mk_of (keeps_parts ?_)
  with_reducible assumption

end Sys2Proof.Machine
end

