-- ==== Sys2Proof/Laws/KeepsBoot.lean ====
section
/-! SUPPORT. The operations of Boot.lean keep the queue and the canonical forms. -/
namespace Sys2Proof.Machine

theorem State.setFlash_keeps {s0 : State} (s : State) (o : Nat) (b : List Byte) (hk : Keeps s0 s) :
    Keeps s0 (State.setFlash s o b) := by
  unfold State.setFlash
  with_reducible refine keeps_mk_of (keeps_parts ?_)
  with_reducible assumption

theorem State.writeRecord_keeps {s0 : State} (s : State) (slot : Nat) (hk : Keeps s0 s) :
    Keeps s0 (State.writeRecord s slot) := by
  unfold State.writeRecord
  split
  · with_reducible apply State.setFlash_keeps
    with_reducible assumption

theorem State.bootBase_keeps {s0 : State} (s : State) (hk : Keeps s0 s) :
    Keeps s0 (State.bootBase s) := by
  unfold State.bootBase
  refine State.wr_keeps _ _ _ ⟨hk.1, fun _ => ?_⟩
  rfl

theorem State.otpMac_keeps {s0 : State} (s : State) (hk : Keeps s0 s) :
    Keeps s0 (State.otpMac s) := by
  unfold State.otpMac
  with_reducible apply State.wr_keeps
  with_reducible apply State.wr_keeps
  with_reducible assumption

theorem State.otpStraps_keeps {s0 : State} (s : State) (hk : Keeps s0 s) :
    Keeps s0 (State.otpStraps s) := by
  unfold State.otpStraps
  with_reducible refine foldl_keeps ?_ ?_
  · intro t1_0 t1_1 h1
    with_reducible apply State.setReg_keeps
    with_reducible assumption
  · with_reducible assumption

theorem State.otpMirrors_keeps {s0 : State} (s : State) (hk : Keeps s0 s) :
    Keeps s0 (State.otpMirrors s) := by
  unfold State.otpMirrors
  extract_lets +onlyGivenNames x1
  have h1 : Keeps s0 x1 := by
    unfold x1
    with_reducible apply State.wr_keeps
    with_reducible apply State.wr_keeps
    with_reducible assumption
  clear_value x1
  extract_lets +onlyGivenNames x2
  have h2 : Keeps s0 x2 := by
    unfold x2
    with_reducible apply State.otpStraps_keeps
    with_reducible apply State.otpMac_keeps
    with_reducible assumption
  clear_value x2
  extract_lets +onlyGivenNames x3
  have h3 : Keeps s0 x3 := by
    unfold x3
    with_reducible apply State.wr_keeps
    with_reducible assumption
  clear_value x3
  with_reducible apply State.wrB_keeps
  with_reducible apply State.setReg_keeps
  with_reducible assumption

theorem State.bootSlots_keeps {s0 : State} (s : State) (first : Nat) (hk : Keeps s0 s) :
    Keeps s0 (State.bootSlots s first) := by
  unfold State.bootSlots
  extract_lets +onlyGivenNames x1
  extract_lets +onlyGivenNames x2
  extract_lets +onlyGivenNames x3
  clear_value x3
  extract_lets +onlyGivenNames x4
  have h4 : Keeps s0 x4 := by
    unfold x4
    unfold x1
    with_reducible apply State.wr_keeps
    with_reducible assumption
  clear_value x4
  with_reducible refine ite_keeps ?_ ?_
  · unfold x2
    extract_lets +onlyGivenNames x5
    have h5 : Keeps s0 x5 := by
      unfold x5
      with_reducible apply State.wrB_keeps
      with_reducible apply State.wr_keeps
      with_reducible assumption
    clear_value x5
    with_reducible refine keeps_mk_of (keeps_parts ?_)
    with_reducible assumption
  · extract_lets +onlyGivenNames x6
    clear_value x6
    extract_lets +onlyGivenNames x7
    have h7 : Keeps s0 x7 := by
      unfold x7
      unfold x1
      with_reducible apply State.wr_keeps
      with_reducible assumption
    clear_value x7
    with_reducible refine ite_keeps ?_ ?_
    · unfold x2
      extract_lets +onlyGivenNames x8
      have h8 : Keeps s0 x8 := by
        unfold x8
        with_reducible apply State.wrB_keeps
        with_reducible apply State.wr_keeps
        with_reducible assumption
      clear_value x8
      with_reducible refine keeps_mk_of (keeps_parts ?_)
      with_reducible assumption
    · with_reducible assumption

theorem State.heldInReset_keeps {s0 : State} (s : State) (hk : Keeps s0 s) :
    Keeps s0 (State.heldInReset s) := by
  unfold State.heldInReset
  dsimp only
  with_reducible apply State.newCycle_keeps
  with_reducible refine keeps_mk_of (keeps_parts ?_)
  with_reducible apply State.wr_keeps
  with_reducible apply State.bootBase_keeps
  with_reducible assumption

theorem State.boot_keeps {s0 : State} (s : State) (rail : Nat) (guard_ : Bool) (prefer : Option Nat) (hk : Keeps s0 s) :
    Keeps s0 (State.boot s rail guard_ prefer) := by
  unfold State.boot
  with_reducible refine ite_keeps ?_ ?_
  · with_reducible apply State.heldInReset_keeps
    with_reducible assumption
  · dsimp only
    with_reducible apply State.newCycle_keeps
    split
    · with_reducible apply State.bootSlots_keeps
      with_reducible apply State.strapsStart_keeps
      with_reducible apply State.otpMirrors_keeps
      with_reducible apply State.wr_keeps
      with_reducible apply State.wr_keeps
      with_reducible apply State.wrB_keeps
      with_reducible apply State.wr_keeps
      with_reducible apply State.bootBase_keeps
      with_reducible assumption
    · with_reducible refine ite_keeps ?_ ?_
      · with_reducible apply State.strapsStart_keeps
        with_reducible apply State.otpMirrors_keeps
        with_reducible apply State.wr_keeps
        with_reducible apply State.wr_keeps
        with_reducible apply State.wrB_keeps
        with_reducible apply State.wr_keeps
        with_reducible apply State.bootBase_keeps
        with_reducible assumption
      · with_reducible apply State.bootSlots_keeps
        with_reducible apply State.strapsStart_keeps
        with_reducible apply State.otpMirrors_keeps
        with_reducible apply State.wr_keeps
        with_reducible apply State.wr_keeps
        with_reducible apply State.wrB_keeps
        with_reducible apply State.wr_keeps
        with_reducible apply State.bootBase_keeps
        with_reducible assumption

theorem State.setBootsel_keeps {s0 : State} (s : State) (b : BitVec 2) (hk : Keeps s0 s) :
    Keeps s0 (State.setBootsel s b) := by
  unfold State.setBootsel
  with_reducible refine keeps_mk_of (keeps_parts ?_)
  with_reducible assumption

end Sys2Proof.Machine
end

