-- ==== Sys2Proof/Laws/KeepsObjects.lean ====
section
/-! SUPPORT. The operations of Objects.lean keep the queue and the canonical forms. -/
namespace Sys2Proof.Machine

theorem State.describe_keeps {s0 : State} (s : State) (cls i : Nat) (d : List Byte) (hk : Keeps s0 s) :
    Keeps s0 (State.describe s cls i d) := by
  unfold State.describe
  with_reducible refine keeps_mk_of (keeps_parts ?_)
  with_reducible assumption

theorem State.mapName_keeps {s0 : State} (s : State) (m : Nat) (d : List Byte) (hk : Keeps s0 s) :
    Keeps s0 (State.mapName s m d) := by
  unfold State.mapName
  with_reducible apply State.describe_keeps
  with_reducible apply State.wr_keeps
  with_reducible assumption

theorem State.mapRemove_keeps {s0 : State} (s : State) (m : Nat) (hk : Keeps s0 s) :
    Keeps s0 (State.mapRemove s m) := by
  unfold State.mapRemove
  with_reducible refine ite_keeps ?_ ?_
  · with_reducible apply State.advanceGen_keeps
    with_reducible apply State.wr_keeps
    with_reducible assumption
  · with_reducible assumption

theorem State.fcmBytes_keeps {s0 : State} (s : State) (o : Nat) (b : List Byte) (hk : Keeps s0 s) :
    Keeps s0 (State.fcmBytes s o b) := by
  unfold State.fcmBytes
  with_reducible apply State.writeFcm_keeps
  with_reducible assumption

theorem State.motifName_keeps {s0 : State} (s : State) (d : Nat) (b : List Byte) (hk : Keeps s0 s) :
    Keeps s0 (State.motifName s d b) := by
  unfold State.motifName
  with_reducible apply State.describe_keeps
  with_reducible apply State.wr_keeps
  with_reducible assumption

theorem State.motifRemove_keeps {s0 : State} (s : State) (d : Nat) (hk : Keeps s0 s) :
    Keeps s0 (State.motifRemove s d) := by
  unfold State.motifRemove
  with_reducible refine ite_keeps ?_ ?_
  · with_reducible apply State.advanceGen_keeps
    with_reducible apply State.wr_keeps
    with_reducible apply State.writeFcm_keeps
    with_reducible assumption
  · with_reducible assumption

theorem State.groupCreate_keeps {s0 : State} (s : State) (g policy base count : Nat) (hk : Keeps s0 s) :
    Keeps s0 (State.groupCreate s g policy base count) := by
  unfold State.groupCreate
  dsimp only
  with_reducible apply State.describe_keeps
  with_reducible apply State.wr_keeps
  with_reducible apply State.wr_keeps
  with_reducible apply State.wr_keeps
  with_reducible apply State.wr_keeps
  with_reducible apply State.setReg_keeps
  with_reducible apply State.setReg_keeps
  with_reducible apply State.setGrp_keeps
  with_reducible assumption

theorem State.groupRemove_keeps {s0 : State} (s : State) (g : Nat) (hk : Keeps s0 s) :
    Keeps s0 (State.groupRemove s g) := by
  unfold State.groupRemove
  with_reducible refine ite_keeps ?_ ?_
  · with_reducible apply State.advanceGen_keeps
    with_reducible apply State.setGrp_keeps
    with_reducible refine foldl_keeps ?_ ?_
    · intro t1_0 t1_1 h1
      with_reducible apply State.setReg_keeps
      with_reducible assumption
    · with_reducible assumption
  · with_reducible assumption

theorem State.progCreate_keeps {s0 : State} (s : State) (p base n : Nat) (hk : Keeps s0 s) :
    Keeps s0 (State.progCreate s p base n) := by
  unfold State.progCreate
  with_reducible refine keeps_mk_of (keeps_parts ?_)
  with_reducible assumption

theorem State.groupEmpty_keeps {s0 : State} (s : State) (g : Nat) (hk : Keeps s0 s) :
    Keeps s0 (State.groupEmpty s g) := by
  unfold State.groupEmpty
  with_reducible apply State.setGrp_keeps
  with_reducible refine foldl_keeps ?_ ?_
  · intro t0_0 t0_1 h0
    with_reducible apply State.setReg_keeps
    with_reducible assumption
  · with_reducible apply State.groupRemove_keeps
    with_reducible assumption

theorem State.progRemove_keeps {s0 : State} (s : State) (p : Nat) (hk : Keeps s0 s) :
    Keeps s0 (State.progRemove s p) := by
  unfold State.progRemove
  with_reducible refine ite_keeps ?_ ?_
  · with_reducible apply State.advanceGen_keeps
    with_reducible refine keeps_mk_of (keeps_parts ?_)
    with_reducible assumption
  · with_reducible assumption

theorem State.ctxRemove_keeps {s0 : State} (s : State) (c : Nat) (hk : Keeps s0 s) :
    Keeps s0 (State.ctxRemove s c) := by
  unfold State.ctxRemove
  with_reducible refine ite_keeps ?_ ?_
  · with_reducible apply State.advanceGen_keeps
    with_reducible refine keeps_mk_of (keeps_parts ?_)
    with_reducible assumption
  · with_reducible assumption

theorem State.subRemove_keeps {s0 : State} (s : State) (b : Nat) (hk : Keeps s0 s) :
    Keeps s0 (State.subRemove s b) := by
  unfold State.subRemove
  with_reducible refine ite_keeps ?_ ?_
  · with_reducible apply State.advanceGen_keeps
    with_reducible refine keeps_mk_of (keeps_parts ?_)
    with_reducible assumption
  · with_reducible assumption

theorem State.mapsRemove_keeps {s0 : State} (s : State) (hk : Keeps s0 s) :
    Keeps s0 (State.mapsRemove s) := by
  unfold State.mapsRemove
  dsimp only
  with_reducible refine keeps_mk_of (keeps_parts ?_)
  with_reducible refine foldl_keeps ?_ ?_
  · intro t0_0 t0_1 h0
    with_reducible apply State.mapRemove_keeps
    with_reducible assumption
  · with_reducible apply State.mirMapLost_keeps
    with_reducible assumption

theorem State.motifsRemove_keeps {s0 : State} (s : State) (hk : Keeps s0 s) :
    Keeps s0 (State.motifsRemove s) := by
  unfold State.motifsRemove
  with_reducible refine foldl_keeps ?_ ?_
  · intro t1_0 t1_1 h1
    with_reducible apply State.motifRemove_keeps
    with_reducible assumption
  · with_reducible assumption

theorem State.groupsRemove_keeps {s0 : State} (s : State) (hk : Keeps s0 s) :
    Keeps s0 (State.groupsRemove s) := by
  unfold State.groupsRemove
  with_reducible refine foldl_keeps ?_ ?_
  · intro t0_0 t0_1 h0
    with_reducible apply State.groupEmpty_keeps
    with_reducible assumption
  · with_reducible assumption

theorem State.progsRemove_keeps {s0 : State} (s : State) (hk : Keeps s0 s) :
    Keeps s0 (State.progsRemove s) := by
  unfold State.progsRemove
  with_reducible refine foldl_keeps ?_ ?_
  · intro t1_0 t1_1 h1
    with_reducible apply State.progRemove_keeps
    with_reducible assumption
  · with_reducible assumption

end Sys2Proof.Machine
end

