-- ==== Sys2Proof/Laws/KeepsSeal.lean ====
section
/-! SUPPORT. The operations of Seal.lean keep the queue and the canonical forms. -/
namespace Sys2Proof.Machine

theorem State.stage_keeps {s0 : State} (s : State) (o : Nat) (b : List Byte) (hk : Keeps s0 s) :
    Keeps s0 (State.stage s o b) := by
  unfold State.stage
  with_reducible refine keeps_mk_of (keeps_parts ?_)
  with_reducible assumption

theorem State.stageCopy_keeps {s0 : State} (s : State) (img : List Byte) (hk : Keeps s0 s) :
    Keeps s0 (State.stageCopy s img) := by
  unfold State.stageCopy
  dsimp only
  with_reducible refine keeps_mk_of (keeps_parts ?_)
  with_reducible apply State.stage_keeps
  with_reducible assumption

theorem State.sealFcm_keeps {s0 : State} (s : State) (l : List Sec) (hk : Keeps s0 s) :
    Keeps s0 (State.sealFcm s l) := by
  unfold State.sealFcm
  dsimp only
  with_reducible refine foldl_keeps ?_ ?_
  · intro t0_0 t0_1 h0
    with_reducible refine ite_keeps ?_ ?_
    · with_reducible refine foldl_keeps ?_ ?_
      · intro t1_0 t1_1 h1
        with_reducible apply State.fcmBytes_keeps
        with_reducible assumption
      · with_reducible assumption
    · with_reducible refine ite_keeps ?_ ?_
      · with_reducible refine foldl_keeps ?_ ?_
        · intro t2_0 t2_1 h2
          with_reducible apply State.fcmBytes_keeps
          with_reducible assumption
        · with_reducible assumption
      · with_reducible refine ite_keeps ?_ ?_
        · with_reducible refine foldl_keeps ?_ ?_
          · intro t3_0 t3_1 h3
            with_reducible apply State.fcmBytes_keeps
            with_reducible assumption
          · with_reducible assumption
        · with_reducible assumption
  · with_reducible apply State.writeFcm_keeps
    with_reducible refine foldl_keeps ?_ ?_
    · intro t4_0 t4_1 h4
      with_reducible apply State.writeFcm_keeps
      with_reducible assumption
    · with_reducible assumption

theorem State.fallbackCopy_keeps {s0 : State} (s : State) (d : List Byte) (hk : Keeps s0 s) :
    Keeps s0 (State.fallbackCopy s d) := by
  unfold State.fallbackCopy
  extract_lets +onlyGivenNames x1
  clear_value x1
  with_reducible apply State.fcmBytes_keeps
  with_reducible apply State.fcmBytes_keeps
  with_reducible assumption

theorem State.sealConfig_keeps {s0 : State} (s : State) (l : List Sec) (hk : Keeps s0 s) :
    Keeps s0 (State.sealConfig s l) := by
  unfold State.sealConfig
  extract_lets +onlyGivenNames x1
  clear_value x1
  extract_lets +onlyGivenNames x2
  have h2 : Keeps s0 x2 := by
    unfold x2
    with_reducible refine foldl_keeps ?_ ?_
    · intro t3_0 t3_1 h3
      extract_lets +onlyGivenNames x4
      clear_value x4
      with_reducible apply State.setShReg_keeps
      with_reducible apply State.setReg_keeps
      with_reducible assumption
    · with_reducible assumption
  clear_value x2
  extract_lets +onlyGivenNames x5
  have h5 : Keeps s0 x5 := by
    unfold x5
    with_reducible apply State.wrB_keeps
    with_reducible assumption
  clear_value x5
  extract_lets +onlyGivenNames x6
  clear_value x6
  with_reducible apply State.fallbackCopy_keeps
  with_reducible apply State.sealFcm_keeps
  with_reducible assumption

theorem State.noteCheck_keeps {s0 : State} (s : State) (r : Nat × Nat) (hk : Keeps s0 s) :
    Keeps s0 (State.noteCheck s r) := by
  unfold State.noteCheck
  with_reducible apply State.wr_keeps
  with_reducible apply State.wr_keeps
  with_reducible assumption

end Sys2Proof.Machine
end

