-- ==== Sys2Proof/Laws/KeepsWatch.lean ====
section
/-! SUPPORT. The operations of Watch.lean keep the queue and the canonical forms. -/
namespace Sys2Proof.Machine

theorem State.pruneRestarts_keeps {s0 : State} (s : State) (hk : Keeps s0 s) :
    Keeps s0 (State.pruneRestarts s) := by
  unfold State.pruneRestarts
  extract_lets +onlyGivenNames x1
  clear_value x1
  with_reducible apply State.wr_keeps
  with_reducible refine keeps_mk_of (keeps_parts ?_)
  with_reducible assumption

theorem State.countRestart_keeps {s0 : State} (s : State) (hk : Keeps s0 s) :
    Keeps s0 (State.countRestart s) := by
  unfold State.countRestart
  extract_lets +onlyGivenNames x1
  have h1 : Keeps s0 x1 := by
    unfold x1
    with_reducible apply State.pruneRestarts_keeps
    with_reducible assumption
  clear_value x1
  with_reducible apply State.pruneRestarts_keeps
  with_reducible refine keeps_mk_of (keeps_parts ?_)
  with_reducible assumption

theorem State.swapBack_keeps {s0 : State} (s : State) (hk : Keeps s0 s) :
    Keeps s0 (State.swapBack s) := by
  unfold State.swapBack
  extract_lets +onlyGivenNames x1
  clear_value x1
  extract_lets +onlyGivenNames x2
  have h2 : Keeps s0 x2 := by
    unfold x2
    with_reducible apply State.wr_keeps
    with_reducible apply State.wr_keeps
    with_reducible assumption
  clear_value x2
  with_reducible apply State.raise_keeps
  with_reducible apply State.wr_keeps
  with_reducible assumption

theorem State.countedRestart_keeps {s0 : State} (s : State) (bootsel : BitVec 2) (hk : Keeps s0 s) :
    Keeps s0 (State.countedRestart s bootsel) := by
  unfold State.countedRestart
  with_reducible refine ite_keeps ?_ ?_
  · with_reducible assumption
  · with_reducible refine ite_keeps ?_ ?_
    · with_reducible apply State.boot_keeps
      with_reducible apply State.setBootsel_keeps
      with_reducible apply State.wr_keeps
      with_reducible assumption
    · with_reducible refine ite_keeps ?_ ?_
      · with_reducible apply State.countRestart_keeps
        with_reducible assumption
      · dsimp only
        with_reducible refine ite_keeps ?_ ?_
        · with_reducible apply State.swapBack_keeps
          with_reducible apply State.coreRestart_keeps
          with_reducible apply State.countRestart_keeps
          with_reducible assumption
        · with_reducible apply State.coreRestart_keeps
          with_reducible apply State.countRestart_keeps
          with_reducible assumption

theorem State.kick_keeps {s0 : State} (s : State) (w : Word) (hk : Keeps s0 s) :
    Keeps s0 (State.kick s w) := by
  unfold State.kick
  with_reducible refine ite_keeps ?_ ?_
  · with_reducible refine keeps_mk_of (keeps_parts ?_)
    with_reducible assumption
  · with_reducible assumption

theorem execWatchdogKick_keeps {s0 : State} (at_ : Vt) (w : Word) (s : State) (hk : Keeps s0 s) :
    OKeeps s0 (execWatchdogKick at_ w s) := by
  unfold execWatchdogKick
  with_reducible refine next_okeeps ?_
  with_reducible apply State.kick_keeps
  with_reducible apply State.elapseTo_keeps
  with_reducible assumption

theorem State.wdogAction_keeps {s0 : State} (s : State) (hk : Keeps s0 s) :
    Keeps s0 (State.wdogAction s) := by
  unfold State.wdogAction
  with_reducible refine ite_keeps ?_ ?_
  · with_reducible apply State.fbRequest_keeps
    with_reducible refine keeps_mk_of (keeps_parts ?_)
    with_reducible assumption
  · with_reducible assumption

theorem State.expire_keeps {s0 : State} (s : State) (bootsel : BitVec 2) (hk : Keeps s0 s) :
    Keeps s0 (State.expire s bootsel) := by
  unfold State.expire
  with_reducible refine ite_keeps ?_ ?_
  · with_reducible apply State.countedRestart_keeps
    with_reducible assumption
  · dsimp only
    with_reducible apply State.raise_keeps
    with_reducible refine keeps_mk_of (keeps_parts ?_)
    with_reducible apply State.wdogAction_keeps
    with_reducible apply State.countedRestart_keeps
    with_reducible assumption

theorem execWdogRestartAgeOut_keeps {s0 : State} (at_ : Vt) (s : State) (hk : Keeps s0 s) :
    OKeeps s0 (execWdogRestartAgeOut at_ s) := by
  unfold execWdogRestartAgeOut
  with_reducible refine next_okeeps ?_
  with_reducible apply State.pruneRestarts_keeps
  with_reducible apply State.elapseTo_keeps
  with_reducible assumption

theorem State.fwConfirm_keeps {s0 : State} (s : State) (hk : Keeps s0 s) :
    Keeps s0 (State.fwConfirm s) := by
  unfold State.fwConfirm
  with_reducible refine ite_keeps ?_ ?_
  · with_reducible assumption
  · extract_lets +onlyGivenNames x1
    clear_value x1
    extract_lets +onlyGivenNames x2
    have h2 : Keeps s0 x2 := by
      unfold x2
      with_reducible apply State.wr_keeps
      with_reducible assumption
    clear_value x2
    extract_lets +onlyGivenNames x3
    clear_value x3
    extract_lets +onlyGivenNames x4
    have h4 : Keeps s0 x4 := by
      unfold x4
      with_reducible refine ite_keeps ?_ ?_
      · with_reducible refine keeps_mk_of (keeps_parts ?_)
        with_reducible assumption
      · with_reducible apply State.writeRecord_keeps
        with_reducible assumption
    clear_value x4
    with_reducible apply State.raise_keeps
    with_reducible assumption

theorem execFwConfirm_keeps {s0 : State} (s : State) (hk : Keeps s0 s) :
    OKeeps s0 (execFwConfirm s) := by
  unfold execFwConfirm
  with_reducible refine next_okeeps ?_
  with_reducible apply State.fwConfirm_keeps
  with_reducible assumption

theorem execFwConfirmTimeout_keeps {s0 : State} (at_ : Vt) (s : State) (hk : Keeps s0 s) :
    OKeeps s0 (execFwConfirmTimeout at_ s) := by
  unfold execFwConfirmTimeout
  extract_lets +onlyGivenNames x1
  have h1 : Keeps s0 x1 := by
    unfold x1
    with_reducible apply State.elapseTo_keeps
    with_reducible assumption
  clear_value x1
  with_reducible refine next_okeeps ?_
  with_reducible refine ite_keeps ?_ ?_
  · with_reducible apply State.swapBack_keeps
    with_reducible apply State.coreRestart_keeps
    with_reducible assumption
  · with_reducible assumption

end Sys2Proof.Machine
end

