-- ==== Sys2Proof/Laws/KeepsPower.lean ====
section
/-! SUPPORT. The operations of Power.lean keep the queue and the canonical forms. -/
namespace Sys2Proof.Machine

theorem State.domainRegsReset_keeps {s0 : State} (s : State) (d : Nat) (hk : Keeps s0 s) :
    Keeps s0 (State.domainRegsReset s d) := by
  unfold State.domainRegsReset
  refine ⟨hk.1, fun w => ?_⟩
  have := hk.2 w
  simp only [State.wf, Bool.and_eq_true] at this ⊢
  exact ⟨⟨SMap.filter_wf _ _ _ this.1.1, SMap.filter_wf _ _ _ this.1.2⟩, this.2⟩

theorem State.pixLost_keeps {s0 : State} (s : State) (hk : Keeps s0 s) :
    Keeps s0 (State.pixLost s) := by
  unfold State.pixLost
  extract_lets +onlyGivenNames x1
  clear_value x1
  extract_lets +onlyGivenNames x2
  have h2 : Keeps s0 x2 := by
    unfold x2
    with_reducible apply State.domainRegsReset_keeps
    with_reducible apply State.movesLost_keeps
    with_reducible apply State.motifsRemove_keeps
    with_reducible apply State.mapsRemove_keeps
    with_reducible apply State.censusForget_keeps
    with_reducible assumption
  clear_value x2
  with_reducible refine keeps_mk_of (keeps_parts_empty ?_)
  with_reducible assumption

theorem State.drvLost_keeps {s0 : State} (s : State) (hk : Keeps s0 s) :
    Keeps s0 (State.drvLost s) := by
  unfold State.drvLost
  dsimp only
  with_reducible refine keeps_mk_of (keeps_parts ?_)
  with_reducible apply State.domainRegsReset_keeps
  with_reducible apply State.groupsRemove_keeps
  with_reducible apply State.censusForget_keeps
  with_reducible assumption

theorem State.ioxLost_keeps {s0 : State} (s : State) (hk : Keeps s0 s) :
    Keeps s0 (State.ioxLost s) := by
  unfold State.ioxLost
  extract_lets +onlyGivenNames x1
  have h1 : Keeps s0 x1 := by
    unfold x1
    with_reducible apply State.domainRegsReset_keeps
    with_reducible apply State.progsRemove_keeps
    with_reducible assumption
  clear_value x1
  with_reducible refine keeps_mk_of (keeps_parts ?_)
  with_reducible assumption

theorem State.domainOff_keeps {s0 : State} (s : State) (d : Nat) (hk : Keeps s0 s) :
    Keeps s0 (State.domainOff s d) := by
  unfold State.domainOff
  with_reducible refine ite_keeps ?_ ?_
  · with_reducible assumption
  · dsimp only
    with_reducible apply State.floorFall_keeps
    with_reducible refine ite_keeps ?_ ?_
    · with_reducible apply State.darkEnter_keeps
      with_reducible refine keeps_mk_of (keeps_parts ?_)
      with_reducible apply State.wr_keeps
      split
      · with_reducible refine keeps_mk_of (keeps_parts ?_)
        with_reducible apply State.domainRegsReset_keeps
        with_reducible apply State.cvuDomainLost_keeps
        with_reducible assumption
      · with_reducible apply State.coreStop_keeps
        with_reducible apply State.cvuDomainLost_keeps
        with_reducible assumption
      · with_reducible apply State.pixLost_keeps
        with_reducible apply State.cvuDomainLost_keeps
        with_reducible assumption
      · with_reducible apply State.drvLost_keeps
        with_reducible apply State.cvuDomainLost_keeps
        with_reducible assumption
      · with_reducible apply State.ioxLost_keeps
        with_reducible apply State.cvuDomainLost_keeps
        with_reducible assumption
      · with_reducible refine keeps_mk_of (keeps_parts ?_)
        with_reducible apply State.domainRegsReset_keeps
        with_reducible apply State.cvuDomainLost_keeps
        with_reducible assumption
    · with_reducible refine ite_keeps ?_ ?_
      · with_reducible apply State.darkEnter_keeps
        with_reducible refine keeps_mk_of (keeps_parts ?_)
        with_reducible apply State.wr_keeps
        split
        · with_reducible refine keeps_mk_of (keeps_parts ?_)
          with_reducible apply State.domainRegsReset_keeps
          with_reducible apply State.cvuDomainLost_keeps
          with_reducible assumption
        · with_reducible apply State.coreStop_keeps
          with_reducible apply State.cvuDomainLost_keeps
          with_reducible assumption
        · with_reducible apply State.pixLost_keeps
          with_reducible apply State.cvuDomainLost_keeps
          with_reducible assumption
        · with_reducible apply State.drvLost_keeps
          with_reducible apply State.cvuDomainLost_keeps
          with_reducible assumption
        · with_reducible apply State.ioxLost_keeps
          with_reducible apply State.cvuDomainLost_keeps
          with_reducible assumption
        · with_reducible refine keeps_mk_of (keeps_parts ?_)
          with_reducible apply State.domainRegsReset_keeps
          with_reducible apply State.cvuDomainLost_keeps
          with_reducible assumption
      · with_reducible refine keeps_mk_of (keeps_parts ?_)
        with_reducible apply State.wr_keeps
        split
        · with_reducible refine keeps_mk_of (keeps_parts ?_)
          with_reducible apply State.domainRegsReset_keeps
          with_reducible apply State.cvuDomainLost_keeps
          with_reducible assumption
        · with_reducible apply State.coreStop_keeps
          with_reducible apply State.cvuDomainLost_keeps
          with_reducible assumption
        · with_reducible apply State.pixLost_keeps
          with_reducible apply State.cvuDomainLost_keeps
          with_reducible assumption
        · with_reducible apply State.drvLost_keeps
          with_reducible apply State.cvuDomainLost_keeps
          with_reducible assumption
        · with_reducible apply State.ioxLost_keeps
          with_reducible apply State.cvuDomainLost_keeps
          with_reducible assumption
        · with_reducible refine keeps_mk_of (keeps_parts ?_)
          with_reducible apply State.domainRegsReset_keeps
          with_reducible apply State.cvuDomainLost_keeps
          with_reducible assumption

theorem State.domainDarkEnd_keeps {s0 : State} (s : State) (hk : Keeps s0 s) :
    Keeps s0 (State.domainDarkEnd s) := by
  unfold State.domainDarkEnd
  extract_lets +onlyGivenNames x1
  extract_lets +onlyGivenNames x2
  have h2 : Keeps s0 x2 := by
    unfold x2
    with_reducible refine ite_keeps ?_ ?_
    · with_reducible apply State.darkLeave_keeps
      with_reducible assumption
    · with_reducible assumption
  clear_value x2
  with_reducible refine ite_keeps ?_ ?_
  · with_reducible apply State.darkLeave_keeps
    with_reducible assumption
  · with_reducible assumption

theorem State.domainOn_keeps {s0 : State} (s : State) (d : Nat) (hk : Keeps s0 s) :
    Keeps s0 (State.domainOn s d) := by
  unfold State.domainOn
  with_reducible refine ite_keeps ?_ ?_
  · with_reducible assumption
  · extract_lets +onlyGivenNames x1
    have h1 : Keeps s0 x1 := by
      unfold x1
      with_reducible apply State.wr_keeps
      with_reducible assumption
    clear_value x1
    extract_lets +onlyGivenNames x2
    have h2 : Keeps s0 x2 := by
      unfold x2
      with_reducible refine ite_keeps ?_ ?_
      · with_reducible apply State.otpMac_keeps
        with_reducible assumption
      · with_reducible refine ite_keeps ?_ ?_
        · with_reducible apply State.otpStraps_keeps
          with_reducible assumption
        · with_reducible assumption
    clear_value x2
    extract_lets +onlyGivenNames x3
    have h3 : Keeps s0 x3 := by
      unfold x3
      with_reducible refine ite_keeps ?_ ?_
      · with_reducible apply State.coreRun_keeps
        with_reducible assumption
      · with_reducible assumption
    clear_value x3
    with_reducible refine ite_keeps ?_ ?_
    · with_reducible refine keeps_mk_of (keeps_parts ?_)
      with_reducible assumption
    · with_reducible apply State.domainDarkEnd_keeps
      with_reducible assumption

theorem State.domainSet_keeps {s0 : State} (s : State) (names en : Nat) (hk : Keeps s0 s) :
    Keeps s0 (State.domainSet s names en) := by
  unfold State.domainSet
  dsimp only
  with_reducible refine foldl_keeps ?_ ?_
  · intro t0_0 t0_1 h0
    with_reducible apply State.domainOn_keeps
    with_reducible assumption
  · with_reducible refine foldl_keeps ?_ ?_
    · intro t1_0 t1_1 h1
      with_reducible apply State.domainOff_keeps
      with_reducible assumption
    · with_reducible apply State.wr_keeps
      with_reducible assumption

theorem State.domainWrite_keeps {s0 : State} (s : State) (w : Word) (hk : Keeps s0 s) :
    Keeps s0 (State.domainWrite s w) := by
  unfold State.domainWrite
  with_reducible apply State.domainSet_keeps
  with_reducible apply State.clearW1c_keeps
  with_reducible assumption

theorem execDomainSwitch_keeps {s0 : State} (at_ : Vt) (w : Word) (s : State) (hk : Keeps s0 s) :
    OKeeps s0 (execDomainSwitch at_ w s) := by
  unfold execDomainSwitch
  with_reducible refine next_okeeps ?_
  with_reducible apply State.domainWrite_keeps
  with_reducible apply State.elapseTo_keeps
  with_reducible assumption

theorem execDomainFault_keeps {s0 : State} (at_ : Vt) (d : Fin 6) (bootsel : BitVec 2) (s : State) (hk : Keeps s0 s) :
    OKeeps s0 (execDomainFault at_ d bootsel s) := by
  unfold execDomainFault
  dsimp only
  with_reducible refine next_okeeps ?_
  with_reducible refine ite_keeps ?_ ?_
  · with_reducible apply State.elapseTo_keeps
    with_reducible assumption
  · with_reducible apply State.raise_keeps
    with_reducible apply State.setW1c_keeps
    with_reducible refine ite_keeps ?_ ?_
    · with_reducible apply State.countedRestart_keeps
      with_reducible apply State.elapseTo_keeps
      with_reducible assumption
    · with_reducible apply State.domainOff_keeps
      with_reducible apply State.elapseTo_keeps
      with_reducible assumption

theorem State.railEffects_keeps {s0 : State} (s : State) (r : Nat) (hk : Keeps s0 s) :
    Keeps s0 (State.railEffects s r) := by
  unfold State.railEffects
  extract_lets +onlyGivenNames x1
  have h1 : Keeps s0 x1 := by
    unfold x1
    with_reducible apply State.wr_keeps
    with_reducible assumption
  clear_value x1
  extract_lets +onlyGivenNames x2
  clear_value x2
  extract_lets +onlyGivenNames x3
  have h3 : Keeps s0 x3 := by
    unfold x3
    with_reducible refine ite_keeps ?_ ?_
    · with_reducible refine keeps_mk_of (keeps_parts ?_)
      with_reducible assumption
    · with_reducible assumption
  clear_value x3
  with_reducible refine ite_keeps ?_ ?_
  · with_reducible refine foldl_keeps ?_ ?_
    · intro t4_0 t4_1 h4
      with_reducible apply State.wr_keeps
      with_reducible assumption
    · with_reducible refine keeps_mk_of (keeps_parts ?_)
      with_reducible assumption
  · with_reducible assumption

theorem State.railWarn_keeps {s0 : State} (s : State) (r : Nat) (hk : Keeps s0 s) :
    Keeps s0 (State.railWarn s r) := by
  unfold State.railWarn
  dsimp only
  with_reducible apply State.raise_keeps
  with_reducible apply State.railEffects_keeps
  with_reducible apply State.setW1c_keeps
  with_reducible apply State.wr_keeps
  with_reducible refine ite_keeps ?_ ?_
  · with_reducible refine keeps_mk_of (keeps_parts ?_)
    with_reducible apply State.wr_keeps
    with_reducible apply State.wr_keeps
    with_reducible refine keeps_mk_of (keeps_parts ?_)
    with_reducible assumption
  · with_reducible refine keeps_mk_of (keeps_parts ?_)
    with_reducible assumption

theorem execRailWarning_keeps {s0 : State} (at_ : Vt) (rail : Fin 5) (s : State) (hk : Keeps s0 s) :
    OKeeps s0 (execRailWarning at_ rail s) := by
  unfold execRailWarning
  extract_lets +onlyGivenNames x1
  have h1 : Keeps s0 x1 := by
    unfold x1
    with_reducible apply State.elapseTo_keeps
    with_reducible assumption
  clear_value x1
  with_reducible refine next_okeeps ?_
  with_reducible refine ite_keeps ?_ ?_
  · with_reducible assumption
  · with_reducible apply State.railWarn_keeps
    with_reducible assumption

theorem State.brownUpdate_keeps {s0 : State} (s : State) (hk : Keeps s0 s) :
    Keeps s0 (State.brownUpdate s) := by
  unfold State.brownUpdate
  extract_lets +onlyGivenNames x1
  extract_lets +onlyGivenNames x2
  clear_value x2
  split
  · with_reducible assumption
  · extract_lets +onlyGivenNames x3
    clear_value x3
    with_reducible apply State.wr_keeps
    with_reducible apply State.wr_keeps
    with_reducible assumption

theorem execSupervisorAdcSample_keeps {s0 : State} (vddc vdds vddh vddio vdda : BitVec 11) (s : State) (hk : Keeps s0 s) :
    OKeeps s0 (execSupervisorAdcSample vddc vdds vddh vddio vdda s) := by
  unfold execSupervisorAdcSample
  with_reducible refine next_okeeps ?_
  with_reducible refine ite_keeps ?_ ?_
  · with_reducible assumption
  · extract_lets +onlyGivenNames x1
    clear_value x1
    extract_lets +onlyGivenNames x2
    clear_value x2
    extract_lets +onlyGivenNames x3
    clear_value x3
    extract_lets +onlyGivenNames x4
    have h4 : Keeps s0 x4 := by
      unfold x4
      with_reducible refine keeps_mk_of (keeps_parts ?_)
      with_reducible assumption
    clear_value x4
    extract_lets +onlyGivenNames x5
    have h5 : Keeps s0 x5 := by
      unfold x5
      with_reducible refine foldl_keeps ?_ ?_
      · intro t6_0 t6_1 h6
        with_reducible refine ite_keeps ?_ ?_
        · with_reducible apply State.wr_keeps
          with_reducible assumption
        · with_reducible assumption
      · with_reducible assumption
    clear_value x5
    with_reducible apply State.brownUpdate_keeps
    with_reducible assumption

theorem execRailRecovery_keeps {s0 : State} (at_ : Vt) (rail : Fin 5) (s : State) (hk : Keeps s0 s) :
    OKeeps s0 (execRailRecovery at_ rail s) := by
  unfold execRailRecovery
  extract_lets +onlyGivenNames x1
  have h1 : Keeps s0 x1 := by
    unfold x1
    with_reducible apply State.elapseTo_keeps
    with_reducible assumption
  clear_value x1
  extract_lets +onlyGivenNames x2
  have h2 : Keeps s0 x2 := by
    unfold x2
    with_reducible apply State.wr_keeps
    with_reducible assumption
  clear_value x2
  with_reducible refine next_okeeps ?_
  with_reducible refine keeps_mk_of (keeps_parts ?_)
  with_reducible assumption

theorem State.braceEnd_keeps {s0 : State} (s : State) (hk : Keeps s0 s) :
    Keeps s0 (State.braceEnd s) := by
  unfold State.braceEnd
  extract_lets +onlyGivenNames x1
  have h1 : Keeps s0 x1 := by
    unfold x1
    with_reducible apply State.wr_keeps
    with_reducible apply State.wr_keeps
    with_reducible apply State.wr_keeps
    with_reducible assumption
  clear_value x1
  extract_lets +onlyGivenNames x2
  clear_value x2
  extract_lets +onlyGivenNames x3
  clear_value x3
  extract_lets +onlyGivenNames x4
  have h4 : Keeps s0 x4 := by
    unfold x4
    with_reducible refine keeps_mk_of (keeps_parts ?_)
    with_reducible assumption
  clear_value x4
  extract_lets +onlyGivenNames x5
  have h5 : Keeps s0 x5 := by
    unfold x5
    split
    · extract_lets +onlyGivenNames x6
      have h6 : Keeps s0 x6 := by
        unfold x6
        with_reducible apply State.writeRecord_keeps
        with_reducible assumption
      clear_value x6
      with_reducible refine keeps_mk_of (keeps_parts ?_)
      with_reducible assumption
    · with_reducible assumption
  clear_value x5
  with_reducible apply State.raise_keeps
  with_reducible assumption

theorem execBraceEnd_keeps {s0 : State} (at_ : Vt) (s : State) (hk : Keeps s0 s) :
    OKeeps s0 (execBraceEnd at_ s) := by
  unfold execBraceEnd
  extract_lets +onlyGivenNames x1
  have h1 : Keeps s0 x1 := by
    unfold x1
    with_reducible apply State.elapseTo_keeps
    with_reducible assumption
  clear_value x1
  with_reducible refine next_okeeps ?_
  with_reducible refine ite_keeps ?_ ?_
  · with_reducible apply State.braceEnd_keeps
    with_reducible assumption
  · with_reducible assumption

theorem State.railDown_keeps {s0 : State} (s : State) (r : Nat) (guard_ : Bool) (hk : Keeps s0 s) :
    Keeps s0 (State.railDown s r guard_) := by
  unfold State.railDown
  extract_lets +onlyGivenNames x1
  have h1 : Keeps s0 x1 := by
    unfold x1
    with_reducible refine foldl_keeps ?_ ?_
    · intro t2_0 t2_1 h2
      with_reducible apply State.domainOff_keeps
      with_reducible assumption
    · with_reducible apply State.darkEnter_keeps
      with_reducible assumption
  clear_value x1
  with_reducible refine keeps_mk_of (keeps_parts ?_)
  with_reducible assumption

theorem execRailReset_keeps {s0 : State} (at_ : Vt) (rail : Fin 5) (s : State) (hk : Keeps s0 s) :
    OKeeps s0 (execRailReset at_ rail s) := by
  unfold execRailReset
  extract_lets +onlyGivenNames x1
  have h1 : Keeps s0 x1 := by
    unfold x1
    with_reducible apply State.elapseTo_keeps
    with_reducible assumption
  clear_value x1
  with_reducible refine next_okeeps ?_
  with_reducible refine ite_keeps ?_ ?_
  · with_reducible apply State.railDown_keeps
    with_reducible assumption
  · with_reducible assumption

theorem execRailGuard_keeps {s0 : State} (at_ : Vt) (rail : Fin 2) (s : State) (hk : Keeps s0 s) :
    OKeeps s0 (execRailGuard at_ rail s) := by
  unfold execRailGuard
  extract_lets +onlyGivenNames x1
  have h1 : Keeps s0 x1 := by
    unfold x1
    with_reducible apply State.elapseTo_keeps
    with_reducible assumption
  clear_value x1
  with_reducible refine next_okeeps ?_
  with_reducible refine ite_keeps ?_ ?_
  · with_reducible apply State.railDown_keeps
    with_reducible assumption
  · with_reducible assumption

theorem State.bootWith_keeps {s0 : State} (s : State) (bootsel : BitVec 2) (rail : Nat) (guard_ : Bool) (hk : Keeps s0 s) :
    Keeps s0 (State.bootWith s bootsel rail guard_) := by
  unfold State.bootWith
  with_reducible apply State.boot_keeps
  with_reducible apply State.setBootsel_keeps
  with_reducible assumption

theorem execSupplyRecovered_keeps {s0 : State} (at_ : Vt) (rails : BitVec 5) (bootsel : BitVec 2) (s : State) (hk : Keeps s0 s) :
    OKeeps s0 (execSupplyRecovered at_ rails bootsel s) := by
  unfold execSupplyRecovered
  dsimp only
  with_reducible refine next_okeeps ?_
  with_reducible refine ite_keeps ?_ ?_
  · with_reducible refine keeps_mk_of (keeps_parts ?_)
    with_reducible apply State.elapseTo_keeps
    with_reducible assumption
  · split
    · with_reducible apply State.bootWith_keeps
      with_reducible refine keeps_mk_of (keeps_parts ?_)
      with_reducible apply State.elapseTo_keeps
      with_reducible assumption
    · with_reducible apply State.bootWith_keeps
      with_reducible refine keeps_mk_of (keeps_parts ?_)
      with_reducible apply State.elapseTo_keeps
      with_reducible assumption

theorem execPowerOnReset_keeps {s0 : State} (bootsel : BitVec 2) (rails : BitVec 5) (s : State) (hk : Keeps s0 s) :
    OKeeps s0 (execPowerOnReset bootsel rails s) := by
  unfold execPowerOnReset
  dsimp only
  with_reducible refine next_okeeps ?_
  with_reducible refine ite_keeps ?_ ?_
  · with_reducible apply State.heldInReset_keeps
    with_reducible refine keeps_mk_of (keeps_parts ?_)
    with_reducible apply State.wr_keeps
    with_reducible assumption
  · with_reducible apply State.bootWith_keeps
    with_reducible refine keeps_mk_of (keeps_parts ?_)
    with_reducible apply State.wr_keeps
    with_reducible assumption

theorem execResetNRise_keeps {s0 : State} (bootsel : BitVec 2) (s : State) (hk : Keeps s0 s) :
    OKeeps s0 (execResetNRise bootsel s) := by
  unfold execResetNRise
  dsimp only
  with_reducible refine next_okeeps ?_
  with_reducible refine ite_keeps ?_ ?_
  · with_reducible refine keeps_mk_of (keeps_parts ?_)
    with_reducible assumption
  · with_reducible apply State.bootWith_keeps
    with_reducible refine keeps_mk_of (keeps_parts ?_)
    with_reducible assumption

theorem execResetNAssert_keeps {s0 : State} (s : State) (hk : Keeps s0 s) :
    OKeeps s0 (execResetNAssert s) := by
  unfold execResetNAssert
  with_reducible refine next_okeeps ?_
  extract_lets +onlyGivenNames x1
  have h1 : Keeps s0 x1 := by
    unfold x1
    with_reducible apply State.heldInReset_keeps
    with_reducible assumption
  clear_value x1
  with_reducible refine keeps_mk_of (keeps_parts ?_)
  with_reducible assumption

theorem execVddaoBelowPor_keeps {s0 : State} (s : State) (hk : Keeps s0 s) :
    OKeeps s0 (execVddaoBelowPor s) := by
  unfold execVddaoBelowPor
  extract_lets +onlyGivenNames x1
  have h1 : Keeps s0 x1 := by
    unfold x1
    with_reducible apply State.heldInReset_keeps
    with_reducible apply State.wr_keeps
    with_reducible assumption
  clear_value x1
  with_reducible refine next_okeeps ?_
  with_reducible refine keeps_mk_of (keeps_parts ?_)
  with_reducible assumption

theorem execRefLost_keeps {s0 : State} (at_ : Vt) (s : State) (hk : Keeps s0 s) :
    OKeeps s0 (execRefLost at_ s) := by
  unfold execRefLost
  dsimp only
  with_reducible refine next_okeeps ?_
  with_reducible refine ite_keeps ?_ ?_
  · with_reducible apply State.elapseTo_keeps
    with_reducible assumption
  · with_reducible refine keeps_mk_of (keeps_parts ?_)
    with_reducible apply State.raise_keeps
    with_reducible apply State.gckStop_keeps
    with_reducible apply State.setW1c_keeps
    with_reducible apply State.darkEnter_keeps
    with_reducible apply State.elapseTo_keeps
    with_reducible assumption

theorem execRefRestored_keeps {s0 : State} (at_ : Vt) (bootsel : BitVec 2) (s : State) (hk : Keeps s0 s) :
    OKeeps s0 (execRefRestored at_ bootsel s) := by
  unfold execRefRestored
  dsimp only
  with_reducible refine next_okeeps ?_
  with_reducible refine ite_keeps ?_ ?_
  · with_reducible apply State.bootWith_keeps
    with_reducible apply State.elapseTo_keeps
    with_reducible assumption
  · with_reducible apply State.elapseTo_keeps
    with_reducible assumption

theorem execAlwLost_keeps {s0 : State} (at_ : Vt) (s : State) (hk : Keeps s0 s) :
    OKeeps s0 (execAlwLost at_ s) := by
  unfold execAlwLost
  dsimp only
  with_reducible refine next_okeeps ?_
  with_reducible refine keeps_mk_of (keeps_parts ?_)
  with_reducible apply State.setW1c_keeps
  with_reducible apply State.elapseTo_keeps
  with_reducible assumption

theorem State.sentryEnter_keeps {s0 : State} (s : State) (hk : Keeps s0 s) :
    Keeps s0 (State.sentryEnter s) := by
  unfold State.sentryEnter
  dsimp only
  with_reducible apply State.enterState_keeps
  with_reducible apply State.wr_keeps
  with_reducible apply State.wr_keeps
  with_reducible apply State.wr_keeps
  with_reducible apply State.wr_keeps
  with_reducible apply State.wr_keeps
  with_reducible refine keeps_mk_of (keeps_parts ?_)
  with_reducible refine foldl_keeps ?_ ?_
  · intro t0_0 t0_1 h0
    with_reducible apply State.domainOff_keeps
    with_reducible assumption
  · with_reducible refine keeps_mk_of (keeps_parts ?_)
    with_reducible apply State.closeSessions_keeps
    with_reducible assumption

theorem State.wake_keeps {s0 : State} (s : State) (bootsel : BitVec 2) (cause : Nat) (hk : Keeps s0 s) :
    Keeps s0 (State.wake s bootsel cause) := by
  unfold State.wake
  dsimp only
  with_reducible apply State.raise_keeps
  with_reducible apply State.wr_keeps
  with_reducible apply State.wrB_keeps
  with_reducible refine keeps_mk_of (keeps_parts ?_)
  with_reducible refine foldl_keeps ?_ ?_
  · intro t0_0 t0_1 h0
    with_reducible apply State.setReg_keeps
    with_reducible assumption
  · with_reducible apply State.bootWith_keeps
    with_reducible assumption

theorem State.wakeSource_keeps {s0 : State} (s : State) (bootsel : BitVec 2) (cause : Nat) (hk : Keeps s0 s) :
    Keeps s0 (State.wakeSource s bootsel cause) := by
  unfold State.wakeSource
  with_reducible refine ite_keeps ?_ ?_
  · with_reducible apply State.wake_keeps
    with_reducible assumption
  · with_reducible refine ite_keeps ?_ ?_
    · with_reducible refine keeps_mk_of (keeps_parts ?_)
      with_reducible assumption
    · with_reducible assumption

theorem execSentryEntry_keeps {s0 : State} (at_ : Vt) (pin : Bool) (energy : BitVec 6) (bootsel : BitVec 2) (s : State) (hk : Keeps s0 s) :
    OKeeps s0 (execSentryEntry at_ pin energy bootsel s) := by
  unfold execSentryEntry
  dsimp only
  with_reducible refine next_okeeps ?_
  with_reducible refine ite_keeps ?_ ?_
  · with_reducible refine ite_keeps ?_ ?_
    · with_reducible apply State.wake_keeps
      with_reducible apply State.sentryEnter_keeps
      with_reducible apply State.elapseTo_keeps
      with_reducible assumption
    · with_reducible refine ite_keeps ?_ ?_
      · with_reducible apply State.wake_keeps
        with_reducible apply State.sentryEnter_keeps
        with_reducible apply State.elapseTo_keeps
        with_reducible assumption
      · with_reducible apply State.sentryEnter_keeps
        with_reducible apply State.elapseTo_keeps
        with_reducible assumption
  · with_reducible apply State.elapseTo_keeps
    with_reducible assumption

theorem execWakePin_keeps {s0 : State} (at_ : Vt) (bootsel : BitVec 2) (s : State) (hk : Keeps s0 s) :
    OKeeps s0 (execWakePin at_ bootsel s) := by
  unfold execWakePin
  dsimp only
  with_reducible refine next_okeeps ?_
  with_reducible refine ite_keeps ?_ ?_
  · with_reducible apply State.wakeSource_keeps
    with_reducible apply State.elapseTo_keeps
    with_reducible assumption
  · with_reducible apply State.elapseTo_keeps
    with_reducible assumption

theorem execLinkEnergy_keeps {s0 : State} (at_ : Vt) (port : Fin 6) (bootsel : BitVec 2) (s : State) (hk : Keeps s0 s) :
    OKeeps s0 (execLinkEnergy at_ port bootsel s) := by
  unfold execLinkEnergy
  dsimp only
  with_reducible refine next_okeeps ?_
  with_reducible refine ite_keeps ?_ ?_
  · with_reducible apply State.wakeSource_keeps
    with_reducible apply State.elapseTo_keeps
    with_reducible assumption
  · with_reducible apply State.elapseTo_keeps
    with_reducible assumption

theorem execAlarm_keeps {s0 : State} (at_ : Vt) (bootsel : BitVec 2) (s : State) (hk : Keeps s0 s) :
    OKeeps s0 (execAlarm at_ bootsel s) := by
  unfold execAlarm
  dsimp only
  with_reducible refine next_okeeps ?_
  with_reducible refine ite_keeps ?_ ?_
  · with_reducible apply State.wake_keeps
    with_reducible apply State.elapseTo_keeps
    with_reducible assumption
  · with_reducible apply State.elapseTo_keeps
    with_reducible assumption

end Sys2Proof.Machine
end

