-- ==== Sys2Proof/Laws/KeepsReplies.lean ====
section
/-! SUPPORT. The operations of Replies.lean keep the queue and the canonical forms. -/
namespace Sys2Proof.Machine

theorem State.domainApply_keeps {s0 : State} (s : State) (mask value : Nat) (hk : Keeps s0 s) :
    Keeps s0 (State.domainApply s mask value) := by
  unfold State.domainApply
  with_reducible apply State.domainSet_keeps
  with_reducible assumption

theorem State.runAfter_keeps {s0 : State} (s : State) (a : After) (hk : Keeps s0 s) :
    Keeps s0 (State.runAfter s a) := by
  unfold State.runAfter
  split
  · with_reducible assumption
  · with_reducible refine ite_keeps ?_ ?_
    · with_reducible apply State.closeSession_keeps
      with_reducible assumption
    · with_reducible assumption
  · with_reducible apply State.updSession_keeps
    with_reducible assumption
  · with_reducible refine keeps_mk_of (keeps_parts ?_)
    with_reducible assumption
  · with_reducible apply State.domainApply_keeps
    with_reducible assumption
  · with_reducible apply State.raise_keeps
    with_reducible apply State.boot_keeps
    with_reducible assumption

theorem State.mboxPut_keeps {s0 : State} (s : State) (st : Status) (body : List Byte) (hk : Keeps s0 s) :
    Keeps s0 (State.mboxPut s st body) := by
  unfold State.mboxPut
  extract_lets +onlyGivenNames x1
  clear_value x1
  extract_lets +onlyGivenNames x2
  clear_value x2
  extract_lets +onlyGivenNames x3
  have h3 : Keeps s0 x3 := by
    unfold x3
    with_reducible refine keeps_mk_of (keeps_parts ?_)
    with_reducible assumption
  clear_value x3
  with_reducible apply State.wr_keeps
  with_reducible apply State.wr_keeps
  with_reducible assumption

theorem State.mboxReply_keeps {s0 : State} (s : State) (owed : Bool) (st : Status) (body : List Byte) (after : After) (hk : Keeps s0 s) :
    Keeps s0 (State.mboxReply s owed st body after) := by
  unfold State.mboxReply
  with_reducible refine ite_keeps ?_ ?_
  · with_reducible apply State.runAfter_keeps
    with_reducible apply State.mboxPut_keeps
    with_reducible apply State.wr_keeps
    with_reducible assumption
  · with_reducible refine ite_keeps ?_ ?_
    · with_reducible refine keeps_mk_of (keeps_parts ?_)
      with_reducible assumption
    · with_reducible apply State.mboxPut_keeps
      with_reducible assumption

theorem State.postReply_keeps {s0 : State} (s : State) (o : Origin) (op : Nat) (st : Status) (data : List Byte) (after : After) (hk : Keeps s0 s) :
    Keeps s0 (State.postReply s o op st data after) := by
  unfold State.postReply
  extract_lets +onlyGivenNames x1
  clear_value x1
  split
  · split
    · with_reducible refine ite_keeps ?_ ?_
      · with_reducible apply State.runAfter_keeps
        with_reducible assumption
      · with_reducible apply State.queueOut_keeps
        with_reducible assumption
    · with_reducible apply State.runAfter_keeps
      with_reducible assumption
  · with_reducible refine ite_keeps ?_ ?_
    · with_reducible apply State.runAfter_keeps
      with_reducible assumption
    · with_reducible refine keeps_mk_of (keeps_parts ?_)
      with_reducible assumption
  · with_reducible apply State.mboxReply_keeps
    with_reducible assumption

theorem State.localBusy_keeps {s0 : State} (s : State) (hk : Keeps s0 s) :
    Keeps s0 (State.localBusy s) := by
  unfold State.localBusy
  extract_lets +onlyGivenNames x1
  clear_value x1
  extract_lets +onlyGivenNames x2
  clear_value x2
  extract_lets +onlyGivenNames x3
  have h3 : Keeps s0 x3 := by
    unfold x3
    with_reducible refine keeps_mk_of (keeps_parts ?_)
    with_reducible assumption
  clear_value x3
  with_reducible refine foldl_keeps ?_ ?_
  · intro t4_0 t4_1 h4
    with_reducible apply State.postReply_keeps
    with_reducible assumption
  · with_reducible assumption

theorem execReplySent_keeps {s0 : State} (at_ : Vt) (s : State) (hk : Keeps s0 s) :
    OKeeps s0 (execReplySent at_ s) := by
  unfold execReplySent
  extract_lets +onlyGivenNames x1
  have h1 : Keeps s0 x1 := by
    unfold x1
    with_reducible apply State.elapseTo_keeps
    with_reducible assumption
  clear_value x1
  with_reducible refine next_okeeps ?_
  split
  · with_reducible refine ite_keeps ?_ ?_
    · with_reducible apply State.runAfter_keeps
      with_reducible apply State.sendOut_keeps
      with_reducible refine keeps_mk_of (keeps_parts ?_)
      with_reducible assumption
    · with_reducible assumption
  · with_reducible assumption

theorem execPollReplyLapse_keeps {s0 : State} (at_ : Vt) (s : State) (hk : Keeps s0 s) :
    OKeeps s0 (execPollReplyLapse at_ s) := by
  unfold execPollReplyLapse
  extract_lets +onlyGivenNames x1
  have h1 : Keeps s0 x1 := by
    unfold x1
    with_reducible apply State.elapseTo_keeps
    with_reducible assumption
  clear_value x1
  with_reducible refine next_okeeps ?_
  split
  · with_reducible apply State.runAfter_keeps
    with_reducible refine keeps_mk_of (keeps_parts ?_)
    with_reducible assumption
  · with_reducible assumption

end Sys2Proof.Machine
end

