-- ==== Sys2Proof/Laws/KeepsRegisters.lean ====
section
/-! SUPPORT. The operations of Registers.lean keep the queue and the canonical forms. -/
namespace Sys2Proof.Machine

theorem State.readWord_keeps {s0 : State} (s : State) (a : Nat) (hk : Keeps s0 s) :
    Keeps s0 (State.readWord s a).2 := by
  unfold State.readWord
  with_reducible refine ite_keeps_snd ?_ ?_
  · with_reducible apply State.readVt_keeps
    with_reducible assumption
  · with_reducible refine ite_keeps_snd ?_ ?_
    · split
      split
      with_reducible refine mkpair_keeps ?_
      with_reducible apply keeps_pair; with_reducible assumption
      with_reducible apply State.draw_keeps
      with_reducible apply keeps_pair; with_reducible assumption
      with_reducible apply State.draw_keeps
      with_reducible assumption
    · with_reducible refine ite_keeps_snd ?_ ?_
      · with_reducible apply State.pawnRxRead_keeps
        with_reducible assumption
      · with_reducible refine ite_keeps_snd ?_ ?_
        · with_reducible apply State.cvuReadResult_keeps
          with_reducible assumption
        · with_reducible assumption

theorem State.noteCounter_keeps {s0 : State} (s : State) (a : Nat) (w : Word) (hk : Keeps s0 s) :
    Keeps s0 (State.noteCounter s a w) := by
  unfold State.noteCounter
  with_reducible refine ite_keeps ?_ ?_
  · with_reducible assumption
  · with_reducible apply State.fixStart_keeps
    with_reducible assumption

theorem State.plainWrite_keeps {s0 : State} (s : State) (a : Nat) (w : Word) (hk : Keeps s0 s) :
    Keeps s0 (State.plainWrite s a w) := by
  unfold State.plainWrite
  split
  · with_reducible assumption
  · dsimp only
    with_reducible refine ite_keeps ?_ ?_
    · with_reducible apply State.noteCounter_keeps
      with_reducible apply State.setReg_keeps
      with_reducible assumption
    · with_reducible apply State.setShReg_keeps
      with_reducible apply State.noteCounter_keeps
      with_reducible apply State.setReg_keeps
      with_reducible assumption

theorem State.calTouched_keeps {s0 : State} (s : State) (o n : Nat) (hk : Keeps s0 s) :
    Keeps s0 (State.calTouched s o n) := by
  unfold State.calTouched
  with_reducible refine foldl_keeps ?_ ?_
  · intro t1_0 t1_1 h1
    with_reducible refine ite_keeps ?_ ?_
    · with_reducible apply State.wr_keeps
      with_reducible assumption
    · with_reducible assumption
  · with_reducible assumption

theorem State.fcmStore_keeps {s0 : State} (s : State) (o : Nat) (b : List Byte) (hk : Keeps s0 s) :
    Keeps s0 (State.fcmStore s o b) := by
  unfold State.fcmStore
  with_reducible apply State.calTouched_keeps
  with_reducible apply State.fcmBytes_keeps
  with_reducible assumption

theorem State.memberWrite_keeps {s0 : State} (s : State) (o : Nat) (w : Word) (hk : Keeps s0 s) :
    Keeps s0 (State.memberWrite s o w) := by
  unfold State.memberWrite
  with_reducible refine foldl_keeps ?_ ?_
  · intro t0_0 t0_1 h0
    with_reducible refine ite_keeps ?_ ?_
    · with_reducible apply State.setW1c_keeps
      with_reducible assumption
    · with_reducible apply State.fcmStore_keeps
      with_reducible assumption
  · with_reducible assumption

theorem State.fcmWrite_keeps {s0 : State} (s : State) (o : Nat) (w : Word) (hk : Keeps s0 s) :
    Keeps s0 (State.fcmWrite s o w) := by
  unfold State.fcmWrite
  with_reducible refine ite_keeps ?_ ?_
  · with_reducible assumption
  · with_reducible refine ite_keeps ?_ ?_
    · with_reducible assumption
    · with_reducible refine ite_keeps ?_ ?_
      · with_reducible assumption
      · with_reducible refine ite_keeps ?_ ?_
        · with_reducible apply State.memberWrite_keeps
          with_reducible assumption
        · with_reducible apply State.fcmStore_keeps
          with_reducible assumption

theorem State.grpWrite0_keeps {s0 : State} (s : State) (g : Nat) (w : Word) (hk : Keeps s0 s) :
    Keeps s0 (State.grpWrite0 s g w) := by
  unfold State.grpWrite0
  dsimp only
  with_reducible refine ite_keeps ?_ ?_
  · with_reducible apply State.grpArmWrite_keeps
    with_reducible refine ite_keeps ?_ ?_
    · with_reducible apply State.wr_keeps
      with_reducible assumption
    · with_reducible refine ite_keeps ?_ ?_
      · with_reducible assumption
      · with_reducible apply State.setW1c_keeps
        with_reducible assumption
  · with_reducible apply State.grpDisarm_keeps
    with_reducible refine ite_keeps ?_ ?_
    · with_reducible apply State.wr_keeps
      with_reducible assumption
    · with_reducible refine ite_keeps ?_ ?_
      · with_reducible assumption
      · with_reducible apply State.setW1c_keeps
        with_reducible assumption

theorem State.grpWrite4_keeps {s0 : State} (s : State) (g : Nat) (w : Word) (hk : Keeps s0 s) :
    Keeps s0 (State.grpWrite4 s g w) := by
  unfold State.grpWrite4
  with_reducible refine ite_keeps ?_ ?_
  · with_reducible apply State.setReg_keeps
    with_reducible assumption
  · with_reducible apply State.setW1c_keeps
    with_reducible assumption

theorem State.motifCtrlWrite_keeps {s0 : State} (s : State) (w : Word) (hk : Keeps s0 s) :
    Keeps s0 (State.motifCtrlWrite s w) := by
  unfold State.motifCtrlWrite
  extract_lets +onlyGivenNames x1
  have h1 : Keeps s0 x1 := by
    unfold x1
    with_reducible apply State.motifStep_keeps
    with_reducible assumption
  clear_value x1
  extract_lets +onlyGivenNames x2
  have h2 : Keeps s0 x2 := by
    unfold x2
    with_reducible refine ite_keeps ?_ ?_
    · with_reducible apply State.fbOn_keeps
      with_reducible assumption
    · with_reducible assumption
  clear_value x2
  with_reducible refine ite_keeps ?_ ?_
  · with_reducible apply State.fbOff_keeps
    with_reducible assumption
  · with_reducible assumption

theorem State.calChkWrite_keeps {s0 : State} (s : State) (w : Word) (hk : Keeps s0 s) :
    Keeps s0 (State.calChkWrite s w) := by
  unfold State.calChkWrite
  with_reducible refine ite_keeps ?_ ?_
  · with_reducible assumption
  · extract_lets +onlyGivenNames x1
    have h1 : Keeps s0 x1 := by
      unfold x1
      with_reducible apply State.wr_keeps
      with_reducible assumption
    clear_value x1
    with_reducible refine ite_keeps ?_ ?_
    · extract_lets +onlyGivenNames x2
      have h2 : Keeps s0 x2 := by
        unfold x2
        with_reducible apply State.wr_keeps
        with_reducible assumption
      clear_value x2
      with_reducible refine keeps_mk_of (keeps_parts ?_)
      with_reducible assumption
    · with_reducible assumption

theorem State.mboxAck_keeps {s0 : State} (s : State) (hk : Keeps s0 s) :
    Keeps s0 (State.mboxAck s) := by
  unfold State.mboxAck
  with_reducible refine ite_keeps ?_ ?_
  · with_reducible assumption
  · extract_lets +onlyGivenNames x1
    have h1 : Keeps s0 x1 := by
      unfold x1
      with_reducible apply State.wr_keeps
      with_reducible assumption
    clear_value x1
    split
    · with_reducible apply State.mboxPut_keeps
      with_reducible refine keeps_mk_of (keeps_parts ?_)
      with_reducible assumption
    · with_reducible assumption

theorem State.mboxWrite_keeps {s0 : State} (s : State) (w : Word) (hk : Keeps s0 s) :
    Keeps s0 (State.mboxWrite s w) := by
  unfold State.mboxWrite
  dsimp only
  with_reducible refine ite_keeps ?_ ?_
  · with_reducible refine ite_keeps ?_ ?_
    · with_reducible apply State.mboxAck_keeps
      with_reducible apply State.plainWrite_keeps
      with_reducible assumption
    · with_reducible apply State.plainWrite_keeps
      with_reducible assumption
  · with_reducible refine ite_keeps ?_ ?_
    · with_reducible apply State.setW1c_keeps
      with_reducible refine ite_keeps ?_ ?_
      · with_reducible apply State.mboxAck_keeps
        with_reducible apply State.plainWrite_keeps
        with_reducible assumption
      · with_reducible apply State.plainWrite_keeps
        with_reducible assumption
    · with_reducible refine keeps_mk_of (keeps_parts ?_)
      with_reducible apply State.wr_keeps
      with_reducible refine ite_keeps ?_ ?_
      · with_reducible apply State.mboxAck_keeps
        with_reducible apply State.plainWrite_keeps
        with_reducible assumption
      · with_reducible apply State.plainWrite_keeps
        with_reducible assumption

theorem State.moveNewWrite_keeps {s0 : State} (s : State) (w : Word) (hk : Keeps s0 s) :
    Keeps s0 (State.moveNewWrite s w) := by
  unfold State.moveNewWrite
  extract_lets +onlyGivenNames x1
  have h1 : Keeps s0 x1 := by
    unfold x1
    with_reducible refine ite_keeps ?_ ?_
    · with_reducible apply State.moveNewAdd_keeps
      with_reducible assumption
    · with_reducible assumption
  clear_value x1
  with_reducible refine ite_keeps ?_ ?_
  · with_reducible apply State.moveNewCancel_keeps
    with_reducible assumption
  · with_reducible assumption

theorem State.pawnCtrlWrite_keeps {s0 : State} (s : State) (w : Word) (hk : Keeps s0 s) :
    Keeps s0 (State.pawnCtrlWrite s w) := by
  unfold State.pawnCtrlWrite
  with_reducible apply State.pawnsStop_keeps
  with_reducible apply State.pawnsFlush_keeps
  with_reducible apply State.plainWrite_keeps
  with_reducible assumption

theorem State.scanModeWrite_keeps {s0 : State} (s : State) (w : Word) (hk : Keeps s0 s) :
    Keeps s0 (State.scanModeWrite s w) := by
  unfold State.scanModeWrite
  dsimp only
  with_reducible refine keeps_mk_of (keeps_parts ?_)
  with_reducible apply State.plainWrite_keeps
  with_reducible assumption

theorem State.writeAon_keeps {s0 : State} (s : State) (a : Nat) (w : Word) (hk : Keeps s0 s) :
    Keeps s0 (State.writeAon s a w) := by
  unfold State.writeAon
  with_reducible refine ite_keeps ?_ ?_
  · with_reducible apply State.castleCommit_keeps
    with_reducible assumption
  · with_reducible refine ite_keeps ?_ ?_
    · with_reducible apply State.kick_keeps
      with_reducible assumption
    · with_reducible refine ite_keeps ?_ ?_
      · with_reducible apply State.mboxWrite_keeps
        with_reducible assumption
      · with_reducible refine ite_keeps ?_ ?_
        · with_reducible apply State.domainWrite_keeps
          with_reducible assumption
        · with_reducible refine ite_keeps ?_ ?_
          · with_reducible refine ite_keeps ?_ ?_
            · with_reducible apply State.fwConfirm_keeps
              with_reducible assumption
            · with_reducible assumption
          · with_reducible apply State.plainWrite_keeps
            with_reducible assumption

theorem State.writeNet_keeps {s0 : State} (s : State) (a : Nat) (w : Word) (hk : Keeps s0 s) :
    Keeps s0 (State.writeNet s a w) := by
  unfold State.writeNet
  with_reducible refine ite_keeps ?_ ?_
  · with_reducible apply State.linkModeWrite_keeps
    with_reducible assumption
  · with_reducible refine ite_keeps ?_ ?_
    · with_reducible apply State.fwdCfgWrite_keeps
      with_reducible assumption
    · with_reducible refine ite_keeps ?_ ?_
      · with_reducible apply State.fwdXoffWrite_keeps
        with_reducible assumption
      · with_reducible refine ite_keeps ?_ ?_
        · with_reducible refine ite_keeps ?_ ?_
          · with_reducible apply State.ledgerSnap_keeps
            with_reducible assumption
          · with_reducible assumption
        · with_reducible apply State.plainWrite_keeps
          with_reducible assumption

theorem State.writePix_keeps {s0 : State} (s : State) (a : Nat) (w : Word) (hk : Keeps s0 s) :
    Keeps s0 (State.writePix s a w) := by
  unfold State.writePix
  with_reducible refine ite_keeps ?_ ?_
  · with_reducible apply State.fcmWrite_keeps
    with_reducible assumption
  · with_reducible refine ite_keeps ?_ ?_
    · with_reducible apply State.writeTimeCfg_keeps
      with_reducible assumption
    · with_reducible refine ite_keeps ?_ ?_
      · with_reducible apply State.moveNewWrite_keeps
        with_reducible assumption
      · with_reducible refine ite_keeps ?_ ?_
        · with_reducible refine ite_keeps ?_ ?_
          · with_reducible apply State.flushBoards_keeps
            with_reducible assumption
          · with_reducible assumption
        · with_reducible refine ite_keeps ?_ ?_
          · with_reducible apply State.calChkWrite_keeps
            with_reducible assumption
          · with_reducible refine ite_keeps ?_ ?_
            · with_reducible apply State.motifCtrlWrite_keeps
              with_reducible assumption
            · with_reducible refine ite_keeps ?_ ?_
              · with_reducible apply State.scanModeWrite_keeps
                with_reducible assumption
              · with_reducible apply State.plainWrite_keeps
                with_reducible assumption

theorem State.writeDrv_keeps {s0 : State} (s : State) (a : Nat) (w : Word) (hk : Keeps s0 s) :
    Keeps s0 (State.writeDrv s a w) := by
  unfold State.writeDrv
  with_reducible refine ite_keeps ?_ ?_
  · dsimp only
    with_reducible refine ite_keeps ?_ ?_
    · with_reducible apply State.sweepStart_keeps
      with_reducible refine ite_keeps ?_ ?_
      · with_reducible apply State.censusClear_keeps
        with_reducible assumption
      · with_reducible assumption
    · with_reducible refine ite_keeps ?_ ?_
      · with_reducible apply State.censusClear_keeps
        with_reducible assumption
      · with_reducible assumption
  · with_reducible refine ite_keeps ?_ ?_
    · dsimp only
      split
      · with_reducible apply State.grpWrite0_keeps
        with_reducible assumption
      · with_reducible apply State.grpWrite4_keeps
        with_reducible assumption
      · with_reducible refine ite_keeps ?_ ?_
        · with_reducible apply State.grpAckWrite_keeps
          with_reducible apply State.plainWrite_keeps
          with_reducible assumption
        · with_reducible apply State.plainWrite_keeps
          with_reducible assumption
      · with_reducible apply State.plainWrite_keeps
        with_reducible assumption
    · with_reducible refine ite_keeps ?_ ?_
      · with_reducible apply State.tbChanged_keeps
        with_reducible apply State.plainWrite_keeps
        with_reducible assumption
      · with_reducible apply State.plainWrite_keeps
        with_reducible assumption

theorem State.writePawn_keeps {s0 : State} (s : State) (a : Nat) (w : Word) (hk : Keeps s0 s) :
    Keeps s0 (State.writePawn s a w) := by
  unfold State.writePawn
  with_reducible refine ite_keeps ?_ ?_
  · with_reducible apply State.pawnCtrlWrite_keeps
    with_reducible assumption
  · with_reducible refine ite_keeps ?_ ?_
    · with_reducible apply State.pawnsGo_keeps
      with_reducible assumption
    · with_reducible refine ite_keeps ?_ ?_
      · with_reducible apply State.pxWrite_keeps
        with_reducible assumption
      · with_reducible refine ite_keeps ?_ ?_
        · with_reducible apply State.storeWrite_keeps
          with_reducible assumption
        · with_reducible refine ite_keeps ?_ ?_
          · extract_lets +onlyGivenNames x1
            clear_value x1
            split
            · with_reducible apply State.pawnCfgWrite_keeps
              with_reducible assumption
            · with_reducible apply State.pawnCfgWrite_keeps
              with_reducible assumption
            · with_reducible apply State.pawnCfgWrite_keeps
              with_reducible assumption
            · with_reducible apply State.pawnTxWrite_keeps
              with_reducible assumption
            · with_reducible apply State.plainWrite_keeps
              with_reducible assumption
          · with_reducible apply State.plainWrite_keeps
            with_reducible assumption

theorem State.writeIox_keeps {s0 : State} (s : State) (a : Nat) (w : Word) (hk : Keeps s0 s) :
    Keeps s0 (State.writeIox s a w) := by
  unfold State.writeIox
  split
  · with_reducible apply State.writePawn_keeps
    with_reducible assumption
  · extract_lets +onlyGivenNames x1
    clear_value x1
    extract_lets +onlyGivenNames x2
    clear_value x2
    with_reducible refine ite_keeps ?_ ?_
    · with_reducible apply State.cvuWriteCtrl_keeps
      with_reducible assumption
    · with_reducible refine ite_keeps ?_ ?_
      · with_reducible apply State.cvuWriteCfg_keeps
        with_reducible assumption
      · with_reducible apply State.plainWrite_keeps
        with_reducible assumption
  · with_reducible refine ite_keeps ?_ ?_
    · with_reducible apply State.mirCtrlWrite_keeps
      with_reducible assumption
    · split
      · with_reducible apply State.mirTimingWrite_keeps
        with_reducible assumption
      · with_reducible apply State.plainWrite_keeps
        with_reducible assumption
  · with_reducible refine ite_keeps ?_ ?_
    · with_reducible apply State.writeAon_keeps
      with_reducible assumption
    · with_reducible apply State.plainWrite_keeps
      with_reducible assumption

theorem State.writeSup_keeps {s0 : State} (s : State) (a : Nat) (w : Word) (hk : Keeps s0 s) :
    Keeps s0 (State.writeSup s a w) := by
  unfold State.writeSup
  with_reducible refine ite_keeps ?_ ?_
  · extract_lets +onlyGivenNames x1
    clear_value x1
    split
    · with_reducible apply State.swCtrlWrite_keeps
      with_reducible assumption
    · with_reducible apply State.swShadowWrite_keeps
      with_reducible assumption
    · with_reducible apply State.swShadowWrite_keeps
      with_reducible assumption
    · with_reducible apply State.swShadowWrite_keeps
      with_reducible assumption
    · with_reducible apply State.swShadowWrite_keeps
      with_reducible assumption
    · with_reducible apply State.swConfigWrite_keeps
      with_reducible assumption
    · extract_lets +onlyGivenNames x2
      have h2 : Keeps s0 x2 := by
        unfold x2
        with_reducible apply State.swConfigWrite_keeps
        with_reducible assumption
      clear_value x2
      with_reducible refine ite_keeps ?_ ?_
      · with_reducible apply State.swClr_keeps
        with_reducible assumption
      · with_reducible assumption
    · with_reducible apply State.plainWrite_keeps
      with_reducible assumption
  · with_reducible refine ite_keeps ?_ ?_
    · with_reducible apply State.tripPolWrite_keeps
      with_reducible assumption
    · with_reducible refine ite_keeps ?_ ?_
      · with_reducible apply State.pinLockWrite_keeps
        with_reducible assumption
      · with_reducible apply State.plainWrite_keeps
        with_reducible assumption

theorem State.writeWord_keeps {s0 : State} (s : State) (a : Nat) (w : Word) (hk : Keeps s0 s) :
    Keeps s0 (State.writeWord s a w) := by
  unfold State.writeWord
  with_reducible refine ite_keeps ?_ ?_
  · with_reducible assumption
  · split
    · with_reducible apply State.writeAon_keeps
      with_reducible assumption
    · with_reducible apply State.writeNet_keeps
      with_reducible assumption
    · with_reducible apply State.writePix_keeps
      with_reducible assumption
    · with_reducible apply State.writeDrv_keeps
      with_reducible assumption
    · with_reducible apply State.writeIox_keeps
      with_reducible assumption
    · with_reducible apply State.writeSup_keeps
      with_reducible assumption

theorem State.softWrite_keeps {s0 : State} (s : State) (a : Nat) (w : Word) (f : State → State)
    (hf : ∀ t, Keeps s0 t → Keeps s0 (f t)) (hk : Keeps s0 s) : Keeps s0 (State.softWrite s a w f) := by
  unfold State.softWrite
  exact ite_keeps (State.seeWrite_keeps _ _ (hf _ (State.movesDue_keeps _ hk))) (State.movesDue_keeps _ hk)

theorem State.tryWrite_keeps {s0 : State} (s : State) (a : Nat) (w : Word) (hk : Keeps s0 s) :
    Keeps s0 (State.tryWrite s a w) := by
  unfold State.tryWrite
  with_reducible apply State.softWrite_keeps
  · intro t0_0 h0
    with_reducible apply State.writeWord_keeps
    with_reducible assumption
  · with_reducible assumption

theorem State.tryOnes_keeps {s0 : State} (s : State) (a : Nat) (keep w : Word) (hk : Keeps s0 s) :
    Keeps s0 (State.tryOnes s a keep w) := by
  unfold State.tryOnes
  with_reducible apply State.tryWrite_keeps
  with_reducible assumption

theorem execRegisterWrite_keeps {s0 : State} (at_ : Vt) (addr : Word) (w : Word) (s : State) (hk : Keeps s0 s) :
    OKeeps s0 (execRegisterWrite at_ addr w s) := by
  unfold execRegisterWrite
  with_reducible refine next_okeeps ?_
  with_reducible apply State.tryWrite_keeps
  with_reducible apply State.elapseTo_keeps
  with_reducible assumption

theorem execFcmWindowWrite_keeps {s0 : State} (word : Fin 393216) (w : Word) (s : State) (hk : Keeps s0 s) :
    OKeeps s0 (execFcmWindowWrite word w s) := by
  unfold execFcmWindowWrite
  with_reducible refine next_okeeps ?_
  with_reducible apply State.tryWrite_keeps
  with_reducible assumption

theorem execTimeCfgWrite_keeps {s0 : State} (w : Word) (s : State) (hk : Keeps s0 s) :
    OKeeps s0 (execTimeCfgWrite w s) := by
  unfold execTimeCfgWrite
  with_reducible refine next_okeeps ?_
  with_reducible apply State.tryWrite_keeps
  with_reducible assumption

theorem execLinkModeWrite_keeps {s0 : State} (port : Fin 6) (w : Word) (s : State) (hk : Keeps s0 s) :
    OKeeps s0 (execLinkModeWrite port w s) := by
  unfold execLinkModeWrite
  with_reducible refine next_okeeps ?_
  with_reducible apply State.tryWrite_keeps
  with_reducible assumption

theorem execFwdFlowCfgWrite_keeps {s0 : State} (xoff : Bool) (w : Word) (s : State) (hk : Keeps s0 s) :
    OKeeps s0 (execFwdFlowCfgWrite xoff w s) := by
  unfold execFwdFlowCfgWrite
  with_reducible refine next_okeeps ?_
  with_reducible apply State.tryWrite_keeps
  with_reducible assumption

theorem execLedgerSnapshot_keeps {s0 : State} (s : State) (hk : Keeps s0 s) :
    OKeeps s0 (execLedgerSnapshot s) := by
  unfold execLedgerSnapshot
  with_reducible refine next_okeeps ?_
  with_reducible apply State.tryWrite_keeps
  with_reducible assumption

theorem execPipeFlush_keeps {s0 : State} (s : State) (hk : Keeps s0 s) :
    OKeeps s0 (execPipeFlush s) := by
  unfold execPipeFlush
  with_reducible refine next_okeeps ?_
  with_reducible apply State.tryWrite_keeps
  with_reducible assumption

theorem execMoveNewCancel_keeps {s0 : State} (s : State) (hk : Keeps s0 s) :
    OKeeps s0 (execMoveNewCancel s) := by
  unfold execMoveNewCancel
  with_reducible refine next_okeeps ?_
  with_reducible apply State.softWrite_keeps
  · intro t0_0 h0
    with_reducible apply State.moveNewCancel_keeps
    with_reducible assumption
  · with_reducible assumption

theorem execMirEnable_keeps {s0 : State} (w : Word) (s : State) (hk : Keeps s0 s) :
    OKeeps s0 (execMirEnable w s) := by
  unfold execMirEnable
  with_reducible refine next_okeeps ?_
  with_reducible apply State.tryWrite_keeps
  with_reducible assumption

theorem execMirTimingWrite_keeps {s0 : State} (r : Fin 5) (w : Word) (s : State) (hk : Keeps s0 s) :
    OKeeps s0 (execMirTimingWrite r w s) := by
  unfold execMirTimingWrite
  with_reducible refine next_okeeps ?_
  with_reducible apply State.tryWrite_keeps
  with_reducible assumption

theorem execSpwmCtrlWrite_keeps {s0 : State} (n : Fin 8) (w : Word) (s : State) (hk : Keeps s0 s) :
    OKeeps s0 (execSpwmCtrlWrite n w s) := by
  unfold execSpwmCtrlWrite
  with_reducible refine next_okeeps ?_
  with_reducible apply State.tryWrite_keeps
  with_reducible assumption

theorem execSpwmDutyWrite_keeps {s0 : State} (n : Fin 8) (w : Word) (s : State) (hk : Keeps s0 s) :
    OKeeps s0 (execSpwmDutyWrite n w s) := by
  unfold execSpwmDutyWrite
  with_reducible refine next_okeeps ?_
  with_reducible apply State.tryWrite_keeps
  with_reducible assumption

theorem execTripClr_keeps {s0 : State} (n : Fin 8) (s : State) (hk : Keeps s0 s) :
    OKeeps s0 (execTripClr n s) := by
  unfold execTripClr
  with_reducible refine next_okeeps ?_
  with_reducible apply State.softWrite_keeps
  · intro t0_0 h0
    with_reducible apply State.swClr_keeps
    with_reducible assumption
  · with_reducible assumption

theorem execPinLockWrite_keeps {s0 : State} (w : Word) (s : State) (hk : Keeps s0 s) :
    OKeeps s0 (execPinLockWrite w s) := by
  unfold execPinLockWrite
  with_reducible refine next_okeeps ?_
  with_reducible apply State.tryWrite_keeps
  with_reducible assumption

theorem execCvuEnable_keeps {s0 : State} (n : Fin 8) (s : State) (hk : Keeps s0 s) :
    OKeeps s0 (execCvuEnable n s) := by
  unfold execCvuEnable
  with_reducible refine next_okeeps ?_
  with_reducible apply State.tryOnes_keeps
  with_reducible assumption

theorem execCvuDisable_keeps {s0 : State} (n : Fin 8) (s : State) (hk : Keeps s0 s) :
    OKeeps s0 (execCvuDisable n s) := by
  unfold execCvuDisable
  with_reducible refine next_okeeps ?_
  with_reducible apply State.tryOnes_keeps
  with_reducible assumption

theorem execCvuClose_keeps {s0 : State} (n : Fin 8) (s : State) (hk : Keeps s0 s) :
    OKeeps s0 (execCvuClose n s) := by
  unfold execCvuClose
  with_reducible refine next_okeeps ?_
  with_reducible apply State.softWrite_keeps
  · intro t0_0 h0
    with_reducible apply State.cvuCloseRun_keeps
    with_reducible assumption
  · with_reducible assumption

theorem execCvuConfigWrite_keeps {s0 : State} (n : Fin 8) (r : Fin 9) (w : Word) (s : State) (hk : Keeps s0 s) :
    OKeeps s0 (execCvuConfigWrite n r w s) := by
  unfold execCvuConfigWrite
  with_reducible refine next_okeeps ?_
  with_reducible apply State.tryWrite_keeps
  with_reducible assumption

theorem execPawnStop_keeps {s0 : State} (mask : BitVec 8) (s : State) (hk : Keeps s0 s) :
    OKeeps s0 (execPawnStop mask s) := by
  unfold execPawnStop
  with_reducible refine next_okeeps ?_
  with_reducible apply State.tryOnes_keeps
  with_reducible assumption

theorem execPawnFlush_keeps {s0 : State} (mask : BitVec 8) (s : State) (hk : Keeps s0 s) :
    OKeeps s0 (execPawnFlush mask s) := by
  unfold execPawnFlush
  with_reducible refine next_okeeps ?_
  with_reducible apply State.tryOnes_keeps
  with_reducible assumption

theorem execPawnStoreWrite_keeps {s0 : State} (w : Fin 48) (v : Word) (s : State) (hk : Keeps s0 s) :
    OKeeps s0 (execPawnStoreWrite w v s) := by
  unfold execPawnStoreWrite
  with_reducible refine next_okeeps ?_
  with_reducible apply State.tryWrite_keeps
  with_reducible assumption

theorem execPawnConfigWrite_keeps {s0 : State} (n : Fin 8) (r : Fin 3) (v : Word) (s : State) (hk : Keeps s0 s) :
    OKeeps s0 (execPawnConfigWrite n r v s) := by
  unfold execPawnConfigWrite
  with_reducible refine next_okeeps ?_
  with_reducible apply State.tryWrite_keeps
  with_reducible assumption

theorem execPawnTxWrite_keeps {s0 : State} (n : Fin 8) (v : Word) (s : State) (hk : Keeps s0 s) :
    OKeeps s0 (execPawnTxWrite n v s) := by
  unfold execPawnTxWrite
  with_reducible refine next_okeeps ?_
  with_reducible apply State.tryWrite_keeps
  with_reducible assumption

theorem execPawnRxRead_keeps {s0 : State} (n : Fin 8) (s : State) (hk : Keeps s0 s) :
    OKeeps s0 (execPawnRxRead n s) := by
  unfold execPawnRxRead
  with_reducible refine next_okeeps ?_
  with_reducible refine ite_keeps ?_ ?_
  · with_reducible apply readWordGave_keeps
    with_reducible apply State.pawnRxRead_keeps
    with_reducible assumption
  · with_reducible assumption

theorem execCalCheckStart_keeps {s0 : State} (bank : Fin 2) (s : State) (hk : Keeps s0 s) :
    OKeeps s0 (execCalCheckStart bank s) := by
  unfold execCalCheckStart
  with_reducible refine next_okeeps ?_
  with_reducible apply State.tryWrite_keeps
  with_reducible assumption

theorem execCalCheckDone_keeps {s0 : State} (s : State) (hk : Keeps s0 s) :
    OKeeps s0 (execCalCheckDone s) := by
  unfold execCalCheckDone
  with_reducible refine next_okeeps ?_
  split
  · extract_lets +onlyGivenNames x1
    have h1 : Keeps s0 x1 := by
      unfold x1
      with_reducible apply State.wrB_keeps
      with_reducible assumption
    clear_value x1
    extract_lets +onlyGivenNames x2
    have h2 : Keeps s0 x2 := by
      unfold x2
      with_reducible apply State.wr_keeps
      with_reducible assumption
    clear_value x2
    with_reducible refine keeps_mk_of (keeps_parts ?_)
    with_reducible assumption
  · with_reducible assumption

theorem execCensusSweepStart_keeps {s0 : State} (s : State) (hk : Keeps s0 s) :
    OKeeps s0 (execCensusSweepStart s) := by
  unfold execCensusSweepStart
  with_reducible refine next_okeeps ?_
  with_reducible apply State.tryWrite_keeps
  with_reducible assumption

theorem execCensusClear_keeps {s0 : State} (s : State) (hk : Keeps s0 s) :
    OKeeps s0 (execCensusClear s) := by
  unfold execCensusClear
  with_reducible refine next_okeeps ?_
  with_reducible apply State.tryWrite_keeps
  with_reducible assumption

theorem execGroupArmWrite_keeps {s0 : State} (g : Fin 64) (s : State) (hk : Keeps s0 s) :
    OKeeps s0 (execGroupArmWrite g s) := by
  unfold execGroupArmWrite
  with_reducible refine next_okeeps ?_
  with_reducible apply State.softWrite_keeps
  · intro t0_0 h0
    with_reducible apply State.grpArmWrite_keeps
    with_reducible assumption
  · with_reducible assumption

theorem execGroupDisarmWrite_keeps {s0 : State} (g : Fin 64) (s : State) (hk : Keeps s0 s) :
    OKeeps s0 (execGroupDisarmWrite g s) := by
  unfold execGroupDisarmWrite
  with_reducible refine next_okeeps ?_
  with_reducible apply State.softWrite_keeps
  · intro t0_0 h0
    with_reducible apply State.grpDisarm_keeps
    with_reducible assumption
  · with_reducible assumption

theorem execGroupAckWrite_keeps {s0 : State} (g : Fin 64) (s : State) (hk : Keeps s0 s) :
    OKeeps s0 (execGroupAckWrite g s) := by
  unfold execGroupAckWrite
  with_reducible refine next_okeeps ?_
  with_reducible apply State.softWrite_keeps
  · intro t0_0 h0
    with_reducible apply State.grpAckWrite_keeps
    with_reducible assumption
  · with_reducible assumption

theorem execGroupConfigWrite_keeps {s0 : State} (g : Fin 64) (range : Bool) (w : Word) (s : State) (hk : Keeps s0 s) :
    OKeeps s0 (execGroupConfigWrite g range w s) := by
  unfold execGroupConfigWrite
  with_reducible refine next_okeeps ?_
  with_reducible refine ite_keeps ?_ ?_
  · with_reducible apply State.tryWrite_keeps
    with_reducible assumption
  · with_reducible apply State.tryWrite_keeps
    with_reducible assumption

theorem execCastleCommit_keeps {s0 : State} (mask : BitVec 9) (s : State) (hk : Keeps s0 s) :
    OKeeps s0 (execCastleCommit mask s) := by
  unfold execCastleCommit
  with_reducible refine next_okeeps ?_
  with_reducible apply State.tryWrite_keeps
  with_reducible assumption

theorem execPawnGo_keeps {s0 : State} (mask : BitVec 8) (s : State) (hk : Keeps s0 s) :
    OKeeps s0 (execPawnGo mask s) := by
  unfold execPawnGo
  with_reducible refine next_okeeps ?_
  with_reducible apply State.tryWrite_keeps
  with_reducible assumption

theorem execMotifStepWrite_keeps {s0 : State} (mask : BitVec 8) (s : State) (hk : Keeps s0 s) :
    OKeeps s0 (execMotifStepWrite mask s) := by
  unfold execMotifStepWrite
  with_reducible refine next_okeeps ?_
  with_reducible apply State.tryWrite_keeps
  with_reducible assumption

theorem execFbOnWrite_keeps {s0 : State} (s : State) (hk : Keeps s0 s) :
    OKeeps s0 (execFbOnWrite s) := by
  unfold execFbOnWrite
  with_reducible refine next_okeeps ?_
  with_reducible apply State.tryWrite_keeps
  with_reducible assumption

theorem execFbOffWrite_keeps {s0 : State} (s : State) (hk : Keeps s0 s) :
    OKeeps s0 (execFbOffWrite s) := by
  unfold execFbOffWrite
  with_reducible refine next_okeeps ?_
  with_reducible apply State.tryWrite_keeps
  with_reducible assumption

theorem execEvtRawClear_keeps {s0 : State} (at_ : Vt) (w : Fin 2) (mask : Word) (s : State) (hk : Keeps s0 s) :
    OKeeps s0 (execEvtRawClear at_ w mask s) := by
  unfold execEvtRawClear
  with_reducible refine next_okeeps ?_
  with_reducible apply State.tryWrite_keeps
  with_reducible apply State.elapseTo_keeps
  with_reducible assumption

end Sys2Proof.Machine
end

