-- ==== Sys2Proof/Laws/KeepsArm.lean ====
section
/-! SUPPORT. The operations of Arm.lean keep the queue and the canonical forms. -/
namespace Sys2Proof.Machine

theorem State.installPlain_keeps {s0 : State} (s : State) (a v : Nat) (hk : Keeps s0 s) :
    Keeps s0 (State.installPlain s a v) := by
  unfold State.installPlain
  split
  · with_reducible assumption
  · extract_lets +onlyGivenNames x1
    have h1 : Keeps s0 x1 := by
      unfold x1
      with_reducible apply State.setReg_keeps
      with_reducible assumption
    clear_value x1
    with_reducible refine ite_keeps ?_ ?_
    · with_reducible assumption
    · with_reducible apply State.setShReg_keeps
      with_reducible assumption

theorem State.installReg_keeps {s0 : State} (s : State) (w : List (Nat × Nat)) (a : Nat) (hk : Keeps s0 s) :
    Keeps s0 (State.installReg s w a) := by
  unfold State.installReg
  dsimp only
  with_reducible refine ite_keeps ?_ ?_
  · with_reducible refine ite_keeps ?_ ?_
    · with_reducible assumption
    · with_reducible apply State.setTimeCfg_keeps
      with_reducible assumption
  · with_reducible refine ite_keeps ?_ ?_
    · with_reducible refine ite_keeps ?_ ?_
      · with_reducible assumption
      · with_reducible apply State.ringEval_keeps
        with_reducible apply State.setReg_keeps
        with_reducible assumption
    · with_reducible refine ite_keeps ?_ ?_
      · with_reducible apply State.flowCheck_keeps
        with_reducible apply State.setReg_keeps
        with_reducible assumption
      · with_reducible refine ite_keeps ?_ ?_
        · with_reducible refine keeps_mk_of (keeps_parts ?_)
          with_reducible apply State.installPlain_keeps
          with_reducible assumption
        · with_reducible refine ite_keeps ?_ ?_
          · with_reducible refine ite_keeps ?_ ?_
            · with_reducible assumption
            · with_reducible apply State.writeWord_keeps
              with_reducible assumption
          · with_reducible apply State.installPlain_keeps
            with_reducible assumption

theorem State.installUnit_keeps {s0 : State} (s : State) (w : List (Nat × Nat)) (n : Nat) (hk : Keeps s0 s) :
    Keeps s0 (State.installUnit s w n) := by
  unfold State.installUnit
  dsimp only
  with_reducible refine ite_keeps ?_ ?_
  · with_reducible refine ite_keeps ?_ ?_
    · with_reducible assumption
    · with_reducible apply State.installPlain_keeps
      with_reducible assumption
  · with_reducible apply State.swCtrlWrite_keeps
    with_reducible apply State.swTripCheck_keeps
    with_reducible refine foldl_keeps ?_ ?_
    · intro t0_0 t0_1 h0
      with_reducible apply State.installPlain_keeps
      with_reducible assumption
    · with_reducible refine foldl_keeps ?_ ?_
      · intro t1_0 t1_1 h1
        with_reducible apply State.setShReg_keeps
        with_reducible assumption
      · with_reducible refine ite_keeps ?_ ?_
        · with_reducible apply State.swCtrlWrite_keeps
          with_reducible refine ite_keeps ?_ ?_
          · with_reducible assumption
          · with_reducible apply State.installPlain_keeps
            with_reducible assumption
        · with_reducible refine ite_keeps ?_ ?_
          · with_reducible assumption
          · with_reducible apply State.installPlain_keeps
            with_reducible assumption

theorem State.installRegs_keeps {s0 : State} (s : State) (w : List (Nat × Nat)) (keep : Nat → Bool) (hk : Keeps s0 s) :
    Keeps s0 (State.installRegs s w keep) := by
  unfold State.installRegs
  extract_lets +onlyGivenNames x1
  clear_value x1
  extract_lets +onlyGivenNames x2
  have h2 : Keeps s0 x2 := by
    unfold x2
    with_reducible refine foldl_keeps ?_ ?_
    · intro t3_0 t3_1 h3
      with_reducible apply State.installReg_keeps
      with_reducible assumption
    · with_reducible assumption
  clear_value x2
  extract_lets +onlyGivenNames x4
  have h4 : Keeps s0 x4 := by
    unfold x4
    with_reducible refine ite_keeps ?_ ?_
    · with_reducible refine foldl_keeps ?_ ?_
      · intro t5_0 t5_1 h5
        with_reducible apply State.installUnit_keeps
        with_reducible assumption
      · with_reducible assumption
    · with_reducible assumption
  clear_value x4
  with_reducible refine ite_keeps ?_ ?_
  · with_reducible apply State.mirCtrlWrite_keeps
    with_reducible assumption
  · with_reducible assumption

theorem State.calCheckAll_keeps {s0 : State} (s : State) (hk : Keeps s0 s) :
    Keeps s0 (State.calCheckAll s) := by
  unfold State.calCheckAll
  with_reducible apply State.wrB_keeps
  with_reducible apply State.wrB_keeps
  with_reducible assumption

theorem State.sealCastle_keeps {s0 : State} (s : State) (mask : Nat) (hk : Keeps s0 s) :
    Keeps s0 (State.sealCastle s mask) := by
  unfold State.sealCastle
  dsimp only
  with_reducible apply State.castleCommit_keeps
  with_reducible assumption

theorem State.sealApply_keeps {s0 : State} (s : State) (img : List Byte) (hk : Keeps s0 s) :
    Keeps s0 (State.sealApply s img) := by
  unfold State.sealApply
  dsimp only
  with_reducible refine keeps_mk_of (keeps_parts ?_)
  with_reducible apply State.sealCastle_keeps
  with_reducible refine ite_keeps ?_ ?_
  · with_reducible apply State.calCheckAll_keeps
    with_reducible apply State.sealFcm_keeps
    with_reducible refine ite_keeps ?_ ?_
    · with_reducible apply State.wrB_keeps
      with_reducible apply State.installRegs_keeps
      with_reducible apply State.progsRemove_keeps
      with_reducible apply State.groupsRemove_keeps
      with_reducible apply State.motifsRemove_keeps
      with_reducible apply State.mapsRemove_keeps
      with_reducible assumption
    · with_reducible apply State.installRegs_keeps
      with_reducible apply State.progsRemove_keeps
      with_reducible apply State.groupsRemove_keeps
      with_reducible apply State.motifsRemove_keeps
      with_reducible apply State.mapsRemove_keeps
      with_reducible assumption
  · with_reducible refine ite_keeps ?_ ?_
    · with_reducible apply State.wrB_keeps
      with_reducible apply State.installRegs_keeps
      with_reducible apply State.progsRemove_keeps
      with_reducible apply State.groupsRemove_keeps
      with_reducible apply State.motifsRemove_keeps
      with_reducible apply State.mapsRemove_keeps
      with_reducible assumption
    · with_reducible apply State.installRegs_keeps
      with_reducible apply State.progsRemove_keeps
      with_reducible apply State.groupsRemove_keeps
      with_reducible apply State.motifsRemove_keeps
      with_reducible apply State.mapsRemove_keeps
      with_reducible assumption

theorem State.swapTo_keeps {s0 : State} (s : State) (slot : Nat) (hk : Keeps s0 s) :
    Keeps s0 (State.swapTo s slot) := by
  unfold State.swapTo
  extract_lets +onlyGivenNames x1
  clear_value x1
  extract_lets +onlyGivenNames x2
  have h2 : Keeps s0 x2 := by
    unfold x2
    with_reducible refine keeps_mk_of (keeps_parts ?_)
    with_reducible assumption
  clear_value x2
  with_reducible apply State.coreRestart_keeps
  with_reducible apply State.wr_keeps
  with_reducible apply State.wr_keeps
  with_reducible assumption

theorem State.fwSwap_keeps {s0 : State} (s : State) (slot : Nat) (o : Origin) (hk : Keeps s0 s) :
    Keeps s0 (State.fwSwap s slot o) := by
  unfold State.fwSwap
  dsimp only
  with_reducible refine ite_keeps ?_ ?_
  · with_reducible apply State.postReply_keeps
    with_reducible assumption
  · with_reducible refine ite_keeps ?_ ?_
    · with_reducible apply State.postReply_keeps
      with_reducible assumption
    · with_reducible refine ite_keeps ?_ ?_
      · with_reducible apply State.postReply_keeps
        with_reducible assumption
      · with_reducible apply State.swapTo_keeps
        with_reducible apply State.postReply_keeps
        with_reducible assumption

theorem State.swapNext_keeps {s0 : State} (s : State) (hk : Keeps s0 s) :
    Keeps s0 (State.swapNext s) := by
  unfold State.swapNext
  split
  · with_reducible refine ite_keeps ?_ ?_
    · with_reducible assumption
    · with_reducible apply State.fwSwap_keeps
      with_reducible refine keeps_mk_of (keeps_parts ?_)
      with_reducible assumption
  · with_reducible assumption

theorem State.sealPixObjects_keeps {s0 : State} (s : State) (l : List Sec) (hk : Keeps s0 s) :
    Keeps s0 (State.sealPixObjects s l) := by
  unfold State.sealPixObjects
  dsimp only
  with_reducible refine foldl_keeps ?_ ?_
  · intro t0_0 t0_1 h0
    with_reducible apply State.motifName_keeps
    with_reducible assumption
  · with_reducible refine foldl_keeps ?_ ?_
    · intro t1_0 t1_1 h1
      with_reducible apply State.mapName_keeps
      with_reducible assumption
    · with_reducible assumption

theorem State.sealGroupObjects_keeps {s0 : State} (s : State) (l : List Sec) (begin_ : SealGroup → State → State)
    (hb : ∀ g t, Keeps s0 t → Keeps s0 (begin_ g t)) (hk : Keeps s0 s) : Keeps s0 (State.sealGroupObjects s l begin_) :=
  foldl_keeps (fun _ _ h => hb _ _ (State.groupCreate_keeps _ _ _ _ _ h)) hk

theorem State.sealPawns_keeps {s0 : State} (s : State) (l : List Sec) (hk : Keeps s0 s) :
    Keeps s0 (State.sealPawns s l) := by
  unfold State.sealPawns
  extract_lets +onlyGivenNames x1
  clear_value x1
  extract_lets +onlyGivenNames x2
  have h2 : Keeps s0 x2 := by
    unfold x2
    with_reducible apply State.pawnsStop_keeps
    with_reducible assumption
  clear_value x2
  extract_lets +onlyGivenNames x3
  have h3 : Keeps s0 x3 := by
    unfold x3
    with_reducible apply State.setReg_keeps
    with_reducible apply State.setReg_keeps
    with_reducible assumption
  clear_value x3
  extract_lets +onlyGivenNames x4
  have h4 : Keeps s0 x4 := by
    unfold x4
    with_reducible refine foldl_keeps ?_ ?_
    · intro t5_0 t5_1 h5
      extract_lets +onlyGivenNames x6
      clear_value x6
      extract_lets +onlyGivenNames x7
      have h7 : Keeps s0 x7 := by
        unfold x7
        with_reducible apply State.pawnCfgWrite_keeps
        with_reducible assumption
      clear_value x7
      extract_lets +onlyGivenNames x8
      have h8 : Keeps s0 x8 := by
        unfold x8
        with_reducible apply State.pawnCfgWrite_keeps
        with_reducible assumption
      clear_value x8
      with_reducible apply State.pawnCfgWrite_keeps
      with_reducible assumption
    · with_reducible assumption
  clear_value x4
  extract_lets +onlyGivenNames x9
  have h9 : Keeps s0 x9 := by
    unfold x9
    with_reducible refine foldl_keeps ?_ ?_
    · intro t10_0 t10_1 h10
      with_reducible apply State.storePut_keeps
      with_reducible assumption
    · with_reducible assumption
  clear_value x9
  extract_lets +onlyGivenNames x11
  have h11 : Keeps s0 x11 := by
    unfold x11
    with_reducible refine foldl_keeps ?_ ?_
    · intro t12_0 t12_1 h12
      with_reducible apply State.progCreate_keeps
      with_reducible assumption
    · with_reducible assumption
  clear_value x11
  with_reducible apply State.pawnsGo_keeps
  with_reducible assumption

theorem State.armEnter_keeps {s0 : State} (s : State) (img : List Byte) (d : ArmDue) (hk : Keeps s0 s) :
    Keeps s0 (State.armEnter s img d) := by
  unfold State.armEnter
  dsimp only
  with_reducible apply State.swapNext_keeps
  with_reducible refine foldl_keeps ?_ ?_
  · intro t0_0 t0_1 h0
    with_reducible apply State.postReply_keeps
    with_reducible assumption
  · with_reducible refine keeps_mk_of (keeps_parts ?_)
    with_reducible refine ite_keeps ?_ ?_
    · with_reducible apply State.sealPawns_keeps
      with_reducible refine ite_keeps ?_ ?_
      · with_reducible apply State.sealGroupObjects_keeps
        · intro t1_0 t1_1 h1
          with_reducible refine ite_keeps ?_ ?_
          · with_reducible apply State.grpArmWrite_keeps
            with_reducible assumption
          · with_reducible assumption
        · with_reducible refine ite_keeps ?_ ?_
          · with_reducible apply State.sealPixObjects_keeps
            with_reducible apply State.raise_keeps
            with_reducible apply State.enterState_keeps
            with_reducible refine keeps_mk_of (keeps_parts ?_)
            with_reducible assumption
          · with_reducible apply State.raise_keeps
            with_reducible apply State.enterState_keeps
            with_reducible refine keeps_mk_of (keeps_parts ?_)
            with_reducible assumption
      · with_reducible refine ite_keeps ?_ ?_
        · with_reducible apply State.sealPixObjects_keeps
          with_reducible apply State.raise_keeps
          with_reducible apply State.enterState_keeps
          with_reducible refine keeps_mk_of (keeps_parts ?_)
          with_reducible assumption
        · with_reducible apply State.raise_keeps
          with_reducible apply State.enterState_keeps
          with_reducible refine keeps_mk_of (keeps_parts ?_)
          with_reducible assumption
    · with_reducible refine ite_keeps ?_ ?_
      · with_reducible apply State.sealGroupObjects_keeps
        · intro t2_0 t2_1 h2
          with_reducible refine ite_keeps ?_ ?_
          · with_reducible apply State.grpArmWrite_keeps
            with_reducible assumption
          · with_reducible assumption
        · with_reducible refine ite_keeps ?_ ?_
          · with_reducible apply State.sealPixObjects_keeps
            with_reducible apply State.raise_keeps
            with_reducible apply State.enterState_keeps
            with_reducible refine keeps_mk_of (keeps_parts ?_)
            with_reducible assumption
          · with_reducible apply State.raise_keeps
            with_reducible apply State.enterState_keeps
            with_reducible refine keeps_mk_of (keeps_parts ?_)
            with_reducible assumption
      · with_reducible refine ite_keeps ?_ ?_
        · with_reducible apply State.sealPixObjects_keeps
          with_reducible apply State.raise_keeps
          with_reducible apply State.enterState_keeps
          with_reducible refine keeps_mk_of (keeps_parts ?_)
          with_reducible assumption
        · with_reducible apply State.raise_keeps
          with_reducible apply State.enterState_keeps
          with_reducible refine keeps_mk_of (keeps_parts ?_)
          with_reducible assumption

theorem execFallbackCopyDone_keeps {s0 : State} (s : State) (hk : Keeps s0 s) :
    OKeeps s0 (execFallbackCopyDone s) := by
  unfold execFallbackCopyDone
  with_reducible refine next_okeeps ?_
  with_reducible refine ite_keeps ?_ ?_
  · extract_lets +onlyGivenNames x1
    have h1 : Keeps s0 x1 := by
      unfold x1
      with_reducible apply State.fallbackCopy_keeps
      with_reducible assumption
    clear_value x1
    extract_lets +onlyGivenNames x2
    have h2 : Keeps s0 x2 := by
      unfold x2
      with_reducible apply State.wr_keeps
      with_reducible assumption
    clear_value x2
    with_reducible refine keeps_mk_of (keeps_parts ?_)
    with_reducible assumption
  · with_reducible assumption

theorem State.disarm_keeps {s0 : State} (s : State) (hk : Keeps s0 s) :
    Keeps s0 (State.disarm s) := by
  unfold State.disarm
  extract_lets +onlyGivenNames x1
  have h1 : Keeps s0 x1 := by
    unfold x1
    with_reducible refine foldl_keeps ?_ ?_
    · intro t2_0 t2_1 h2
      with_reducible apply State.grpDisarm_keeps
      with_reducible assumption
    · with_reducible assumption
  clear_value x1
  extract_lets +onlyGivenNames x3
  have h3 : Keeps s0 x3 := by
    unfold x3
    with_reducible apply State.wr_keeps
    with_reducible apply State.wr_keeps
    with_reducible assumption
  clear_value x3
  extract_lets +onlyGivenNames x4
  clear_value x4
  extract_lets +onlyGivenNames x5
  clear_value x5
  extract_lets +onlyGivenNames x6
  have h6 : Keeps s0 x6 := by
    unfold x6
    with_reducible refine keeps_mk_of (keeps_parts ?_)
    with_reducible assumption
  clear_value x6
  with_reducible apply State.enterState_keeps
  with_reducible assumption

theorem execDisarmAtGridPoint_keeps {s0 : State} (at_ : Vt) (s : State) (hk : Keeps s0 s) :
    OKeeps s0 (execDisarmAtGridPoint at_ s) := by
  unfold execDisarmAtGridPoint
  extract_lets +onlyGivenNames x1
  have h1 : Keeps s0 x1 := by
    unfold x1
    with_reducible apply State.elapseTo_keeps
    with_reducible assumption
  clear_value x1
  with_reducible refine next_okeeps ?_
  with_reducible refine ite_keeps ?_ ?_
  · with_reducible apply State.disarm_keeps
    with_reducible assumption
  · with_reducible assumption

theorem State.stalemate_keeps {s0 : State} (s : State) (code : Nat) (hk : Keeps s0 s) :
    Keeps s0 (State.stalemate s code) := by
  unfold State.stalemate
  extract_lets +onlyGivenNames x1
  clear_value x1
  extract_lets +onlyGivenNames x2
  have h2 : Keeps s0 x2 := by
    unfold x2
    with_reducible refine keeps_mk_of (keeps_parts ?_)
    with_reducible assumption
  clear_value x2
  with_reducible apply State.raise_keeps
  with_reducible apply State.enterState_keeps
  with_reducible assumption

theorem State.beacon_keeps {s0 : State} (s : State) (hk : Keeps s0 s) :
    Keeps s0 (State.beacon s) := by
  unfold State.beacon
  extract_lets +onlyGivenNames x1
  clear_value x1
  extract_lets +onlyGivenNames x2
  clear_value x2
  extract_lets +onlyGivenNames x3
  clear_value x3
  extract_lets +onlyGivenNames x4
  have h4 : Keeps s0 x4 := by
    unfold x4
    with_reducible apply State.sendKlp_keeps
    with_reducible assumption
  clear_value x4
  with_reducible refine keeps_mk_of (keeps_parts ?_)
  with_reducible assumption

theorem execStalemateBeacon_keeps {s0 : State} (at_ : Vt) (s : State) (hk : Keeps s0 s) :
    OKeeps s0 (execStalemateBeacon at_ s) := by
  unfold execStalemateBeacon
  extract_lets +onlyGivenNames x1
  have h1 : Keeps s0 x1 := by
    unfold x1
    with_reducible apply State.elapseTo_keeps
    with_reducible assumption
  clear_value x1
  with_reducible refine next_okeeps ?_
  with_reducible refine ite_keeps ?_ ?_
  · with_reducible apply State.beacon_keeps
    with_reducible assumption
  · with_reducible assumption

theorem State.otpLinks_keeps {s0 : State} (s : State) (hk : Keeps s0 s) :
    Keeps s0 (State.otpLinks s) := by
  unfold State.otpLinks
  dsimp only
  with_reducible refine ite_keeps ?_ ?_
  · with_reducible refine foldl_keeps ?_ ?_
    · intro t0_0 t0_1 h0
      with_reducible apply State.linkModeWrite_keeps
      with_reducible assumption
    · with_reducible assumption
  · with_reducible apply State.wr_keeps
    with_reducible refine foldl_keeps ?_ ?_
    · intro t1_0 t1_1 h1
      with_reducible apply State.linkModeWrite_keeps
      with_reducible assumption
    · with_reducible assumption

theorem State.bootReady_keeps {s0 : State} (s : State) (img : List Byte) (hk : Keeps s0 s) :
    Keeps s0 (State.bootReady s img) := by
  unfold State.bootReady
  extract_lets +onlyGivenNames x1
  have h1 : Keeps s0 x1 := by
    unfold x1
    with_reducible apply State.sealApply_keeps
    with_reducible apply State.noteCheck_keeps
    with_reducible assumption
  clear_value x1
  extract_lets +onlyGivenNames x2
  clear_value x2
  extract_lets +onlyGivenNames x3
  have h3 : Keeps s0 x3 := by
    unfold x3
    with_reducible refine keeps_mk_of (keeps_parts ?_)
    with_reducible assumption
  clear_value x3
  with_reducible apply State.enterState_keeps
  with_reducible assumption

theorem State.bootStale_keeps {s0 : State} (s : State) (r : Nat × Nat) (hk : Keeps s0 s) :
    Keeps s0 (State.bootStale s r) := by
  unfold State.bootStale
  with_reducible apply State.stalemate_keeps
  with_reducible apply State.otpLinks_keeps
  with_reducible apply State.noteCheck_keeps
  with_reducible assumption

theorem State.bootStored_keeps {s0 : State} (s : State) (c : Nat) (hk : Keeps s0 s) :
    Keeps s0 (State.bootStored s c) := by
  unfold State.bootStored
  dsimp only
  with_reducible refine ite_keeps ?_ ?_
  · with_reducible apply State.bootReady_keeps
    with_reducible apply State.wr_keeps
    with_reducible apply State.stageCopy_keeps
    with_reducible assumption
  · with_reducible apply State.bootStale_keeps
    with_reducible apply State.wr_keeps
    with_reducible apply State.stageCopy_keeps
    with_reducible assumption

theorem State.bootSeal_keeps {s0 : State} (s : State) (hk : Keeps s0 s) :
    Keeps s0 (State.bootSeal s) := by
  unfold State.bootSeal
  with_reducible refine ite_keeps ?_ ?_
  · with_reducible apply State.bootStale_keeps
    with_reducible refine ite_keeps ?_ ?_
    · with_reducible apply State.wr_keeps
      with_reducible assumption
    · with_reducible assumption
  · split
    · dsimp only
      with_reducible refine ite_keeps ?_ ?_
      · with_reducible apply State.bootReady_keeps
        with_reducible apply State.wr_keeps
        with_reducible apply State.stageCopy_keeps
        with_reducible assumption
      · with_reducible apply State.bootStale_keeps
        with_reducible apply State.wr_keeps
        with_reducible apply State.stageCopy_keeps
        with_reducible assumption
    · dsimp only
      split
      · with_reducible apply State.bootStored_keeps
        with_reducible refine ite_keeps ?_ ?_
        · with_reducible apply State.wr_keeps
          with_reducible assumption
        · with_reducible assumption
      · with_reducible apply State.bootStored_keeps
        with_reducible refine ite_keeps ?_ ?_
        · with_reducible apply State.wr_keeps
          with_reducible assumption
        · with_reducible assumption
      · with_reducible apply State.bootStale_keeps
        with_reducible refine ite_keeps ?_ ?_
        · with_reducible apply State.wr_keeps
          with_reducible assumption
        · with_reducible assumption

theorem execFirmwareStart_keeps {s0 : State} (at_ : Vt) (s : State) (hk : Keeps s0 s) :
    OKeeps s0 (execFirmwareStart at_ s) := by
  unfold execFirmwareStart
  extract_lets +onlyGivenNames x1
  have h1 : Keeps s0 x1 := by
    unfold x1
    with_reducible apply State.elapseTo_keeps
    with_reducible assumption
  clear_value x1
  with_reducible refine next_okeeps ?_
  with_reducible refine ite_keeps ?_ ?_
  · with_reducible assumption
  · extract_lets +onlyGivenNames x2
    clear_value x2
    extract_lets +onlyGivenNames x3
    have h3 : Keeps s0 x3 := by
      unfold x3
      with_reducible refine keeps_mk_of (keeps_parts ?_)
      with_reducible assumption
    clear_value x3
    with_reducible refine ite_keeps ?_ ?_
    · with_reducible apply State.enterState_keeps
      with_reducible apply State.otpLinks_keeps
      with_reducible assumption
    · extract_lets +onlyGivenNames x4
      have h4 : Keeps s0 x4 := by
        unfold x4
        with_reducible apply State.bootSeal_keeps
        with_reducible apply State.enterState_keeps
        with_reducible assumption
      clear_value x4
      with_reducible refine keeps_mk_of (keeps_parts ?_)
      with_reducible assumption

theorem State.checkDone_keeps {s0 : State} (s : State) (o : Origin) (hk : Keeps s0 s) :
    Keeps s0 (State.checkDone s o) := by
  unfold State.checkDone
  extract_lets +onlyGivenNames x1
  clear_value x1
  extract_lets +onlyGivenNames x2
  clear_value x2
  with_reducible apply State.postReply_keeps
  with_reducible apply State.noteCheck_keeps
  with_reducible assumption

theorem State.unstage_keeps {s0 : State} (s : State) (hk : Keeps s0 s) :
    Keeps s0 (State.unstage s) := by
  unfold State.unstage
  with_reducible refine keeps_mk_of (keeps_parts ?_)
  with_reducible assumption

theorem State.armDone_keeps {s0 : State} (s : State) (o : Origin) (hk : Keeps s0 s) :
    Keeps s0 (State.armDone s o) := by
  unfold State.armDone
  with_reducible refine ite_keeps ?_ ?_
  · with_reducible apply State.postReply_keeps
    with_reducible assumption
  · split
    dsimp only
    with_reducible refine ite_keeps ?_ ?_
    · with_reducible refine keeps_mk_of (keeps_parts ?_)
      with_reducible apply State.enterState_keeps
      with_reducible apply State.unstage_keeps
      with_reducible apply State.sealApply_keeps
      with_reducible apply State.noteCheck_keeps
      with_reducible assumption
    · with_reducible apply State.postReply_keeps
      with_reducible apply State.stalemate_keeps
      with_reducible refine keeps_mk_of (keeps_parts ?_)
      with_reducible apply State.noteCheck_keeps
      with_reducible assumption

theorem execStreamLossTimeout_keeps {s0 : State} (at_ : Vt) (s : State) (hk : Keeps s0 s) :
    OKeeps s0 (execStreamLossTimeout at_ s) := by
  unfold execStreamLossTimeout
  extract_lets +onlyGivenNames x1
  have h1 : Keeps s0 x1 := by
    unfold x1
    with_reducible apply State.elapseTo_keeps
    with_reducible assumption
  clear_value x1
  with_reducible refine next_okeeps ?_
  with_reducible refine ite_keeps ?_ ?_
  · with_reducible apply State.fbRequest_keeps
    with_reducible apply State.raise_keeps
    with_reducible assumption
  · with_reducible assumption

theorem State.restoreContents_keeps {s0 : State} (s : State) (l : List Sec) (d : Nat) (hk : Keeps s0 s) :
    Keeps s0 (State.restoreContents s l d) := by
  unfold State.restoreContents
  dsimp only
  split
  · with_reducible refine ite_keeps ?_ ?_
    · with_reducible apply State.censusClear_keeps
      with_reducible refine keeps_mk_of (keeps_parts ?_)
      with_reducible refine ite_keeps ?_ ?_
      · with_reducible apply State.sealPixObjects_keeps
        with_reducible apply State.wr_keeps
        with_reducible apply State.calCheckAll_keeps
        with_reducible apply State.fallbackCopy_keeps
        with_reducible apply State.sealFcm_keeps
        with_reducible assumption
      · with_reducible apply State.wr_keeps
        with_reducible apply State.calCheckAll_keeps
        with_reducible apply State.fallbackCopy_keeps
        with_reducible apply State.sealFcm_keeps
        with_reducible assumption
    · with_reducible refine keeps_mk_of (keeps_parts ?_)
      with_reducible refine ite_keeps ?_ ?_
      · with_reducible apply State.sealPixObjects_keeps
        with_reducible apply State.wr_keeps
        with_reducible apply State.calCheckAll_keeps
        with_reducible apply State.fallbackCopy_keeps
        with_reducible apply State.sealFcm_keeps
        with_reducible assumption
      · with_reducible apply State.wr_keeps
        with_reducible apply State.calCheckAll_keeps
        with_reducible apply State.fallbackCopy_keeps
        with_reducible apply State.sealFcm_keeps
        with_reducible assumption
  · with_reducible refine keeps_mk_of (keeps_parts ?_)
    with_reducible refine foldl_keeps ?_ ?_
    · intro t0_0 t0_1 h0
      with_reducible refine ite_keeps ?_ ?_
      · with_reducible apply State.grpArm_keeps
        with_reducible refine ite_keeps ?_ ?_
        · with_reducible assumption
        · with_reducible apply State.groupCreate_keeps
          with_reducible assumption
      · with_reducible refine ite_keeps ?_ ?_
        · with_reducible assumption
        · with_reducible apply State.groupCreate_keeps
          with_reducible assumption
    · with_reducible refine ite_keeps ?_ ?_
      · with_reducible apply State.sealGroupObjects_keeps
        · intro t1_0 t1_1 h1
          with_reducible assumption
        · with_reducible assumption
      · with_reducible assumption
  · with_reducible refine ite_keeps ?_ ?_
    · with_reducible apply State.sealPawns_keeps
      with_reducible assumption
    · with_reducible assumption
  · with_reducible assumption

theorem execDomainRestore_keeps {s0 : State} (at_ : Vt) (d : Fin 6) (s : State) (hk : Keeps s0 s) :
    OKeeps s0 (execDomainRestore at_ d s) := by
  unfold execDomainRestore
  dsimp only
  with_reducible refine next_okeeps ?_
  split
  · with_reducible refine ite_keeps ?_ ?_
    · with_reducible apply State.elapseTo_keeps
      with_reducible assumption
    · with_reducible apply State.domainDarkEnd_keeps
      with_reducible refine keeps_mk_of (keeps_parts ?_)
      with_reducible refine ite_keeps ?_ ?_
      · with_reducible apply State.restoreContents_keeps
        with_reducible apply State.sealCastle_keeps
        with_reducible apply State.installRegs_keeps
        with_reducible apply State.elapseTo_keeps
        with_reducible assumption
      · with_reducible apply State.sealCastle_keeps
        with_reducible apply State.restoreContents_keeps
        with_reducible apply State.installRegs_keeps
        with_reducible apply State.elapseTo_keeps
        with_reducible assumption
  · with_reducible apply State.elapseTo_keeps
    with_reducible assumption

theorem State.answerBusy_keeps {s0 : State} (s : State) (hk : Keeps s0 s) :
    Keeps s0 (State.answerBusy s) := by
  unfold State.answerBusy
  dsimp only
  with_reducible refine foldl_keeps ?_ ?_
  · intro t0_0 t0_1 h0
    with_reducible apply State.postReply_keeps
    with_reducible assumption
  · split
    · with_reducible apply State.postReply_keeps
      split
      · with_reducible apply State.postReply_keeps
        with_reducible refine foldl_keeps ?_ ?_
        · intro t1_0 t1_1 h1
          with_reducible apply State.postReply_keeps
          with_reducible assumption
        · with_reducible refine foldl_keeps ?_ ?_
          · intro t2_0 t2_1 h2
            with_reducible apply State.postReply_keeps
            with_reducible assumption
          · with_reducible apply State.localBusy_keeps
            with_reducible refine keeps_mk_of (keeps_parts ?_)
            with_reducible assumption
      · with_reducible refine foldl_keeps ?_ ?_
        · intro t3_0 t3_1 h3
          with_reducible apply State.postReply_keeps
          with_reducible assumption
        · with_reducible refine foldl_keeps ?_ ?_
          · intro t4_0 t4_1 h4
            with_reducible apply State.postReply_keeps
            with_reducible assumption
          · with_reducible apply State.localBusy_keeps
            with_reducible refine keeps_mk_of (keeps_parts ?_)
            with_reducible assumption
    · split
      · with_reducible apply State.postReply_keeps
        with_reducible refine foldl_keeps ?_ ?_
        · intro t5_0 t5_1 h5
          with_reducible apply State.postReply_keeps
          with_reducible assumption
        · with_reducible refine foldl_keeps ?_ ?_
          · intro t6_0 t6_1 h6
            with_reducible apply State.postReply_keeps
            with_reducible assumption
          · with_reducible apply State.localBusy_keeps
            with_reducible refine keeps_mk_of (keeps_parts ?_)
            with_reducible assumption
      · with_reducible refine foldl_keeps ?_ ?_
        · intro t7_0 t7_1 h7
          with_reducible apply State.postReply_keeps
          with_reducible assumption
        · with_reducible refine foldl_keeps ?_ ?_
          · intro t8_0 t8_1 h8
            with_reducible apply State.postReply_keeps
            with_reducible assumption
          · with_reducible apply State.localBusy_keeps
            with_reducible refine keeps_mk_of (keeps_parts ?_)
            with_reducible assumption

theorem execCoreRestartDone_keeps {s0 : State} (at_ : Vt) (s : State) (hk : Keeps s0 s) :
    OKeeps s0 (execCoreRestartDone at_ s) := by
  unfold execCoreRestartDone
  extract_lets +onlyGivenNames x1
  have h1 : Keeps s0 x1 := by
    unfold x1
    with_reducible apply State.elapseTo_keeps
    with_reducible assumption
  clear_value x1
  with_reducible refine next_okeeps ?_
  with_reducible refine ite_keeps ?_ ?_
  · with_reducible assumption
  · extract_lets +onlyGivenNames x2
    clear_value x2
    extract_lets +onlyGivenNames x3
    clear_value x3
    extract_lets +onlyGivenNames x4
    have h4 : Keeps s0 x4 := by
      unfold x4
      with_reducible refine keeps_mk_of (keeps_parts ?_)
      with_reducible assumption
    clear_value x4
    with_reducible apply State.answerBusy_keeps
    with_reducible refine ite_keeps ?_ ?_
    · with_reducible assumption
    · with_reducible apply State.coreRun_keeps
      with_reducible assumption

end Sys2Proof.Machine
end

