-- ==== Sys2Proof/Laws/KeepsEcc.lean ====
section
/-! SUPPORT. The operations of Ecc.lean keep the queue and the canonical forms. -/
namespace Sys2Proof.Machine

theorem State.eccCorrected_keeps {s0 : State} (s : State) (m w : Nat) (hk : Keeps s0 s) :
    Keeps s0 (State.eccCorrected s m w) := by
  unfold State.eccCorrected
  extract_lets +onlyGivenNames x1
  have h1 : Keeps s0 x1 := by
    unfold x1
    with_reducible apply State.bump_keeps
    with_reducible assumption
  clear_value x1
  with_reducible refine ite_keeps ?_ ?_
  · with_reducible apply State.raise_keeps
    with_reducible refine keeps_mk_of (keeps_parts ?_)
    with_reducible assumption
  · with_reducible assumption

theorem State.eccReport_keeps {s0 : State} (s : State) (m w : Nat) (hk : Keeps s0 s) :
    Keeps s0 (State.eccReport s m w) := by
  unfold State.eccReport
  extract_lets +onlyGivenNames x1
  have h1 : Keeps s0 x1 := by
    unfold x1
    with_reducible apply State.wr_keeps
    with_reducible apply State.wr_keeps
    with_reducible apply State.bump_keeps
    with_reducible assumption
  clear_value x1
  with_reducible refine ite_keeps ?_ ?_
  · with_reducible apply State.raise_keeps
    with_reducible refine keeps_mk_of (keeps_parts ?_)
    with_reducible assumption
  · with_reducible assumption

theorem State.eccBad_keeps {s0 : State} (s : State) (m w : Nat) (hk : Keeps s0 s) :
    Keeps s0 (State.eccBad s m w) := by
  unfold State.eccBad
  with_reducible refine ite_keeps ?_ ?_
  · with_reducible assumption
  · with_reducible refine keeps_mk_of (keeps_parts ?_)
    with_reducible assumption

theorem State.eccRewriteDue_keeps {s0 : State} (s : State) (w : Nat) (hk : Keeps s0 s) :
    Keeps s0 (State.eccRewriteDue s w) := by
  unfold State.eccRewriteDue
  with_reducible refine ite_keeps ?_ ?_
  · with_reducible refine keeps_mk_of (keeps_parts ?_)
    with_reducible assumption
  · with_reducible assumption

theorem State.eccFcm_keeps {s0 : State} (s : State) (w : Nat) (hk : Keeps s0 s) :
    Keeps s0 (State.eccFcm s w) := by
  unfold State.eccFcm
  dsimp only
  with_reducible refine ite_keeps ?_ ?_
  · with_reducible apply State.fallbackAgain_keeps
    with_reducible apply State.eccRewriteDue_keeps
    with_reducible apply State.floorFall_keeps
    with_reducible apply State.eccBad_keeps
    with_reducible assumption
  · with_reducible refine ite_keeps ?_ ?_
    · with_reducible apply State.eccCensusWord_keeps
      with_reducible apply State.eccRewriteDue_keeps
      with_reducible apply State.floorFall_keeps
      with_reducible apply State.eccBad_keeps
      with_reducible assumption
    · with_reducible apply State.eccRewriteDue_keeps
      with_reducible apply State.floorFall_keeps
      with_reducible apply State.eccBad_keeps
      with_reducible assumption

theorem State.eccPkb_keeps {s0 : State} (s : State) (id : Nat) (hk : Keeps s0 s) :
    Keeps s0 (State.eccPkb s id) := by
  unfold State.eccPkb
  dsimp only
  split
  · with_reducible apply State.updPkt_keeps
    with_reducible refine foldl_keeps ?_ ?_
    · intro t0_0 t0_1 h0
      with_reducible apply State.cutTx_keeps
      with_reducible assumption
    · with_reducible refine foldl_keeps ?_ ?_
      · intro t1_0 t1_1 h1
        split
        · with_reducible refine ite_keeps ?_ ?_
          · with_reducible apply State.setPort_keeps
            with_reducible assumption
          · with_reducible assumption
        · with_reducible assumption
      · with_reducible assumption
  · with_reducible refine foldl_keeps ?_ ?_
    · intro t2_0 t2_1 h2
      split
      · with_reducible refine ite_keeps ?_ ?_
        · with_reducible apply State.setPort_keeps
          with_reducible assumption
        · with_reducible assumption
      · with_reducible assumption
    · with_reducible assumption

theorem State.eccAct_keeps {s0 : State} (s : State) (m w frame : Nat) (bootsel : BitVec 2) (hk : Keeps s0 s) :
    Keeps s0 (State.eccAct s m w frame bootsel) := by
  unfold State.eccAct
  split
  · with_reducible apply State.eccFcm_keeps
    with_reducible assumption
  · with_reducible apply State.eccPkb_keeps
    with_reducible assumption
  · with_reducible apply State.countedRestart_keeps
    with_reducible assumption
  · with_reducible apply State.eccCoverage_keeps
    with_reducible assumption
  · with_reducible assumption

theorem execEccError_keeps {s0 : State} (at_ : Vt) (memory : Fin 5) (word : BitVec 24) (double : Bool) (frame : Nat) (bootsel : BitVec 2) (s : State) (hk : Keeps s0 s) :
    OKeeps s0 (execEccError at_ memory word double frame bootsel s) := by
  unfold execEccError
  dsimp only
  with_reducible refine next_okeeps ?_
  with_reducible refine ite_keeps ?_ ?_
  · with_reducible apply State.eccAct_keeps
    with_reducible refine ite_keeps ?_ ?_
    · with_reducible apply State.eccReport_keeps
      with_reducible apply State.scrubTake_keeps
      with_reducible apply State.elapseTo_keeps
      with_reducible assumption
    · with_reducible apply State.scrubTake_keeps
      with_reducible apply State.elapseTo_keeps
      with_reducible assumption
  · with_reducible apply State.eccCorrected_keeps
    with_reducible apply State.elapseTo_keeps
    with_reducible assumption

theorem State.scrubNote_keeps {s0 : State} (s : State) (m w : Nat) (hk : Keeps s0 s) :
    Keeps s0 (State.scrubNote s m w) := by
  unfold State.scrubNote
  with_reducible refine ite_keeps ?_ ?_
  · with_reducible assumption
  · with_reducible refine keeps_mk_of (keeps_parts ?_)
    with_reducible assumption

theorem execScrubPass_keeps {s0 : State} (at_ : Vt) (found : List (Nat × Nat × Bool)) (s : State) (hk : Keeps s0 s) :
    OKeeps s0 (execScrubPass at_ found s) := by
  unfold execScrubPass
  dsimp only
  with_reducible refine next_okeeps ?_
  with_reducible refine ite_keeps ?_ ?_
  · with_reducible apply State.elapseTo_keeps
    with_reducible assumption
  · with_reducible refine foldl_keeps ?_ ?_
    · intro t0_0 t0_1 h0
      with_reducible refine ite_keeps ?_ ?_
      · with_reducible refine ite_keeps ?_ ?_
        · with_reducible apply State.eccRewriteDue_keeps
          with_reducible apply State.floorFall_keeps
          with_reducible apply State.eccBad_keeps
          with_reducible apply State.scrubNote_keeps
          with_reducible apply State.eccReport_keeps
          with_reducible assumption
        · with_reducible apply State.scrubNote_keeps
          with_reducible apply State.eccReport_keeps
          with_reducible assumption
      · with_reducible apply State.eccCorrected_keeps
        with_reducible assumption
    · with_reducible apply State.elapseTo_keeps
      with_reducible assumption

theorem State.eccRewrite_keeps {s0 : State} (s : State) (img : List Byte) (hk : Keeps s0 s) :
    Keeps s0 (State.eccRewrite s img) := by
  unfold State.eccRewrite
  extract_lets +onlyGivenNames x1
  clear_value x1
  extract_lets +onlyGivenNames x2
  clear_value x2
  extract_lets +onlyGivenNames x3
  clear_value x3
  extract_lets +onlyGivenNames x4
  extract_lets +onlyGivenNames x5
  clear_value x5
  extract_lets +onlyGivenNames x6
  clear_value x6
  extract_lets +onlyGivenNames x7
  have h7 : Keeps s0 x7 := by
    unfold x7
    with_reducible refine keeps_mk_of (keeps_parts ?_)
    with_reducible assumption
  clear_value x7
  extract_lets +onlyGivenNames x8
  have h8 : Keeps s0 x8 := by
    unfold x8
    with_reducible refine foldl_keeps ?_ ?_
    · intro t9_0 t9_1 h9
      with_reducible apply State.fcmStore_keeps
      with_reducible assumption
    · with_reducible assumption
  clear_value x8
  with_reducible refine foldl_keeps ?_ ?_
  · intro t10_0 t10_1 h10
    with_reducible refine ite_keeps ?_ ?_
    · with_reducible apply State.calChkWrite_keeps
      with_reducible assumption
    · with_reducible assumption
  · with_reducible assumption

theorem execEccRewrite_keeps {s0 : State} (at_ : Vt) (s : State) (hk : Keeps s0 s) :
    OKeeps s0 (execEccRewrite at_ s) := by
  unfold execEccRewrite
  extract_lets +onlyGivenNames x1
  have h1 : Keeps s0 x1 := by
    unfold x1
    with_reducible apply State.elapseTo_keeps
    with_reducible assumption
  clear_value x1
  with_reducible refine next_okeeps ?_
  split
  · with_reducible refine ite_keeps ?_ ?_
    · with_reducible assumption
    · with_reducible apply State.eccRewrite_keeps
      with_reducible assumption
  · with_reducible assumption

end Sys2Proof.Machine
end

