-- ==== Sys2Proof/Laws/KeepsCommands.lean ====
section
/-! SUPPORT. The operations of Commands.lean keep the queue and the canonical forms. -/
namespace Sys2Proof.Machine

theorem State.refuse_keeps {s0 : State} (s : State) (st : Status) (hk : Keeps s0 s) :
    Keeps s0 (State.refuse s st).2 := by
  unfold State.refuse
  with_reducible refine mkpair_keeps ?_
  with_reducible assumption

theorem State.answer_keeps {s0 : State} (s : State) (data : List Byte) (hk : Keeps s0 s) :
    Keeps s0 (State.answer s data).2 := by
  unfold State.answer
  with_reducible refine mkpair_keeps ?_
  with_reducible assumption

theorem State.done_keeps {s0 : State} (s : State) (hk : Keeps s0 s) :
    Keeps s0 (State.done s).2 := by
  unfold State.done
  with_reducible apply State.answer_keeps
  with_reducible assumption

theorem State.cmdHello_keeps {s0 : State} (s : State) (o : Origin) (p : List Byte) (hk : Keeps s0 s) :
    Keeps s0 (State.cmdHello s o p).2 := by
  unfold State.cmdHello
  extract_lets +onlyGivenNames x1
  clear_value x1
  extract_lets +onlyGivenNames x2
  clear_value x2
  with_reducible refine ite_keeps_snd ?_ ?_
  · with_reducible apply State.refuse_keeps
    with_reducible assumption
  · with_reducible refine ite_keeps_snd ?_ ?_
    · with_reducible apply State.refuse_keeps
      with_reducible assumption
    · extract_lets +onlyGivenNames x3
      clear_value x3
      with_reducible apply State.answer_keeps
      with_reducible assumption

theorem State.cmdBye_keeps {s0 : State} (s : State) (o : Origin) (_p : List Byte) (hk : Keeps s0 s) :
    Keeps s0 (State.cmdBye s o _p).2 := by
  unfold State.cmdBye
  split
  · with_reducible refine mkpair_keeps ?_
    with_reducible assumption
  · with_reducible apply State.refuse_keeps
    with_reducible assumption

theorem State.cmdCaps_keeps {s0 : State} (s : State) (o : Origin) (_p : List Byte) (hk : Keeps s0 s) :
    Keeps s0 (State.cmdCaps s o _p).2 := by
  unfold State.cmdCaps
  extract_lets +onlyGivenNames x1
  clear_value x1
  with_reducible apply State.answer_keeps
  with_reducible assumption

theorem State.cmdCredit_keeps {s0 : State} (s : State) (o : Origin) (p : List Byte) (hk : Keeps s0 s) :
    Keeps s0 (State.cmdCredit s o p).2 := by
  unfold State.cmdCredit
  extract_lets +onlyGivenNames x1
  clear_value x1
  split
  · with_reducible apply State.refuse_keeps
    with_reducible assumption
  · with_reducible refine ite_keeps_snd ?_ ?_
    · with_reducible apply State.refuse_keeps
      with_reducible assumption
    · split
      · with_reducible refine mkpair_keeps ?_
        with_reducible apply keeps_pair; with_reducible assumption
        with_reducible apply State.setGrant_keeps
        with_reducible assumption

theorem State.cmdAuth_keeps {s0 : State} (s : State) (o : Origin) (_p : List Byte) (hk : Keeps s0 s) :
    Keeps s0 (State.cmdAuth s o _p).2 := by
  unfold State.cmdAuth
  split
  · with_reducible apply State.refuse_keeps
    with_reducible assumption
  · with_reducible refine ite_keeps_snd ?_ ?_
    · with_reducible apply State.refuse_keeps
      with_reducible assumption
    · extract_lets +onlyGivenNames x1
      clear_value x1
      with_reducible refine mkpair_keeps ?_
      with_reducible refine keeps_mk_of (keeps_parts ?_)
      with_reducible assumption

theorem State.readWords_keeps {s0 : State} (s : State) (a n : Nat) (hk : Keeps s0 s) :
    Keeps s0 (State.readWords s a n).2 := by
  unfold State.readWords
  refine foldl_keeps_snd (fun t i ht => ?_) hk
  exact State.readWord_keeps _ _ ht

theorem State.cmdRegRd_keeps {s0 : State} (s : State) (p : List Byte) (hk : Keeps s0 s) :
    Keeps s0 (State.cmdRegRd s p).2 := by
  unfold State.cmdRegRd
  extract_lets +onlyGivenNames x1
  clear_value x1
  extract_lets +onlyGivenNames x2
  clear_value x2
  with_reducible refine ite_keeps_snd ?_ ?_
  · with_reducible apply State.refuse_keeps
    with_reducible assumption
  · split
    · with_reducible apply State.answer_keeps
      with_reducible apply keeps_pair; with_reducible assumption
      with_reducible apply State.readWords_keeps
      with_reducible assumption

theorem State.cmdRegWr_keeps {s0 : State} (s : State) (p : List Byte) (hk : Keeps s0 s) :
    Keeps s0 (State.cmdRegWr s p).2 := by
  unfold State.cmdRegWr
  extract_lets +onlyGivenNames x1
  clear_value x1
  extract_lets +onlyGivenNames x2
  clear_value x2
  with_reducible refine ite_keeps_snd ?_ ?_
  · with_reducible apply State.refuse_keeps
    with_reducible assumption
  · with_reducible refine ite_keeps_snd ?_ ?_
    · with_reducible apply State.refuse_keeps
      with_reducible assumption
    · with_reducible apply State.done_keeps
      with_reducible refine foldl_keeps ?_ ?_
      · intro t3_0 t3_1 h3
        with_reducible apply State.tryWrite_keeps
        with_reducible assumption
      · with_reducible assumption

theorem State.cmdRegRmw_keeps {s0 : State} (s : State) (p : List Byte) (hk : Keeps s0 s) :
    Keeps s0 (State.cmdRegRmw s p).2 := by
  unfold State.cmdRegRmw
  extract_lets +onlyGivenNames x1
  clear_value x1
  with_reducible refine ite_keeps_snd ?_ ?_
  · with_reducible apply State.refuse_keeps
    with_reducible assumption
  · split
    · extract_lets +onlyGivenNames x2
      clear_value x2
      with_reducible refine ite_keeps_snd ?_ ?_
      · with_reducible apply State.refuse_keeps
        with_reducible assumption
      · with_reducible apply State.answer_keeps
        with_reducible apply State.tryWrite_keeps
        with_reducible apply keeps_pair; with_reducible assumption
        with_reducible apply State.readWord_keeps
        with_reducible assumption

theorem State.mapWrite_keeps {s0 : State} (s : State) (m : Nat) (p : List Byte) (hk : Keeps s0 s) :
    Keeps s0 (State.mapWrite s m p) := by
  unfold State.mapWrite
  with_reducible refine foldl_keeps ?_ ?_
  · intro t1_0 t1_1 h1
    with_reducible apply State.plainWrite_keeps
    with_reducible assumption
  · with_reducible assumption

theorem State.createMap_keeps {s0 : State} (s : State) (m : Nat) (p : List Byte) (commit : Bool) (hk : Keeps s0 s) :
    Keeps s0 (State.createMap s m p commit) := by
  unfold State.createMap
  extract_lets +onlyGivenNames x1
  have h1 : Keeps s0 x1 := by
    unfold x1
    with_reducible apply State.mapName_keeps
    with_reducible apply State.mapWrite_keeps
    with_reducible assumption
  clear_value x1
  with_reducible refine ite_keeps ?_ ?_
  · with_reducible apply State.castleCommit_keeps
    with_reducible assumption
  · with_reducible assumption

theorem State.createMotif_keeps {s0 : State} (s : State) (d : Nat) (p : List Byte) (hk : Keeps s0 s) :
    Keeps s0 (State.createMotif s d p) := by
  unfold State.createMotif
  with_reducible apply State.motifName_keeps
  with_reducible apply State.fcmStore_keeps
  with_reducible assumption

theorem State.createCtx_keeps {s0 : State} (s : State) (c unit : Nat) (hk : Keeps s0 s) :
    Keeps s0 (State.createCtx s c unit) := by
  unfold State.createCtx
  extract_lets +onlyGivenNames x1
  clear_value x1
  with_reducible refine keeps_mk_of (keeps_parts ?_)
  with_reducible assumption

theorem State.createAt_keeps {s0 : State} (s : State) (o : Origin) (cls i : Nat) (p : List Byte) (hk : Keeps s0 s) :
    Keeps s0 (State.createAt s o cls i p) := by
  unfold State.createAt
  split
  · with_reducible apply State.createMap_keeps
    with_reducible assumption
  · with_reducible apply State.createMotif_keeps
    with_reducible assumption
  · with_reducible apply State.seeWrite_keeps
    with_reducible apply State.groupCreate_keeps
    with_reducible assumption
  · with_reducible apply State.createCtx_keeps
    with_reducible assumption
  · with_reducible refine keeps_mk_of (keeps_parts ?_)
    with_reducible assumption

theorem State.cmdCreate_keeps {s0 : State} (s : State) (o : Origin) (p : List Byte) (hk : Keeps s0 s) :
    Keeps s0 (State.cmdCreate s o p).2 := by
  unfold State.cmdCreate
  extract_lets +onlyGivenNames x1
  clear_value x1
  extract_lets +onlyGivenNames x2
  clear_value x2
  with_reducible refine ite_keeps_snd ?_ ?_
  · with_reducible apply State.refuse_keeps
    with_reducible assumption
  · split
    · with_reducible apply State.refuse_keeps
      with_reducible assumption
    · with_reducible refine ite_keeps_snd ?_ ?_
      · with_reducible apply State.refuse_keeps
        with_reducible assumption
      · with_reducible apply State.answer_keeps
        with_reducible apply State.createAt_keeps
        with_reducible assumption

theorem State.destroyMap_keeps {s0 : State} (s : State) (m : Nat) (hk : Keeps s0 s) :
    Keeps s0 (State.destroyMap s m) := by
  unfold State.destroyMap
  dsimp only
  with_reducible apply State.castleCommit_keeps
  with_reducible refine keeps_mk_of (keeps_parts ?_)
  with_reducible apply State.mapRemove_keeps
  with_reducible apply State.wrSh_keeps
  with_reducible assumption

theorem State.destroyMove_keeps {s0 : State} (s : State) (o : Origin) (h : Nat) (hk : Keeps s0 s) :
    Keeps s0 (State.destroyMove s o h).2 := by
  unfold State.destroyMove
  dsimp only
  split
  · with_reducible apply State.done_keeps
    with_reducible apply State.moveFree_keeps
    with_reducible apply State.movesDue_keeps
    with_reducible assumption
  · with_reducible apply State.refuse_keeps
    with_reducible apply State.movesDue_keeps
    with_reducible assumption

theorem State.cmdDestroy_keeps {s0 : State} (s : State) (o : Origin) (p : List Byte) (hk : Keeps s0 s) :
    Keeps s0 (State.cmdDestroy s o p).2 := by
  unfold State.cmdDestroy
  dsimp only
  with_reducible refine ite_keeps_snd ?_ ?_
  · with_reducible apply State.refuse_keeps
    with_reducible assumption
  · split
    · with_reducible apply State.refuse_keeps
      with_reducible assumption
    · with_reducible apply State.done_keeps
      with_reducible apply State.destroyMap_keeps
      with_reducible assumption
    · with_reducible refine ite_keeps_snd ?_ ?_
      · with_reducible apply State.refuse_keeps
        with_reducible assumption
      · with_reducible apply State.done_keeps
        with_reducible apply State.motifRemove_keeps
        with_reducible assumption
    · with_reducible refine ite_keeps_snd ?_ ?_
      · with_reducible apply State.refuse_keeps
        with_reducible apply State.setW1c_keeps
        with_reducible assumption
      · with_reducible apply State.done_keeps
        with_reducible apply State.groupRemove_keeps
        with_reducible assumption
    · with_reducible refine ite_keeps_snd ?_ ?_
      · with_reducible apply State.refuse_keeps
        with_reducible assumption
      · with_reducible apply State.done_keeps
        with_reducible apply State.progRemove_keeps
        with_reducible assumption
    · with_reducible apply State.destroyMove_keeps
      with_reducible assumption
    · with_reducible apply State.done_keeps
      with_reducible apply State.ctxRemove_keeps
      with_reducible assumption
    · with_reducible apply State.done_keeps
      with_reducible apply State.subRemove_keeps
      with_reducible assumption

theorem State.cmdQuery_keeps {s0 : State} (s : State) (o : Origin) (p : List Byte) (hk : Keeps s0 s) :
    Keeps s0 (State.cmdQuery s o p).2 := by
  unfold State.cmdQuery
  split
  · with_reducible apply State.refuse_keeps
    with_reducible assumption
  · with_reducible apply State.answer_keeps
    with_reducible assumption

theorem State.cmdList_keeps {s0 : State} (s : State) (p : List Byte) (hk : Keeps s0 s) :
    Keeps s0 (State.cmdList s p).2 := by
  unfold State.cmdList
  extract_lets +onlyGivenNames x1
  clear_value x1
  with_reducible refine ite_keeps_snd ?_ ?_
  · with_reducible apply State.refuse_keeps
    with_reducible assumption
  · extract_lets +onlyGivenNames x2
    clear_value x2
    extract_lets +onlyGivenNames x3
    clear_value x3
    extract_lets +onlyGivenNames x4
    clear_value x4
    with_reducible refine mkpair_keeps ?_
    with_reducible assumption

theorem State.ctxRestore_keeps {s0 : State} (s : State) (unit : Nat) (c : CvuCtx) (hk : Keeps s0 s) :
    Keeps s0 (State.ctxRestore s unit c) := by
  unfold State.ctxRestore
  extract_lets +onlyGivenNames x1
  have h1 : Keeps s0 x1 := by
    unfold x1
    with_reducible apply State.cvuWriteCtrl_keeps
    with_reducible assumption
  clear_value x1
  extract_lets +onlyGivenNames x2
  have h2 : Keeps s0 x2 := by
    unfold x2
    with_reducible refine foldl_keeps ?_ ?_
    · intro t3_0 t3_1 h3
      with_reducible apply State.cvuWriteCfg_keeps
      with_reducible assumption
    · with_reducible assumption
  clear_value x2
  with_reducible apply State.cvuWriteCfg_keeps
  with_reducible assumption

theorem State.cmdRestore_keeps {s0 : State} (s : State) (p : List Byte) (hk : Keeps s0 s) :
    Keeps s0 (State.cmdRestore s p).2 := by
  unfold State.cmdRestore
  extract_lets +onlyGivenNames x1
  clear_value x1
  with_reducible refine ite_keeps_snd ?_ ?_
  · with_reducible apply State.refuse_keeps
    with_reducible assumption
  · split
    · with_reducible apply State.refuse_keeps
      with_reducible assumption
    · with_reducible refine ite_keeps_snd ?_ ?_
      · with_reducible apply State.refuse_keeps
        with_reducible assumption
      · with_reducible apply State.done_keeps
        with_reducible apply State.ctxRestore_keeps
        with_reducible assumption

theorem State.gridWrite_keeps {s0 : State} (s : State) (epoch frac period pfrac : Nat) (hk : Keeps s0 s) :
    Keeps s0 (State.gridWrite s epoch frac period pfrac) := by
  unfold State.gridWrite
  extract_lets +onlyGivenNames x0
  have h0 : Keeps s0 x0 := by
    unfold x0
    with_reducible refine foldl_keeps ?_ ?_
    · intro t1_0 t1_1 h1
      with_reducible apply State.seeWrite_keeps
      with_reducible assumption
    · with_reducible assumption
  clear_value x0
  extract_lets +onlyGivenNames x1
  have h1 : Keeps s0 x1 := by
    unfold x1
    with_reducible apply State.wrSh_keeps
    with_reducible apply State.wrSh_keeps
    with_reducible assumption
  clear_value x1
  with_reducible apply State.wrSh_keeps
  with_reducible apply State.wrSh_keeps
  with_reducible apply State.wrSh_keeps
  with_reducible assumption

theorem State.cmdGridSet_keeps {s0 : State} (s : State) (p : List Byte) (hk : Keeps s0 s) :
    Keeps s0 (State.cmdGridSet s p).2 := by
  unfold State.cmdGridSet
  extract_lets +onlyGivenNames x1
  clear_value x1
  extract_lets +onlyGivenNames x2
  clear_value x2
  with_reducible refine ite_keeps_snd ?_ ?_
  · with_reducible apply State.refuse_keeps
    with_reducible assumption
  · extract_lets +onlyGivenNames x3
    have h3 : Keeps s0 x3 := by
      unfold x3
      with_reducible apply State.gridWrite_keeps
      with_reducible assumption
    clear_value x3
    with_reducible apply State.done_keeps
    with_reducible refine ite_keeps ?_ ?_
    · with_reducible apply State.castleCommit_keeps
      with_reducible assumption
    · with_reducible assumption

theorem State.cmdMoveAdd_keeps {s0 : State} (s : State) (p : List Byte) (hk : Keeps s0 s) :
    Keeps s0 (State.cmdMoveAdd s p).2 := by
  unfold State.cmdMoveAdd
  with_reducible refine ite_keeps_snd ?_ ?_
  · with_reducible apply State.refuse_keeps
    with_reducible assumption
  · split
    · with_reducible refine ite_keeps_snd ?_ ?_
      · with_reducible apply State.refuse_keeps
        with_reducible apply keeps_pair3; with_reducible assumption
        with_reducible apply State.moveAdd_keeps
        with_reducible assumption
      · show Keeps s0 _
        with_reducible apply keeps_pair3; with_reducible assumption
        with_reducible apply State.moveAdd_keeps
        with_reducible assumption

theorem State.cmdMoveCancel_keeps {s0 : State} (s : State) (p : List Byte) (hk : Keeps s0 s) :
    Keeps s0 (State.cmdMoveCancel s p).2 := by
  unfold State.cmdMoveCancel
  with_reducible refine ite_keeps_snd ?_ ?_
  · with_reducible apply State.refuse_keeps
    with_reducible assumption
  · split
    · with_reducible apply State.refuse_keeps
      with_reducible apply keeps_pair; with_reducible assumption
      with_reducible apply State.moveCancel_keeps
      with_reducible assumption

theorem State.cmdTodSet_keeps {s0 : State} (s : State) (p : List Byte) (hk : Keeps s0 s) :
    Keeps s0 (State.cmdTodSet s p).2 := by
  unfold State.cmdTodSet
  extract_lets +onlyGivenNames x1
  clear_value x1
  with_reducible refine ite_keeps_snd ?_ ?_
  · with_reducible apply State.refuse_keeps
    with_reducible assumption
  · with_reducible refine ite_keeps_snd ?_ ?_
    · with_reducible apply State.refuse_keeps
      with_reducible assumption
    · with_reducible apply State.done_keeps
      with_reducible apply State.todSet_keeps
      with_reducible assumption

theorem State.cmdStage_keeps {s0 : State} (s : State) (p : List Byte) (hk : Keeps s0 s) :
    Keeps s0 (State.cmdStage s p).2 := by
  unfold State.cmdStage
  extract_lets +onlyGivenNames x1
  clear_value x1
  extract_lets +onlyGivenNames x2
  clear_value x2
  with_reducible refine ite_keeps_snd ?_ ?_
  · with_reducible apply State.refuse_keeps
    with_reducible assumption
  · with_reducible refine ite_keeps_snd ?_ ?_
    · with_reducible apply State.refuse_keeps
      with_reducible assumption
    · with_reducible apply State.done_keeps
      with_reducible apply State.stage_keeps
      with_reducible assumption

theorem State.sealRun_keeps {s0 : State} (s : State) (arm : Bool) (o : Origin) (hk : Keeps s0 s) :
    Keeps s0 (State.sealRun s arm o) := by
  unfold State.sealRun
  with_reducible refine keeps_mk_of (keeps_parts ?_)
  with_reducible assumption

theorem State.cmdCheck_keeps {s0 : State} (s : State) (o : Origin) (_p : List Byte) (hk : Keeps s0 s) :
    Keeps s0 (State.cmdCheck s o _p).2 := by
  unfold State.cmdCheck
  with_reducible refine mkpair_keeps ?_
  with_reducible apply State.sealRun_keeps
  with_reducible assumption

theorem State.cmdArm_keeps {s0 : State} (s : State) (o : Origin) (_p : List Byte) (hk : Keeps s0 s) :
    Keeps s0 (State.cmdArm s o _p).2 := by
  unfold State.cmdArm
  with_reducible refine mkpair_keeps ?_
  with_reducible apply State.sealRun_keeps
  with_reducible assumption

theorem State.cmdDisarm_keeps {s0 : State} (s : State) (_p : List Byte) (hk : Keeps s0 s) :
    Keeps s0 (State.cmdDisarm s _p).2 := by
  unfold State.cmdDisarm
  with_reducible apply State.done_keeps
  with_reducible refine keeps_mk_of (keeps_parts ?_)
  with_reducible assumption

theorem State.cmdSealWrite_keeps {s0 : State} (s : State) (o : Origin) (_p : List Byte) (hk : Keeps s0 s) :
    Keeps s0 (State.cmdSealWrite s o _p).2 := by
  unfold State.cmdSealWrite
  with_reducible refine ite_keeps_snd ?_ ?_
  · with_reducible apply State.refuse_keeps
    with_reducible assumption
  · with_reducible refine ite_keeps_snd ?_ ?_
    · with_reducible apply State.refuse_keeps
      with_reducible assumption
    · with_reducible refine mkpair_keeps ?_
      with_reducible refine keeps_mk_of (keeps_parts ?_)
      with_reducible assumption

theorem State.cmdSealRead_keeps {s0 : State} (s : State) (p : List Byte) (hk : Keeps s0 s) :
    Keeps s0 (State.cmdSealRead s p).2 := by
  unfold State.cmdSealRead
  extract_lets +onlyGivenNames x1
  clear_value x1
  extract_lets +onlyGivenNames x2
  clear_value x2
  with_reducible refine ite_keeps_snd ?_ ?_
  · with_reducible apply State.refuse_keeps
    with_reducible assumption
  · extract_lets +onlyGivenNames x3
    clear_value x3
    with_reducible refine mkpair_keeps ?_
    with_reducible assumption

theorem State.cmdSweep_keeps {s0 : State} (s : State) (_p : List Byte) (hk : Keeps s0 s) :
    Keeps s0 (State.cmdSweep s _p).2 := by
  unfold State.cmdSweep
  with_reducible refine ite_keeps_snd ?_ ?_
  · with_reducible apply State.done_keeps
    with_reducible apply State.sweepStart_keeps
    with_reducible assumption
  · with_reducible apply State.refuse_keeps
    with_reducible assumption

theorem State.cmdCensusSub_keeps {s0 : State} (s : State) (o : Origin) (p : List Byte) (hk : Keeps s0 s) :
    Keeps s0 (State.cmdCensusSub s o p).2 := by
  unfold State.cmdCensusSub
  extract_lets +onlyGivenNames x1
  clear_value x1
  split
  · with_reducible apply State.refuse_keeps
    with_reducible assumption
  · extract_lets +onlyGivenNames x2
    clear_value x2
    with_reducible refine ite_keeps_snd ?_ ?_
    · with_reducible apply State.refuse_keeps
      with_reducible assumption
    · with_reducible apply State.done_keeps
      with_reducible apply State.updSession_keeps
      with_reducible assumption

theorem State.cmdMapRead_keeps {s0 : State} (s : State) (p : List Byte) (hk : Keeps s0 s) :
    Keeps s0 (State.cmdMapRead s p).2 := by
  unfold State.cmdMapRead
  extract_lets +onlyGivenNames x1
  clear_value x1
  extract_lets +onlyGivenNames x2
  clear_value x2
  with_reducible refine ite_keeps_snd ?_ ?_
  · with_reducible apply State.refuse_keeps
    with_reducible assumption
  · with_reducible apply State.answer_keeps
    with_reducible assumption

theorem State.memberPut_keeps {s0 : State} (s : State) (i e : Nat) (hk : Keeps s0 s) :
    Keeps s0 (State.memberPut s i e) := by
  unfold State.memberPut
  with_reducible refine ite_keeps ?_ ?_
  · with_reducible apply State.setW1c_keeps
    with_reducible assumption
  · with_reducible apply State.fcmStore_keeps
    with_reducible assumption

theorem State.cmdGroupMembers_keeps {s0 : State} (s : State) (p : List Byte) (hk : Keeps s0 s) :
    Keeps s0 (State.cmdGroupMembers s p).2 := by
  unfold State.cmdGroupMembers
  extract_lets +onlyGivenNames x1
  clear_value x1
  extract_lets +onlyGivenNames x2
  clear_value x2
  with_reducible refine ite_keeps_snd ?_ ?_
  · with_reducible apply State.refuse_keeps
    with_reducible assumption
  · split
    · with_reducible apply State.refuse_keeps
      with_reducible assumption
    · with_reducible refine ite_keeps_snd ?_ ?_
      · with_reducible apply State.refuse_keeps
        with_reducible assumption
      · with_reducible refine ite_keeps_snd ?_ ?_
        · with_reducible apply State.refuse_keeps
          with_reducible assumption
        · extract_lets +onlyGivenNames x3
          clear_value x3
          with_reducible apply State.done_keeps
          with_reducible refine foldl_keeps ?_ ?_
          · intro t4_0 t4_1 h4
            with_reducible apply State.memberPut_keeps
            with_reducible assumption
          · with_reducible assumption

theorem State.cmdGroupArm_keeps {s0 : State} (s : State) (p : List Byte) (hk : Keeps s0 s) :
    Keeps s0 (State.cmdGroupArm s p).2 := by
  unfold State.cmdGroupArm
  split
  · with_reducible apply State.refuse_keeps
    with_reducible assumption
  · with_reducible refine ite_keeps_snd ?_ ?_
    · with_reducible apply State.refuse_keeps
      with_reducible assumption
    · with_reducible refine ite_keeps_snd ?_ ?_
      · with_reducible apply State.refuse_keeps
        with_reducible apply State.raise_keeps
        with_reducible assumption
      · with_reducible refine ite_keeps_snd ?_ ?_
        · with_reducible apply State.refuse_keeps
          with_reducible assumption
        · with_reducible apply State.done_keeps
          with_reducible apply State.grpArm_keeps
          with_reducible assumption

theorem State.cmdGroupDisarm_keeps {s0 : State} (s : State) (p : List Byte) (hk : Keeps s0 s) :
    Keeps s0 (State.cmdGroupDisarm s p).2 := by
  unfold State.cmdGroupDisarm
  split
  · with_reducible apply State.refuse_keeps
    with_reducible assumption
  · with_reducible apply State.done_keeps
    with_reducible apply State.grpDisarm_keeps
    with_reducible assumption

theorem State.cmdGroupAck_keeps {s0 : State} (s : State) (p : List Byte) (hk : Keeps s0 s) :
    Keeps s0 (State.cmdGroupAck s p).2 := by
  unfold State.cmdGroupAck
  split
  · with_reducible apply State.refuse_keeps
    with_reducible assumption
  · with_reducible refine ite_keeps_snd ?_ ?_
    · with_reducible apply State.done_keeps
      with_reducible apply State.grpBegin_keeps
      with_reducible assumption
    · with_reducible apply State.refuse_keeps
      with_reducible assumption

theorem State.cmdProgLoad_keeps {s0 : State} (s : State) (p : List Byte) (hk : Keeps s0 s) :
    Keeps s0 (State.cmdProgLoad s p).2 := by
  unfold State.cmdProgLoad
  dsimp only
  with_reducible refine ite_keeps_snd ?_ ?_
  · with_reducible apply State.refuse_keeps
    with_reducible apply State.movesDue_keeps
    with_reducible assumption
  · with_reducible refine ite_keeps_snd ?_ ?_
    · with_reducible apply State.refuse_keeps
      with_reducible apply State.movesDue_keeps
      with_reducible assumption
    · with_reducible refine ite_keeps_snd ?_ ?_
      · with_reducible apply State.refuse_keeps
        with_reducible apply State.movesDue_keeps
        with_reducible assumption
      · split
        · with_reducible apply State.refuse_keeps
          with_reducible apply State.movesDue_keeps
          with_reducible assumption
        · with_reducible apply State.answer_keeps
          with_reducible apply State.progCreate_keeps
          with_reducible refine foldl_keeps ?_ ?_
          · intro t0_0 t0_1 h0
            with_reducible apply State.storePut_keeps
            with_reducible assumption
          · with_reducible apply State.movesDue_keeps
            with_reducible assumption

theorem State.cmdGo_keeps {s0 : State} (s : State) (p : List Byte) (hk : Keeps s0 s) :
    Keeps s0 (State.cmdGo s p).2 := by
  unfold State.cmdGo
  with_reducible refine ite_keeps_snd ?_ ?_
  · with_reducible apply State.refuse_keeps
    with_reducible assumption
  · with_reducible apply State.done_keeps
    with_reducible apply State.pawnsGo_keeps
    with_reducible assumption

theorem State.cmdStop_keeps {s0 : State} (s : State) (p : List Byte) (hk : Keeps s0 s) :
    Keeps s0 (State.cmdStop s p).2 := by
  unfold State.cmdStop
  with_reducible refine ite_keeps_snd ?_ ?_
  · with_reducible apply State.refuse_keeps
    with_reducible assumption
  · with_reducible apply State.done_keeps
    with_reducible apply State.pawnsStop_keeps
    with_reducible assumption

theorem State.cmdPush_keeps {s0 : State} (s : State) (p : List Byte) (hk : Keeps s0 s) :
    Keeps s0 (State.cmdPush s p).2 := by
  unfold State.cmdPush
  extract_lets +onlyGivenNames x1
  clear_value x1
  extract_lets +onlyGivenNames x2
  clear_value x2
  with_reducible refine ite_keeps_snd ?_ ?_
  · with_reducible apply State.refuse_keeps
    with_reducible assumption
  · extract_lets +onlyGivenNames x3
    clear_value x3
    extract_lets +onlyGivenNames x4
    clear_value x4
    extract_lets +onlyGivenNames x5
    have h5 : Keeps s0 x5 := by
      unfold x5
      with_reducible apply State.setPawn_keeps
      with_reducible assumption
    clear_value x5
    with_reducible refine mkpair_keeps ?_
    with_reducible assumption

theorem State.cmdPull_keeps {s0 : State} (s : State) (p : List Byte) (hk : Keeps s0 s) :
    Keeps s0 (State.cmdPull s p).2 := by
  unfold State.cmdPull
  extract_lets +onlyGivenNames x1
  clear_value x1
  extract_lets +onlyGivenNames x2
  clear_value x2
  with_reducible refine ite_keeps_snd ?_ ?_
  · with_reducible apply State.refuse_keeps
    with_reducible assumption
  · with_reducible refine ite_keeps_snd ?_ ?_
    · with_reducible apply State.refuse_keeps
      with_reducible assumption
    · extract_lets +onlyGivenNames x3
      clear_value x3
      with_reducible apply State.answer_keeps
      with_reducible apply State.setPawn_keeps
      with_reducible assumption

theorem State.armCancel_keeps {s0 : State} (s : State) (hk : Keeps s0 s) :
    Keeps s0 (State.armCancel s) := by
  unfold State.armCancel
  with_reducible refine keeps_mk_of (keeps_parts ?_)
  with_reducible assumption

theorem State.cmdSentry_keeps {s0 : State} (s : State) (_p : List Byte) (hk : Keeps s0 s) :
    Keeps s0 (State.cmdSentry s _p).2 := by
  unfold State.cmdSentry
  with_reducible refine mkpair_keeps ?_
  with_reducible apply State.armCancel_keeps
  with_reducible assumption

theorem State.cmdWakeCfg_keeps {s0 : State} (s : State) (p : List Byte) (hk : Keeps s0 s) :
    Keeps s0 (State.cmdWakeCfg s p).2 := by
  unfold State.cmdWakeCfg
  extract_lets +onlyGivenNames x1
  clear_value x1
  with_reducible refine ite_keeps_snd ?_ ?_
  · with_reducible apply State.refuse_keeps
    with_reducible assumption
  · extract_lets +onlyGivenNames x2
    have h2 : Keeps s0 x2 := by
      unfold x2
      with_reducible apply State.wr_keeps
      with_reducible apply State.wr_keeps
      with_reducible assumption
    clear_value x2
    with_reducible apply State.done_keeps
    with_reducible apply State.wr_keeps
    with_reducible apply State.wr_keeps
    with_reducible apply State.wr_keeps
    with_reducible assumption

theorem State.cmdDomain_keeps {s0 : State} (s : State) (p : List Byte) (hk : Keeps s0 s) :
    Keeps s0 (State.cmdDomain s p).2 := by
  unfold State.cmdDomain
  extract_lets +onlyGivenNames x1
  clear_value x1
  extract_lets +onlyGivenNames x2
  clear_value x2
  extract_lets +onlyGivenNames x3
  with_reducible refine ite_keeps_snd ?_ ?_
  · with_reducible apply State.refuse_keeps
    with_reducible assumption
  · with_reducible refine ite_keeps_snd ?_ ?_
    · with_reducible apply State.refuse_keeps
      with_reducible assumption
    · with_reducible refine mkpair_keeps ?_
      with_reducible assumption

theorem State.cmdFwWrite_keeps {s0 : State} (s : State) (p : List Byte) (hk : Keeps s0 s) :
    Keeps s0 (State.cmdFwWrite s p).2 := by
  unfold State.cmdFwWrite
  extract_lets +onlyGivenNames x1
  clear_value x1
  extract_lets +onlyGivenNames x2
  clear_value x2
  extract_lets +onlyGivenNames x3
  clear_value x3
  with_reducible refine ite_keeps_snd ?_ ?_
  · with_reducible apply State.refuse_keeps
    with_reducible assumption
  · with_reducible refine ite_keeps_snd ?_ ?_
    · with_reducible apply State.refuse_keeps
      with_reducible assumption
    · with_reducible refine ite_keeps_snd ?_ ?_
      · with_reducible apply State.refuse_keeps
        with_reducible assumption
      · with_reducible apply State.done_keeps
        with_reducible apply State.setFlash_keeps
        with_reducible assumption

theorem State.cmdFwSwap_keeps {s0 : State} (s : State) (o : Origin) (p : List Byte) (hk : Keeps s0 s) :
    Keeps s0 (State.cmdFwSwap s o p).2 := by
  unfold State.cmdFwSwap
  dsimp only
  with_reducible refine ite_keeps_snd ?_ ?_
  · with_reducible apply State.refuse_keeps
    with_reducible assumption
  · with_reducible refine ite_keeps_snd ?_ ?_
    · with_reducible apply State.refuse_keeps
      with_reducible assumption
    · with_reducible refine ite_keeps_snd ?_ ?_
      · with_reducible assumption
      · with_reducible refine ite_keeps_snd ?_ ?_
        · with_reducible refine mkpair_keeps ?_
          with_reducible apply State.fwSwap_keeps
          with_reducible assumption
        · with_reducible refine ite_keeps_snd ?_ ?_
          · with_reducible refine mkpair_keeps ?_
            with_reducible refine keeps_mk_of (keeps_parts ?_)
            with_reducible assumption
          · with_reducible refine mkpair_keeps ?_
            with_reducible refine keeps_mk_of (keeps_parts ?_)
            with_reducible assumption

theorem State.cmdFwInfo_keeps {s0 : State} (s : State) (_p : List Byte) (hk : Keeps s0 s) :
    Keeps s0 (State.cmdFwInfo s _p).2 := by
  unfold State.cmdFwInfo
  with_reducible apply State.answer_keeps
  with_reducible assumption

theorem State.cmdFbOn_keeps {s0 : State} (s : State) (_p : List Byte) (hk : Keeps s0 s) :
    Keeps s0 (State.cmdFbOn s _p).2 := by
  unfold State.cmdFbOn
  with_reducible refine ite_keeps_snd ?_ ?_
  · with_reducible apply State.done_keeps
    with_reducible apply State.fbOn_keeps
    with_reducible assumption
  · with_reducible apply State.refuse_keeps
    with_reducible assumption

theorem State.cmdFbOff_keeps {s0 : State} (s : State) (_p : List Byte) (hk : Keeps s0 s) :
    Keeps s0 (State.cmdFbOff s _p).2 := by
  unfold State.cmdFbOff
  with_reducible refine ite_keeps_snd ?_ ?_
  · with_reducible apply State.done_keeps
    with_reducible apply State.fbOff_keeps
    with_reducible assumption
  · with_reducible apply State.refuse_keeps
    with_reducible assumption

theorem State.cmdMotifStep_keeps {s0 : State} (s : State) (p : List Byte) (hk : Keeps s0 s) :
    Keeps s0 (State.cmdMotifStep s p).2 := by
  unfold State.cmdMotifStep
  with_reducible refine ite_keeps_snd ?_ ?_
  · with_reducible apply State.refuse_keeps
    with_reducible assumption
  · with_reducible apply State.done_keeps
    with_reducible apply State.motifStep_keeps
    with_reducible assumption

theorem State.cmdFbStatus_keeps {s0 : State} (s : State) (_p : List Byte) (hk : Keeps s0 s) :
    Keeps s0 (State.cmdFbStatus s _p).2 := by
  unfold State.cmdFbStatus
  with_reducible refine ite_keeps_snd ?_ ?_
  · with_reducible apply State.answer_keeps
    with_reducible assumption
  · with_reducible apply State.refuse_keeps
    with_reducible assumption

theorem State.runOp_keeps {s0 : State} (s : State) (o : Origin) (op : Nat) (p : List Byte) (hk : Keeps s0 s) :
    Keeps s0 (State.runOp s o op p).2 := by
  unfold State.runOp
  split
  · with_reducible apply State.cmdHello_keeps
    with_reducible assumption
  · with_reducible apply State.cmdBye_keeps
    with_reducible assumption
  · with_reducible apply State.cmdCaps_keeps
    with_reducible assumption
  · with_reducible apply State.cmdCredit_keeps
    with_reducible assumption
  · with_reducible apply State.cmdAuth_keeps
    with_reducible assumption
  · with_reducible apply State.cmdRegRd_keeps
    with_reducible assumption
  · with_reducible apply State.cmdRegWr_keeps
    with_reducible assumption
  · with_reducible apply State.cmdRegRmw_keeps
    with_reducible assumption
  · with_reducible apply State.cmdCreate_keeps
    with_reducible assumption
  · with_reducible apply State.cmdDestroy_keeps
    with_reducible assumption
  · with_reducible apply State.cmdQuery_keeps
    with_reducible assumption
  · with_reducible apply State.cmdList_keeps
    with_reducible assumption
  · with_reducible apply State.cmdRestore_keeps
    with_reducible assumption
  · with_reducible apply State.cmdGridSet_keeps
    with_reducible assumption
  · with_reducible apply State.cmdMoveAdd_keeps
    with_reducible assumption
  · with_reducible apply State.cmdMoveCancel_keeps
    with_reducible assumption
  · with_reducible apply State.cmdTodSet_keeps
    with_reducible assumption
  · with_reducible apply State.cmdStage_keeps
    with_reducible assumption
  · with_reducible apply State.cmdCheck_keeps
    with_reducible assumption
  · with_reducible apply State.cmdArm_keeps
    with_reducible assumption
  · with_reducible apply State.cmdDisarm_keeps
    with_reducible assumption
  · with_reducible apply State.cmdSealWrite_keeps
    with_reducible assumption
  · with_reducible apply State.cmdSealRead_keeps
    with_reducible assumption
  · with_reducible apply State.cmdSweep_keeps
    with_reducible assumption
  · with_reducible apply State.cmdCensusSub_keeps
    with_reducible assumption
  · with_reducible apply State.cmdMapRead_keeps
    with_reducible assumption
  · with_reducible apply State.cmdGroupMembers_keeps
    with_reducible assumption
  · with_reducible apply State.cmdGroupArm_keeps
    with_reducible assumption
  · with_reducible apply State.cmdGroupDisarm_keeps
    with_reducible assumption
  · with_reducible apply State.cmdGroupAck_keeps
    with_reducible assumption
  · with_reducible apply State.cmdProgLoad_keeps
    with_reducible assumption
  · with_reducible apply State.cmdGo_keeps
    with_reducible assumption
  · with_reducible apply State.cmdStop_keeps
    with_reducible assumption
  · with_reducible apply State.cmdPush_keeps
    with_reducible assumption
  · with_reducible apply State.cmdPull_keeps
    with_reducible assumption
  · with_reducible apply State.cmdSentry_keeps
    with_reducible assumption
  · with_reducible apply State.cmdWakeCfg_keeps
    with_reducible assumption
  · with_reducible apply State.cmdDomain_keeps
    with_reducible assumption
  · with_reducible apply State.cmdFwWrite_keeps
    with_reducible assumption
  · with_reducible apply State.cmdFwSwap_keeps
    with_reducible assumption
  · with_reducible apply State.cmdFwInfo_keeps
    with_reducible assumption
  · with_reducible apply State.cmdFbOn_keeps
    with_reducible assumption
  · with_reducible apply State.cmdFbOff_keeps
    with_reducible assumption
  · with_reducible apply State.cmdMotifStep_keeps
    with_reducible assumption
  · with_reducible apply State.cmdFbStatus_keeps
    with_reducible assumption
  · with_reducible apply State.refuse_keeps
    with_reducible assumption

theorem State.perform_keeps {s0 : State} (s : State) (o : Origin) (op : Nat) (plenOk : Bool) (p : List Byte) (hk : Keeps s0 s) :
    Keeps s0 (State.perform s o op plenOk p).2 := by
  unfold State.perform
  split
  · with_reducible apply State.refuse_keeps
    with_reducible assumption
  · with_reducible refine ite_keeps_snd ?_ ?_
    · with_reducible apply State.refuse_keeps
      with_reducible assumption
    · with_reducible refine ite_keeps_snd ?_ ?_
      · with_reducible apply State.refuse_keeps
        with_reducible assumption
      · with_reducible refine ite_keeps_snd ?_ ?_
        · with_reducible apply State.refuse_keeps
          with_reducible assumption
        · with_reducible apply State.runOp_keeps
          with_reducible assumption

theorem State.settle_keeps {s0 : State} (o : Origin) (op : Nat) (r : CmdResult) (hk : Keeps s0 r.2) :
    Keeps s0 (State.settle o op r) := by
  unfold State.settle
  split
  · exact State.postReply_keeps _ _ _ _ _ _ hk
  · exact hk

theorem State.runCommand_keeps {s0 : State} (s : State) (o : Origin) (op : Nat) (plenOk : Bool) (p : List Byte) (hk : Keeps s0 s) :
    Keeps s0 (State.runCommand s o op plenOk p) := by
  unfold State.runCommand
  with_reducible apply State.settle_keeps
  with_reducible apply State.perform_keeps
  with_reducible assumption

theorem State.takeCommand_keeps {s0 : State} (s : State) (o : Origin) (op : Nat) (plenOk : Bool) (p : List Byte) (hk : Keeps s0 s) :
    Keeps s0 (State.takeCommand s o op plenOk p) := by
  unfold State.takeCommand
  with_reducible refine ite_keeps ?_ ?_
  · with_reducible refine keeps_mk_of (keeps_parts ?_)
    with_reducible assumption
  · with_reducible apply State.runCommand_keeps
    with_reducible assumption

theorem State.unpark_keeps {s0 : State} (s : State) (hk : Keeps s0 s) :
    Keeps s0 (State.unpark s) := by
  unfold State.unpark
  with_reducible refine ite_keeps ?_ ?_
  · with_reducible assumption
  · with_reducible refine foldl_keeps ?_ ?_
    · intro t0_0 t0_1 h0
      with_reducible apply State.takeCommand_keeps
      with_reducible assumption
    · with_reducible refine keeps_mk_of (keeps_parts ?_)
      with_reducible assumption

theorem execArmedEntry_keeps {s0 : State} (at_ : Vt) (s : State) (hk : Keeps s0 s) :
    OKeeps s0 (execArmedEntry at_ s) := by
  unfold execArmedEntry
  dsimp only
  with_reducible refine next_okeeps ?_
  split
  · with_reducible refine ite_keeps ?_ ?_
    · with_reducible apply State.unpark_keeps
      with_reducible apply State.armEnter_keeps
      with_reducible apply State.elapseTo_keeps
      with_reducible assumption
    · with_reducible apply State.elapseTo_keeps
      with_reducible assumption
  · with_reducible apply State.elapseTo_keeps
    with_reducible assumption

theorem execSealCheckDone_keeps {s0 : State} (at_ : Vt) (s : State) (hk : Keeps s0 s) :
    OKeeps s0 (execSealCheckDone at_ s) := by
  unfold execSealCheckDone
  dsimp only
  with_reducible refine next_okeeps ?_
  split
  · with_reducible refine ite_keeps ?_ ?_
    · with_reducible apply State.elapseTo_keeps
      with_reducible assumption
    · with_reducible apply State.unpark_keeps
      with_reducible apply State.swapNext_keeps
      with_reducible refine ite_keeps ?_ ?_
      · with_reducible apply State.armDone_keeps
        with_reducible refine keeps_mk_of (keeps_parts ?_)
        with_reducible apply State.elapseTo_keeps
        with_reducible assumption
      · with_reducible apply State.checkDone_keeps
        with_reducible refine keeps_mk_of (keeps_parts ?_)
        with_reducible apply State.elapseTo_keeps
        with_reducible assumption
  · with_reducible apply State.elapseTo_keeps
    with_reducible assumption

theorem execSealWriteDone_keeps {s0 : State} (at_ : Vt) (s : State) (hk : Keeps s0 s) :
    OKeeps s0 (execSealWriteDone at_ s) := by
  unfold execSealWriteDone
  dsimp only
  with_reducible refine next_okeeps ?_
  split
  · with_reducible refine ite_keeps ?_ ?_
    · with_reducible apply State.elapseTo_keeps
      with_reducible assumption
    · with_reducible apply State.unpark_keeps
      with_reducible apply State.postReply_keeps
      with_reducible refine keeps_mk_of (keeps_parts ?_)
      with_reducible apply State.wr_keeps
      with_reducible apply State.setFlash_keeps
      with_reducible apply State.elapseTo_keeps
      with_reducible assumption
  · with_reducible apply State.elapseTo_keeps
    with_reducible assumption

theorem State.timeCommand_keeps {s0 : State} (s : State) (o : Origin) (op inst : Nat) (p : List Byte) (hk : Keeps s0 s) :
    Keeps s0 (State.timeCommand s o op inst p) := by
  unfold State.timeCommand
  extract_lets +onlyGivenNames x1
  clear_value x1
  with_reducible refine ite_keeps ?_ ?_
  · with_reducible refine ite_keeps ?_ ?_
    · with_reducible apply State.postReply_keeps
      with_reducible assumption
    · with_reducible apply State.postReply_keeps
      with_reducible refine keeps_mk_of (keeps_parts ?_)
      with_reducible assumption
  · with_reducible refine ite_keeps ?_ ?_
    · with_reducible apply State.runCommand_keeps
      with_reducible assumption
    · with_reducible apply State.postReply_keeps
      with_reducible assumption

theorem State.acceptTimed_keeps {s0 : State} (s : State) (o : Origin) (op inst : Nat) (plenOk : Bool) (p : List Byte) (hk : Keeps s0 s) :
    Keeps s0 (State.acceptTimed s o op inst plenOk p) := by
  unfold State.acceptTimed
  extract_lets +onlyGivenNames x1
  have h1 : Keeps s0 x1.2 := by
    unfold x1
    with_reducible apply State.perform_keeps
    with_reducible assumption
  clear_value x1
  split
  · with_reducible refine ite_keeps ?_ ?_
    · with_reducible apply State.timeCommand_keeps
      with_reducible assumption
    · with_reducible apply State.postReply_keeps
      with_reducible assumption
  · with_reducible apply State.timeCommand_keeps
    with_reducible assumption

theorem State.runTimed_keeps {s0 : State} (s : State) (t : Timed) (hk : Keeps s0 s) :
    Keeps s0 (State.runTimed s t) := by
  unfold State.runTimed
  with_reducible refine ite_keeps ?_ ?_
  · with_reducible apply State.postReply_keeps
    with_reducible assumption
  · with_reducible apply State.runCommand_keeps
    with_reducible assumption

theorem State.timedDue_keeps {s0 : State} (s : State) (hk : Keeps s0 s) :
    Keeps s0 (State.timedDue s) := by
  unfold State.timedDue
  extract_lets +onlyGivenNames x1
  clear_value x1
  extract_lets +onlyGivenNames x2
  extract_lets +onlyGivenNames x3
  clear_value x3
  with_reducible refine foldl_keeps ?_ ?_
  · intro t4_0 t4_1 h4
    with_reducible refine ite_keeps ?_ ?_
    · with_reducible apply State.runTimed_keeps
      with_reducible refine keeps_mk_of (keeps_parts ?_)
      with_reducible assumption
    · with_reducible assumption
  · with_reducible assumption

theorem State.commandsFirst_keeps {s0 : State} (s : State) (hk : Keeps s0 s) :
    Keeps s0 (State.commandsFirst s) := by
  unfold State.commandsFirst
  with_reducible refine ite_keeps ?_ ?_
  · with_reducible assumption
  · with_reducible apply State.timedDue_keeps
    with_reducible assumption

theorem execMoveNewAdd_keeps {s0 : State} (s : State) (hk : Keeps s0 s) :
    OKeeps s0 (execMoveNewAdd s) := by
  unfold execMoveNewAdd
  with_reducible refine next_okeeps ?_
  with_reducible apply State.softWrite_keeps
  · intro t0_0 h0
    with_reducible apply State.moveNewAdd_keeps
    with_reducible assumption
  · with_reducible apply State.commandsFirst_keeps
    with_reducible assumption

theorem execTimedCommandDue_keeps {s0 : State} (at_ : Vt) (s : State) (hk : Keeps s0 s) :
    OKeeps s0 (execTimedCommandDue at_ s) := by
  unfold execTimedCommandDue
  dsimp only
  with_reducible refine next_okeeps ?_
  with_reducible apply State.commandsFirst_keeps
  with_reducible apply State.elapseTo_keeps
  with_reducible assumption

theorem State.acceptCommand_keeps {s0 : State} (s : State) (h : Nat) (x : Session) (tag : Nat) (noReply : Bool) (when_ : Nat) (peer : ReplyTo) (b : List Byte) (hk : Keeps s0 s) :
    Keeps s0 (State.acceptCommand s h x tag noReply when_ peer b) := by
  unfold State.acceptCommand
  dsimp only
  with_reducible refine ite_keeps ?_ ?_
  · with_reducible apply State.refuseCommand_keeps
    with_reducible apply State.bump_keeps
    with_reducible apply State.hearPartner_keeps
    with_reducible assumption
  · with_reducible refine ite_keeps ?_ ?_
    · with_reducible refine ite_keeps ?_ ?_
      · with_reducible apply State.hearPartner_keeps
        with_reducible assumption
      · with_reducible apply State.refuseCommand_keeps
        with_reducible apply State.hearPartner_keeps
        with_reducible assumption
    · with_reducible refine ite_keeps ?_ ?_
      · with_reducible apply State.acceptTimed_keeps
        with_reducible refine ite_keeps ?_ ?_
        · with_reducible apply State.hearPartner_keeps
          with_reducible assumption
        · with_reducible apply State.updSession_keeps
          with_reducible apply State.hearPartner_keeps
          with_reducible assumption
      · with_reducible apply State.takeCommand_keeps
        with_reducible refine ite_keeps ?_ ?_
        · with_reducible apply State.hearPartner_keeps
          with_reducible assumption
        · with_reducible apply State.updSession_keeps
          with_reducible apply State.hearPartner_keeps
          with_reducible assumption

theorem State.mboxRun_keeps {s0 : State} (s : State) (b : List Byte) (hk : Keeps s0 s) :
    Keeps s0 (State.mboxRun s b) := by
  unfold State.mboxRun
  dsimp only
  with_reducible refine ite_keeps ?_ ?_
  · with_reducible apply State.postReply_keeps
    with_reducible refine keeps_mk_of (keeps_parts ?_)
    with_reducible assumption
  · with_reducible refine ite_keeps ?_ ?_
    · with_reducible apply State.postReply_keeps
      with_reducible refine keeps_mk_of (keeps_parts ?_)
      with_reducible assumption
    · with_reducible apply State.takeCommand_keeps
      with_reducible refine keeps_mk_of (keeps_parts ?_)
      with_reducible assumption

theorem State.mboxServe_keeps {s0 : State} (s : State) (hk : Keeps s0 s) :
    Keeps s0 (State.mboxServe s) := by
  unfold State.mboxServe
  with_reducible refine ite_keeps ?_ ?_
  · with_reducible apply State.mboxRun_keeps
    with_reducible assumption
  · with_reducible assumption

theorem State.mboxSubmit_keeps {s0 : State} (s : State) (b : List Byte) (hk : Keeps s0 s) :
    Keeps s0 (State.mboxSubmit s b) := by
  unfold State.mboxSubmit
  dsimp only
  with_reducible refine ite_keeps ?_ ?_
  · with_reducible apply State.setW1c_keeps
    with_reducible apply State.cvuTapWord_keeps
    with_reducible assumption
  · with_reducible apply State.mboxServe_keeps
    with_reducible apply State.wr_keeps
    with_reducible apply State.wr_keeps
    with_reducible refine keeps_mk_of (keeps_parts ?_)
    with_reducible apply State.cvuTapWord_keeps
    with_reducible assumption

theorem State.pollRun_keeps {s0 : State} (s : State) (b : List Byte) (broadcast : Bool) (hk : Keeps s0 s) :
    Keeps s0 (State.pollRun s b broadcast) := by
  unfold State.pollRun
  with_reducible apply State.takeCommand_keeps
  with_reducible assumption

theorem State.pollServe_keeps {s0 : State} (s : State) (hk : Keeps s0 s) :
    Keeps s0 (State.pollServe s) := by
  unfold State.pollServe
  with_reducible refine ite_keeps ?_ ?_
  · with_reducible assumption
  · split
    · with_reducible refine ite_keeps ?_ ?_
      · with_reducible assumption
      · with_reducible apply State.pollRun_keeps
        with_reducible refine keeps_mk_of (keeps_parts ?_)
        with_reducible assumption
    · with_reducible assumption

theorem State.commandVia_keeps {s0 : State} (s : State) (via : Via) (op : Nat) (p : List Byte) (hk : Keeps s0 s) :
    Keeps s0 (State.commandVia s via op p) := by
  unfold State.commandVia
  dsimp only
  split
  · split
    · with_reducible refine ite_keeps ?_ ?_
      · with_reducible assumption
      · with_reducible apply State.acceptCommand_keeps
        with_reducible assumption
    · with_reducible assumption
  · with_reducible refine ite_keeps ?_ ?_
    · with_reducible assumption
    · split
      · with_reducible refine ite_keeps ?_ ?_
        · with_reducible apply State.pollRun_keeps
          with_reducible refine keeps_mk_of (keeps_parts ?_)
          with_reducible assumption
        · with_reducible refine ite_keeps ?_ ?_
          · with_reducible apply State.bump_keeps
            with_reducible assumption
          · with_reducible apply State.pollRun_keeps
            with_reducible assumption
      · with_reducible refine ite_keeps ?_ ?_
        · with_reducible apply State.bump_keeps
          with_reducible assumption
        · with_reducible apply State.pollRun_keeps
          with_reducible assumption
  · with_reducible refine ite_keeps ?_ ?_
    · with_reducible apply State.mboxSubmit_keeps
      with_reducible assumption
    · with_reducible assumption

theorem execHelloOpcode_keeps {s0 : State} (via : Via) (params : List Byte) (s : State) (hk : Keeps s0 s) :
    OKeeps s0 (execHelloOpcode via params s) := by
  unfold execHelloOpcode
  with_reducible refine next_okeeps ?_
  with_reducible apply State.commandVia_keeps
  with_reducible assumption

theorem execBye_keeps {s0 : State} (via : Via) (params : List Byte) (s : State) (hk : Keeps s0 s) :
    OKeeps s0 (execBye via params s) := by
  unfold execBye
  with_reducible refine next_okeeps ?_
  with_reducible apply State.commandVia_keeps
  with_reducible assumption

theorem execCaps_keeps {s0 : State} (via : Via) (params : List Byte) (s : State) (hk : Keeps s0 s) :
    OKeeps s0 (execCaps via params s) := by
  unfold execCaps
  with_reducible refine next_okeeps ?_
  with_reducible apply State.commandVia_keeps
  with_reducible assumption

theorem execCredit_keeps {s0 : State} (via : Via) (params : List Byte) (s : State) (hk : Keeps s0 s) :
    OKeeps s0 (execCredit via params s) := by
  unfold execCredit
  with_reducible refine next_okeeps ?_
  with_reducible apply State.commandVia_keeps
  with_reducible assumption

theorem execAuth_keeps {s0 : State} (via : Via) (params : List Byte) (s : State) (hk : Keeps s0 s) :
    OKeeps s0 (execAuth via params s) := by
  unfold execAuth
  with_reducible refine next_okeeps ?_
  with_reducible apply State.commandVia_keeps
  with_reducible assumption

theorem execRegRd_keeps {s0 : State} (via : Via) (params : List Byte) (s : State) (hk : Keeps s0 s) :
    OKeeps s0 (execRegRd via params s) := by
  unfold execRegRd
  with_reducible refine next_okeeps ?_
  with_reducible apply State.commandVia_keeps
  with_reducible assumption

theorem execRegWr_keeps {s0 : State} (via : Via) (params : List Byte) (s : State) (hk : Keeps s0 s) :
    OKeeps s0 (execRegWr via params s) := by
  unfold execRegWr
  with_reducible refine next_okeeps ?_
  with_reducible apply State.commandVia_keeps
  with_reducible assumption

theorem execRegRmw_keeps {s0 : State} (via : Via) (params : List Byte) (s : State) (hk : Keeps s0 s) :
    OKeeps s0 (execRegRmw via params s) := by
  unfold execRegRmw
  with_reducible refine next_okeeps ?_
  with_reducible apply State.commandVia_keeps
  with_reducible assumption

theorem execCreate_keeps {s0 : State} (via : Via) (params : List Byte) (s : State) (hk : Keeps s0 s) :
    OKeeps s0 (execCreate via params s) := by
  unfold execCreate
  with_reducible refine next_okeeps ?_
  with_reducible apply State.commandVia_keeps
  with_reducible assumption

theorem execDestroy_keeps {s0 : State} (via : Via) (params : List Byte) (s : State) (hk : Keeps s0 s) :
    OKeeps s0 (execDestroy via params s) := by
  unfold execDestroy
  with_reducible refine next_okeeps ?_
  with_reducible apply State.commandVia_keeps
  with_reducible assumption

theorem execQuery_keeps {s0 : State} (via : Via) (params : List Byte) (s : State) (hk : Keeps s0 s) :
    OKeeps s0 (execQuery via params s) := by
  unfold execQuery
  with_reducible refine next_okeeps ?_
  with_reducible apply State.commandVia_keeps
  with_reducible assumption

theorem execList_keeps {s0 : State} (via : Via) (params : List Byte) (s : State) (hk : Keeps s0 s) :
    OKeeps s0 (execList via params s) := by
  unfold execList
  with_reducible refine next_okeeps ?_
  with_reducible apply State.commandVia_keeps
  with_reducible assumption

theorem execRestore_keeps {s0 : State} (via : Via) (params : List Byte) (s : State) (hk : Keeps s0 s) :
    OKeeps s0 (execRestore via params s) := by
  unfold execRestore
  with_reducible refine next_okeeps ?_
  with_reducible apply State.commandVia_keeps
  with_reducible assumption

theorem execGridSet_keeps {s0 : State} (via : Via) (params : List Byte) (s : State) (hk : Keeps s0 s) :
    OKeeps s0 (execGridSet via params s) := by
  unfold execGridSet
  with_reducible refine next_okeeps ?_
  with_reducible apply State.commandVia_keeps
  with_reducible assumption

theorem execMoveAdd_keeps {s0 : State} (via : Via) (params : List Byte) (s : State) (hk : Keeps s0 s) :
    OKeeps s0 (execMoveAdd via params s) := by
  unfold execMoveAdd
  with_reducible refine next_okeeps ?_
  with_reducible apply State.commandVia_keeps
  with_reducible assumption

theorem execMoveCancel_keeps {s0 : State} (via : Via) (params : List Byte) (s : State) (hk : Keeps s0 s) :
    OKeeps s0 (execMoveCancel via params s) := by
  unfold execMoveCancel
  with_reducible refine next_okeeps ?_
  with_reducible apply State.commandVia_keeps
  with_reducible assumption

theorem execTodSet_keeps {s0 : State} (via : Via) (params : List Byte) (s : State) (hk : Keeps s0 s) :
    OKeeps s0 (execTodSet via params s) := by
  unfold execTodSet
  with_reducible refine next_okeeps ?_
  with_reducible apply State.commandVia_keeps
  with_reducible assumption

theorem execStage_keeps {s0 : State} (via : Via) (params : List Byte) (s : State) (hk : Keeps s0 s) :
    OKeeps s0 (execStage via params s) := by
  unfold execStage
  with_reducible refine next_okeeps ?_
  with_reducible apply State.commandVia_keeps
  with_reducible assumption

theorem execCheck_keeps {s0 : State} (via : Via) (params : List Byte) (s : State) (hk : Keeps s0 s) :
    OKeeps s0 (execCheck via params s) := by
  unfold execCheck
  with_reducible refine next_okeeps ?_
  with_reducible apply State.commandVia_keeps
  with_reducible assumption

theorem execArm_keeps {s0 : State} (via : Via) (params : List Byte) (s : State) (hk : Keeps s0 s) :
    OKeeps s0 (execArm via params s) := by
  unfold execArm
  with_reducible refine next_okeeps ?_
  with_reducible apply State.commandVia_keeps
  with_reducible assumption

theorem execDisarm_keeps {s0 : State} (via : Via) (params : List Byte) (s : State) (hk : Keeps s0 s) :
    OKeeps s0 (execDisarm via params s) := by
  unfold execDisarm
  with_reducible refine next_okeeps ?_
  with_reducible apply State.commandVia_keeps
  with_reducible assumption

theorem execSealWrite_keeps {s0 : State} (via : Via) (params : List Byte) (s : State) (hk : Keeps s0 s) :
    OKeeps s0 (execSealWrite via params s) := by
  unfold execSealWrite
  with_reducible refine next_okeeps ?_
  with_reducible apply State.commandVia_keeps
  with_reducible assumption

theorem execSealRead_keeps {s0 : State} (via : Via) (params : List Byte) (s : State) (hk : Keeps s0 s) :
    OKeeps s0 (execSealRead via params s) := by
  unfold execSealRead
  with_reducible refine next_okeeps ?_
  with_reducible apply State.commandVia_keeps
  with_reducible assumption

theorem execSweep_keeps {s0 : State} (via : Via) (params : List Byte) (s : State) (hk : Keeps s0 s) :
    OKeeps s0 (execSweep via params s) := by
  unfold execSweep
  with_reducible refine next_okeeps ?_
  with_reducible apply State.commandVia_keeps
  with_reducible assumption

theorem execCensusSub_keeps {s0 : State} (via : Via) (params : List Byte) (s : State) (hk : Keeps s0 s) :
    OKeeps s0 (execCensusSub via params s) := by
  unfold execCensusSub
  with_reducible refine next_okeeps ?_
  with_reducible apply State.commandVia_keeps
  with_reducible assumption

theorem execMapRead_keeps {s0 : State} (via : Via) (params : List Byte) (s : State) (hk : Keeps s0 s) :
    OKeeps s0 (execMapRead via params s) := by
  unfold execMapRead
  with_reducible refine next_okeeps ?_
  with_reducible apply State.commandVia_keeps
  with_reducible assumption

theorem execGroupMembers_keeps {s0 : State} (via : Via) (params : List Byte) (s : State) (hk : Keeps s0 s) :
    OKeeps s0 (execGroupMembers via params s) := by
  unfold execGroupMembers
  with_reducible refine next_okeeps ?_
  with_reducible apply State.commandVia_keeps
  with_reducible assumption

theorem execGroupArm_keeps {s0 : State} (via : Via) (params : List Byte) (s : State) (hk : Keeps s0 s) :
    OKeeps s0 (execGroupArm via params s) := by
  unfold execGroupArm
  with_reducible refine next_okeeps ?_
  with_reducible apply State.commandVia_keeps
  with_reducible assumption

theorem execGroupDisarm_keeps {s0 : State} (via : Via) (params : List Byte) (s : State) (hk : Keeps s0 s) :
    OKeeps s0 (execGroupDisarm via params s) := by
  unfold execGroupDisarm
  with_reducible refine next_okeeps ?_
  with_reducible apply State.commandVia_keeps
  with_reducible assumption

theorem execGroupAck_keeps {s0 : State} (via : Via) (params : List Byte) (s : State) (hk : Keeps s0 s) :
    OKeeps s0 (execGroupAck via params s) := by
  unfold execGroupAck
  with_reducible refine next_okeeps ?_
  with_reducible apply State.commandVia_keeps
  with_reducible assumption

theorem execProgLoad_keeps {s0 : State} (via : Via) (params : List Byte) (s : State) (hk : Keeps s0 s) :
    OKeeps s0 (execProgLoad via params s) := by
  unfold execProgLoad
  with_reducible refine next_okeeps ?_
  with_reducible apply State.commandVia_keeps
  with_reducible assumption

theorem execGo_keeps {s0 : State} (via : Via) (params : List Byte) (s : State) (hk : Keeps s0 s) :
    OKeeps s0 (execGo via params s) := by
  unfold execGo
  with_reducible refine next_okeeps ?_
  with_reducible apply State.commandVia_keeps
  with_reducible assumption

theorem execStop_keeps {s0 : State} (via : Via) (params : List Byte) (s : State) (hk : Keeps s0 s) :
    OKeeps s0 (execStop via params s) := by
  unfold execStop
  with_reducible refine next_okeeps ?_
  with_reducible apply State.commandVia_keeps
  with_reducible assumption

theorem execPush_keeps {s0 : State} (via : Via) (params : List Byte) (s : State) (hk : Keeps s0 s) :
    OKeeps s0 (execPush via params s) := by
  unfold execPush
  with_reducible refine next_okeeps ?_
  with_reducible apply State.commandVia_keeps
  with_reducible assumption

theorem execPull_keeps {s0 : State} (via : Via) (params : List Byte) (s : State) (hk : Keeps s0 s) :
    OKeeps s0 (execPull via params s) := by
  unfold execPull
  with_reducible refine next_okeeps ?_
  with_reducible apply State.commandVia_keeps
  with_reducible assumption

theorem execSentry_keeps {s0 : State} (via : Via) (params : List Byte) (s : State) (hk : Keeps s0 s) :
    OKeeps s0 (execSentry via params s) := by
  unfold execSentry
  with_reducible refine next_okeeps ?_
  with_reducible apply State.commandVia_keeps
  with_reducible assumption

theorem execWakeCfg_keeps {s0 : State} (via : Via) (params : List Byte) (s : State) (hk : Keeps s0 s) :
    OKeeps s0 (execWakeCfg via params s) := by
  unfold execWakeCfg
  with_reducible refine next_okeeps ?_
  with_reducible apply State.commandVia_keeps
  with_reducible assumption

theorem execDomain_keeps {s0 : State} (via : Via) (params : List Byte) (s : State) (hk : Keeps s0 s) :
    OKeeps s0 (execDomain via params s) := by
  unfold execDomain
  with_reducible refine next_okeeps ?_
  with_reducible apply State.commandVia_keeps
  with_reducible assumption

theorem execFwWrite_keeps {s0 : State} (via : Via) (params : List Byte) (s : State) (hk : Keeps s0 s) :
    OKeeps s0 (execFwWrite via params s) := by
  unfold execFwWrite
  with_reducible refine next_okeeps ?_
  with_reducible apply State.commandVia_keeps
  with_reducible assumption

theorem execFwSwap_keeps {s0 : State} (via : Via) (params : List Byte) (s : State) (hk : Keeps s0 s) :
    OKeeps s0 (execFwSwap via params s) := by
  unfold execFwSwap
  with_reducible refine next_okeeps ?_
  with_reducible apply State.commandVia_keeps
  with_reducible assumption

theorem execFwInfo_keeps {s0 : State} (via : Via) (params : List Byte) (s : State) (hk : Keeps s0 s) :
    OKeeps s0 (execFwInfo via params s) := by
  unfold execFwInfo
  with_reducible refine next_okeeps ?_
  with_reducible apply State.commandVia_keeps
  with_reducible assumption

theorem execFbOn_keeps {s0 : State} (via : Via) (params : List Byte) (s : State) (hk : Keeps s0 s) :
    OKeeps s0 (execFbOn via params s) := by
  unfold execFbOn
  with_reducible refine next_okeeps ?_
  with_reducible apply State.commandVia_keeps
  with_reducible assumption

theorem execFbOff_keeps {s0 : State} (via : Via) (params : List Byte) (s : State) (hk : Keeps s0 s) :
    OKeeps s0 (execFbOff via params s) := by
  unfold execFbOff
  with_reducible refine next_okeeps ?_
  with_reducible apply State.commandVia_keeps
  with_reducible assumption

theorem execMotifStep_keeps {s0 : State} (via : Via) (params : List Byte) (s : State) (hk : Keeps s0 s) :
    OKeeps s0 (execMotifStep via params s) := by
  unfold execMotifStep
  with_reducible refine next_okeeps ?_
  with_reducible apply State.commandVia_keeps
  with_reducible assumption

theorem execFbStatus_keeps {s0 : State} (via : Via) (params : List Byte) (s : State) (hk : Keeps s0 s) :
    OKeeps s0 (execFbStatus via params s) := by
  unfold execFbStatus
  with_reducible refine next_okeeps ?_
  with_reducible apply State.commandVia_keeps
  with_reducible assumption

end Sys2Proof.Machine
end

