-- ==== Sys2Proof/Laws/KeepsService.lean ====
section
/-! SUPPORT. The operations of Service.lean keep the queue and the canonical forms. -/
namespace Sys2Proof.Machine

theorem State.svcRead_keeps {s0 : State} (s : State) (a : Nat) (late : Bool) (hk : Keeps s0 s) :
    Keeps s0 (State.svcRead s a late).2 := by
  unfold State.svcRead
  with_reducible refine ite_keeps_snd ?_ ?_
  · with_reducible refine mkpair_keeps ?_
    with_reducible apply State.setW1c_keeps
    with_reducible assumption
  · with_reducible refine ite_keeps_snd ?_ ?_
    · with_reducible refine mkpair_keeps ?_
      with_reducible apply State.setW1c_keeps
      with_reducible assumption
    · with_reducible apply State.readWord_keeps
      with_reducible assumption

theorem State.svcReads_keeps {s0 : State} (s : State) (addr : Word) (n : Nat) (late : List Nat) (hk : Keeps s0 s) :
    Keeps s0 (State.svcReads s addr n late).2 := by
  unfold State.svcReads
  refine foldl_keeps_snd (fun t i ht => ?_) hk
  exact State.cvuTapWord_keeps _ _ _ _ (State.svcRead_keeps _ _ _ ht)

theorem execSvcRegisterRead_keeps {s0 : State} (at_ : Vt) (addr : Word) (count : BitVec 16) (late : List Nat) (s : State) (hk : Keeps s0 s) :
    OKeeps s0 (execSvcRegisterRead at_ addr count late s) := by
  unfold execSvcRegisterRead
  dsimp only
  with_reducible refine next_okeeps ?_
  with_reducible refine ite_keeps ?_ ?_
  · with_reducible apply State.readGave_keeps
    with_reducible apply State.svcReads_keeps
    with_reducible apply State.commandsFirst_keeps
    with_reducible apply State.elapseTo_keeps
    with_reducible assumption
  · with_reducible apply State.commandsFirst_keeps
    with_reducible apply State.elapseTo_keeps
    with_reducible assumption

theorem State.svcWrite_keeps {s0 : State} (s : State) (a : Nat) (w : Word) (hk : Keeps s0 s) :
    Keeps s0 (State.svcWrite s a w) := by
  unfold State.svcWrite
  with_reducible refine ite_keeps ?_ ?_
  · with_reducible apply State.tryWrite_keeps
    with_reducible assumption
  · with_reducible apply State.setW1c_keeps
    with_reducible assumption

theorem execSvcRegisterWrite_keeps {s0 : State} (at_ : Vt) (addr : Word) (words : List Word) (s : State) (hk : Keeps s0 s) :
    OKeeps s0 (execSvcRegisterWrite at_ addr words s) := by
  unfold execSvcRegisterWrite
  dsimp only
  with_reducible refine next_okeeps ?_
  with_reducible refine ite_keeps ?_ ?_
  · with_reducible refine foldl_keeps ?_ ?_
    · intro t0_0 t0_1 h0
      with_reducible apply State.svcWrite_keeps
      with_reducible apply State.cvuTapWord_keeps
      with_reducible assumption
    · with_reducible apply State.commandsFirst_keeps
      with_reducible apply State.elapseTo_keeps
      with_reducible assumption
  · with_reducible apply State.commandsFirst_keeps
    with_reducible apply State.elapseTo_keeps
    with_reducible assumption

theorem State.mboxStore_keeps {s0 : State} (s : State) (off : Nat) (b : List Byte) (hk : Keeps s0 s) :
    Keeps s0 (State.mboxStore s off b) := by
  unfold State.mboxStore
  with_reducible refine ite_keeps ?_ ?_
  · with_reducible apply State.setW1c_keeps
    with_reducible assumption
  · dsimp only
    with_reducible refine keeps_mk_of (keeps_parts ?_)
    with_reducible assumption

theorem execMailboxWrite_keeps {s0 : State} (at_ : Vt) (offset : Word) (bytes : List Byte) (s : State) (hk : Keeps s0 s) :
    OKeeps s0 (execMailboxWrite at_ offset bytes s) := by
  unfold execMailboxWrite
  extract_lets +onlyGivenNames x1
  have h1 : Keeps s0 x1 := by
    unfold x1
    with_reducible apply State.elapseTo_keeps
    with_reducible assumption
  clear_value x1
  with_reducible refine next_okeeps ?_
  with_reducible refine ite_keeps ?_ ?_
  · with_reducible apply State.mboxStore_keeps
    with_reducible assumption
  · with_reducible assumption

theorem execMailboxRead_keeps {s0 : State} (at_ : Vt) (offset : Word) (count : BitVec 16) (s : State) (hk : Keeps s0 s) :
    OKeeps s0 (execMailboxRead at_ offset count s) := by
  unfold execMailboxRead
  extract_lets +onlyGivenNames x1
  have h1 : Keeps s0 x1 := by
    unfold x1
    with_reducible apply State.elapseTo_keeps
    with_reducible assumption
  clear_value x1
  with_reducible refine next_okeeps ?_
  with_reducible refine ite_keeps ?_ ?_
  · with_reducible apply State.readGave_keeps
    with_reducible assumption
  · with_reducible assumption

theorem execSvcFrameError_keeps {s0 : State} (opcode : BitVec 8) (s : State) (hk : Keeps s0 s) :
    OKeeps s0 (execSvcFrameError opcode s) := by
  unfold execSvcFrameError
  with_reducible refine next_okeeps ?_
  with_reducible refine ite_keeps ?_ ?_
  · with_reducible apply State.setW1c_keeps
    with_reducible assumption
  · with_reducible assumption

theorem execMailboxSend_keeps {s0 : State} (at_ : Vt) (len : BitVec 11) (s : State) (hk : Keeps s0 s) :
    OKeeps s0 (execMailboxSend at_ len s) := by
  unfold execMailboxSend
  dsimp only
  with_reducible refine next_okeeps ?_
  with_reducible refine ite_keeps ?_ ?_
  · with_reducible apply State.mboxServe_keeps
    with_reducible apply State.mboxWrite_keeps
    with_reducible apply State.cvuTapWord_keeps
    with_reducible apply State.elapseTo_keeps
    with_reducible assumption
  · with_reducible apply State.elapseTo_keeps
    with_reducible assumption

theorem execMailboxAck_keeps {s0 : State} (at_ : Vt) (s : State) (hk : Keeps s0 s) :
    OKeeps s0 (execMailboxAck at_ s) := by
  unfold execMailboxAck
  dsimp only
  with_reducible refine next_okeeps ?_
  with_reducible refine ite_keeps ?_ ?_
  · with_reducible apply State.mboxAck_keeps
    with_reducible apply State.cvuTapWord_keeps
    with_reducible apply State.elapseTo_keeps
    with_reducible assumption
  · with_reducible apply State.elapseTo_keeps
    with_reducible assumption

end Sys2Proof.Machine
end

