-- ==== Sys2Proof/Laws/KeepsReceive.lean ====
section
/-! SUPPORT. The operations of Receive.lean keep the queue and the canonical forms. -/
namespace Sys2Proof.Machine

theorem State.storeHead_keeps {s0 : State} (s : State) (p : Nat) (head : List Byte) (c : Class) (hk : Keeps s0 s) :
    Keeps s0 (State.storeHead s p head c) := by
  unfold State.storeHead
  with_reducible refine ite_keeps ?_ ?_
  · dsimp only
    with_reducible apply State.rxDiscard_keeps
    with_reducible apply State.noCell_keeps
    with_reducible apply State.setPort_keeps
    with_reducible assumption
  · dsimp only
    with_reducible refine ite_keeps ?_ ?_
    · with_reducible refine foldl_keeps ?_ ?_
      · intro t0_0 t0_1 h0
        with_reducible apply State.noCell_keeps
        with_reducible assumption
      · with_reducible apply State.setPort_keeps
        with_reducible assumption
    · with_reducible refine foldl_keeps ?_ ?_
      · intro t1_0 t1_1 h1
        with_reducible apply State.beginTx_keeps
        with_reducible assumption
      · with_reducible refine foldl_keeps ?_ ?_
        · intro t2_0 t2_1 h2
          with_reducible apply State.noCell_keeps
          with_reducible assumption
        · with_reducible apply State.setPort_keeps
          with_reducible apply State.storeFrame_keeps
          with_reducible apply State.eventStamp_keeps
          with_reducible assumption

theorem State.classifyHead_keeps {s0 : State} (s : State) (p : Nat) (head : List Byte) (hk : Keeps s0 s) :
    Keeps s0 (State.classifyHead s p head) := by
  unfold State.classifyHead
  extract_lets +onlyGivenNames x1
  clear_value x1
  extract_lets +onlyGivenNames x2
  have h2 : Keeps s0 x2 := by
    unfold x2
    with_reducible refine ite_keeps ?_ ?_
    · with_reducible apply State.bump_keeps
      with_reducible assumption
    · with_reducible assumption
  clear_value x2
  with_reducible refine ite_keeps ?_ ?_
  · with_reducible apply State.setPort_keeps
    with_reducible assumption
  · with_reducible apply State.storeHead_keeps
    with_reducible assumption

theorem execFrameClassify_keeps {s0 : State} (at_ : Vt) (port : Fin 6) (head : List Byte) (s : State) (hk : Keeps s0 s) :
    OKeeps s0 (execFrameClassify at_ port head s) := by
  unfold execFrameClassify
  dsimp only
  with_reducible refine next_okeeps ?_
  with_reducible refine ite_keeps ?_ ?_
  · with_reducible apply State.classifyHead_keeps
    with_reducible apply State.cvuTapHead_keeps
    with_reducible apply State.elapseTo_keeps
    with_reducible assumption
  · with_reducible apply State.elapseTo_keeps
    with_reducible assumption

theorem State.checkMismatch_keeps {s0 : State} (s : State) (p cls : Nat) (payload : Bool) (hk : Keeps s0 s) :
    Keeps s0 (State.checkMismatch s p cls payload) := by
  unfold State.checkMismatch
  extract_lets +onlyGivenNames x1
  clear_value x1
  split
  · with_reducible apply State.raise_keeps
    with_reducible refine keeps_mk_of (keeps_parts ?_)
    with_reducible assumption
  · with_reducible assumption

theorem State.commandRx_keeps {s0 : State} (s : State) (peer : ReplyTo) (h : KlpHdr) (head body : List Byte) (hk : Keeps s0 s) :
    Keeps s0 (State.commandRx s peer h head body) := by
  unfold State.commandRx
  extract_lets +onlyGivenNames x1
  clear_value x1
  extract_lets +onlyGivenNames x2
  clear_value x2
  extract_lets +onlyGivenNames x3
  clear_value x3
  extract_lets +onlyGivenNames x4
  clear_value x4
  split
  · with_reducible refine ite_keeps ?_ ?_
    · with_reducible assumption
    · with_reducible apply State.refuseCommand_keeps
      with_reducible assumption
  · with_reducible refine ite_keeps ?_ ?_
    · extract_lets +onlyGivenNames x5
      have h5 : Keeps s0 x5 := by
        unfold x5
        with_reducible apply State.authFail_keeps
        with_reducible assumption
      clear_value x5
      with_reducible refine ite_keeps ?_ ?_
      · with_reducible assumption
      · with_reducible apply State.refuseCommand_keeps
        with_reducible assumption
    · extract_lets +onlyGivenNames x6
      clear_value x6
      with_reducible refine ite_keeps ?_ ?_
      · with_reducible apply State.bump_keeps
        with_reducible assumption
      · extract_lets +onlyGivenNames x7
        clear_value x7
        extract_lets +onlyGivenNames x8
        have h8 : Keeps s0 x8 := by
          unfold x8
          with_reducible refine ite_keeps ?_ ?_
          · with_reducible apply State.updSession_keeps
            with_reducible assumption
          · with_reducible assumption
        clear_value x8
        with_reducible apply State.acceptCommand_keeps
        with_reducible assumption

theorem State.refuseEarly_keeps {s0 : State} (s : State) (peer : ReplyTo) (h : KlpHdr) (payload : List Byte) (st : Status) (hk : Keeps s0 s) :
    Keeps s0 (State.refuseEarly s peer h payload st) := by
  unfold State.refuseEarly
  with_reducible refine ite_keeps ?_ ?_
  · with_reducible assumption
  · with_reducible apply State.refuseCommand_keeps
    with_reducible assumption

theorem State.deliverClass_keeps {s0 : State} (s : State) (peer : ReplyTo) (h : KlpHdr) (head body : List Byte) (hk : Keeps s0 s) :
    Keeps s0 (State.deliverClass s peer h head body).2 := by
  unfold State.deliverClass
  split
  · with_reducible refine ite_keeps_snd ?_ ?_
    · with_reducible refine mkpair_keeps ?_
      with_reducible apply State.pixelPacket_keeps
      with_reducible assumption
    · with_reducible refine mkpair_keeps ?_
      with_reducible assumption
  · with_reducible refine ite_keeps_snd ?_ ?_
    · with_reducible refine mkpair_keeps ?_
      with_reducible assumption
    · with_reducible refine mkpair_keeps ?_
      with_reducible apply State.commandRx_keeps
      with_reducible assumption
  · with_reducible refine mkpair_keeps ?_
    with_reducible apply State.timeRx_keeps
    with_reducible assumption
  · with_reducible refine mkpair_keeps ?_
    with_reducible apply State.helloRx_keeps
    with_reducible assumption
  · with_reducible refine mkpair_keeps ?_
    with_reducible assumption

theorem State.deliverChecked_keeps {s0 : State} (s : State) (peer : ReplyTo) (h : KlpHdr) (head body : List Byte) (hk : Keeps s0 s) :
    Keeps s0 (State.deliverChecked s peer h head body).2 := by
  unfold State.deliverChecked
  extract_lets +onlyGivenNames x1
  have h1 : Keeps s0 x1 := by
    unfold x1
    with_reducible refine ite_keeps ?_ ?_
    · with_reducible assumption
    · with_reducible apply State.bump_keeps
      with_reducible assumption
  clear_value x1
  with_reducible refine ite_keeps_snd ?_ ?_
  · with_reducible refine mkpair_keeps ?_
    with_reducible apply State.refuseEarly_keeps
    with_reducible assumption
  · split
    · with_reducible refine ite_keeps_snd ?_ ?_
      · with_reducible apply State.deliverClass_keeps
        with_reducible apply keeps_pair; with_reducible assumption
        with_reducible apply State.dupTest_keeps
        with_reducible assumption
      · with_reducible refine mkpair_keeps ?_
        with_reducible apply keeps_pair; with_reducible assumption
        with_reducible apply State.dupTest_keeps
        with_reducible assumption

theorem State.deliverKlp_keeps {s0 : State} (s : State) (p : Nat) (f : List Byte) (o : Nat) (udp : Option Nat) (hk : Keeps s0 s) :
    Keeps s0 (State.deliverKlp s p f o udp).2 := by
  unfold State.deliverKlp
  dsimp only
  with_reducible refine ite_keeps_snd ?_ ?_
  · with_reducible refine mkpair_keeps ?_
    with_reducible apply State.bump_keeps
    with_reducible assumption
  · with_reducible refine ite_keeps_snd ?_ ?_
    · with_reducible refine mkpair_keeps ?_
      with_reducible apply State.checkMismatch_keeps
      with_reducible apply State.bump_keeps
      with_reducible assumption
    · with_reducible refine ite_keeps_snd ?_ ?_
      · with_reducible refine mkpair_keeps ?_
        with_reducible apply State.bump_keeps
        with_reducible assumption
      · with_reducible refine ite_keeps_snd ?_ ?_
        · with_reducible refine mkpair_keeps ?_
          with_reducible apply State.bump_keeps
          with_reducible assumption
        · with_reducible refine ite_keeps_snd ?_ ?_
          · with_reducible refine mkpair_keeps ?_
            with_reducible apply State.bump_keeps
            with_reducible assumption
          · with_reducible refine ite_keeps_snd ?_ ?_
            · with_reducible refine mkpair_keeps ?_
              with_reducible apply State.refuseEarly_keeps
              with_reducible apply State.checkMismatch_keeps
              with_reducible apply State.bump_keeps
              with_reducible refine ite_keeps ?_ ?_
              · with_reducible apply State.hearPartner_keeps
                with_reducible assumption
              · with_reducible assumption
            · with_reducible apply State.deliverChecked_keeps
              with_reducible refine ite_keeps ?_ ?_
              · with_reducible apply State.hearPartner_keeps
                with_reducible assumption
              · with_reducible assumption

theorem State.arpRx_keeps {s0 : State} (s : State) (f : List Byte) (hk : Keeps s0 s) :
    Keeps s0 (State.arpRx s f) := by
  unfold State.arpRx
  split
  · extract_lets +onlyGivenNames x1
    clear_value x1
    with_reducible refine ite_keeps ?_ ?_
    · with_reducible apply State.originate_keeps
      with_reducible assumption
    · with_reducible assumption

theorem State.lldpSend_keeps {s0 : State} (s : State) (p : Nat) (theirs : Nat × Nat) (hk : Keeps s0 s) :
    Keeps s0 (State.lldpSend s p theirs) := by
  unfold State.lldpSend
  split
  dsimp only
  with_reducible refine ite_keeps ?_ ?_
  · with_reducible apply State.originateOn_keeps
    with_reducible apply keeps_pair; with_reducible assumption
    with_reducible apply State.draw_keeps
    with_reducible assumption
  · with_reducible apply keeps_pair; with_reducible assumption
    with_reducible apply State.draw_keeps
    with_reducible assumption

theorem State.lldpRx_keeps {s0 : State} (s : State) (p : Nat) (f : List Byte) (hk : Keeps s0 s) :
    Keeps s0 (State.lldpRx s p f) := by
  unfold State.lldpRx
  split
  with_reducible refine ite_keeps ?_ ?_
  · split
    · with_reducible apply State.lldpSend_keeps
      with_reducible apply State.hwWr_keeps
      with_reducible assumption
    · with_reducible assumption
  · with_reducible assumption

theorem State.firmwareRx_keeps {s0 : State} (s : State) (p : Nat) (f : List Byte) (hk : Keeps s0 s) :
    Keeps s0 (State.firmwareRx s p f).2 := by
  unfold State.firmwareRx
  with_reducible refine ite_keeps_snd ?_ ?_
  · with_reducible assumption
  · with_reducible refine mkpair_keeps ?_
    with_reducible apply State.ptpRx_keeps
    with_reducible apply State.lldpRx_keeps
    with_reducible apply State.arpRx_keeps
    with_reducible assumption

theorem State.macControlRx_keeps {s0 : State} (s : State) (p : Nat) (f : List Byte) (hk : Keeps s0 s) :
    Keeps s0 (State.macControlRx s p f) := by
  unfold State.macControlRx
  extract_lets +onlyGivenNames x1
  clear_value x1
  extract_lets +onlyGivenNames x2
  clear_value x2
  with_reducible refine ite_keeps ?_ ?_
  · with_reducible apply State.pauseRx_keeps
    with_reducible apply State.bump_keeps
    with_reducible assumption
  · with_reducible apply State.rxDiscard_keeps
    with_reducible apply State.bump_keeps
    with_reducible assumption

theorem State.spoil_keeps {s0 : State} (s : State) (id : Option Nat) (bytes : List Byte) (hk : Keeps s0 s) :
    Keeps s0 (State.spoil s id bytes) := by
  unfold State.spoil
  split
  · with_reducible apply State.updPkt_keeps
    with_reducible assumption
  · with_reducible assumption

theorem State.noCellEnd_keeps {s0 : State} (s : State) (p : Nat) (id : Option Nat) (f : List Byte) (hk : Keeps s0 s) :
    Keeps s0 (State.noCellEnd s p id f) := by
  unfold State.noCellEnd
  with_reducible apply State.noCell_keeps
  with_reducible apply State.spoil_keeps
  with_reducible apply State.countStomp_keeps
  with_reducible assumption

theorem State.stopTx_keeps {s0 : State} (s : State) (id : Nat) (f : List Byte) (e : Nat) (hk : Keeps s0 s) :
    Keeps s0 (State.stopTx s id f e) := by
  unfold State.stopTx
  dsimp only
  with_reducible apply State.updPkt_keeps
  with_reducible apply State.cutTx_keeps
  with_reducible apply State.noCell_keeps
  with_reducible assumption

theorem State.stopFull_keeps {s0 : State} (s : State) (k : Pkt) (n : Nat) (f : List Byte) (hk : Keeps s0 s) :
    Keeps s0 (State.stopFull s k n f) := by
  unfold State.stopFull
  with_reducible refine foldl_keeps ?_ ?_
  · intro t0_0 t0_1 h0
    with_reducible apply State.stopTx_keeps
    with_reducible assumption
  · with_reducible assumption

theorem State.trimQueues_keeps {s0 : State} (s : State) (k : Pkt) (n : Nat) (f : List Byte) (hk : Keeps s0 s) :
    Keeps s0 (State.trimQueues s k n f) := by
  unfold State.trimQueues
  dsimp only
  with_reducible apply State.stopFull_keeps
  with_reducible apply State.updPkt_keeps
  with_reducible refine foldl_keeps ?_ ?_
  · intro t0_0 t0_1 h0
    with_reducible apply State.noCell_keeps
    with_reducible assumption
  · with_reducible assumption

theorem State.endBad_keeps {s0 : State} (s : State) (p : Nat) (id : Option Nat) (bytes : List Byte) (count : Bool) (hk : Keeps s0 s) :
    Keeps s0 (State.endBad s p id bytes count) := by
  unfold State.endBad
  dsimp only
  with_reducible refine ite_keeps ?_ ?_
  · with_reducible apply State.spoil_keeps
    with_reducible refine ite_keeps ?_ ?_
    · with_reducible apply State.countStomp_keeps
      split
      · with_reducible apply State.stopFull_keeps
        with_reducible assumption
      · with_reducible assumption
    · split
      · with_reducible apply State.stopFull_keeps
        with_reducible assumption
      · with_reducible assumption
  · with_reducible refine ite_keeps ?_ ?_
    · with_reducible apply State.rxDiscard_keeps
      with_reducible apply State.noCellEnd_keeps
      with_reducible assumption
    · with_reducible apply State.noCellEnd_keeps
      with_reducible assumption

theorem State.deliver_keeps {s0 : State} (s : State) (p : Nat) (f : List Byte) (hk : Keeps s0 s) :
    Keeps s0 (State.deliver s p f).2 := by
  unfold State.deliver
  dsimp only
  split
  · with_reducible apply State.firmwareRx_keeps
    with_reducible assumption
  · with_reducible apply State.deliverKlp_keeps
    with_reducible assumption
  · with_reducible apply State.deliverKlp_keeps
    with_reducible assumption
  · with_reducible apply State.firmwareRx_keeps
    with_reducible assumption
  · with_reducible apply State.firmwareRx_keeps
    with_reducible assumption
  · with_reducible apply State.firmwareRx_keeps
    with_reducible assumption
  · with_reducible assumption

theorem State.goodFrame_keeps {s0 : State} (s : State) (p : Nat) (f : List Byte) (hk : Keeps s0 s) :
    Keeps s0 (State.goodFrame s p f) := by
  unfold State.goodFrame
  dsimp only
  with_reducible refine ite_keeps ?_ ?_
  · with_reducible apply State.macControlRx_keeps
    with_reducible refine ite_keeps ?_ ?_
    · with_reducible apply State.ringMark_keeps
      with_reducible assumption
    · with_reducible assumption
  · split
    · with_reducible refine ite_keeps ?_ ?_
      · with_reducible apply State.ringMark_keeps
        with_reducible assumption
      · with_reducible assumption
    · with_reducible refine ite_keeps ?_ ?_
      · with_reducible apply State.rxDiscard_keeps
        with_reducible apply State.noCellEnd_keeps
        with_reducible refine ite_keeps ?_ ?_
        · with_reducible apply State.ringMark_keeps
          with_reducible assumption
        · with_reducible assumption
      · with_reducible apply State.updPkt_keeps
        with_reducible apply State.deliver_keeps
        with_reducible apply State.trimQueues_keeps
        with_reducible refine ite_keeps ?_ ?_
        · with_reducible apply State.ringMark_keeps
          with_reducible assumption
        · with_reducible assumption

theorem State.frameEnd_keeps {s0 : State} (s : State) (p : Nat) (f : List Byte) (hk : Keeps s0 s) :
    Keeps s0 (State.frameEnd s p f) := by
  unfold State.frameEnd
  dsimp only
  with_reducible refine ite_keeps ?_ ?_
  · with_reducible apply State.endBad_keeps
    with_reducible apply State.bump_keeps
    with_reducible assumption
  · with_reducible refine ite_keeps ?_ ?_
    · with_reducible refine ite_keeps ?_ ?_
      · with_reducible apply State.rxDiscard_keeps
        with_reducible apply State.endBad_keeps
        with_reducible apply State.bump_keeps
        with_reducible assumption
      · with_reducible apply State.endBad_keeps
        with_reducible apply State.bump_keeps
        with_reducible assumption
    · with_reducible refine ite_keeps ?_ ?_
      · with_reducible refine ite_keeps ?_ ?_
        · with_reducible apply State.rxDiscard_keeps
          with_reducible apply State.endBad_keeps
          with_reducible apply State.bump_keeps
          with_reducible assumption
        · with_reducible apply State.endBad_keeps
          with_reducible apply State.bump_keeps
          with_reducible assumption
      · with_reducible apply State.goodFrame_keeps
        with_reducible assumption

theorem State.frameRx_keeps {s0 : State} (s : State) (p : Nat) (f : List Byte) (hk : Keeps s0 s) :
    Keeps s0 (State.frameRx s p f) := by
  unfold State.frameRx
  dsimp only
  with_reducible apply State.setPort_keeps
  with_reducible refine ite_keeps ?_ ?_
  · with_reducible refine ite_keeps ?_ ?_
    · with_reducible apply State.bump_keeps
      with_reducible refine ite_keeps ?_ ?_
      · with_reducible apply State.cvuTapRest_keeps
        with_reducible assumption
      · with_reducible apply State.cvuTapFrame_keeps
        with_reducible assumption
    · with_reducible apply State.rxDiscard_keeps
      with_reducible apply State.bump_keeps
      with_reducible refine ite_keeps ?_ ?_
      · with_reducible apply State.cvuTapRest_keeps
        with_reducible assumption
      · with_reducible apply State.cvuTapFrame_keeps
        with_reducible assumption
  · with_reducible apply State.frameEnd_keeps
    with_reducible refine ite_keeps ?_ ?_
    · with_reducible apply State.classifyHead_keeps
      with_reducible refine ite_keeps ?_ ?_
      · with_reducible apply State.cvuTapRest_keeps
        with_reducible assumption
      · with_reducible apply State.cvuTapFrame_keeps
        with_reducible assumption
    · with_reducible refine ite_keeps ?_ ?_
      · with_reducible apply State.cvuTapRest_keeps
        with_reducible assumption
      · with_reducible apply State.cvuTapFrame_keeps
        with_reducible assumption

theorem execFrameReceived_keeps {s0 : State} (at_ : Vt) (port : Fin 6) (frame : List Byte) (s : State) (hk : Keeps s0 s) :
    OKeeps s0 (execFrameReceived at_ port frame s) := by
  unfold execFrameReceived
  extract_lets +onlyGivenNames x1
  have h1 : Keeps s0 x1 := by
    unfold x1
    with_reducible apply State.elapseTo_keeps
    with_reducible assumption
  clear_value x1
  with_reducible refine next_okeeps ?_
  with_reducible refine ite_keeps ?_ ?_
  · with_reducible apply State.frameRx_keeps
    with_reducible assumption
  · with_reducible assumption

theorem execPixelPacket_keeps {s0 : State} (at_ : Vt) (when_ : BitVec 64) (frame : Word) (payload : List Byte) (s : State) (hk : Keeps s0 s) :
    OKeeps s0 (execPixelPacket at_ when_ frame payload s) := by
  unfold execPixelPacket
  extract_lets +onlyGivenNames x1
  have h1 : Keeps s0 x1 := by
    unfold x1
    with_reducible apply State.elapseTo_keeps
    with_reducible assumption
  clear_value x1
  with_reducible refine next_okeeps ?_
  with_reducible refine ite_keeps ?_ ?_
  · with_reducible apply State.pixelPacket_keeps
    with_reducible assumption
  · with_reducible assumption

end Sys2Proof.Machine
end

