-- ==== Sys2Proof/Laws/KeepsPoll.lean ====
section
/-! SUPPORT. The operations of Poll.lean keep the queue and the canonical forms. -/
namespace Sys2Proof.Machine

theorem State.pollHeard_keeps {s0 : State} (s : State) (hk : Keeps s0 s) :
    Keeps s0 (State.pollHeard s) := by
  unfold State.pollHeard
  with_reducible refine keeps_mk_of (keeps_parts ?_)
  with_reducible assumption

theorem State.pollSend_keeps {s0 : State} (s : State) (f : List Byte) (hk : Keeps s0 s) :
    Keeps s0 (State.pollSend s f) := by
  unfold State.pollSend
  with_reducible refine keeps_mk_of (keeps_parts ?_)
  with_reducible assumption

theorem State.pollAnswer_keeps {s0 : State} (s : State) (f : List Byte) (hk : Keeps s0 s) :
    Keeps s0 (State.pollAnswer s f) := by
  unfold State.pollAnswer
  extract_lets +onlyGivenNames x1
  have h1 : Keeps s0 x1 := by
    unfold x1
    with_reducible apply State.pollSend_keeps
    with_reducible assumption
  clear_value x1
  with_reducible refine keeps_mk_of (keeps_parts ?_)
  with_reducible assumption

theorem State.pollEventsGone_keeps {s0 : State} (s : State) (hk : Keeps s0 s) :
    Keeps s0 (State.pollEventsGone s) := by
  unfold State.pollEventsGone
  with_reducible refine keeps_mk_of (keeps_parts ?_)
  with_reducible assumption

theorem State.pollChoose_keeps {s0 : State} (s : State) (seq : Nat) (hk : Keeps s0 s) :
    Keeps s0 (State.pollChoose s seq) := by
  unfold State.pollChoose
  dsimp only
  split
  · with_reducible apply State.runAfter_keeps
    with_reducible apply State.pollAnswer_keeps
    with_reducible refine keeps_mk_of (keeps_parts ?_)
    with_reducible assumption
  · with_reducible refine ite_keeps ?_ ?_
    · with_reducible apply State.pollAnswer_keeps
      with_reducible apply State.pollEventsGone_keeps
      with_reducible assumption
    · with_reducible apply State.pollAnswer_keeps
      with_reducible assumption

theorem State.pollRx_keeps {s0 : State} (s : State) (seq : Nat) (hk : Keeps s0 s) :
    Keeps s0 (State.pollRx s seq) := by
  unfold State.pollRx
  dsimp only
  split
  · with_reducible apply State.pollAnswer_keeps
    with_reducible refine keeps_mk_of (keeps_parts ?_)
    with_reducible assumption
  · with_reducible apply State.pollAnswer_keeps
    with_reducible refine keeps_mk_of (keeps_parts ?_)
    with_reducible assumption
  · with_reducible apply State.pollChoose_keeps
    with_reducible refine keeps_mk_of (keeps_parts ?_)
    with_reducible assumption

theorem execPoll_keeps {s0 : State} (at_ : Vt) (addr : BitVec 16) (seq : BitVec 8) (s : State) (hk : Keeps s0 s) :
    OKeeps s0 (execPoll at_ addr seq s) := by
  unfold execPoll
  extract_lets +onlyGivenNames x1
  have h1 : Keeps s0 x1 := by
    unfold x1
    with_reducible apply State.elapseTo_keeps
    with_reducible assumption
  clear_value x1
  with_reducible refine next_okeeps ?_
  with_reducible refine ite_keeps ?_ ?_
  · with_reducible assumption
  · with_reducible refine ite_keeps ?_ ?_
    · with_reducible apply State.pollRx_keeps
      with_reducible apply State.pollHeard_keeps
      with_reducible assumption
    · with_reducible apply State.pollHeard_keeps
      with_reducible assumption

theorem State.pollCommand_keeps {s0 : State} (s : State) (seq : Nat) (b : List Byte) (broadcast : Bool) (hk : Keeps s0 s) :
    Keeps s0 (State.pollCommand s seq b broadcast) := by
  unfold State.pollCommand
  with_reducible refine ite_keeps ?_ ?_
  · with_reducible assumption
  · extract_lets +onlyGivenNames x1
    clear_value x1
    extract_lets +onlyGivenNames x2
    have h2 : Keeps s0 x2 := by
      unfold x2
      with_reducible refine keeps_mk_of (keeps_parts ?_)
      with_reducible assumption
    refine ite_keeps ?_ ?_
    · with_reducible assumption
    · with_reducible refine ite_keeps ?_ ?_
      · with_reducible apply State.postReply_keeps
        with_reducible assumption
      · with_reducible refine ite_keeps ?_ ?_
        · with_reducible apply State.bump_keeps
          with_reducible assumption
        · with_reducible refine keeps_mk_of (keeps_parts ?_)
          with_reducible assumption

theorem execPollBusCommand_keeps {s0 : State} (at_ : Vt) (addr : BitVec 16) (seq : BitVec 8) (payload : List Byte) (s : State) (hk : Keeps s0 s) :
    OKeeps s0 (execPollBusCommand at_ addr seq payload s) := by
  unfold execPollBusCommand
  extract_lets +onlyGivenNames x1
  have h1 : Keeps s0 x1 := by
    unfold x1
    with_reducible apply State.elapseTo_keeps
    with_reducible assumption
  clear_value x1
  with_reducible refine next_okeeps ?_
  with_reducible refine ite_keeps ?_ ?_
  · with_reducible assumption
  · with_reducible refine ite_keeps ?_ ?_
    · with_reducible apply State.pollCommand_keeps
      with_reducible apply State.pollHeard_keeps
      with_reducible assumption
    · with_reducible apply State.pollHeard_keeps
      with_reducible assumption

theorem execToken_keeps {s0 : State} (at_ : Vt) (addr : BitVec 16) (seq : BitVec 8) (hold : BitVec 16) (s : State) (hk : Keeps s0 s) :
    OKeeps s0 (execToken at_ addr seq hold s) := by
  unfold execToken
  dsimp only
  with_reducible refine next_okeeps ?_
  with_reducible refine ite_keeps ?_ ?_
  · with_reducible apply State.elapseTo_keeps
    with_reducible assumption
  · with_reducible refine ite_keeps ?_ ?_
    · with_reducible refine ite_keeps ?_ ?_
      · with_reducible refine keeps_mk_of (keeps_parts ?_)
        with_reducible apply State.wrB_keeps
        with_reducible apply State.pollHeard_keeps
        with_reducible apply State.elapseTo_keeps
        with_reducible assumption
      · with_reducible apply State.pollSend_keeps
        with_reducible apply State.pollEventsGone_keeps
        with_reducible refine keeps_mk_of (keeps_parts ?_)
        with_reducible apply State.wrB_keeps
        with_reducible apply State.pollHeard_keeps
        with_reducible apply State.elapseTo_keeps
        with_reducible assumption
    · with_reducible apply State.pollHeard_keeps
      with_reducible apply State.elapseTo_keeps
      with_reducible assumption

theorem execTokenLapse_keeps {s0 : State} (at_ : Vt) (s : State) (hk : Keeps s0 s) :
    OKeeps s0 (execTokenLapse at_ s) := by
  unfold execTokenLapse
  extract_lets +onlyGivenNames x1
  have h1 : Keeps s0 x1 := by
    unfold x1
    with_reducible apply State.elapseTo_keeps
    with_reducible assumption
  clear_value x1
  with_reducible refine next_okeeps ?_
  with_reducible refine ite_keeps ?_ ?_
  · with_reducible apply State.wr_keeps
    with_reducible assumption
  · with_reducible assumption

theorem State.pollIdent_keeps {s0 : State} (s : State) (seq : Nat) (hk : Keeps s0 s) :
    Keeps s0 (State.pollIdent s seq) := by
  unfold State.pollIdent
  dsimp only
  with_reducible refine keeps_mk_of (keeps_parts ?_)
  with_reducible apply State.pollSend_keeps
  with_reducible assumption

theorem execDiscover_keeps {s0 : State} (at_ : Vt) (seq : BitVec 8) (len : BitVec 8) (pre : BitVec 64) (s : State) (hk : Keeps s0 s) :
    OKeeps s0 (execDiscover at_ seq len pre s) := by
  unfold execDiscover
  extract_lets +onlyGivenNames x1
  have h1 : Keeps s0 x1 := by
    unfold x1
    with_reducible apply State.elapseTo_keeps
    with_reducible assumption
  clear_value x1
  extract_lets +onlyGivenNames x2
  clear_value x2
  with_reducible refine next_okeeps ?_
  with_reducible refine ite_keeps ?_ ?_
  · with_reducible assumption
  · with_reducible refine ite_keeps ?_ ?_
    · extract_lets +onlyGivenNames x3
      have h3 : Keeps s0 x3 := by
        unfold x3
        with_reducible apply State.pollIdent_keeps
        with_reducible apply State.pollHeard_keeps
        with_reducible assumption
      clear_value x3
      with_reducible refine keeps_mk_of (keeps_parts ?_)
      with_reducible assumption
    · with_reducible apply State.pollHeard_keeps
      with_reducible assumption

theorem execAssign_keeps {s0 : State} (at_ : Vt) (seq : BitVec 8) (ident : BitVec 64) (node : BitVec 16) (s : State) (hk : Keeps s0 s) :
    OKeeps s0 (execAssign at_ seq ident node s) := by
  unfold execAssign
  dsimp only
  with_reducible refine next_okeeps ?_
  with_reducible refine ite_keeps ?_ ?_
  · with_reducible apply State.elapseTo_keeps
    with_reducible assumption
  · with_reducible refine ite_keeps ?_ ?_
    · with_reducible apply State.pollIdent_keeps
      with_reducible refine ite_keeps ?_ ?_
      · with_reducible apply State.hwWr_keeps
        with_reducible refine keeps_mk_of (keeps_parts ?_)
        with_reducible apply State.pollHeard_keeps
        with_reducible apply State.elapseTo_keeps
        with_reducible assumption
      · with_reducible refine keeps_mk_of (keeps_parts ?_)
        with_reducible apply State.pollHeard_keeps
        with_reducible apply State.elapseTo_keeps
        with_reducible assumption
    · with_reducible apply State.pollHeard_keeps
      with_reducible apply State.elapseTo_keeps
      with_reducible assumption

theorem execPollBusFrameError_keeps {s0 : State} (crc : Bool) (s : State) (hk : Keeps s0 s) :
    OKeeps s0 (execPollBusFrameError crc s) := by
  unfold execPollBusFrameError
  with_reducible refine next_okeeps ?_
  with_reducible refine ite_keeps ?_ ?_
  · with_reducible assumption
  · extract_lets +onlyGivenNames x1
    clear_value x1
    extract_lets +onlyGivenNames x2
    clear_value x2
    extract_lets +onlyGivenNames x3
    have h3 : Keeps s0 x3 := by
      unfold x3
      with_reducible refine keeps_mk_of (keeps_parts ?_)
      with_reducible assumption
    clear_value x3
    extract_lets +onlyGivenNames x4
    have h4 : Keeps s0 x4 := by
      unfold x4
      with_reducible apply State.bump_keeps
      with_reducible assumption
    clear_value x4
    with_reducible refine ite_keeps ?_ ?_
    · with_reducible apply State.raise_keeps
      with_reducible assumption
    · with_reducible assumption

theorem execCollision_keeps {s0 : State} (at_ : Vt) (s : State) (hk : Keeps s0 s) :
    OKeeps s0 (execCollision at_ s) := by
  unfold execCollision
  dsimp only
  with_reducible refine next_okeeps ?_
  with_reducible refine ite_keeps ?_ ?_
  · with_reducible apply State.raise_keeps
    with_reducible apply State.bump_keeps
    with_reducible refine keeps_mk_of (keeps_parts ?_)
    with_reducible apply State.elapseTo_keeps
    with_reducible assumption
  · with_reducible apply State.elapseTo_keeps
    with_reducible assumption

end Sys2Proof.Machine
end

