-- ==== Sys2Proof/Laws/KeepsExpiry.lean ====
section
/-! SUPPORT. The operations of Expiry.lean keep the queue and the canonical forms. -/
namespace Sys2Proof.Machine

theorem execWatchdogExpiry_keeps {s0 : State} (at_ : Vt) (bootsel : BitVec 2) (s : State) (hk : Keeps s0 s) :
    OKeeps s0 (execWatchdogExpiry at_ bootsel s) := by
  unfold execWatchdogExpiry
  dsimp only
  with_reducible refine next_okeeps ?_
  with_reducible refine ite_keeps ?_ ?_
  · with_reducible apply State.elapseTo_keeps
    with_reducible assumption
  · with_reducible apply State.expire_keeps
    with_reducible apply State.elapseTo_keeps
    with_reducible assumption

end Sys2Proof.Machine
end

