-- ==== Sys2Proof/Laws/KeepsTick.lean ====
section
/-! SUPPORT. The operations of Tick.lean keep the queue and the canonical forms. -/
namespace Sys2Proof.Machine

theorem State.tickTime_keeps {s0 : State} (s : State) (hk : Keeps s0 s) :
    Keeps s0 (State.tickTime s) := by
  unfold State.tickTime
  dsimp only
  with_reducible refine ite_keeps ?_ ?_
  · with_reducible apply State.setVt_keeps
    with_reducible refine keeps_mk_of (keeps_parts ?_)
    with_reducible assumption
  · with_reducible refine keeps_mk_of (keeps_parts ?_)
    with_reducible assumption

theorem State.tickPawns_keeps {s0 : State} (s : State) (hk : Keeps s0 s) :
    Keeps s0 (State.tickPawns s) := by
  unfold State.tickPawns
  with_reducible refine keeps_mk_of (keeps_parts ?_)
  with_reducible assumption

theorem State.tickFloor_keeps {s0 : State} (s : State) (t : Nat) (hk : Keeps s0 s) :
    Keeps s0 (State.tickFloor s t) := by
  unfold State.tickFloor
  with_reducible refine keeps_mk_of (keeps_parts ?_)
  with_reducible assumption

theorem State.tickServe_keeps {s0 : State} (s : State) (hk : Keeps s0 s) :
    Keeps s0 (State.tickServe s) := by
  unfold State.tickServe
  dsimp only
  with_reducible refine ite_keeps ?_ ?_
  · with_reducible apply State.mboxServe_keeps
    with_reducible apply State.unpark_keeps
    with_reducible assumption
  · with_reducible apply State.pollServe_keeps
    with_reducible apply State.unpark_keeps
    with_reducible assumption

theorem State.tickSup_keeps {s0 : State} (s : State) (hk : Keeps s0 s) :
    Keeps s0 (State.tickSup s) := by
  unfold State.tickSup
  with_reducible refine ite_keeps ?_ ?_
  · with_reducible apply State.pinLapse_keeps
    with_reducible apply State.swTripAll_keeps
    with_reducible assumption
  · with_reducible assumption

theorem State.idleTick_keeps {s0 : State} (s : State) (hk : Keeps s0 s) :
    Keeps s0 (State.idleTick s) := by
  unfold State.idleTick
  with_reducible apply State.tickServe_keeps
  with_reducible apply State.tickSup_keeps
  with_reducible apply State.newCycle_keeps
  with_reducible apply State.tickFloor_keeps
  with_reducible apply State.tickPawns_keeps
  with_reducible apply State.tickTime_keeps
  with_reducible assumption

end Sys2Proof.Machine
end

