-- ==== Sys2Proof/Laws/State.lean ====
section
/-! SUPPORT. What each basic update leaves of each field of the state; every proof cites these and unfolds no update. -/
namespace Sys2Proof.Machine

@[simp] theorem State.setReg_pending (s : State) (a : Nat) (w : Word) : (s.setReg a w).pending = s.pending := rfl
@[simp] theorem State.setReg_shadow (s : State) (a : Nat) (w : Word) : (s.setReg a w).shadow = s.shadow := rfl
@[simp] theorem State.setReg_fcm (s : State) (a : Nat) (w : Word) : (s.setReg a w).fcm = s.fcm := rfl
@[simp] theorem State.setReg_free (s : State) (a : Nat) (w : Word) : (s.setReg a w).free = s.free := rfl
@[simp] theorem State.setReg_time (s : State) (a : Nat) (w : Word) : (s.setReg a w).time = s.time := rfl
@[simp] theorem State.setReg_moves (s : State) (a : Nat) (w : Word) : (s.setReg a w).moves = s.moves := rfl
@[simp] theorem State.setReg_gens (s : State) (a : Nat) (w : Word) : (s.setReg a w).gens = s.gens := rfl
@[simp] theorem State.setReg_pipe (s : State) (a : Nat) (w : Word) : (s.setReg a w).pipe = s.pipe := rfl
@[simp] theorem State.setReg_scan (s : State) (a : Nat) (w : Word) : (s.setReg a w).scan = s.scan := rfl
@[simp] theorem State.setReg_motif (s : State) (a : Nat) (w : Word) : (s.setReg a w).motif = s.motif := rfl
@[simp] theorem State.setReg_fallback (s : State) (a : Nat) (w : Word) : (s.setReg a w).fallback = s.fallback := rfl
@[simp] theorem State.setReg_badWords (s : State) (a : Nat) (w : Word) : (s.setReg a w).badWords = s.badWords := rfl
@[simp] theorem State.setReg_sink (s : State) (a : Nat) (w : Word) : (s.setReg a w).sink = s.sink := rfl
@[simp] theorem State.setReg_census (s : State) (a : Nat) (w : Word) : (s.setReg a w).census = s.census := rfl
@[simp] theorem State.setReg_cvu (s : State) (a : Nat) (w : Word) : (s.setReg a w).cvu = s.cvu := rfl
@[simp] theorem State.setReg_pawns (s : State) (a : Nat) (w : Word) : (s.setReg a w).pawns = s.pawns := rfl
@[simp] theorem State.setReg_spwm (s : State) (a : Nat) (w : Word) : (s.setReg a w).spwm = s.spwm := rfl
@[simp] theorem State.setReg_mir (s : State) (a : Nat) (w : Word) : (s.setReg a w).mir = s.mir := rfl
@[simp] theorem State.setReg_net (s : State) (a : Nat) (w : Word) : (s.setReg a w).net = s.net := rfl
@[simp] theorem State.setReg_poll (s : State) (a : Nat) (w : Word) : (s.setReg a w).poll = s.poll := rfl
@[simp] theorem State.setReg_klp (s : State) (a : Nat) (w : Word) : (s.setReg a w).klp = s.klp := rfl
@[simp] theorem State.setReg_cmd (s : State) (a : Nat) (w : Word) : (s.setReg a w).cmd = s.cmd := rfl
@[simp] theorem State.setReg_store (s : State) (a : Nat) (w : Word) : (s.setReg a w).store = s.store := rfl
@[simp] theorem State.setReg_pwr (s : State) (a : Nat) (w : Word) : (s.setReg a w).pwr = s.pwr := rfl
@[simp] theorem State.setReg_rook (s : State) (a : Nat) (w : Word) : (s.setReg a w).rook = s.rook := rfl
@[simp] theorem State.setReg_cycle (s : State) (a : Nat) (w : Word) : (s.setReg a w).cycle = s.cycle := rfl
@[simp] theorem State.setShReg_pending (s : State) (a : Nat) (w : Word) : (s.setShReg a w).pending = s.pending := rfl
@[simp] theorem State.setShReg_regs (s : State) (a : Nat) (w : Word) : (s.setShReg a w).regs = s.regs := rfl
@[simp] theorem State.setShReg_fcm (s : State) (a : Nat) (w : Word) : (s.setShReg a w).fcm = s.fcm := rfl
@[simp] theorem State.setShReg_free (s : State) (a : Nat) (w : Word) : (s.setShReg a w).free = s.free := rfl
@[simp] theorem State.setShReg_time (s : State) (a : Nat) (w : Word) : (s.setShReg a w).time = s.time := rfl
@[simp] theorem State.setShReg_moves (s : State) (a : Nat) (w : Word) : (s.setShReg a w).moves = s.moves := rfl
@[simp] theorem State.setShReg_gens (s : State) (a : Nat) (w : Word) : (s.setShReg a w).gens = s.gens := rfl
@[simp] theorem State.setShReg_pipe (s : State) (a : Nat) (w : Word) : (s.setShReg a w).pipe = s.pipe := rfl
@[simp] theorem State.setShReg_scan (s : State) (a : Nat) (w : Word) : (s.setShReg a w).scan = s.scan := rfl
@[simp] theorem State.setShReg_motif (s : State) (a : Nat) (w : Word) : (s.setShReg a w).motif = s.motif := rfl
@[simp] theorem State.setShReg_fallback (s : State) (a : Nat) (w : Word) : (s.setShReg a w).fallback = s.fallback := rfl
@[simp] theorem State.setShReg_badWords (s : State) (a : Nat) (w : Word) : (s.setShReg a w).badWords = s.badWords := rfl
@[simp] theorem State.setShReg_sink (s : State) (a : Nat) (w : Word) : (s.setShReg a w).sink = s.sink := rfl
@[simp] theorem State.setShReg_census (s : State) (a : Nat) (w : Word) : (s.setShReg a w).census = s.census := rfl
@[simp] theorem State.setShReg_cvu (s : State) (a : Nat) (w : Word) : (s.setShReg a w).cvu = s.cvu := rfl
@[simp] theorem State.setShReg_pawns (s : State) (a : Nat) (w : Word) : (s.setShReg a w).pawns = s.pawns := rfl
@[simp] theorem State.setShReg_spwm (s : State) (a : Nat) (w : Word) : (s.setShReg a w).spwm = s.spwm := rfl
@[simp] theorem State.setShReg_mir (s : State) (a : Nat) (w : Word) : (s.setShReg a w).mir = s.mir := rfl
@[simp] theorem State.setShReg_net (s : State) (a : Nat) (w : Word) : (s.setShReg a w).net = s.net := rfl
@[simp] theorem State.setShReg_poll (s : State) (a : Nat) (w : Word) : (s.setShReg a w).poll = s.poll := rfl
@[simp] theorem State.setShReg_klp (s : State) (a : Nat) (w : Word) : (s.setShReg a w).klp = s.klp := rfl
@[simp] theorem State.setShReg_cmd (s : State) (a : Nat) (w : Word) : (s.setShReg a w).cmd = s.cmd := rfl
@[simp] theorem State.setShReg_store (s : State) (a : Nat) (w : Word) : (s.setShReg a w).store = s.store := rfl
@[simp] theorem State.setShReg_pwr (s : State) (a : Nat) (w : Word) : (s.setShReg a w).pwr = s.pwr := rfl
@[simp] theorem State.setShReg_rook (s : State) (a : Nat) (w : Word) : (s.setShReg a w).rook = s.rook := rfl
@[simp] theorem State.setShReg_cycle (s : State) (a : Nat) (w : Word) : (s.setShReg a w).cycle = s.cycle := rfl
@[simp] theorem State.wr_pending (s : State) (f : Fld) (v : Nat) : (s.wr f v).pending = s.pending := rfl
@[simp] theorem State.wr_shadow (s : State) (f : Fld) (v : Nat) : (s.wr f v).shadow = s.shadow := rfl
@[simp] theorem State.wr_fcm (s : State) (f : Fld) (v : Nat) : (s.wr f v).fcm = s.fcm := rfl
@[simp] theorem State.wr_free (s : State) (f : Fld) (v : Nat) : (s.wr f v).free = s.free := rfl
@[simp] theorem State.wr_time (s : State) (f : Fld) (v : Nat) : (s.wr f v).time = s.time := rfl
@[simp] theorem State.wr_moves (s : State) (f : Fld) (v : Nat) : (s.wr f v).moves = s.moves := rfl
@[simp] theorem State.wr_gens (s : State) (f : Fld) (v : Nat) : (s.wr f v).gens = s.gens := rfl
@[simp] theorem State.wr_pipe (s : State) (f : Fld) (v : Nat) : (s.wr f v).pipe = s.pipe := rfl
@[simp] theorem State.wr_scan (s : State) (f : Fld) (v : Nat) : (s.wr f v).scan = s.scan := rfl
@[simp] theorem State.wr_motif (s : State) (f : Fld) (v : Nat) : (s.wr f v).motif = s.motif := rfl
@[simp] theorem State.wr_fallback (s : State) (f : Fld) (v : Nat) : (s.wr f v).fallback = s.fallback := rfl
@[simp] theorem State.wr_badWords (s : State) (f : Fld) (v : Nat) : (s.wr f v).badWords = s.badWords := rfl
@[simp] theorem State.wr_sink (s : State) (f : Fld) (v : Nat) : (s.wr f v).sink = s.sink := rfl
@[simp] theorem State.wr_census (s : State) (f : Fld) (v : Nat) : (s.wr f v).census = s.census := rfl
@[simp] theorem State.wr_cvu (s : State) (f : Fld) (v : Nat) : (s.wr f v).cvu = s.cvu := rfl
@[simp] theorem State.wr_pawns (s : State) (f : Fld) (v : Nat) : (s.wr f v).pawns = s.pawns := rfl
@[simp] theorem State.wr_spwm (s : State) (f : Fld) (v : Nat) : (s.wr f v).spwm = s.spwm := rfl
@[simp] theorem State.wr_mir (s : State) (f : Fld) (v : Nat) : (s.wr f v).mir = s.mir := rfl
@[simp] theorem State.wr_net (s : State) (f : Fld) (v : Nat) : (s.wr f v).net = s.net := rfl
@[simp] theorem State.wr_poll (s : State) (f : Fld) (v : Nat) : (s.wr f v).poll = s.poll := rfl
@[simp] theorem State.wr_klp (s : State) (f : Fld) (v : Nat) : (s.wr f v).klp = s.klp := rfl
@[simp] theorem State.wr_cmd (s : State) (f : Fld) (v : Nat) : (s.wr f v).cmd = s.cmd := rfl
@[simp] theorem State.wr_store (s : State) (f : Fld) (v : Nat) : (s.wr f v).store = s.store := rfl
@[simp] theorem State.wr_pwr (s : State) (f : Fld) (v : Nat) : (s.wr f v).pwr = s.pwr := rfl
@[simp] theorem State.wr_rook (s : State) (f : Fld) (v : Nat) : (s.wr f v).rook = s.rook := rfl
@[simp] theorem State.wr_cycle (s : State) (f : Fld) (v : Nat) : (s.wr f v).cycle = s.cycle := rfl
@[simp] theorem State.wrB_pending (s : State) (f : Fld) (b : Bool) : (s.wrB f b).pending = s.pending := rfl
@[simp] theorem State.wrB_shadow (s : State) (f : Fld) (b : Bool) : (s.wrB f b).shadow = s.shadow := rfl
@[simp] theorem State.wrB_fcm (s : State) (f : Fld) (b : Bool) : (s.wrB f b).fcm = s.fcm := rfl
@[simp] theorem State.wrB_free (s : State) (f : Fld) (b : Bool) : (s.wrB f b).free = s.free := rfl
@[simp] theorem State.wrB_time (s : State) (f : Fld) (b : Bool) : (s.wrB f b).time = s.time := rfl
@[simp] theorem State.wrB_moves (s : State) (f : Fld) (b : Bool) : (s.wrB f b).moves = s.moves := rfl
@[simp] theorem State.wrB_gens (s : State) (f : Fld) (b : Bool) : (s.wrB f b).gens = s.gens := rfl
@[simp] theorem State.wrB_pipe (s : State) (f : Fld) (b : Bool) : (s.wrB f b).pipe = s.pipe := rfl
@[simp] theorem State.wrB_scan (s : State) (f : Fld) (b : Bool) : (s.wrB f b).scan = s.scan := rfl
@[simp] theorem State.wrB_motif (s : State) (f : Fld) (b : Bool) : (s.wrB f b).motif = s.motif := rfl
@[simp] theorem State.wrB_fallback (s : State) (f : Fld) (b : Bool) : (s.wrB f b).fallback = s.fallback := rfl
@[simp] theorem State.wrB_badWords (s : State) (f : Fld) (b : Bool) : (s.wrB f b).badWords = s.badWords := rfl
@[simp] theorem State.wrB_sink (s : State) (f : Fld) (b : Bool) : (s.wrB f b).sink = s.sink := rfl
@[simp] theorem State.wrB_census (s : State) (f : Fld) (b : Bool) : (s.wrB f b).census = s.census := rfl
@[simp] theorem State.wrB_cvu (s : State) (f : Fld) (b : Bool) : (s.wrB f b).cvu = s.cvu := rfl
@[simp] theorem State.wrB_pawns (s : State) (f : Fld) (b : Bool) : (s.wrB f b).pawns = s.pawns := rfl
@[simp] theorem State.wrB_spwm (s : State) (f : Fld) (b : Bool) : (s.wrB f b).spwm = s.spwm := rfl
@[simp] theorem State.wrB_mir (s : State) (f : Fld) (b : Bool) : (s.wrB f b).mir = s.mir := rfl
@[simp] theorem State.wrB_net (s : State) (f : Fld) (b : Bool) : (s.wrB f b).net = s.net := rfl
@[simp] theorem State.wrB_poll (s : State) (f : Fld) (b : Bool) : (s.wrB f b).poll = s.poll := rfl
@[simp] theorem State.wrB_klp (s : State) (f : Fld) (b : Bool) : (s.wrB f b).klp = s.klp := rfl
@[simp] theorem State.wrB_cmd (s : State) (f : Fld) (b : Bool) : (s.wrB f b).cmd = s.cmd := rfl
@[simp] theorem State.wrB_store (s : State) (f : Fld) (b : Bool) : (s.wrB f b).store = s.store := rfl
@[simp] theorem State.wrB_pwr (s : State) (f : Fld) (b : Bool) : (s.wrB f b).pwr = s.pwr := rfl
@[simp] theorem State.wrB_rook (s : State) (f : Fld) (b : Bool) : (s.wrB f b).rook = s.rook := rfl
@[simp] theorem State.wrB_cycle (s : State) (f : Fld) (b : Bool) : (s.wrB f b).cycle = s.cycle := rfl
@[simp] theorem State.wrSh_pending (s : State) (f : Fld) (v : Nat) : (s.wrSh f v).pending = s.pending := rfl
@[simp] theorem State.wrSh_regs (s : State) (f : Fld) (v : Nat) : (s.wrSh f v).regs = s.regs := rfl
@[simp] theorem State.wrSh_fcm (s : State) (f : Fld) (v : Nat) : (s.wrSh f v).fcm = s.fcm := rfl
@[simp] theorem State.wrSh_free (s : State) (f : Fld) (v : Nat) : (s.wrSh f v).free = s.free := rfl
@[simp] theorem State.wrSh_time (s : State) (f : Fld) (v : Nat) : (s.wrSh f v).time = s.time := rfl
@[simp] theorem State.wrSh_moves (s : State) (f : Fld) (v : Nat) : (s.wrSh f v).moves = s.moves := rfl
@[simp] theorem State.wrSh_gens (s : State) (f : Fld) (v : Nat) : (s.wrSh f v).gens = s.gens := rfl
@[simp] theorem State.wrSh_pipe (s : State) (f : Fld) (v : Nat) : (s.wrSh f v).pipe = s.pipe := rfl
@[simp] theorem State.wrSh_scan (s : State) (f : Fld) (v : Nat) : (s.wrSh f v).scan = s.scan := rfl
@[simp] theorem State.wrSh_motif (s : State) (f : Fld) (v : Nat) : (s.wrSh f v).motif = s.motif := rfl
@[simp] theorem State.wrSh_fallback (s : State) (f : Fld) (v : Nat) : (s.wrSh f v).fallback = s.fallback := rfl
@[simp] theorem State.wrSh_badWords (s : State) (f : Fld) (v : Nat) : (s.wrSh f v).badWords = s.badWords := rfl
@[simp] theorem State.wrSh_sink (s : State) (f : Fld) (v : Nat) : (s.wrSh f v).sink = s.sink := rfl
@[simp] theorem State.wrSh_census (s : State) (f : Fld) (v : Nat) : (s.wrSh f v).census = s.census := rfl
@[simp] theorem State.wrSh_cvu (s : State) (f : Fld) (v : Nat) : (s.wrSh f v).cvu = s.cvu := rfl
@[simp] theorem State.wrSh_pawns (s : State) (f : Fld) (v : Nat) : (s.wrSh f v).pawns = s.pawns := rfl
@[simp] theorem State.wrSh_spwm (s : State) (f : Fld) (v : Nat) : (s.wrSh f v).spwm = s.spwm := rfl
@[simp] theorem State.wrSh_mir (s : State) (f : Fld) (v : Nat) : (s.wrSh f v).mir = s.mir := rfl
@[simp] theorem State.wrSh_net (s : State) (f : Fld) (v : Nat) : (s.wrSh f v).net = s.net := rfl
@[simp] theorem State.wrSh_poll (s : State) (f : Fld) (v : Nat) : (s.wrSh f v).poll = s.poll := rfl
@[simp] theorem State.wrSh_klp (s : State) (f : Fld) (v : Nat) : (s.wrSh f v).klp = s.klp := rfl
@[simp] theorem State.wrSh_cmd (s : State) (f : Fld) (v : Nat) : (s.wrSh f v).cmd = s.cmd := rfl
@[simp] theorem State.wrSh_store (s : State) (f : Fld) (v : Nat) : (s.wrSh f v).store = s.store := rfl
@[simp] theorem State.wrSh_pwr (s : State) (f : Fld) (v : Nat) : (s.wrSh f v).pwr = s.pwr := rfl
@[simp] theorem State.wrSh_rook (s : State) (f : Fld) (v : Nat) : (s.wrSh f v).rook = s.rook := rfl
@[simp] theorem State.wrSh_cycle (s : State) (f : Fld) (v : Nat) : (s.wrSh f v).cycle = s.cycle := rfl
@[simp] theorem State.wrBoth_pending (s : State) (f : Fld) (v : Nat) : (s.wrBoth f v).pending = s.pending := rfl
@[simp] theorem State.wrBoth_fcm (s : State) (f : Fld) (v : Nat) : (s.wrBoth f v).fcm = s.fcm := rfl
@[simp] theorem State.wrBoth_free (s : State) (f : Fld) (v : Nat) : (s.wrBoth f v).free = s.free := rfl
@[simp] theorem State.wrBoth_time (s : State) (f : Fld) (v : Nat) : (s.wrBoth f v).time = s.time := rfl
@[simp] theorem State.wrBoth_moves (s : State) (f : Fld) (v : Nat) : (s.wrBoth f v).moves = s.moves := rfl
@[simp] theorem State.wrBoth_gens (s : State) (f : Fld) (v : Nat) : (s.wrBoth f v).gens = s.gens := rfl
@[simp] theorem State.wrBoth_pipe (s : State) (f : Fld) (v : Nat) : (s.wrBoth f v).pipe = s.pipe := rfl
@[simp] theorem State.wrBoth_scan (s : State) (f : Fld) (v : Nat) : (s.wrBoth f v).scan = s.scan := rfl
@[simp] theorem State.wrBoth_motif (s : State) (f : Fld) (v : Nat) : (s.wrBoth f v).motif = s.motif := rfl
@[simp] theorem State.wrBoth_fallback (s : State) (f : Fld) (v : Nat) : (s.wrBoth f v).fallback = s.fallback := rfl
@[simp] theorem State.wrBoth_badWords (s : State) (f : Fld) (v : Nat) : (s.wrBoth f v).badWords = s.badWords := rfl
@[simp] theorem State.wrBoth_sink (s : State) (f : Fld) (v : Nat) : (s.wrBoth f v).sink = s.sink := rfl
@[simp] theorem State.wrBoth_census (s : State) (f : Fld) (v : Nat) : (s.wrBoth f v).census = s.census := rfl
@[simp] theorem State.wrBoth_cvu (s : State) (f : Fld) (v : Nat) : (s.wrBoth f v).cvu = s.cvu := rfl
@[simp] theorem State.wrBoth_pawns (s : State) (f : Fld) (v : Nat) : (s.wrBoth f v).pawns = s.pawns := rfl
@[simp] theorem State.wrBoth_spwm (s : State) (f : Fld) (v : Nat) : (s.wrBoth f v).spwm = s.spwm := rfl
@[simp] theorem State.wrBoth_mir (s : State) (f : Fld) (v : Nat) : (s.wrBoth f v).mir = s.mir := rfl
@[simp] theorem State.wrBoth_net (s : State) (f : Fld) (v : Nat) : (s.wrBoth f v).net = s.net := rfl
@[simp] theorem State.wrBoth_poll (s : State) (f : Fld) (v : Nat) : (s.wrBoth f v).poll = s.poll := rfl
@[simp] theorem State.wrBoth_klp (s : State) (f : Fld) (v : Nat) : (s.wrBoth f v).klp = s.klp := rfl
@[simp] theorem State.wrBoth_cmd (s : State) (f : Fld) (v : Nat) : (s.wrBoth f v).cmd = s.cmd := rfl
@[simp] theorem State.wrBoth_store (s : State) (f : Fld) (v : Nat) : (s.wrBoth f v).store = s.store := rfl
@[simp] theorem State.wrBoth_pwr (s : State) (f : Fld) (v : Nat) : (s.wrBoth f v).pwr = s.pwr := rfl
@[simp] theorem State.wrBoth_rook (s : State) (f : Fld) (v : Nat) : (s.wrBoth f v).rook = s.rook := rfl
@[simp] theorem State.wrBoth_cycle (s : State) (f : Fld) (v : Nat) : (s.wrBoth f v).cycle = s.cycle := rfl
@[simp] theorem State.bumpBy_pending (s : State) (f : Fld) (n : Nat) : (s.bumpBy f n).pending = s.pending := rfl
@[simp] theorem State.bumpBy_shadow (s : State) (f : Fld) (n : Nat) : (s.bumpBy f n).shadow = s.shadow := rfl
@[simp] theorem State.bumpBy_fcm (s : State) (f : Fld) (n : Nat) : (s.bumpBy f n).fcm = s.fcm := rfl
@[simp] theorem State.bumpBy_free (s : State) (f : Fld) (n : Nat) : (s.bumpBy f n).free = s.free := rfl
@[simp] theorem State.bumpBy_time (s : State) (f : Fld) (n : Nat) : (s.bumpBy f n).time = s.time := rfl
@[simp] theorem State.bumpBy_moves (s : State) (f : Fld) (n : Nat) : (s.bumpBy f n).moves = s.moves := rfl
@[simp] theorem State.bumpBy_gens (s : State) (f : Fld) (n : Nat) : (s.bumpBy f n).gens = s.gens := rfl
@[simp] theorem State.bumpBy_pipe (s : State) (f : Fld) (n : Nat) : (s.bumpBy f n).pipe = s.pipe := rfl
@[simp] theorem State.bumpBy_scan (s : State) (f : Fld) (n : Nat) : (s.bumpBy f n).scan = s.scan := rfl
@[simp] theorem State.bumpBy_motif (s : State) (f : Fld) (n : Nat) : (s.bumpBy f n).motif = s.motif := rfl
@[simp] theorem State.bumpBy_fallback (s : State) (f : Fld) (n : Nat) : (s.bumpBy f n).fallback = s.fallback := rfl
@[simp] theorem State.bumpBy_badWords (s : State) (f : Fld) (n : Nat) : (s.bumpBy f n).badWords = s.badWords := rfl
@[simp] theorem State.bumpBy_sink (s : State) (f : Fld) (n : Nat) : (s.bumpBy f n).sink = s.sink := rfl
@[simp] theorem State.bumpBy_census (s : State) (f : Fld) (n : Nat) : (s.bumpBy f n).census = s.census := rfl
@[simp] theorem State.bumpBy_cvu (s : State) (f : Fld) (n : Nat) : (s.bumpBy f n).cvu = s.cvu := rfl
@[simp] theorem State.bumpBy_pawns (s : State) (f : Fld) (n : Nat) : (s.bumpBy f n).pawns = s.pawns := rfl
@[simp] theorem State.bumpBy_spwm (s : State) (f : Fld) (n : Nat) : (s.bumpBy f n).spwm = s.spwm := rfl
@[simp] theorem State.bumpBy_mir (s : State) (f : Fld) (n : Nat) : (s.bumpBy f n).mir = s.mir := rfl
@[simp] theorem State.bumpBy_net (s : State) (f : Fld) (n : Nat) : (s.bumpBy f n).net = s.net := rfl
@[simp] theorem State.bumpBy_poll (s : State) (f : Fld) (n : Nat) : (s.bumpBy f n).poll = s.poll := rfl
@[simp] theorem State.bumpBy_klp (s : State) (f : Fld) (n : Nat) : (s.bumpBy f n).klp = s.klp := rfl
@[simp] theorem State.bumpBy_cmd (s : State) (f : Fld) (n : Nat) : (s.bumpBy f n).cmd = s.cmd := rfl
@[simp] theorem State.bumpBy_store (s : State) (f : Fld) (n : Nat) : (s.bumpBy f n).store = s.store := rfl
@[simp] theorem State.bumpBy_pwr (s : State) (f : Fld) (n : Nat) : (s.bumpBy f n).pwr = s.pwr := rfl
@[simp] theorem State.bumpBy_rook (s : State) (f : Fld) (n : Nat) : (s.bumpBy f n).rook = s.rook := rfl
@[simp] theorem State.bump_pending (s : State) (f : Fld) : (s.bump f).pending = s.pending := rfl
@[simp] theorem State.bump_shadow (s : State) (f : Fld) : (s.bump f).shadow = s.shadow := rfl
@[simp] theorem State.bump_fcm (s : State) (f : Fld) : (s.bump f).fcm = s.fcm := rfl
@[simp] theorem State.bump_free (s : State) (f : Fld) : (s.bump f).free = s.free := rfl
@[simp] theorem State.bump_time (s : State) (f : Fld) : (s.bump f).time = s.time := rfl
@[simp] theorem State.bump_moves (s : State) (f : Fld) : (s.bump f).moves = s.moves := rfl
@[simp] theorem State.bump_gens (s : State) (f : Fld) : (s.bump f).gens = s.gens := rfl
@[simp] theorem State.bump_pipe (s : State) (f : Fld) : (s.bump f).pipe = s.pipe := rfl
@[simp] theorem State.bump_scan (s : State) (f : Fld) : (s.bump f).scan = s.scan := rfl
@[simp] theorem State.bump_motif (s : State) (f : Fld) : (s.bump f).motif = s.motif := rfl
@[simp] theorem State.bump_fallback (s : State) (f : Fld) : (s.bump f).fallback = s.fallback := rfl
@[simp] theorem State.bump_badWords (s : State) (f : Fld) : (s.bump f).badWords = s.badWords := rfl
@[simp] theorem State.bump_sink (s : State) (f : Fld) : (s.bump f).sink = s.sink := rfl
@[simp] theorem State.bump_census (s : State) (f : Fld) : (s.bump f).census = s.census := rfl
@[simp] theorem State.bump_cvu (s : State) (f : Fld) : (s.bump f).cvu = s.cvu := rfl
@[simp] theorem State.bump_pawns (s : State) (f : Fld) : (s.bump f).pawns = s.pawns := rfl
@[simp] theorem State.bump_spwm (s : State) (f : Fld) : (s.bump f).spwm = s.spwm := rfl
@[simp] theorem State.bump_mir (s : State) (f : Fld) : (s.bump f).mir = s.mir := rfl
@[simp] theorem State.bump_net (s : State) (f : Fld) : (s.bump f).net = s.net := rfl
@[simp] theorem State.bump_poll (s : State) (f : Fld) : (s.bump f).poll = s.poll := rfl
@[simp] theorem State.bump_klp (s : State) (f : Fld) : (s.bump f).klp = s.klp := rfl
@[simp] theorem State.bump_cmd (s : State) (f : Fld) : (s.bump f).cmd = s.cmd := rfl
@[simp] theorem State.bump_store (s : State) (f : Fld) : (s.bump f).store = s.store := rfl
@[simp] theorem State.bump_pwr (s : State) (f : Fld) : (s.bump f).pwr = s.pwr := rfl
@[simp] theorem State.bump_rook (s : State) (f : Fld) : (s.bump f).rook = s.rook := rfl
@[simp] theorem State.setVt_pending (s : State) (t : Nat) : (s.setVt t).pending = s.pending := rfl
@[simp] theorem State.setVt_regs (s : State) (t : Nat) : (s.setVt t).regs = s.regs := rfl
@[simp] theorem State.setVt_shadow (s : State) (t : Nat) : (s.setVt t).shadow = s.shadow := rfl
@[simp] theorem State.setVt_fcm (s : State) (t : Nat) : (s.setVt t).fcm = s.fcm := rfl
@[simp] theorem State.setVt_free (s : State) (t : Nat) : (s.setVt t).free = s.free := rfl
@[simp] theorem State.setVt_moves (s : State) (t : Nat) : (s.setVt t).moves = s.moves := rfl
@[simp] theorem State.setVt_gens (s : State) (t : Nat) : (s.setVt t).gens = s.gens := rfl
@[simp] theorem State.setVt_pipe (s : State) (t : Nat) : (s.setVt t).pipe = s.pipe := rfl
@[simp] theorem State.setVt_scan (s : State) (t : Nat) : (s.setVt t).scan = s.scan := rfl
@[simp] theorem State.setVt_motif (s : State) (t : Nat) : (s.setVt t).motif = s.motif := rfl
@[simp] theorem State.setVt_fallback (s : State) (t : Nat) : (s.setVt t).fallback = s.fallback := rfl
@[simp] theorem State.setVt_badWords (s : State) (t : Nat) : (s.setVt t).badWords = s.badWords := rfl
@[simp] theorem State.setVt_sink (s : State) (t : Nat) : (s.setVt t).sink = s.sink := rfl
@[simp] theorem State.setVt_census (s : State) (t : Nat) : (s.setVt t).census = s.census := rfl
@[simp] theorem State.setVt_cvu (s : State) (t : Nat) : (s.setVt t).cvu = s.cvu := rfl
@[simp] theorem State.setVt_pawns (s : State) (t : Nat) : (s.setVt t).pawns = s.pawns := rfl
@[simp] theorem State.setVt_spwm (s : State) (t : Nat) : (s.setVt t).spwm = s.spwm := rfl
@[simp] theorem State.setVt_mir (s : State) (t : Nat) : (s.setVt t).mir = s.mir := rfl
@[simp] theorem State.setVt_net (s : State) (t : Nat) : (s.setVt t).net = s.net := rfl
@[simp] theorem State.setVt_poll (s : State) (t : Nat) : (s.setVt t).poll = s.poll := rfl
@[simp] theorem State.setVt_klp (s : State) (t : Nat) : (s.setVt t).klp = s.klp := rfl
@[simp] theorem State.setVt_cmd (s : State) (t : Nat) : (s.setVt t).cmd = s.cmd := rfl
@[simp] theorem State.setVt_store (s : State) (t : Nat) : (s.setVt t).store = s.store := rfl
@[simp] theorem State.setVt_pwr (s : State) (t : Nat) : (s.setVt t).pwr = s.pwr := rfl
@[simp] theorem State.setVt_rook (s : State) (t : Nat) : (s.setVt t).rook = s.rook := rfl
@[simp] theorem State.setVt_cycle (s : State) (t : Nat) : (s.setVt t).cycle = s.cycle := rfl
@[simp] theorem State.setFcmByte_pending (s : State) (o : Nat) (b : Byte) : (s.setFcmByte o b).pending = s.pending := rfl
@[simp] theorem State.setFcmByte_regs (s : State) (o : Nat) (b : Byte) : (s.setFcmByte o b).regs = s.regs := rfl
@[simp] theorem State.setFcmByte_shadow (s : State) (o : Nat) (b : Byte) : (s.setFcmByte o b).shadow = s.shadow := rfl
@[simp] theorem State.setFcmByte_free (s : State) (o : Nat) (b : Byte) : (s.setFcmByte o b).free = s.free := rfl
@[simp] theorem State.setFcmByte_time (s : State) (o : Nat) (b : Byte) : (s.setFcmByte o b).time = s.time := rfl
@[simp] theorem State.setFcmByte_moves (s : State) (o : Nat) (b : Byte) : (s.setFcmByte o b).moves = s.moves := rfl
@[simp] theorem State.setFcmByte_gens (s : State) (o : Nat) (b : Byte) : (s.setFcmByte o b).gens = s.gens := rfl
@[simp] theorem State.setFcmByte_pipe (s : State) (o : Nat) (b : Byte) : (s.setFcmByte o b).pipe = s.pipe := rfl
@[simp] theorem State.setFcmByte_scan (s : State) (o : Nat) (b : Byte) : (s.setFcmByte o b).scan = s.scan := rfl
@[simp] theorem State.setFcmByte_motif (s : State) (o : Nat) (b : Byte) : (s.setFcmByte o b).motif = s.motif := rfl
@[simp] theorem State.setFcmByte_fallback (s : State) (o : Nat) (b : Byte) : (s.setFcmByte o b).fallback = s.fallback := rfl
@[simp] theorem State.setFcmByte_sink (s : State) (o : Nat) (b : Byte) : (s.setFcmByte o b).sink = s.sink := rfl
@[simp] theorem State.setFcmByte_census (s : State) (o : Nat) (b : Byte) : (s.setFcmByte o b).census = s.census := rfl
@[simp] theorem State.setFcmByte_cvu (s : State) (o : Nat) (b : Byte) : (s.setFcmByte o b).cvu = s.cvu := rfl
@[simp] theorem State.setFcmByte_pawns (s : State) (o : Nat) (b : Byte) : (s.setFcmByte o b).pawns = s.pawns := rfl
@[simp] theorem State.setFcmByte_spwm (s : State) (o : Nat) (b : Byte) : (s.setFcmByte o b).spwm = s.spwm := rfl
@[simp] theorem State.setFcmByte_mir (s : State) (o : Nat) (b : Byte) : (s.setFcmByte o b).mir = s.mir := rfl
@[simp] theorem State.setFcmByte_net (s : State) (o : Nat) (b : Byte) : (s.setFcmByte o b).net = s.net := rfl
@[simp] theorem State.setFcmByte_poll (s : State) (o : Nat) (b : Byte) : (s.setFcmByte o b).poll = s.poll := rfl
@[simp] theorem State.setFcmByte_klp (s : State) (o : Nat) (b : Byte) : (s.setFcmByte o b).klp = s.klp := rfl
@[simp] theorem State.setFcmByte_cmd (s : State) (o : Nat) (b : Byte) : (s.setFcmByte o b).cmd = s.cmd := rfl
@[simp] theorem State.setFcmByte_store (s : State) (o : Nat) (b : Byte) : (s.setFcmByte o b).store = s.store := rfl
@[simp] theorem State.setFcmByte_pwr (s : State) (o : Nat) (b : Byte) : (s.setFcmByte o b).pwr = s.pwr := rfl
@[simp] theorem State.setFcmByte_rook (s : State) (o : Nat) (b : Byte) : (s.setFcmByte o b).rook = s.rook := rfl
@[simp] theorem State.setFcmByte_cycle (s : State) (o : Nat) (b : Byte) : (s.setFcmByte o b).cycle = s.cycle := rfl
@[simp] theorem State.fillFcm_pending (s : State) (lo n : Nat) (f : Nat → Byte) : (s.fillFcm lo n f).pending = s.pending := rfl
@[simp] theorem State.fillFcm_regs (s : State) (lo n : Nat) (f : Nat → Byte) : (s.fillFcm lo n f).regs = s.regs := rfl
@[simp] theorem State.fillFcm_shadow (s : State) (lo n : Nat) (f : Nat → Byte) : (s.fillFcm lo n f).shadow = s.shadow := rfl
@[simp] theorem State.fillFcm_free (s : State) (lo n : Nat) (f : Nat → Byte) : (s.fillFcm lo n f).free = s.free := rfl
@[simp] theorem State.fillFcm_time (s : State) (lo n : Nat) (f : Nat → Byte) : (s.fillFcm lo n f).time = s.time := rfl
@[simp] theorem State.fillFcm_moves (s : State) (lo n : Nat) (f : Nat → Byte) : (s.fillFcm lo n f).moves = s.moves := rfl
@[simp] theorem State.fillFcm_gens (s : State) (lo n : Nat) (f : Nat → Byte) : (s.fillFcm lo n f).gens = s.gens := rfl
@[simp] theorem State.fillFcm_pipe (s : State) (lo n : Nat) (f : Nat → Byte) : (s.fillFcm lo n f).pipe = s.pipe := rfl
@[simp] theorem State.fillFcm_scan (s : State) (lo n : Nat) (f : Nat → Byte) : (s.fillFcm lo n f).scan = s.scan := rfl
@[simp] theorem State.fillFcm_motif (s : State) (lo n : Nat) (f : Nat → Byte) : (s.fillFcm lo n f).motif = s.motif := rfl
@[simp] theorem State.fillFcm_fallback (s : State) (lo n : Nat) (f : Nat → Byte) : (s.fillFcm lo n f).fallback = s.fallback := rfl
@[simp] theorem State.fillFcm_sink (s : State) (lo n : Nat) (f : Nat → Byte) : (s.fillFcm lo n f).sink = s.sink := rfl
@[simp] theorem State.fillFcm_census (s : State) (lo n : Nat) (f : Nat → Byte) : (s.fillFcm lo n f).census = s.census := rfl
@[simp] theorem State.fillFcm_cvu (s : State) (lo n : Nat) (f : Nat → Byte) : (s.fillFcm lo n f).cvu = s.cvu := rfl
@[simp] theorem State.fillFcm_pawns (s : State) (lo n : Nat) (f : Nat → Byte) : (s.fillFcm lo n f).pawns = s.pawns := rfl
@[simp] theorem State.fillFcm_spwm (s : State) (lo n : Nat) (f : Nat → Byte) : (s.fillFcm lo n f).spwm = s.spwm := rfl
@[simp] theorem State.fillFcm_mir (s : State) (lo n : Nat) (f : Nat → Byte) : (s.fillFcm lo n f).mir = s.mir := rfl
@[simp] theorem State.fillFcm_net (s : State) (lo n : Nat) (f : Nat → Byte) : (s.fillFcm lo n f).net = s.net := rfl
@[simp] theorem State.fillFcm_poll (s : State) (lo n : Nat) (f : Nat → Byte) : (s.fillFcm lo n f).poll = s.poll := rfl
@[simp] theorem State.fillFcm_klp (s : State) (lo n : Nat) (f : Nat → Byte) : (s.fillFcm lo n f).klp = s.klp := rfl
@[simp] theorem State.fillFcm_cmd (s : State) (lo n : Nat) (f : Nat → Byte) : (s.fillFcm lo n f).cmd = s.cmd := rfl
@[simp] theorem State.fillFcm_store (s : State) (lo n : Nat) (f : Nat → Byte) : (s.fillFcm lo n f).store = s.store := rfl
@[simp] theorem State.fillFcm_pwr (s : State) (lo n : Nat) (f : Nat → Byte) : (s.fillFcm lo n f).pwr = s.pwr := rfl
@[simp] theorem State.fillFcm_rook (s : State) (lo n : Nat) (f : Nat → Byte) : (s.fillFcm lo n f).rook = s.rook := rfl
@[simp] theorem State.fillFcm_cycle (s : State) (lo n : Nat) (f : Nat → Byte) : (s.fillFcm lo n f).cycle = s.cycle := rfl
@[simp] theorem State.evtMark_pending (s : State) (n d : Nat) : (s.evtMark n d).pending = s.pending := rfl
@[simp] theorem State.evtMark_shadow (s : State) (n d : Nat) : (s.evtMark n d).shadow = s.shadow := rfl
@[simp] theorem State.evtMark_fcm (s : State) (n d : Nat) : (s.evtMark n d).fcm = s.fcm := rfl
@[simp] theorem State.evtMark_free (s : State) (n d : Nat) : (s.evtMark n d).free = s.free := rfl
@[simp] theorem State.evtMark_time (s : State) (n d : Nat) : (s.evtMark n d).time = s.time := rfl
@[simp] theorem State.evtMark_moves (s : State) (n d : Nat) : (s.evtMark n d).moves = s.moves := rfl
@[simp] theorem State.evtMark_gens (s : State) (n d : Nat) : (s.evtMark n d).gens = s.gens := rfl
@[simp] theorem State.evtMark_pipe (s : State) (n d : Nat) : (s.evtMark n d).pipe = s.pipe := rfl
@[simp] theorem State.evtMark_scan (s : State) (n d : Nat) : (s.evtMark n d).scan = s.scan := rfl
@[simp] theorem State.evtMark_motif (s : State) (n d : Nat) : (s.evtMark n d).motif = s.motif := rfl
@[simp] theorem State.evtMark_fallback (s : State) (n d : Nat) : (s.evtMark n d).fallback = s.fallback := rfl
@[simp] theorem State.evtMark_badWords (s : State) (n d : Nat) : (s.evtMark n d).badWords = s.badWords := rfl
@[simp] theorem State.evtMark_sink (s : State) (n d : Nat) : (s.evtMark n d).sink = s.sink := rfl
@[simp] theorem State.evtMark_census (s : State) (n d : Nat) : (s.evtMark n d).census = s.census := rfl
@[simp] theorem State.evtMark_cvu (s : State) (n d : Nat) : (s.evtMark n d).cvu = s.cvu := rfl
@[simp] theorem State.evtMark_pawns (s : State) (n d : Nat) : (s.evtMark n d).pawns = s.pawns := rfl
@[simp] theorem State.evtMark_spwm (s : State) (n d : Nat) : (s.evtMark n d).spwm = s.spwm := rfl
@[simp] theorem State.evtMark_mir (s : State) (n d : Nat) : (s.evtMark n d).mir = s.mir := rfl
@[simp] theorem State.evtMark_net (s : State) (n d : Nat) : (s.evtMark n d).net = s.net := rfl
@[simp] theorem State.evtMark_poll (s : State) (n d : Nat) : (s.evtMark n d).poll = s.poll := rfl
@[simp] theorem State.evtMark_klp (s : State) (n d : Nat) : (s.evtMark n d).klp = s.klp := rfl
@[simp] theorem State.evtMark_cmd (s : State) (n d : Nat) : (s.evtMark n d).cmd = s.cmd := rfl
@[simp] theorem State.evtMark_store (s : State) (n d : Nat) : (s.evtMark n d).store = s.store := rfl
@[simp] theorem State.evtMark_pwr (s : State) (n d : Nat) : (s.evtMark n d).pwr = s.pwr := rfl
@[simp] theorem State.evtMark_rook (s : State) (n d : Nat) : (s.evtMark n d).rook = s.rook := rfl
@[simp] theorem State.subsPost_pending (s : State) (n : Nat) (m : Bool) (d v : Nat) : (s.subsPost n m d v).pending = s.pending := rfl
@[simp] theorem State.subsPost_regs (s : State) (n : Nat) (m : Bool) (d v : Nat) : (s.subsPost n m d v).regs = s.regs := rfl
@[simp] theorem State.subsPost_shadow (s : State) (n : Nat) (m : Bool) (d v : Nat) : (s.subsPost n m d v).shadow = s.shadow := rfl
@[simp] theorem State.subsPost_fcm (s : State) (n : Nat) (m : Bool) (d v : Nat) : (s.subsPost n m d v).fcm = s.fcm := rfl
@[simp] theorem State.subsPost_free (s : State) (n : Nat) (m : Bool) (d v : Nat) : (s.subsPost n m d v).free = s.free := rfl
@[simp] theorem State.subsPost_time (s : State) (n : Nat) (m : Bool) (d v : Nat) : (s.subsPost n m d v).time = s.time := rfl
@[simp] theorem State.subsPost_moves (s : State) (n : Nat) (m : Bool) (d v : Nat) : (s.subsPost n m d v).moves = s.moves := rfl
@[simp] theorem State.subsPost_gens (s : State) (n : Nat) (m : Bool) (d v : Nat) : (s.subsPost n m d v).gens = s.gens := rfl
@[simp] theorem State.subsPost_pipe (s : State) (n : Nat) (m : Bool) (d v : Nat) : (s.subsPost n m d v).pipe = s.pipe := rfl
@[simp] theorem State.subsPost_scan (s : State) (n : Nat) (m : Bool) (d v : Nat) : (s.subsPost n m d v).scan = s.scan := rfl
@[simp] theorem State.subsPost_motif (s : State) (n : Nat) (m : Bool) (d v : Nat) : (s.subsPost n m d v).motif = s.motif := rfl
@[simp] theorem State.subsPost_fallback (s : State) (n : Nat) (m : Bool) (d v : Nat) : (s.subsPost n m d v).fallback = s.fallback := rfl
@[simp] theorem State.subsPost_badWords (s : State) (n : Nat) (m : Bool) (d v : Nat) : (s.subsPost n m d v).badWords = s.badWords := rfl
@[simp] theorem State.subsPost_sink (s : State) (n : Nat) (m : Bool) (d v : Nat) : (s.subsPost n m d v).sink = s.sink := rfl
@[simp] theorem State.subsPost_census (s : State) (n : Nat) (m : Bool) (d v : Nat) : (s.subsPost n m d v).census = s.census := rfl
@[simp] theorem State.subsPost_cvu (s : State) (n : Nat) (m : Bool) (d v : Nat) : (s.subsPost n m d v).cvu = s.cvu := rfl
@[simp] theorem State.subsPost_pawns (s : State) (n : Nat) (m : Bool) (d v : Nat) : (s.subsPost n m d v).pawns = s.pawns := rfl
@[simp] theorem State.subsPost_spwm (s : State) (n : Nat) (m : Bool) (d v : Nat) : (s.subsPost n m d v).spwm = s.spwm := rfl
@[simp] theorem State.subsPost_mir (s : State) (n : Nat) (m : Bool) (d v : Nat) : (s.subsPost n m d v).mir = s.mir := rfl
@[simp] theorem State.subsPost_net (s : State) (n : Nat) (m : Bool) (d v : Nat) : (s.subsPost n m d v).net = s.net := rfl
@[simp] theorem State.subsPost_poll (s : State) (n : Nat) (m : Bool) (d v : Nat) : (s.subsPost n m d v).poll = s.poll := rfl
@[simp] theorem State.subsPost_cmd (s : State) (n : Nat) (m : Bool) (d v : Nat) : (s.subsPost n m d v).cmd = s.cmd := rfl
@[simp] theorem State.subsPost_store (s : State) (n : Nat) (m : Bool) (d v : Nat) : (s.subsPost n m d v).store = s.store := rfl
@[simp] theorem State.subsPost_pwr (s : State) (n : Nat) (m : Bool) (d v : Nat) : (s.subsPost n m d v).pwr = s.pwr := rfl
@[simp] theorem State.subsPost_rook (s : State) (n : Nat) (m : Bool) (d v : Nat) : (s.subsPost n m d v).rook = s.rook := rfl
@[simp] theorem State.subsPost_cycle (s : State) (n : Nat) (m : Bool) (d v : Nat) : (s.subsPost n m d v).cycle = s.cycle := rfl
@[simp] theorem State.readGave_pending (s : State) (l : List Byte) : (s.readGave l).pending = s.pending := rfl
@[simp] theorem State.readGave_regs (s : State) (l : List Byte) : (s.readGave l).regs = s.regs := rfl
@[simp] theorem State.readGave_shadow (s : State) (l : List Byte) : (s.readGave l).shadow = s.shadow := rfl
@[simp] theorem State.readGave_fcm (s : State) (l : List Byte) : (s.readGave l).fcm = s.fcm := rfl
@[simp] theorem State.readGave_free (s : State) (l : List Byte) : (s.readGave l).free = s.free := rfl
@[simp] theorem State.readGave_time (s : State) (l : List Byte) : (s.readGave l).time = s.time := rfl
@[simp] theorem State.readGave_moves (s : State) (l : List Byte) : (s.readGave l).moves = s.moves := rfl
@[simp] theorem State.readGave_gens (s : State) (l : List Byte) : (s.readGave l).gens = s.gens := rfl
@[simp] theorem State.readGave_pipe (s : State) (l : List Byte) : (s.readGave l).pipe = s.pipe := rfl
@[simp] theorem State.readGave_scan (s : State) (l : List Byte) : (s.readGave l).scan = s.scan := rfl
@[simp] theorem State.readGave_motif (s : State) (l : List Byte) : (s.readGave l).motif = s.motif := rfl
@[simp] theorem State.readGave_fallback (s : State) (l : List Byte) : (s.readGave l).fallback = s.fallback := rfl
@[simp] theorem State.readGave_badWords (s : State) (l : List Byte) : (s.readGave l).badWords = s.badWords := rfl
@[simp] theorem State.readGave_sink (s : State) (l : List Byte) : (s.readGave l).sink = s.sink := rfl
@[simp] theorem State.readGave_census (s : State) (l : List Byte) : (s.readGave l).census = s.census := rfl
@[simp] theorem State.readGave_cvu (s : State) (l : List Byte) : (s.readGave l).cvu = s.cvu := rfl
@[simp] theorem State.readGave_pawns (s : State) (l : List Byte) : (s.readGave l).pawns = s.pawns := rfl
@[simp] theorem State.readGave_spwm (s : State) (l : List Byte) : (s.readGave l).spwm = s.spwm := rfl
@[simp] theorem State.readGave_mir (s : State) (l : List Byte) : (s.readGave l).mir = s.mir := rfl
@[simp] theorem State.readGave_net (s : State) (l : List Byte) : (s.readGave l).net = s.net := rfl
@[simp] theorem State.readGave_poll (s : State) (l : List Byte) : (s.readGave l).poll = s.poll := rfl
@[simp] theorem State.readGave_klp (s : State) (l : List Byte) : (s.readGave l).klp = s.klp := rfl
@[simp] theorem State.readGave_store (s : State) (l : List Byte) : (s.readGave l).store = s.store := rfl
@[simp] theorem State.readGave_pwr (s : State) (l : List Byte) : (s.readGave l).pwr = s.pwr := rfl
@[simp] theorem State.readGave_rook (s : State) (l : List Byte) : (s.readGave l).rook = s.rook := rfl
@[simp] theorem State.readGave_cycle (s : State) (l : List Byte) : (s.readGave l).cycle = s.cycle := rfl
@[simp] theorem State.newCycle_pending (s : State) (n : Nat) : (s.newCycle n).pending = s.pending := rfl
@[simp] theorem State.newCycle_regs (s : State) (n : Nat) : (s.newCycle n).regs = s.regs := rfl
@[simp] theorem State.newCycle_shadow (s : State) (n : Nat) : (s.newCycle n).shadow = s.shadow := rfl
@[simp] theorem State.newCycle_fcm (s : State) (n : Nat) : (s.newCycle n).fcm = s.fcm := rfl
@[simp] theorem State.newCycle_free (s : State) (n : Nat) : (s.newCycle n).free = s.free := rfl
@[simp] theorem State.newCycle_time (s : State) (n : Nat) : (s.newCycle n).time = s.time := rfl
@[simp] theorem State.newCycle_moves (s : State) (n : Nat) : (s.newCycle n).moves = s.moves := rfl
@[simp] theorem State.newCycle_gens (s : State) (n : Nat) : (s.newCycle n).gens = s.gens := rfl
@[simp] theorem State.newCycle_pipe (s : State) (n : Nat) : (s.newCycle n).pipe = s.pipe := rfl
@[simp] theorem State.newCycle_scan (s : State) (n : Nat) : (s.newCycle n).scan = s.scan := rfl
@[simp] theorem State.newCycle_motif (s : State) (n : Nat) : (s.newCycle n).motif = s.motif := rfl
@[simp] theorem State.newCycle_fallback (s : State) (n : Nat) : (s.newCycle n).fallback = s.fallback := rfl
@[simp] theorem State.newCycle_badWords (s : State) (n : Nat) : (s.newCycle n).badWords = s.badWords := rfl
@[simp] theorem State.newCycle_sink (s : State) (n : Nat) : (s.newCycle n).sink = s.sink := rfl
@[simp] theorem State.newCycle_census (s : State) (n : Nat) : (s.newCycle n).census = s.census := rfl
@[simp] theorem State.newCycle_cvu (s : State) (n : Nat) : (s.newCycle n).cvu = s.cvu := rfl
@[simp] theorem State.newCycle_pawns (s : State) (n : Nat) : (s.newCycle n).pawns = s.pawns := rfl
@[simp] theorem State.newCycle_spwm (s : State) (n : Nat) : (s.newCycle n).spwm = s.spwm := rfl
@[simp] theorem State.newCycle_mir (s : State) (n : Nat) : (s.newCycle n).mir = s.mir := rfl
@[simp] theorem State.newCycle_net (s : State) (n : Nat) : (s.newCycle n).net = s.net := rfl
@[simp] theorem State.newCycle_poll (s : State) (n : Nat) : (s.newCycle n).poll = s.poll := rfl
@[simp] theorem State.newCycle_klp (s : State) (n : Nat) : (s.newCycle n).klp = s.klp := rfl
@[simp] theorem State.newCycle_cmd (s : State) (n : Nat) : (s.newCycle n).cmd = s.cmd := rfl
@[simp] theorem State.newCycle_store (s : State) (n : Nat) : (s.newCycle n).store = s.store := rfl
@[simp] theorem State.newCycle_pwr (s : State) (n : Nat) : (s.newCycle n).pwr = s.pwr := rfl
@[simp] theorem State.newCycle_rook (s : State) (n : Nat) : (s.newCycle n).rook = s.rook := rfl
@[simp] theorem State.seeWrite_pending (s : State) (a : Nat) : (s.seeWrite a).pending = s.pending := rfl
@[simp] theorem State.seeWrite_regs (s : State) (a : Nat) : (s.seeWrite a).regs = s.regs := rfl
@[simp] theorem State.seeWrite_shadow (s : State) (a : Nat) : (s.seeWrite a).shadow = s.shadow := rfl
@[simp] theorem State.seeWrite_fcm (s : State) (a : Nat) : (s.seeWrite a).fcm = s.fcm := rfl
@[simp] theorem State.seeWrite_free (s : State) (a : Nat) : (s.seeWrite a).free = s.free := rfl
@[simp] theorem State.seeWrite_time (s : State) (a : Nat) : (s.seeWrite a).time = s.time := rfl
@[simp] theorem State.seeWrite_moves (s : State) (a : Nat) : (s.seeWrite a).moves = s.moves := rfl
@[simp] theorem State.seeWrite_gens (s : State) (a : Nat) : (s.seeWrite a).gens = s.gens := rfl
@[simp] theorem State.seeWrite_pipe (s : State) (a : Nat) : (s.seeWrite a).pipe = s.pipe := rfl
@[simp] theorem State.seeWrite_scan (s : State) (a : Nat) : (s.seeWrite a).scan = s.scan := rfl
@[simp] theorem State.seeWrite_motif (s : State) (a : Nat) : (s.seeWrite a).motif = s.motif := rfl
@[simp] theorem State.seeWrite_fallback (s : State) (a : Nat) : (s.seeWrite a).fallback = s.fallback := rfl
@[simp] theorem State.seeWrite_badWords (s : State) (a : Nat) : (s.seeWrite a).badWords = s.badWords := rfl
@[simp] theorem State.seeWrite_sink (s : State) (a : Nat) : (s.seeWrite a).sink = s.sink := rfl
@[simp] theorem State.seeWrite_census (s : State) (a : Nat) : (s.seeWrite a).census = s.census := rfl
@[simp] theorem State.seeWrite_cvu (s : State) (a : Nat) : (s.seeWrite a).cvu = s.cvu := rfl
@[simp] theorem State.seeWrite_pawns (s : State) (a : Nat) : (s.seeWrite a).pawns = s.pawns := rfl
@[simp] theorem State.seeWrite_spwm (s : State) (a : Nat) : (s.seeWrite a).spwm = s.spwm := rfl
@[simp] theorem State.seeWrite_mir (s : State) (a : Nat) : (s.seeWrite a).mir = s.mir := rfl
@[simp] theorem State.seeWrite_net (s : State) (a : Nat) : (s.seeWrite a).net = s.net := rfl
@[simp] theorem State.seeWrite_poll (s : State) (a : Nat) : (s.seeWrite a).poll = s.poll := rfl
@[simp] theorem State.seeWrite_klp (s : State) (a : Nat) : (s.seeWrite a).klp = s.klp := rfl
@[simp] theorem State.seeWrite_cmd (s : State) (a : Nat) : (s.seeWrite a).cmd = s.cmd := rfl
@[simp] theorem State.seeWrite_store (s : State) (a : Nat) : (s.seeWrite a).store = s.store := rfl
@[simp] theorem State.seeWrite_pwr (s : State) (a : Nat) : (s.seeWrite a).pwr = s.pwr := rfl
@[simp] theorem State.seeWrite_rook (s : State) (a : Nat) : (s.seeWrite a).rook = s.rook := rfl
@[simp] theorem State.noteCount_pending (s : State) (f : Fld) (n : Nat) : (s.noteCount f n).pending = s.pending := rfl
@[simp] theorem State.noteCount_regs (s : State) (f : Fld) (n : Nat) : (s.noteCount f n).regs = s.regs := rfl
@[simp] theorem State.noteCount_shadow (s : State) (f : Fld) (n : Nat) : (s.noteCount f n).shadow = s.shadow := rfl
@[simp] theorem State.noteCount_fcm (s : State) (f : Fld) (n : Nat) : (s.noteCount f n).fcm = s.fcm := rfl
@[simp] theorem State.noteCount_free (s : State) (f : Fld) (n : Nat) : (s.noteCount f n).free = s.free := rfl
@[simp] theorem State.noteCount_time (s : State) (f : Fld) (n : Nat) : (s.noteCount f n).time = s.time := rfl
@[simp] theorem State.noteCount_moves (s : State) (f : Fld) (n : Nat) : (s.noteCount f n).moves = s.moves := rfl
@[simp] theorem State.noteCount_gens (s : State) (f : Fld) (n : Nat) : (s.noteCount f n).gens = s.gens := rfl
@[simp] theorem State.noteCount_pipe (s : State) (f : Fld) (n : Nat) : (s.noteCount f n).pipe = s.pipe := rfl
@[simp] theorem State.noteCount_scan (s : State) (f : Fld) (n : Nat) : (s.noteCount f n).scan = s.scan := rfl
@[simp] theorem State.noteCount_motif (s : State) (f : Fld) (n : Nat) : (s.noteCount f n).motif = s.motif := rfl
@[simp] theorem State.noteCount_fallback (s : State) (f : Fld) (n : Nat) : (s.noteCount f n).fallback = s.fallback := rfl
@[simp] theorem State.noteCount_badWords (s : State) (f : Fld) (n : Nat) : (s.noteCount f n).badWords = s.badWords := rfl
@[simp] theorem State.noteCount_sink (s : State) (f : Fld) (n : Nat) : (s.noteCount f n).sink = s.sink := rfl
@[simp] theorem State.noteCount_census (s : State) (f : Fld) (n : Nat) : (s.noteCount f n).census = s.census := rfl
@[simp] theorem State.noteCount_cvu (s : State) (f : Fld) (n : Nat) : (s.noteCount f n).cvu = s.cvu := rfl
@[simp] theorem State.noteCount_pawns (s : State) (f : Fld) (n : Nat) : (s.noteCount f n).pawns = s.pawns := rfl
@[simp] theorem State.noteCount_spwm (s : State) (f : Fld) (n : Nat) : (s.noteCount f n).spwm = s.spwm := rfl
@[simp] theorem State.noteCount_mir (s : State) (f : Fld) (n : Nat) : (s.noteCount f n).mir = s.mir := rfl
@[simp] theorem State.noteCount_net (s : State) (f : Fld) (n : Nat) : (s.noteCount f n).net = s.net := rfl
@[simp] theorem State.noteCount_poll (s : State) (f : Fld) (n : Nat) : (s.noteCount f n).poll = s.poll := rfl
@[simp] theorem State.noteCount_klp (s : State) (f : Fld) (n : Nat) : (s.noteCount f n).klp = s.klp := rfl
@[simp] theorem State.noteCount_cmd (s : State) (f : Fld) (n : Nat) : (s.noteCount f n).cmd = s.cmd := rfl
@[simp] theorem State.noteCount_store (s : State) (f : Fld) (n : Nat) : (s.noteCount f n).store = s.store := rfl
@[simp] theorem State.noteCount_pwr (s : State) (f : Fld) (n : Nat) : (s.noteCount f n).pwr = s.pwr := rfl
@[simp] theorem State.noteCount_rook (s : State) (f : Fld) (n : Nat) : (s.noteCount f n).rook = s.rook := rfl
@[simp] theorem State.bumpWrap_pending (s : State) (f : Fld) : (s.bumpWrap f).pending = s.pending := rfl
@[simp] theorem State.bumpWrap_shadow (s : State) (f : Fld) : (s.bumpWrap f).shadow = s.shadow := rfl
@[simp] theorem State.bumpWrap_fcm (s : State) (f : Fld) : (s.bumpWrap f).fcm = s.fcm := rfl
@[simp] theorem State.bumpWrap_free (s : State) (f : Fld) : (s.bumpWrap f).free = s.free := rfl
@[simp] theorem State.bumpWrap_time (s : State) (f : Fld) : (s.bumpWrap f).time = s.time := rfl
@[simp] theorem State.bumpWrap_moves (s : State) (f : Fld) : (s.bumpWrap f).moves = s.moves := rfl
@[simp] theorem State.bumpWrap_gens (s : State) (f : Fld) : (s.bumpWrap f).gens = s.gens := rfl
@[simp] theorem State.bumpWrap_pipe (s : State) (f : Fld) : (s.bumpWrap f).pipe = s.pipe := rfl
@[simp] theorem State.bumpWrap_scan (s : State) (f : Fld) : (s.bumpWrap f).scan = s.scan := rfl
@[simp] theorem State.bumpWrap_motif (s : State) (f : Fld) : (s.bumpWrap f).motif = s.motif := rfl
@[simp] theorem State.bumpWrap_fallback (s : State) (f : Fld) : (s.bumpWrap f).fallback = s.fallback := rfl
@[simp] theorem State.bumpWrap_badWords (s : State) (f : Fld) : (s.bumpWrap f).badWords = s.badWords := rfl
@[simp] theorem State.bumpWrap_sink (s : State) (f : Fld) : (s.bumpWrap f).sink = s.sink := rfl
@[simp] theorem State.bumpWrap_census (s : State) (f : Fld) : (s.bumpWrap f).census = s.census := rfl
@[simp] theorem State.bumpWrap_cvu (s : State) (f : Fld) : (s.bumpWrap f).cvu = s.cvu := rfl
@[simp] theorem State.bumpWrap_pawns (s : State) (f : Fld) : (s.bumpWrap f).pawns = s.pawns := rfl
@[simp] theorem State.bumpWrap_spwm (s : State) (f : Fld) : (s.bumpWrap f).spwm = s.spwm := rfl
@[simp] theorem State.bumpWrap_mir (s : State) (f : Fld) : (s.bumpWrap f).mir = s.mir := rfl
@[simp] theorem State.bumpWrap_net (s : State) (f : Fld) : (s.bumpWrap f).net = s.net := rfl
@[simp] theorem State.bumpWrap_poll (s : State) (f : Fld) : (s.bumpWrap f).poll = s.poll := rfl
@[simp] theorem State.bumpWrap_klp (s : State) (f : Fld) : (s.bumpWrap f).klp = s.klp := rfl
@[simp] theorem State.bumpWrap_cmd (s : State) (f : Fld) : (s.bumpWrap f).cmd = s.cmd := rfl
@[simp] theorem State.bumpWrap_store (s : State) (f : Fld) : (s.bumpWrap f).store = s.store := rfl
@[simp] theorem State.bumpWrap_pwr (s : State) (f : Fld) : (s.bumpWrap f).pwr = s.pwr := rfl
@[simp] theorem State.bumpWrap_rook (s : State) (f : Fld) : (s.bumpWrap f).rook = s.rook := rfl
@[simp] theorem State.fixStart_pending (s : State) (a : Nat) (w : Word) : (s.fixStart a w).pending = s.pending := rfl
@[simp] theorem State.fixStart_regs (s : State) (a : Nat) (w : Word) : (s.fixStart a w).regs = s.regs := rfl
@[simp] theorem State.fixStart_shadow (s : State) (a : Nat) (w : Word) : (s.fixStart a w).shadow = s.shadow := rfl
@[simp] theorem State.fixStart_fcm (s : State) (a : Nat) (w : Word) : (s.fixStart a w).fcm = s.fcm := rfl
@[simp] theorem State.fixStart_free (s : State) (a : Nat) (w : Word) : (s.fixStart a w).free = s.free := rfl
@[simp] theorem State.fixStart_time (s : State) (a : Nat) (w : Word) : (s.fixStart a w).time = s.time := rfl
@[simp] theorem State.fixStart_moves (s : State) (a : Nat) (w : Word) : (s.fixStart a w).moves = s.moves := rfl
@[simp] theorem State.fixStart_gens (s : State) (a : Nat) (w : Word) : (s.fixStart a w).gens = s.gens := rfl
@[simp] theorem State.fixStart_pipe (s : State) (a : Nat) (w : Word) : (s.fixStart a w).pipe = s.pipe := rfl
@[simp] theorem State.fixStart_scan (s : State) (a : Nat) (w : Word) : (s.fixStart a w).scan = s.scan := rfl
@[simp] theorem State.fixStart_motif (s : State) (a : Nat) (w : Word) : (s.fixStart a w).motif = s.motif := rfl
@[simp] theorem State.fixStart_fallback (s : State) (a : Nat) (w : Word) : (s.fixStart a w).fallback = s.fallback := rfl
@[simp] theorem State.fixStart_badWords (s : State) (a : Nat) (w : Word) : (s.fixStart a w).badWords = s.badWords := rfl
@[simp] theorem State.fixStart_sink (s : State) (a : Nat) (w : Word) : (s.fixStart a w).sink = s.sink := rfl
@[simp] theorem State.fixStart_census (s : State) (a : Nat) (w : Word) : (s.fixStart a w).census = s.census := rfl
@[simp] theorem State.fixStart_cvu (s : State) (a : Nat) (w : Word) : (s.fixStart a w).cvu = s.cvu := rfl
@[simp] theorem State.fixStart_pawns (s : State) (a : Nat) (w : Word) : (s.fixStart a w).pawns = s.pawns := rfl
@[simp] theorem State.fixStart_spwm (s : State) (a : Nat) (w : Word) : (s.fixStart a w).spwm = s.spwm := rfl
@[simp] theorem State.fixStart_mir (s : State) (a : Nat) (w : Word) : (s.fixStart a w).mir = s.mir := rfl
@[simp] theorem State.fixStart_net (s : State) (a : Nat) (w : Word) : (s.fixStart a w).net = s.net := rfl
@[simp] theorem State.fixStart_poll (s : State) (a : Nat) (w : Word) : (s.fixStart a w).poll = s.poll := rfl
@[simp] theorem State.fixStart_klp (s : State) (a : Nat) (w : Word) : (s.fixStart a w).klp = s.klp := rfl
@[simp] theorem State.fixStart_cmd (s : State) (a : Nat) (w : Word) : (s.fixStart a w).cmd = s.cmd := rfl
@[simp] theorem State.fixStart_store (s : State) (a : Nat) (w : Word) : (s.fixStart a w).store = s.store := rfl
@[simp] theorem State.fixStart_pwr (s : State) (a : Nat) (w : Word) : (s.fixStart a w).pwr = s.pwr := rfl
@[simp] theorem State.fixStart_rook (s : State) (a : Nat) (w : Word) : (s.fixStart a w).rook = s.rook := rfl
@[simp] theorem State.setW1c_pending (s : State) (f : Fld) : (s.setW1c f).pending = s.pending := rfl
@[simp] theorem State.setW1c_shadow (s : State) (f : Fld) : (s.setW1c f).shadow = s.shadow := rfl
@[simp] theorem State.setW1c_fcm (s : State) (f : Fld) : (s.setW1c f).fcm = s.fcm := rfl
@[simp] theorem State.setW1c_free (s : State) (f : Fld) : (s.setW1c f).free = s.free := rfl
@[simp] theorem State.setW1c_time (s : State) (f : Fld) : (s.setW1c f).time = s.time := rfl
@[simp] theorem State.setW1c_moves (s : State) (f : Fld) : (s.setW1c f).moves = s.moves := rfl
@[simp] theorem State.setW1c_gens (s : State) (f : Fld) : (s.setW1c f).gens = s.gens := rfl
@[simp] theorem State.setW1c_pipe (s : State) (f : Fld) : (s.setW1c f).pipe = s.pipe := rfl
@[simp] theorem State.setW1c_scan (s : State) (f : Fld) : (s.setW1c f).scan = s.scan := rfl
@[simp] theorem State.setW1c_motif (s : State) (f : Fld) : (s.setW1c f).motif = s.motif := rfl
@[simp] theorem State.setW1c_fallback (s : State) (f : Fld) : (s.setW1c f).fallback = s.fallback := rfl
@[simp] theorem State.setW1c_badWords (s : State) (f : Fld) : (s.setW1c f).badWords = s.badWords := rfl
@[simp] theorem State.setW1c_sink (s : State) (f : Fld) : (s.setW1c f).sink = s.sink := rfl
@[simp] theorem State.setW1c_census (s : State) (f : Fld) : (s.setW1c f).census = s.census := rfl
@[simp] theorem State.setW1c_cvu (s : State) (f : Fld) : (s.setW1c f).cvu = s.cvu := rfl
@[simp] theorem State.setW1c_pawns (s : State) (f : Fld) : (s.setW1c f).pawns = s.pawns := rfl
@[simp] theorem State.setW1c_spwm (s : State) (f : Fld) : (s.setW1c f).spwm = s.spwm := rfl
@[simp] theorem State.setW1c_mir (s : State) (f : Fld) : (s.setW1c f).mir = s.mir := rfl
@[simp] theorem State.setW1c_net (s : State) (f : Fld) : (s.setW1c f).net = s.net := rfl
@[simp] theorem State.setW1c_poll (s : State) (f : Fld) : (s.setW1c f).poll = s.poll := rfl
@[simp] theorem State.setW1c_klp (s : State) (f : Fld) : (s.setW1c f).klp = s.klp := rfl
@[simp] theorem State.setW1c_cmd (s : State) (f : Fld) : (s.setW1c f).cmd = s.cmd := rfl
@[simp] theorem State.setW1c_store (s : State) (f : Fld) : (s.setW1c f).store = s.store := rfl
@[simp] theorem State.setW1c_pwr (s : State) (f : Fld) : (s.setW1c f).pwr = s.pwr := rfl
@[simp] theorem State.setW1c_rook (s : State) (f : Fld) : (s.setW1c f).rook = s.rook := rfl
@[simp] theorem State.clearW1c_pending (s : State) (a : Nat) (w : Word) : (s.clearW1c a w).pending = s.pending := rfl
@[simp] theorem State.clearW1c_shadow (s : State) (a : Nat) (w : Word) : (s.clearW1c a w).shadow = s.shadow := rfl
@[simp] theorem State.clearW1c_fcm (s : State) (a : Nat) (w : Word) : (s.clearW1c a w).fcm = s.fcm := rfl
@[simp] theorem State.clearW1c_free (s : State) (a : Nat) (w : Word) : (s.clearW1c a w).free = s.free := rfl
@[simp] theorem State.clearW1c_time (s : State) (a : Nat) (w : Word) : (s.clearW1c a w).time = s.time := rfl
@[simp] theorem State.clearW1c_moves (s : State) (a : Nat) (w : Word) : (s.clearW1c a w).moves = s.moves := rfl
@[simp] theorem State.clearW1c_gens (s : State) (a : Nat) (w : Word) : (s.clearW1c a w).gens = s.gens := rfl
@[simp] theorem State.clearW1c_pipe (s : State) (a : Nat) (w : Word) : (s.clearW1c a w).pipe = s.pipe := rfl
@[simp] theorem State.clearW1c_scan (s : State) (a : Nat) (w : Word) : (s.clearW1c a w).scan = s.scan := rfl
@[simp] theorem State.clearW1c_motif (s : State) (a : Nat) (w : Word) : (s.clearW1c a w).motif = s.motif := rfl
@[simp] theorem State.clearW1c_fallback (s : State) (a : Nat) (w : Word) : (s.clearW1c a w).fallback = s.fallback := rfl
@[simp] theorem State.clearW1c_badWords (s : State) (a : Nat) (w : Word) : (s.clearW1c a w).badWords = s.badWords := rfl
@[simp] theorem State.clearW1c_sink (s : State) (a : Nat) (w : Word) : (s.clearW1c a w).sink = s.sink := rfl
@[simp] theorem State.clearW1c_census (s : State) (a : Nat) (w : Word) : (s.clearW1c a w).census = s.census := rfl
@[simp] theorem State.clearW1c_cvu (s : State) (a : Nat) (w : Word) : (s.clearW1c a w).cvu = s.cvu := rfl
@[simp] theorem State.clearW1c_pawns (s : State) (a : Nat) (w : Word) : (s.clearW1c a w).pawns = s.pawns := rfl
@[simp] theorem State.clearW1c_spwm (s : State) (a : Nat) (w : Word) : (s.clearW1c a w).spwm = s.spwm := rfl
@[simp] theorem State.clearW1c_mir (s : State) (a : Nat) (w : Word) : (s.clearW1c a w).mir = s.mir := rfl
@[simp] theorem State.clearW1c_net (s : State) (a : Nat) (w : Word) : (s.clearW1c a w).net = s.net := rfl
@[simp] theorem State.clearW1c_poll (s : State) (a : Nat) (w : Word) : (s.clearW1c a w).poll = s.poll := rfl
@[simp] theorem State.clearW1c_klp (s : State) (a : Nat) (w : Word) : (s.clearW1c a w).klp = s.klp := rfl
@[simp] theorem State.clearW1c_cmd (s : State) (a : Nat) (w : Word) : (s.clearW1c a w).cmd = s.cmd := rfl
@[simp] theorem State.clearW1c_store (s : State) (a : Nat) (w : Word) : (s.clearW1c a w).store = s.store := rfl
@[simp] theorem State.clearW1c_pwr (s : State) (a : Nat) (w : Word) : (s.clearW1c a w).pwr = s.pwr := rfl
@[simp] theorem State.clearW1c_rook (s : State) (a : Nat) (w : Word) : (s.clearW1c a w).rook = s.rook := rfl
@[simp] theorem State.clearW1c_cycle (s : State) (a : Nat) (w : Word) : (s.clearW1c a w).cycle = s.cycle := rfl
@[simp] theorem State.hwReg_pending (s : State) (a : Nat) (w : Word) : (s.hwReg a w).pending = s.pending := by unfold State.hwReg; split <;> rfl
@[simp] theorem State.hwReg_shadow (s : State) (a : Nat) (w : Word) : (s.hwReg a w).shadow = s.shadow := by unfold State.hwReg; split <;> rfl
@[simp] theorem State.hwReg_fcm (s : State) (a : Nat) (w : Word) : (s.hwReg a w).fcm = s.fcm := by unfold State.hwReg; split <;> rfl
@[simp] theorem State.hwReg_free (s : State) (a : Nat) (w : Word) : (s.hwReg a w).free = s.free := by unfold State.hwReg; split <;> rfl
@[simp] theorem State.hwReg_time (s : State) (a : Nat) (w : Word) : (s.hwReg a w).time = s.time := by unfold State.hwReg; split <;> rfl
@[simp] theorem State.hwReg_moves (s : State) (a : Nat) (w : Word) : (s.hwReg a w).moves = s.moves := by unfold State.hwReg; split <;> rfl
@[simp] theorem State.hwReg_gens (s : State) (a : Nat) (w : Word) : (s.hwReg a w).gens = s.gens := by unfold State.hwReg; split <;> rfl
@[simp] theorem State.hwReg_pipe (s : State) (a : Nat) (w : Word) : (s.hwReg a w).pipe = s.pipe := by unfold State.hwReg; split <;> rfl
@[simp] theorem State.hwReg_scan (s : State) (a : Nat) (w : Word) : (s.hwReg a w).scan = s.scan := by unfold State.hwReg; split <;> rfl
@[simp] theorem State.hwReg_motif (s : State) (a : Nat) (w : Word) : (s.hwReg a w).motif = s.motif := by unfold State.hwReg; split <;> rfl
@[simp] theorem State.hwReg_fallback (s : State) (a : Nat) (w : Word) : (s.hwReg a w).fallback = s.fallback := by unfold State.hwReg; split <;> rfl
@[simp] theorem State.hwReg_badWords (s : State) (a : Nat) (w : Word) : (s.hwReg a w).badWords = s.badWords := by unfold State.hwReg; split <;> rfl
@[simp] theorem State.hwReg_sink (s : State) (a : Nat) (w : Word) : (s.hwReg a w).sink = s.sink := by unfold State.hwReg; split <;> rfl
@[simp] theorem State.hwReg_census (s : State) (a : Nat) (w : Word) : (s.hwReg a w).census = s.census := by unfold State.hwReg; split <;> rfl
@[simp] theorem State.hwReg_cvu (s : State) (a : Nat) (w : Word) : (s.hwReg a w).cvu = s.cvu := by unfold State.hwReg; split <;> rfl
@[simp] theorem State.hwReg_pawns (s : State) (a : Nat) (w : Word) : (s.hwReg a w).pawns = s.pawns := by unfold State.hwReg; split <;> rfl
@[simp] theorem State.hwReg_spwm (s : State) (a : Nat) (w : Word) : (s.hwReg a w).spwm = s.spwm := by unfold State.hwReg; split <;> rfl
@[simp] theorem State.hwReg_mir (s : State) (a : Nat) (w : Word) : (s.hwReg a w).mir = s.mir := by unfold State.hwReg; split <;> rfl
@[simp] theorem State.hwReg_net (s : State) (a : Nat) (w : Word) : (s.hwReg a w).net = s.net := by unfold State.hwReg; split <;> rfl
@[simp] theorem State.hwReg_poll (s : State) (a : Nat) (w : Word) : (s.hwReg a w).poll = s.poll := by unfold State.hwReg; split <;> rfl
@[simp] theorem State.hwReg_klp (s : State) (a : Nat) (w : Word) : (s.hwReg a w).klp = s.klp := by unfold State.hwReg; split <;> rfl
@[simp] theorem State.hwReg_cmd (s : State) (a : Nat) (w : Word) : (s.hwReg a w).cmd = s.cmd := by unfold State.hwReg; split <;> rfl
@[simp] theorem State.hwReg_store (s : State) (a : Nat) (w : Word) : (s.hwReg a w).store = s.store := by unfold State.hwReg; split <;> rfl
@[simp] theorem State.hwReg_pwr (s : State) (a : Nat) (w : Word) : (s.hwReg a w).pwr = s.pwr := by unfold State.hwReg; split <;> rfl
@[simp] theorem State.hwReg_rook (s : State) (a : Nat) (w : Word) : (s.hwReg a w).rook = s.rook := by unfold State.hwReg; split <;> rfl
@[simp] theorem State.hwReg_cycle (s : State) (a : Nat) (w : Word) : (s.hwReg a w).cycle = s.cycle := by unfold State.hwReg; split <;> rfl
@[simp] theorem State.hwWr_pending (s : State) (f : Fld) (v : Nat) : (s.hwWr f v).pending = s.pending := by unfold State.hwWr; split <;> rfl
@[simp] theorem State.hwWr_shadow (s : State) (f : Fld) (v : Nat) : (s.hwWr f v).shadow = s.shadow := by unfold State.hwWr; split <;> rfl
@[simp] theorem State.hwWr_fcm (s : State) (f : Fld) (v : Nat) : (s.hwWr f v).fcm = s.fcm := by unfold State.hwWr; split <;> rfl
@[simp] theorem State.hwWr_free (s : State) (f : Fld) (v : Nat) : (s.hwWr f v).free = s.free := by unfold State.hwWr; split <;> rfl
@[simp] theorem State.hwWr_time (s : State) (f : Fld) (v : Nat) : (s.hwWr f v).time = s.time := by unfold State.hwWr; split <;> rfl
@[simp] theorem State.hwWr_moves (s : State) (f : Fld) (v : Nat) : (s.hwWr f v).moves = s.moves := by unfold State.hwWr; split <;> rfl
@[simp] theorem State.hwWr_gens (s : State) (f : Fld) (v : Nat) : (s.hwWr f v).gens = s.gens := by unfold State.hwWr; split <;> rfl
@[simp] theorem State.hwWr_pipe (s : State) (f : Fld) (v : Nat) : (s.hwWr f v).pipe = s.pipe := by unfold State.hwWr; split <;> rfl
@[simp] theorem State.hwWr_scan (s : State) (f : Fld) (v : Nat) : (s.hwWr f v).scan = s.scan := by unfold State.hwWr; split <;> rfl
@[simp] theorem State.hwWr_motif (s : State) (f : Fld) (v : Nat) : (s.hwWr f v).motif = s.motif := by unfold State.hwWr; split <;> rfl
@[simp] theorem State.hwWr_fallback (s : State) (f : Fld) (v : Nat) : (s.hwWr f v).fallback = s.fallback := by unfold State.hwWr; split <;> rfl
@[simp] theorem State.hwWr_badWords (s : State) (f : Fld) (v : Nat) : (s.hwWr f v).badWords = s.badWords := by unfold State.hwWr; split <;> rfl
@[simp] theorem State.hwWr_sink (s : State) (f : Fld) (v : Nat) : (s.hwWr f v).sink = s.sink := by unfold State.hwWr; split <;> rfl
@[simp] theorem State.hwWr_census (s : State) (f : Fld) (v : Nat) : (s.hwWr f v).census = s.census := by unfold State.hwWr; split <;> rfl
@[simp] theorem State.hwWr_cvu (s : State) (f : Fld) (v : Nat) : (s.hwWr f v).cvu = s.cvu := by unfold State.hwWr; split <;> rfl
@[simp] theorem State.hwWr_pawns (s : State) (f : Fld) (v : Nat) : (s.hwWr f v).pawns = s.pawns := by unfold State.hwWr; split <;> rfl
@[simp] theorem State.hwWr_spwm (s : State) (f : Fld) (v : Nat) : (s.hwWr f v).spwm = s.spwm := by unfold State.hwWr; split <;> rfl
@[simp] theorem State.hwWr_mir (s : State) (f : Fld) (v : Nat) : (s.hwWr f v).mir = s.mir := by unfold State.hwWr; split <;> rfl
@[simp] theorem State.hwWr_net (s : State) (f : Fld) (v : Nat) : (s.hwWr f v).net = s.net := by unfold State.hwWr; split <;> rfl
@[simp] theorem State.hwWr_poll (s : State) (f : Fld) (v : Nat) : (s.hwWr f v).poll = s.poll := by unfold State.hwWr; split <;> rfl
@[simp] theorem State.hwWr_klp (s : State) (f : Fld) (v : Nat) : (s.hwWr f v).klp = s.klp := by unfold State.hwWr; split <;> rfl
@[simp] theorem State.hwWr_cmd (s : State) (f : Fld) (v : Nat) : (s.hwWr f v).cmd = s.cmd := by unfold State.hwWr; split <;> rfl
@[simp] theorem State.hwWr_store (s : State) (f : Fld) (v : Nat) : (s.hwWr f v).store = s.store := by unfold State.hwWr; split <;> rfl
@[simp] theorem State.hwWr_pwr (s : State) (f : Fld) (v : Nat) : (s.hwWr f v).pwr = s.pwr := by unfold State.hwWr; split <;> rfl
@[simp] theorem State.hwWr_rook (s : State) (f : Fld) (v : Nat) : (s.hwWr f v).rook = s.rook := by unfold State.hwWr; split <;> rfl
@[simp] theorem State.hwWr_cycle (s : State) (f : Fld) (v : Nat) : (s.hwWr f v).cycle = s.cycle := by unfold State.hwWr; split <;> rfl
@[simp] theorem State.hwWrSh_pending (s : State) (f : Fld) (v : Nat) : (s.hwWrSh f v).pending = s.pending := by unfold State.hwWrSh; split <;> rfl
@[simp] theorem State.hwWrSh_regs (s : State) (f : Fld) (v : Nat) : (s.hwWrSh f v).regs = s.regs := by unfold State.hwWrSh; split <;> rfl
@[simp] theorem State.hwWrSh_fcm (s : State) (f : Fld) (v : Nat) : (s.hwWrSh f v).fcm = s.fcm := by unfold State.hwWrSh; split <;> rfl
@[simp] theorem State.hwWrSh_free (s : State) (f : Fld) (v : Nat) : (s.hwWrSh f v).free = s.free := by unfold State.hwWrSh; split <;> rfl
@[simp] theorem State.hwWrSh_time (s : State) (f : Fld) (v : Nat) : (s.hwWrSh f v).time = s.time := by unfold State.hwWrSh; split <;> rfl
@[simp] theorem State.hwWrSh_moves (s : State) (f : Fld) (v : Nat) : (s.hwWrSh f v).moves = s.moves := by unfold State.hwWrSh; split <;> rfl
@[simp] theorem State.hwWrSh_gens (s : State) (f : Fld) (v : Nat) : (s.hwWrSh f v).gens = s.gens := by unfold State.hwWrSh; split <;> rfl
@[simp] theorem State.hwWrSh_pipe (s : State) (f : Fld) (v : Nat) : (s.hwWrSh f v).pipe = s.pipe := by unfold State.hwWrSh; split <;> rfl
@[simp] theorem State.hwWrSh_scan (s : State) (f : Fld) (v : Nat) : (s.hwWrSh f v).scan = s.scan := by unfold State.hwWrSh; split <;> rfl
@[simp] theorem State.hwWrSh_motif (s : State) (f : Fld) (v : Nat) : (s.hwWrSh f v).motif = s.motif := by unfold State.hwWrSh; split <;> rfl
@[simp] theorem State.hwWrSh_fallback (s : State) (f : Fld) (v : Nat) : (s.hwWrSh f v).fallback = s.fallback := by unfold State.hwWrSh; split <;> rfl
@[simp] theorem State.hwWrSh_badWords (s : State) (f : Fld) (v : Nat) : (s.hwWrSh f v).badWords = s.badWords := by unfold State.hwWrSh; split <;> rfl
@[simp] theorem State.hwWrSh_sink (s : State) (f : Fld) (v : Nat) : (s.hwWrSh f v).sink = s.sink := by unfold State.hwWrSh; split <;> rfl
@[simp] theorem State.hwWrSh_census (s : State) (f : Fld) (v : Nat) : (s.hwWrSh f v).census = s.census := by unfold State.hwWrSh; split <;> rfl
@[simp] theorem State.hwWrSh_cvu (s : State) (f : Fld) (v : Nat) : (s.hwWrSh f v).cvu = s.cvu := by unfold State.hwWrSh; split <;> rfl
@[simp] theorem State.hwWrSh_pawns (s : State) (f : Fld) (v : Nat) : (s.hwWrSh f v).pawns = s.pawns := by unfold State.hwWrSh; split <;> rfl
@[simp] theorem State.hwWrSh_spwm (s : State) (f : Fld) (v : Nat) : (s.hwWrSh f v).spwm = s.spwm := by unfold State.hwWrSh; split <;> rfl
@[simp] theorem State.hwWrSh_mir (s : State) (f : Fld) (v : Nat) : (s.hwWrSh f v).mir = s.mir := by unfold State.hwWrSh; split <;> rfl
@[simp] theorem State.hwWrSh_net (s : State) (f : Fld) (v : Nat) : (s.hwWrSh f v).net = s.net := by unfold State.hwWrSh; split <;> rfl
@[simp] theorem State.hwWrSh_poll (s : State) (f : Fld) (v : Nat) : (s.hwWrSh f v).poll = s.poll := by unfold State.hwWrSh; split <;> rfl
@[simp] theorem State.hwWrSh_klp (s : State) (f : Fld) (v : Nat) : (s.hwWrSh f v).klp = s.klp := by unfold State.hwWrSh; split <;> rfl
@[simp] theorem State.hwWrSh_cmd (s : State) (f : Fld) (v : Nat) : (s.hwWrSh f v).cmd = s.cmd := by unfold State.hwWrSh; split <;> rfl
@[simp] theorem State.hwWrSh_store (s : State) (f : Fld) (v : Nat) : (s.hwWrSh f v).store = s.store := by unfold State.hwWrSh; split <;> rfl
@[simp] theorem State.hwWrSh_pwr (s : State) (f : Fld) (v : Nat) : (s.hwWrSh f v).pwr = s.pwr := by unfold State.hwWrSh; split <;> rfl
@[simp] theorem State.hwWrSh_rook (s : State) (f : Fld) (v : Nat) : (s.hwWrSh f v).rook = s.rook := by unfold State.hwWrSh; split <;> rfl
@[simp] theorem State.hwWrSh_cycle (s : State) (f : Fld) (v : Nat) : (s.hwWrSh f v).cycle = s.cycle := by unfold State.hwWrSh; split <;> rfl
@[simp] theorem State.clockTo_pending (s : State) (t : Vt) : (s.clockTo t).pending = s.pending := rfl
@[simp] theorem State.clockTo_regs (s : State) (t : Vt) : (s.clockTo t).regs = s.regs := rfl
@[simp] theorem State.clockTo_shadow (s : State) (t : Vt) : (s.clockTo t).shadow = s.shadow := rfl
@[simp] theorem State.clockTo_fcm (s : State) (t : Vt) : (s.clockTo t).fcm = s.fcm := rfl
@[simp] theorem State.clockTo_free (s : State) (t : Vt) : (s.clockTo t).free = s.free := rfl
@[simp] theorem State.clockTo_moves (s : State) (t : Vt) : (s.clockTo t).moves = s.moves := rfl
@[simp] theorem State.clockTo_gens (s : State) (t : Vt) : (s.clockTo t).gens = s.gens := rfl
@[simp] theorem State.clockTo_pipe (s : State) (t : Vt) : (s.clockTo t).pipe = s.pipe := rfl
@[simp] theorem State.clockTo_scan (s : State) (t : Vt) : (s.clockTo t).scan = s.scan := rfl
@[simp] theorem State.clockTo_motif (s : State) (t : Vt) : (s.clockTo t).motif = s.motif := rfl
@[simp] theorem State.clockTo_fallback (s : State) (t : Vt) : (s.clockTo t).fallback = s.fallback := rfl
@[simp] theorem State.clockTo_badWords (s : State) (t : Vt) : (s.clockTo t).badWords = s.badWords := rfl
@[simp] theorem State.clockTo_sink (s : State) (t : Vt) : (s.clockTo t).sink = s.sink := rfl
@[simp] theorem State.clockTo_census (s : State) (t : Vt) : (s.clockTo t).census = s.census := rfl
@[simp] theorem State.clockTo_cvu (s : State) (t : Vt) : (s.clockTo t).cvu = s.cvu := rfl
@[simp] theorem State.clockTo_spwm (s : State) (t : Vt) : (s.clockTo t).spwm = s.spwm := rfl
@[simp] theorem State.clockTo_mir (s : State) (t : Vt) : (s.clockTo t).mir = s.mir := rfl
@[simp] theorem State.clockTo_net (s : State) (t : Vt) : (s.clockTo t).net = s.net := rfl
@[simp] theorem State.clockTo_poll (s : State) (t : Vt) : (s.clockTo t).poll = s.poll := rfl
@[simp] theorem State.clockTo_klp (s : State) (t : Vt) : (s.clockTo t).klp = s.klp := rfl
@[simp] theorem State.clockTo_cmd (s : State) (t : Vt) : (s.clockTo t).cmd = s.cmd := rfl
@[simp] theorem State.clockTo_store (s : State) (t : Vt) : (s.clockTo t).store = s.store := rfl
@[simp] theorem State.clockTo_pwr (s : State) (t : Vt) : (s.clockTo t).pwr = s.pwr := rfl
@[simp] theorem State.clockTo_rook (s : State) (t : Vt) : (s.clockTo t).rook = s.rook := rfl
@[simp] theorem State.clockTo_cycle (s : State) (t : Vt) : (s.clockTo t).cycle = s.cycle := rfl
@[simp] theorem State.elapseTo_pending (s : State) (t : Vt) : (s.elapseTo t).pending = s.pending := by
  unfold State.elapseTo; dsimp only; split <;> (try split) <;> rfl
@[simp] theorem State.elapseTo_regs (s : State) (t : Vt) : (s.elapseTo t).regs = s.regs := by
  unfold State.elapseTo; dsimp only; split <;> (try split) <;> rfl
@[simp] theorem State.elapseTo_shadow (s : State) (t : Vt) : (s.elapseTo t).shadow = s.shadow := by
  unfold State.elapseTo; dsimp only; split <;> (try split) <;> rfl
@[simp] theorem State.elapseTo_fcm (s : State) (t : Vt) : (s.elapseTo t).fcm = s.fcm := by
  unfold State.elapseTo; dsimp only; split <;> (try split) <;> rfl
@[simp] theorem State.elapseTo_free (s : State) (t : Vt) : (s.elapseTo t).free = s.free := by
  unfold State.elapseTo; dsimp only; split <;> (try split) <;> rfl
@[simp] theorem State.elapseTo_moves (s : State) (t : Vt) : (s.elapseTo t).moves = s.moves := by
  unfold State.elapseTo; dsimp only; split <;> (try split) <;> rfl
@[simp] theorem State.elapseTo_gens (s : State) (t : Vt) : (s.elapseTo t).gens = s.gens := by
  unfold State.elapseTo; dsimp only; split <;> (try split) <;> rfl
@[simp] theorem State.elapseTo_pipe (s : State) (t : Vt) : (s.elapseTo t).pipe = s.pipe := by
  unfold State.elapseTo; dsimp only; split <;> (try split) <;> rfl
@[simp] theorem State.elapseTo_scan (s : State) (t : Vt) : (s.elapseTo t).scan = s.scan := by
  unfold State.elapseTo; dsimp only; split <;> (try split) <;> rfl
@[simp] theorem State.elapseTo_motif (s : State) (t : Vt) : (s.elapseTo t).motif = s.motif := by
  unfold State.elapseTo; dsimp only; split <;> (try split) <;> rfl
@[simp] theorem State.elapseTo_fallback (s : State) (t : Vt) : (s.elapseTo t).fallback = s.fallback := by
  unfold State.elapseTo; dsimp only; split <;> (try split) <;> rfl
@[simp] theorem State.elapseTo_badWords (s : State) (t : Vt) : (s.elapseTo t).badWords = s.badWords := by
  unfold State.elapseTo; dsimp only; split <;> (try split) <;> rfl
@[simp] theorem State.elapseTo_sink (s : State) (t : Vt) : (s.elapseTo t).sink = s.sink := by
  unfold State.elapseTo; dsimp only; split <;> (try split) <;> rfl
@[simp] theorem State.elapseTo_census (s : State) (t : Vt) : (s.elapseTo t).census = s.census := by
  unfold State.elapseTo; dsimp only; split <;> (try split) <;> rfl
@[simp] theorem State.elapseTo_cvu (s : State) (t : Vt) : (s.elapseTo t).cvu = s.cvu := by
  unfold State.elapseTo; dsimp only; split <;> (try split) <;> rfl
@[simp] theorem State.elapseTo_spwm (s : State) (t : Vt) : (s.elapseTo t).spwm = s.spwm := by
  unfold State.elapseTo; dsimp only; split <;> (try split) <;> rfl
@[simp] theorem State.elapseTo_mir (s : State) (t : Vt) : (s.elapseTo t).mir = s.mir := by
  unfold State.elapseTo; dsimp only; split <;> (try split) <;> rfl
@[simp] theorem State.elapseTo_net (s : State) (t : Vt) : (s.elapseTo t).net = s.net := by
  unfold State.elapseTo; dsimp only; split <;> (try split) <;> rfl
@[simp] theorem State.elapseTo_poll (s : State) (t : Vt) : (s.elapseTo t).poll = s.poll := by
  unfold State.elapseTo; dsimp only; split <;> (try split) <;> rfl
@[simp] theorem State.elapseTo_klp (s : State) (t : Vt) : (s.elapseTo t).klp = s.klp := by
  unfold State.elapseTo; dsimp only; split <;> (try split) <;> rfl
@[simp] theorem State.elapseTo_cmd (s : State) (t : Vt) : (s.elapseTo t).cmd = s.cmd := by
  unfold State.elapseTo; dsimp only; split <;> (try split) <;> rfl
@[simp] theorem State.elapseTo_store (s : State) (t : Vt) : (s.elapseTo t).store = s.store := by
  unfold State.elapseTo; dsimp only; split <;> (try split) <;> rfl
@[simp] theorem State.elapseTo_pwr (s : State) (t : Vt) : (s.elapseTo t).pwr = s.pwr := by
  unfold State.elapseTo; dsimp only; split <;> (try split) <;> rfl
@[simp] theorem State.elapseTo_rook (s : State) (t : Vt) : (s.elapseTo t).rook = s.rook := by
  unfold State.elapseTo; dsimp only; split <;> (try split) <;> rfl
@[simp] theorem State.draw_pending (s : State) : s.draw.2.pending = s.pending := rfl
@[simp] theorem State.draw_regs (s : State) : s.draw.2.regs = s.regs := rfl
@[simp] theorem State.draw_shadow (s : State) : s.draw.2.shadow = s.shadow := rfl
@[simp] theorem State.draw_fcm (s : State) : s.draw.2.fcm = s.fcm := rfl
@[simp] theorem State.draw_time (s : State) : s.draw.2.time = s.time := rfl
@[simp] theorem State.draw_moves (s : State) : s.draw.2.moves = s.moves := rfl
@[simp] theorem State.draw_gens (s : State) : s.draw.2.gens = s.gens := rfl
@[simp] theorem State.draw_pipe (s : State) : s.draw.2.pipe = s.pipe := rfl
@[simp] theorem State.draw_scan (s : State) : s.draw.2.scan = s.scan := rfl
@[simp] theorem State.draw_motif (s : State) : s.draw.2.motif = s.motif := rfl
@[simp] theorem State.draw_fallback (s : State) : s.draw.2.fallback = s.fallback := rfl
@[simp] theorem State.draw_badWords (s : State) : s.draw.2.badWords = s.badWords := rfl
@[simp] theorem State.draw_sink (s : State) : s.draw.2.sink = s.sink := rfl
@[simp] theorem State.draw_census (s : State) : s.draw.2.census = s.census := rfl
@[simp] theorem State.draw_cvu (s : State) : s.draw.2.cvu = s.cvu := rfl
@[simp] theorem State.draw_pawns (s : State) : s.draw.2.pawns = s.pawns := rfl
@[simp] theorem State.draw_spwm (s : State) : s.draw.2.spwm = s.spwm := rfl
@[simp] theorem State.draw_mir (s : State) : s.draw.2.mir = s.mir := rfl
@[simp] theorem State.draw_net (s : State) : s.draw.2.net = s.net := rfl
@[simp] theorem State.draw_poll (s : State) : s.draw.2.poll = s.poll := rfl
@[simp] theorem State.draw_klp (s : State) : s.draw.2.klp = s.klp := rfl
@[simp] theorem State.draw_cmd (s : State) : s.draw.2.cmd = s.cmd := rfl
@[simp] theorem State.draw_store (s : State) : s.draw.2.store = s.store := rfl
@[simp] theorem State.draw_pwr (s : State) : s.draw.2.pwr = s.pwr := rfl
@[simp] theorem State.draw_rook (s : State) : s.draw.2.rook = s.rook := rfl
@[simp] theorem State.pollPost_pending (s : State) (n : Nat) (m : Bool) (d v : Nat) : (s.pollPost n m d v).pending = s.pending := by
  unfold State.pollPost
  split
  · dsimp only; split <;> rfl
  · rfl
@[simp] theorem State.pollPost_shadow (s : State) (n : Nat) (m : Bool) (d v : Nat) : (s.pollPost n m d v).shadow = s.shadow := by
  unfold State.pollPost
  split
  · dsimp only; split <;> rfl
  · rfl
@[simp] theorem State.pollPost_fcm (s : State) (n : Nat) (m : Bool) (d v : Nat) : (s.pollPost n m d v).fcm = s.fcm := by
  unfold State.pollPost
  split
  · dsimp only; split <;> rfl
  · rfl
@[simp] theorem State.pollPost_free (s : State) (n : Nat) (m : Bool) (d v : Nat) : (s.pollPost n m d v).free = s.free := by
  unfold State.pollPost
  split
  · dsimp only; split <;> rfl
  · rfl
@[simp] theorem State.pollPost_time (s : State) (n : Nat) (m : Bool) (d v : Nat) : (s.pollPost n m d v).time = s.time := by
  unfold State.pollPost
  split
  · dsimp only; split <;> rfl
  · rfl
@[simp] theorem State.pollPost_moves (s : State) (n : Nat) (m : Bool) (d v : Nat) : (s.pollPost n m d v).moves = s.moves := by
  unfold State.pollPost
  split
  · dsimp only; split <;> rfl
  · rfl
@[simp] theorem State.pollPost_gens (s : State) (n : Nat) (m : Bool) (d v : Nat) : (s.pollPost n m d v).gens = s.gens := by
  unfold State.pollPost
  split
  · dsimp only; split <;> rfl
  · rfl
@[simp] theorem State.pollPost_pipe (s : State) (n : Nat) (m : Bool) (d v : Nat) : (s.pollPost n m d v).pipe = s.pipe := by
  unfold State.pollPost
  split
  · dsimp only; split <;> rfl
  · rfl
@[simp] theorem State.pollPost_scan (s : State) (n : Nat) (m : Bool) (d v : Nat) : (s.pollPost n m d v).scan = s.scan := by
  unfold State.pollPost
  split
  · dsimp only; split <;> rfl
  · rfl
@[simp] theorem State.pollPost_motif (s : State) (n : Nat) (m : Bool) (d v : Nat) : (s.pollPost n m d v).motif = s.motif := by
  unfold State.pollPost
  split
  · dsimp only; split <;> rfl
  · rfl
@[simp] theorem State.pollPost_fallback (s : State) (n : Nat) (m : Bool) (d v : Nat) : (s.pollPost n m d v).fallback = s.fallback := by
  unfold State.pollPost
  split
  · dsimp only; split <;> rfl
  · rfl
@[simp] theorem State.pollPost_badWords (s : State) (n : Nat) (m : Bool) (d v : Nat) : (s.pollPost n m d v).badWords = s.badWords := by
  unfold State.pollPost
  split
  · dsimp only; split <;> rfl
  · rfl
@[simp] theorem State.pollPost_sink (s : State) (n : Nat) (m : Bool) (d v : Nat) : (s.pollPost n m d v).sink = s.sink := by
  unfold State.pollPost
  split
  · dsimp only; split <;> rfl
  · rfl
@[simp] theorem State.pollPost_census (s : State) (n : Nat) (m : Bool) (d v : Nat) : (s.pollPost n m d v).census = s.census := by
  unfold State.pollPost
  split
  · dsimp only; split <;> rfl
  · rfl
@[simp] theorem State.pollPost_cvu (s : State) (n : Nat) (m : Bool) (d v : Nat) : (s.pollPost n m d v).cvu = s.cvu := by
  unfold State.pollPost
  split
  · dsimp only; split <;> rfl
  · rfl
@[simp] theorem State.pollPost_pawns (s : State) (n : Nat) (m : Bool) (d v : Nat) : (s.pollPost n m d v).pawns = s.pawns := by
  unfold State.pollPost
  split
  · dsimp only; split <;> rfl
  · rfl
@[simp] theorem State.pollPost_spwm (s : State) (n : Nat) (m : Bool) (d v : Nat) : (s.pollPost n m d v).spwm = s.spwm := by
  unfold State.pollPost
  split
  · dsimp only; split <;> rfl
  · rfl
@[simp] theorem State.pollPost_mir (s : State) (n : Nat) (m : Bool) (d v : Nat) : (s.pollPost n m d v).mir = s.mir := by
  unfold State.pollPost
  split
  · dsimp only; split <;> rfl
  · rfl
@[simp] theorem State.pollPost_net (s : State) (n : Nat) (m : Bool) (d v : Nat) : (s.pollPost n m d v).net = s.net := by
  unfold State.pollPost
  split
  · dsimp only; split <;> rfl
  · rfl
@[simp] theorem State.pollPost_cmd (s : State) (n : Nat) (m : Bool) (d v : Nat) : (s.pollPost n m d v).cmd = s.cmd := by
  unfold State.pollPost
  split
  · dsimp only; split <;> rfl
  · rfl
@[simp] theorem State.pollPost_store (s : State) (n : Nat) (m : Bool) (d v : Nat) : (s.pollPost n m d v).store = s.store := by
  unfold State.pollPost
  split
  · dsimp only; split <;> rfl
  · rfl
@[simp] theorem State.pollPost_pwr (s : State) (n : Nat) (m : Bool) (d v : Nat) : (s.pollPost n m d v).pwr = s.pwr := by
  unfold State.pollPost
  split
  · dsimp only; split <;> rfl
  · rfl
@[simp] theorem State.pollPost_rook (s : State) (n : Nat) (m : Bool) (d v : Nat) : (s.pollPost n m d v).rook = s.rook := by
  unfold State.pollPost
  split
  · dsimp only; split <;> rfl
  · rfl
@[simp] theorem State.raiseAs_pending (s : State) (m : Bool) (n d : Nat) : (s.raiseAs m n d).pending = s.pending := by simp [State.raiseAs]
@[simp] theorem State.raiseAs_shadow (s : State) (m : Bool) (n d : Nat) : (s.raiseAs m n d).shadow = s.shadow := by simp [State.raiseAs]
@[simp] theorem State.raiseAs_fcm (s : State) (m : Bool) (n d : Nat) : (s.raiseAs m n d).fcm = s.fcm := by simp [State.raiseAs]
@[simp] theorem State.raiseAs_free (s : State) (m : Bool) (n d : Nat) : (s.raiseAs m n d).free = s.free := by simp [State.raiseAs]
@[simp] theorem State.raiseAs_time (s : State) (m : Bool) (n d : Nat) : (s.raiseAs m n d).time = s.time := by simp [State.raiseAs]
@[simp] theorem State.raiseAs_moves (s : State) (m : Bool) (n d : Nat) : (s.raiseAs m n d).moves = s.moves := by simp [State.raiseAs]
@[simp] theorem State.raiseAs_gens (s : State) (m : Bool) (n d : Nat) : (s.raiseAs m n d).gens = s.gens := by simp [State.raiseAs]
@[simp] theorem State.raiseAs_pipe (s : State) (m : Bool) (n d : Nat) : (s.raiseAs m n d).pipe = s.pipe := by simp [State.raiseAs]
@[simp] theorem State.raiseAs_scan (s : State) (m : Bool) (n d : Nat) : (s.raiseAs m n d).scan = s.scan := by simp [State.raiseAs]
@[simp] theorem State.raiseAs_motif (s : State) (m : Bool) (n d : Nat) : (s.raiseAs m n d).motif = s.motif := by simp [State.raiseAs]
@[simp] theorem State.raiseAs_fallback (s : State) (m : Bool) (n d : Nat) : (s.raiseAs m n d).fallback = s.fallback := by simp [State.raiseAs]
@[simp] theorem State.raiseAs_badWords (s : State) (m : Bool) (n d : Nat) : (s.raiseAs m n d).badWords = s.badWords := by simp [State.raiseAs]
@[simp] theorem State.raiseAs_sink (s : State) (m : Bool) (n d : Nat) : (s.raiseAs m n d).sink = s.sink := by simp [State.raiseAs]
@[simp] theorem State.raiseAs_census (s : State) (m : Bool) (n d : Nat) : (s.raiseAs m n d).census = s.census := by simp [State.raiseAs]
@[simp] theorem State.raiseAs_cvu (s : State) (m : Bool) (n d : Nat) : (s.raiseAs m n d).cvu = s.cvu := by simp [State.raiseAs]
@[simp] theorem State.raiseAs_pawns (s : State) (m : Bool) (n d : Nat) : (s.raiseAs m n d).pawns = s.pawns := by simp [State.raiseAs]
@[simp] theorem State.raiseAs_spwm (s : State) (m : Bool) (n d : Nat) : (s.raiseAs m n d).spwm = s.spwm := by simp [State.raiseAs]
@[simp] theorem State.raiseAs_mir (s : State) (m : Bool) (n d : Nat) : (s.raiseAs m n d).mir = s.mir := by simp [State.raiseAs]
@[simp] theorem State.raiseAs_net (s : State) (m : Bool) (n d : Nat) : (s.raiseAs m n d).net = s.net := by simp [State.raiseAs]
@[simp] theorem State.raiseAs_cmd (s : State) (m : Bool) (n d : Nat) : (s.raiseAs m n d).cmd = s.cmd := by simp [State.raiseAs]
@[simp] theorem State.raiseAs_store (s : State) (m : Bool) (n d : Nat) : (s.raiseAs m n d).store = s.store := by simp [State.raiseAs]
@[simp] theorem State.raiseAs_pwr (s : State) (m : Bool) (n d : Nat) : (s.raiseAs m n d).pwr = s.pwr := by simp [State.raiseAs]
@[simp] theorem State.raiseAs_rook (s : State) (m : Bool) (n d : Nat) : (s.raiseAs m n d).rook = s.rook := by simp [State.raiseAs]
@[simp] theorem State.raise_pending (s : State) (n d : Nat) : (s.raise n d).pending = s.pending := by simp [State.raise]
@[simp] theorem State.raise_shadow (s : State) (n d : Nat) : (s.raise n d).shadow = s.shadow := by simp [State.raise]
@[simp] theorem State.raise_fcm (s : State) (n d : Nat) : (s.raise n d).fcm = s.fcm := by simp [State.raise]
@[simp] theorem State.raise_free (s : State) (n d : Nat) : (s.raise n d).free = s.free := by simp [State.raise]
@[simp] theorem State.raise_time (s : State) (n d : Nat) : (s.raise n d).time = s.time := by simp [State.raise]
@[simp] theorem State.raise_moves (s : State) (n d : Nat) : (s.raise n d).moves = s.moves := by simp [State.raise]
@[simp] theorem State.raise_gens (s : State) (n d : Nat) : (s.raise n d).gens = s.gens := by simp [State.raise]
@[simp] theorem State.raise_pipe (s : State) (n d : Nat) : (s.raise n d).pipe = s.pipe := by simp [State.raise]
@[simp] theorem State.raise_scan (s : State) (n d : Nat) : (s.raise n d).scan = s.scan := by simp [State.raise]
@[simp] theorem State.raise_motif (s : State) (n d : Nat) : (s.raise n d).motif = s.motif := by simp [State.raise]
@[simp] theorem State.raise_fallback (s : State) (n d : Nat) : (s.raise n d).fallback = s.fallback := by simp [State.raise]
@[simp] theorem State.raise_badWords (s : State) (n d : Nat) : (s.raise n d).badWords = s.badWords := by simp [State.raise]
@[simp] theorem State.raise_sink (s : State) (n d : Nat) : (s.raise n d).sink = s.sink := by simp [State.raise]
@[simp] theorem State.raise_census (s : State) (n d : Nat) : (s.raise n d).census = s.census := by simp [State.raise]
@[simp] theorem State.raise_cvu (s : State) (n d : Nat) : (s.raise n d).cvu = s.cvu := by simp [State.raise]
@[simp] theorem State.raise_pawns (s : State) (n d : Nat) : (s.raise n d).pawns = s.pawns := by simp [State.raise]
@[simp] theorem State.raise_spwm (s : State) (n d : Nat) : (s.raise n d).spwm = s.spwm := by simp [State.raise]
@[simp] theorem State.raise_mir (s : State) (n d : Nat) : (s.raise n d).mir = s.mir := by simp [State.raise]
@[simp] theorem State.raise_net (s : State) (n d : Nat) : (s.raise n d).net = s.net := by simp [State.raise]
@[simp] theorem State.raise_cmd (s : State) (n d : Nat) : (s.raise n d).cmd = s.cmd := by simp [State.raise]
@[simp] theorem State.raise_store (s : State) (n d : Nat) : (s.raise n d).store = s.store := by simp [State.raise]
@[simp] theorem State.raise_pwr (s : State) (n d : Nat) : (s.raise n d).pwr = s.pwr := by simp [State.raise]
@[simp] theorem State.raise_rook (s : State) (n d : Nat) : (s.raise n d).rook = s.rook := by simp [State.raise]

end Sys2Proof.Machine
end

