-- ==== Sys2Proof/Laws/Regs.lean ====
section
/-! SUPPORT. Reads of registers, fields, shadows and the FCM after writes, events and clock changes. -/
namespace Sys2Proof.Machine

/-! ## Bit fields -/

theorem withBits_toNat (w : Word) (lo len v : Nat) (h : lo + len ≤ 32) :
    (withBits w lo len v).toNat = (w.toNat / 2 ^ (lo + len) * 2 ^ len + v % 2 ^ len) * 2 ^ lo + w.toNat % 2 ^ lo := by
  have e : w.toNat / 2 ^ (lo + len) * 2 ^ (lo + len) + v % 2 ^ len * 2 ^ lo + w.toNat % 2 ^ lo =
      (w.toNat / 2 ^ (lo + len) * 2 ^ len + v % 2 ^ len) * 2 ^ lo + w.toNat % 2 ^ lo := by
    rw [Nat.add_mul, Nat.mul_assoc, ← Nat.pow_add, Nat.add_comm len lo]
  have hw : w.toNat / 2 ^ (lo + len) < 2 ^ (32 - (lo + len)) := by
    apply Nat.div_lt_of_lt_mul
    rw [← Nat.pow_add, Nat.add_sub_cancel' h]
    exact w.isLt
  have h0 := Nat.mod_lt v (Nat.two_pow_pos len)
  have h1 : w.toNat / 2 ^ (lo + len) * 2 ^ len + v % 2 ^ len < 2 ^ (32 - lo) := by
    have a := Nat.mul_le_mul_right (2 ^ len) hw
    have b : 2 ^ (32 - (lo + len)) * 2 ^ len = 2 ^ (32 - lo) := by rw [← Nat.pow_add]; congr 1; omega
    have c := Nat.succ_mul (w.toNat / 2 ^ (lo + len)) (2 ^ len)
    omega
  have h2 := Nat.mod_lt w.toNat (Nat.two_pow_pos lo)
  have h3 : (w.toNat / 2 ^ (lo + len) * 2 ^ len + v % 2 ^ len) * 2 ^ lo + w.toNat % 2 ^ lo < 2 ^ 32 := by
    have a := Nat.mul_le_mul_right (2 ^ lo) h1
    have b : 2 ^ (32 - lo) * 2 ^ lo = 2 ^ 32 := by rw [← Nat.pow_add]; congr 1; omega
    have c := Nat.succ_mul (w.toNat / 2 ^ (lo + len) * 2 ^ len + v % 2 ^ len) (2 ^ lo)
    omega
  unfold withBits
  rw [BitVec.toNat_ofNat, e, Nat.mod_eq_of_lt h3]

/-- A field reads back as written. -/
theorem bitsOf_withBits (w : Word) (lo len v : Nat) (h : lo + len ≤ 32) : bitsOf (withBits w lo len v) lo len = v % 2 ^ len := by
  have h2 := Nat.mod_lt w.toNat (Nat.two_pow_pos lo)
  unfold bitsOf
  rw [withBits_toNat w lo len v h, Nat.mul_comm _ (2 ^ lo), Nat.mul_add_div (Nat.two_pow_pos lo), Nat.div_eq_of_lt h2,
    Nat.add_zero, Nat.mul_comm, Nat.mul_add_mod, Nat.mod_mod]

theorem bitsOf_lt (w : Word) (lo len : Nat) : bitsOf w lo len < 2 ^ len := Nat.mod_lt _ (Nat.two_pow_pos len)

/-- A field below the one written reads as before. -/
theorem bitsOf_withBits_below (w : Word) (lo len v lo' len' : Nat) (h : lo + len ≤ 32) (d : lo' + len' ≤ lo) :
    bitsOf (withBits w lo len v) lo' len' = bitsOf w lo' len' := by
  unfold bitsOf
  rw [withBits_toNat w lo len v h, ← Nat.mod_mul_right_div_self, ← Nat.mod_mul_right_div_self, ← Nat.pow_add]
  congr 1
  obtain ⟨k, rfl⟩ := Nat.exists_eq_add_of_le d
  have e1 : ∀ x y : Nat, (x * 2 ^ (lo' + len' + k) + y) % 2 ^ (lo' + len') = y % 2 ^ (lo' + len') := by
    intro x y
    rw [Nat.pow_add 2 (lo' + len') k, ← Nat.mul_assoc, Nat.mul_right_comm, Nat.add_comm, Nat.add_mul_mod_self_right]
  rw [e1, Nat.mod_mod_of_dvd _ ⟨2 ^ k, Nat.pow_add ..⟩]

/-- A field above the one written reads as before. -/
theorem bitsOf_withBits_above (w : Word) (lo len v lo' len' : Nat) (h : lo + len ≤ 32) (d : lo + len ≤ lo') :
    bitsOf (withBits w lo len v) lo' len' = bitsOf w lo' len' := by
  unfold bitsOf
  congr 1
  obtain ⟨k, rfl⟩ := Nat.exists_eq_add_of_le d
  have h2 := Nat.mod_lt w.toNat (Nat.two_pow_pos lo)
  have h0 := Nat.mod_lt v (Nat.two_pow_pos len)
  have e : ∀ x : Nat, x / 2 ^ (lo + len + k) = x / 2 ^ lo / 2 ^ len / 2 ^ k := by
    intro x; rw [Nat.pow_add, Nat.pow_add, Nat.div_div_eq_div_mul, Nat.div_div_eq_div_mul, Nat.mul_assoc]
  have e' : ∀ x : Nat, x / 2 ^ (lo + len) = x / 2 ^ lo / 2 ^ len := by
    intro x; rw [Nat.pow_add, Nat.div_div_eq_div_mul]
  rw [e, e, withBits_toNat w lo len v h, Nat.mul_comm _ (2 ^ lo), Nat.mul_add_div (Nat.two_pow_pos lo),
    Nat.div_eq_of_lt h2, Nat.add_zero, Nat.mul_comm _ (2 ^ len), Nat.mul_add_div (Nat.two_pow_pos len),
    Nat.div_eq_of_lt h0, Nat.add_zero, e']

/-! ## Registers and fields in force -/

theorem State.reg_setReg (s : State) (a : Nat) (w : Word) (b : Nat) :
    (s.setReg a w).reg b = if b = a then w else s.reg b := SMap.get_set ..

theorem State.reg_wr (s : State) (f : Fld) (v b : Nat) :
    (s.wr f v).reg b = if b = f.addr then withBits (s.reg f.addr) f.lo f.len v else s.reg b := State.reg_setReg ..

/-- A write elsewhere leaves a register. -/
theorem State.reg_wr_other (s : State) (f : Fld) (v b : Nat) (h : b ≠ f.addr) : (s.wr f v).reg b = s.reg b := by
  rw [State.reg_wr, if_neg h]

/-- A field of a register written reads back what was written. -/
theorem State.rd_wr_same (s : State) (f : Fld) (v : Nat) (h : f.lo + f.len ≤ 32) : (s.wr f v).rd f = v % 2 ^ f.len := by
  unfold State.rd
  rw [State.reg_wr, if_pos rfl, bitsOf_withBits _ _ _ _ h]

/-- A field of another register reads as before. -/
theorem State.rd_wr_other (s : State) (f g : Fld) (v : Nat) (h : g.addr ≠ f.addr) : (s.wr f v).rd g = s.rd g := by
  unfold State.rd
  rw [State.reg_wr_other s f v _ h]

/-- A field of the same register that shares no bit with the one written reads as before. -/
theorem State.rd_wr_apart (s : State) (f g : Fld) (v : Nat) (h : f.lo + f.len ≤ 32)
    (d : g.lo + g.len ≤ f.lo ∨ f.lo + f.len ≤ g.lo) : (s.wr f v).rd g = s.rd g := by
  unfold State.rd
  rw [State.reg_wr]
  split
  · rename_i e
    rw [e]
    rcases d with d | d
    · exact bitsOf_withBits_below _ _ _ _ _ _ h d
    · exact bitsOf_withBits_above _ _ _ _ _ _ h d
  · rfl

/-- What a write of a field does to any field: the general read, for evaluation at known fields. -/
theorem State.rd_wr (s : State) (f g : Fld) (v : Nat) :
    (s.wr f v).rd g = if g.addr = f.addr then bitsOf (withBits (s.reg f.addr) f.lo f.len v) g.lo g.len else s.rd g := by
  unfold State.rd
  rw [State.reg_wr]
  split <;> rfl

theorem State.rd_lt (s : State) (f : Fld) : s.rd f < 2 ^ f.len := bitsOf_lt ..

/-- Registers and fields depend on the register file alone. -/
theorem State.reg_congr {s t : State} (h : t.regs = s.regs) (a : Nat) : t.reg a = s.reg a := by unfold State.reg; rw [h]
theorem State.rd_congr {s t : State} (h : t.regs = s.regs) (f : Fld) : t.rd f = s.rd f := by
  unfold State.rd; rw [State.reg_congr h]
theorem State.rd_of_reg {s t : State} {f : Fld} (h : t.reg f.addr = s.reg f.addr) : t.rd f = s.rd f := by
  unfold State.rd; rw [h]
theorem State.rdB_of_reg {s t : State} {f : Fld} (h : t.reg f.addr = s.reg f.addr) : t.rdB f = s.rdB f := by
  unfold State.rdB; rw [State.rd_of_reg h]

theorem State.reg_wrB (s : State) (f : Fld) (v : Bool) (b : Nat) :
    (s.wrB f v).reg b = if b = f.addr then withBits (s.reg f.addr) f.lo f.len (if v then 1 else 0) else s.reg b := State.reg_wr ..

theorem State.reg_bump (s : State) (f : Fld) (b : Nat) (h : b ≠ f.addr) : (s.bump f).reg b = s.reg b := State.reg_wr_other _ _ _ _ h

/-- A saturating counter field after it has counted one. -/
theorem State.rd_bump (s : State) (f : Fld) (h : f.lo + f.len ≤ 32) : (s.bump f).rd f = min (s.rd f + 1) (2 ^ f.len - 1) := by
  have hp := Nat.two_pow_pos f.len
  show (s.wr f _).rd f = _
  rw [State.rd_wr_same _ _ _ h, Nat.mod_eq_of_lt]
  have := Nat.min_le_right (s.rd f + 1) (2 ^ f.len - 1)
  omega

/-! ## Shadows -/

theorem State.shReg_setShReg (s : State) (a : Nat) (w : Word) (b : Nat) :
    (s.setShReg a w).shReg b = if b = a then w else s.shReg b := SMap.get_set ..

theorem State.shReg_congr {s t : State} (h : t.shadow = s.shadow) (a : Nat) : t.shReg a = s.shReg a := by
  unfold State.shReg; rw [h]

/-! ## FCM -/

theorem State.fcmByte_setFcmByte (s : State) (o : Nat) (v : Byte) (b : Nat) :
    (s.setFcmByte o v).fcmByte b = if b = o then v else s.fcmByte b := SMap.get_set ..

theorem State.fcmByte_congr {s t : State} (h : t.fcm = s.fcm) (o : Nat) : t.fcmByte o = s.fcmByte o := by
  unfold State.fcmByte; rw [h]

/-! ## Time and free values -/

theorem State.elapseTo_regs' (s : State) (t : Vt) : (s.elapseTo t).regs = s.regs := State.elapseTo_regs s t

@[simp] theorem State.reg_elapseTo (s : State) (t : Vt) (a : Nat) : (s.elapseTo t).reg a = s.reg a :=
  State.reg_congr (State.elapseTo_regs' s t) a
@[simp] theorem State.rd_elapseTo (s : State) (t : Vt) (f : Fld) : (s.elapseTo t).rd f = s.rd f :=
  State.rd_congr (State.elapseTo_regs' s t) f
@[simp] theorem State.rdB_elapseTo (s : State) (t : Vt) (f : Fld) : (s.elapseTo t).rdB f = s.rdB f := by
  unfold State.rdB; rw [State.rd_elapseTo]

/-- A command's instant that is not past becomes the time. -/
theorem State.now_elapseTo (s : State) (t : Vt) (h : s.now ≤ t.toNat) : (s.elapseTo t).now = t.toNat := by
  unfold State.elapseTo
  dsimp only
  split
  · split <;> rfl
  · show s.now = _; omega

/-! ## Events -/

/-- The hardware's setting of a W1C bit writes that bit, and notes it. -/
theorem State.setW1c_regs (s : State) (f : Fld) : (s.setW1c f).regs = (s.wr f 1).regs := rfl
theorem State.reg_setW1c (s : State) (f : Fld) (a : Nat) : (s.setW1c f).reg a = (s.wr f 1).reg a := State.reg_congr (State.setW1c_regs s f) a
theorem State.rd_setW1c (s : State) (f g : Fld) : (s.setW1c f).rd g = (s.wr f 1).rd g := State.rd_congr (State.setW1c_regs s f) g

theorem State.pollPost_reg (s : State) (n : Nat) (m : Bool) (d v a : Nat) (h : a ≠ Reg.PB_CNT1_EV_LOST.addr) :
    (s.pollPost n m d v).reg a = s.reg a := by
  unfold State.pollPost
  split
  · dsimp only
    split
    · exact (State.reg_congr rfl a).trans (State.reg_bump _ _ _ h)
    · exact State.reg_congr rfl a
  · rfl

theorem State.subsPost_reg (s : State) (n : Nat) (m : Bool) (d v a : Nat) : (s.subsPost n m d v).reg a = s.reg a :=
  State.reg_congr (by simp) a

theorem State.evtMark_reg (s : State) (n d a : Nat) (h1 : a ≠ (Reg.EVT_RAW_RAW (n / 32)).addr)
    (h2 : a ≠ (Reg.EVT_DATA_DATA n).addr) : (s.evtMark n d).reg a = s.reg a := by
  unfold State.evtMark
  rw [State.reg_wr_other _ _ _ _ h2, State.reg_setW1c, State.reg_wr, if_neg h1]

/-- Raising an event leaves every other register. -/
theorem State.raise_reg (s : State) (n d a : Nat) (h1 : a ≠ (Reg.EVT_RAW_RAW (n / 32)).addr)
    (h2 : a ≠ (Reg.EVT_DATA_DATA n).addr) (h3 : a ≠ Reg.PB_CNT1_EV_LOST.addr) : (s.raise n d).reg a = s.reg a := by
  unfold State.raise State.raiseAs
  rw [State.pollPost_reg _ _ _ _ _ _ h3, State.subsPost_reg, State.evtMark_reg _ _ _ _ h1 h2]

theorem State.raise_rd (s : State) (n d : Nat) (f : Fld) (h1 : f.addr ≠ (Reg.EVT_RAW_RAW (n / 32)).addr)
    (h2 : f.addr ≠ (Reg.EVT_DATA_DATA n).addr) (h3 : f.addr ≠ Reg.PB_CNT1_EV_LOST.addr) : (s.raise n d).rd f = s.rd f :=
  State.rd_of_reg (State.raise_reg s n d _ h1 h2 h3)

/-- An event raised is raised, with its data. -/
theorem State.raise_raised (s : State) (n d : Nat) (h : n < 64) : (s.raise n d).Raised n d := by
  have a1 : (Reg.EVT_RAW_RAW (n / 32)).addr ≠ Reg.PB_CNT1_EV_LOST.addr := by
    simp only [Reg.EVT_RAW_RAW, Reg.PB_CNT1_EV_LOST]; omega
  have a2 : (Reg.EVT_DATA_DATA n).addr ≠ Reg.PB_CNT1_EV_LOST.addr := by
    simp only [Reg.EVT_DATA_DATA, Reg.PB_CNT1_EV_LOST]; omega
  have a3 : (Reg.EVT_RAW_RAW (n / 32)).addr ≠ (Reg.EVT_DATA_DATA n).addr := by
    simp only [Reg.EVT_DATA_DATA, Reg.EVT_RAW_RAW]; omega
  have hr : ∀ f : Fld, f.addr ≠ Reg.PB_CNT1_EV_LOST.addr → (s.raise n d).rd f = (s.evtMark n (d % 2 ^ 32)).rd f := by
    intro f hf
    unfold State.raise State.raiseAs
    exact (State.rd_of_reg (State.pollPost_reg _ _ _ _ _ _ hf)).trans (State.rd_of_reg (State.subsPost_reg ..))
  unfold State.Raised
  rw [hr ⟨_, n % 32, 1⟩ a1, hr _ a2]
  unfold State.evtMark
  rw [State.rd_wr_other _ _ ⟨_, n % 32, 1⟩ _ a3, State.rd_setW1c, State.rd_wr_same _ _ _ (by show n % 32 + 1 ≤ 32; omega),
    State.rd_wr_same _ (Reg.EVT_DATA_DATA n) _ (Nat.le_refl 32)]
  exact ⟨rfl, Nat.mod_mod _ _⟩

/-- A write of a register, a mark of an event and its records move registers and records alone. -/
theorem State.setReg_withRecords (s : State) (a : Nat) (w : Word) : s.setReg a w = s.withRecords (s.setReg a w) := rfl
theorem State.wr_withRecords (s : State) (f : Fld) (v : Nat) : s.wr f v = s.withRecords (s.wr f v) := rfl
theorem State.evtMark_withRecords (s : State) (n d : Nat) : s.evtMark n d = s.withRecords (s.evtMark n d) := rfl
theorem State.subsPost_withRecords (s : State) (n : Nat) (m : Bool) (d v : Nat) :
    s.subsPost n m d v = s.withRecords (s.subsPost n m d v) := rfl
theorem State.pollPost_withRecords (s : State) (n : Nat) (m : Bool) (d v : Nat) :
    s.pollPost n m d v = s.withRecords (s.pollPost n m d v) := by
  unfold State.pollPost State.withRecords
  split
  · dsimp only
    split <;> rfl
  · rfl

/-! ## Frames -/

/-- A bit of a word outside the field written. -/
theorem getLsbD_withBits (w : Word) (lo len v i : Nat) (h : lo + len ≤ 32) (d : ¬(lo ≤ i ∧ i < lo + len)) :
    (withBits w lo len v).getLsbD i = w.getLsbD i := by
  have e : ∀ x : Word, x.getLsbD i = decide (bitsOf x i 1 = 1) := by
    intro x
    rw [BitVec.getLsbD, Nat.testBit_eq_decide_div_mod_eq]
    rfl
  rw [e, e]
  by_cases g : i + 1 ≤ lo
  · rw [bitsOf_withBits_below _ _ _ _ _ _ h g]
  · rw [bitsOf_withBits_above _ _ _ _ _ _ h (by omega)]

theorem State.RegsKept.refl {p : Nat → Nat → Prop} (s : State) : State.RegsKept p s s := fun _ _ _ => rfl

theorem State.RegsKept.trans {p : Nat → Nat → Prop} {s t u : State} (h : State.RegsKept p s t) (h' : State.RegsKept p t u) :
    State.RegsKept p s u := fun a i d => (h' a i d).trans (h a i d)

theorem State.RegsKept.of_regs {p : Nat → Nat → Prop} {s t u : State} (e : u.regs = t.regs) (h : State.RegsKept p s t) :
    State.RegsKept p s u := fun a i d => by rw [State.reg_congr e]; exact h a i d

theorem State.RegsKept.wr {p : Nat → Nat → Prop} {s t : State} (f : Fld) (v : Nat) (hf : f.lo + f.len ≤ 32)
    (hp : ∀ i, f.lo ≤ i → i < f.lo + f.len → p f.addr i) (h : State.RegsKept p s t) : State.RegsKept p s (t.wr f v) := by
  intro a i d
  rw [State.reg_wr]
  split
  · rename_i e
    subst e
    rw [getLsbD_withBits _ _ _ _ _ hf fun g => d (hp i g.1 g.2)]
    exact h _ i d
  · exact h a i d

theorem State.RegsKept.setReg {p : Nat → Nat → Prop} {s t : State} (b : Nat) (w : Word) (hp : ∀ i, i < 32 → p b i)
    (h : State.RegsKept p s t) : State.RegsKept p s (t.setReg b w) := by
  intro a i d
  rw [State.reg_setReg]
  split
  · rename_i e
    subst e
    have : 32 ≤ i := Nat.le_of_not_lt fun g => d (hp i g)
    rw [BitVec.getLsbD_of_ge _ _ this, BitVec.getLsbD_of_ge _ _ this]
  · exact h a i d

theorem State.RegsKept.pollPost {p : Nat → Nat → Prop} {s t : State} (n : Nat) (m : Bool) (d v : Nat)
    (hp : ∀ i, i < 8 → p Reg.PB_CNT1_EV_LOST.addr i) (h : State.RegsKept p s t) :
    State.RegsKept p s (t.pollPost n m d v) := by
  unfold State.pollPost
  split
  · dsimp only
    split
    · exact State.RegsKept.of_regs rfl (State.RegsKept.wr Reg.PB_CNT1_EV_LOST _ (by decide) (fun i _ => hp i) h)
    · exact State.RegsKept.of_regs rfl h
  · exact h

/-- Raising an event keeps every bit but its own. -/
theorem State.RegsKept.raise {p : Nat → Nat → Prop} {s t : State} (n d : Nat) (hp : ∀ a i, raiseBit n a i → p a i)
    (h : State.RegsKept p s t) : State.RegsKept p s (t.raise n d) := by
  unfold State.raise State.raiseAs
  refine State.RegsKept.pollPost _ _ _ _ (fun i hi => hp _ i (Or.inr (Or.inr ⟨rfl, hi⟩))) ?_
  refine State.RegsKept.of_regs (State.subsPost_regs _ _ _ _ _) ?_
  unfold State.evtMark
  refine State.RegsKept.wr (Reg.EVT_DATA_DATA n) _ (Nat.le_refl 32) (fun i _ _ => hp _ i (Or.inr (Or.inl rfl))) ?_
  refine State.RegsKept.of_regs (State.setW1c_regs _ _) ?_
  refine State.RegsKept.wr _ _ (by show n % 32 + 1 ≤ 32; omega) (fun i h1 h2 => hp _ i (Or.inl ⟨rfl, ?_⟩)) h
  have h1' : n % 32 ≤ i := h1
  have h2' : i < n % 32 + 1 := h2
  omega

/-- A state that differs from another in registers and records alone, by steps. -/
theorem State.withRecords_trans {s t u : State} (h : t = s.withRecords t) (h' : u = t.withRecords u) : u = s.withRecords u := by
  rw [h] at h'
  exact h'

/-- Raising an event moves registers and the records of events alone. -/
theorem State.raise_withRecords (s : State) (n d : Nat) : s.raise n d = s.withRecords (s.raise n d) :=
  State.withRecords_trans (State.withRecords_trans (State.evtMark_withRecords ..) (State.subsPost_withRecords ..))
    (State.pollPost_withRecords ..)

end Sys2Proof.Machine
end

