-- ==== Sys2Proof/WellFormed.lean ====
section
/-! DEFINITION. Which commands can reach the block: the bounds that the wire, the package or the bus sets on an operand. The
meanings are total and do not assume them. -/
namespace Sys2Proof

/-- The largest KLP payload: FWD_MTU is at most 9,600 (chapter 09). -/
def maxPayload : Nat := 9600

/-- A command of chapter 11 comes whole in one packet, poll-bus frame (1,024 bytes with its opcode and length) or mailbox. -/
def paramsOk (via : Via) (p : List Byte) : Bool :=
  match via with
  | .session _ _ _ _ => p.length ≤ maxPayload
  | .poll => p.length ≤ 1020
  | .mbox => p.length ≤ 1020

/-- The well-formed commands. -/
def Instr.wf : Instr → Bool
  | .scrubPass _ found => found.all fun f => f.1 < 5
  | .ptpAnnounce _ _ _ dataset steps => 0 < dataset.length && steps < 65536
  | .lineSlot _ vcol => vcol.all fun e => e.1 < 384 && e.2 < 65536
  | .censusObservationApply n => n < 24576
  | .pixelPacket _ _ _ payload => payload.length ≤ maxPayload
  | .timePacket _ _ payload => payload.length ≤ maxPayload
  | .hello _ _ _ udp _ payload =>
    payload.length ≤ maxPayload && (match udp with
      | some (ip, port) => ip < 2 ^ 32 && port < 65536
      | none => true)
  | .frameClassify _ _ head => head.length == 64
  | .frameReceived _ _ frame => 0 < frame.length
  | .pollBusCommand _ _ _ payload => payload.length ≤ 1024
  | .svcRegisterRead _ _ n late => late.length ≤ n.toNat
  | .svcRegisterWrite _ _ words => 0 < words.length
  | .mailboxWrite _ _ bytes => 0 < bytes.length
  | .helloOpcode via p | .bye via p | .caps via p | .credit via p | .auth via p | .regRd via p | .regWr via p | .regRmw via p
  | .create via p | .destroy via p | .query via p | .list via p | .restore via p | .gridSet via p | .moveAdd via p
  | .moveCancel via p | .todSet via p | .stage via p | .check via p | .arm via p | .disarm via p | .sealWrite via p
  | .sealRead via p | .sweep via p | .censusSub via p | .mapRead via p | .groupMembers via p | .groupArm via p
  | .groupDisarm via p | .groupAck via p | .progLoad via p | .go via p | .stop via p | .push via p | .pull via p
  | .sentry via p | .wakeCfg via p | .domain via p | .fwWrite via p | .fwSwap via p | .fwInfo via p | .fbOn via p
  | .fbOff via p | .motifStep via p | .fbStatus via p => paramsOk via p
  | _ => true

end Sys2Proof
end

