-- ==== Sys2Proof/Tests/Slice0.lean ====
section
/-! SUPPORT. Tests of the model and the witnesses of the statements: concrete states and operands that meet their
hypotheses. -/
namespace Sys2Proof.Tests
open Sys2Proof Sys2Proof.Machine

/-- The state after reset with some fields set. -/
def st (l : List (Fld × Nat)) : State := l.foldl (fun s e => s.wr e.1 e.2) State.reset

/-! ## Venue time -/

/-- PTP with port 2 chosen. -/
def w_ptp : State := st [(Reg.TIME_STAT_PORT, 2)]
/-- GM_PPS, LOCKED, PPS_IN present. -/
def w_pps : State := st [(Reg.TIME_CFG_SRC, 1), (Reg.TIME_STAT_SERVO, 2), (Reg.TIME_STAT_PPS_IN_OK, 1)]
/-- GENLOCK after its first edge, LOCKED. -/
def w_gen : State := { st [(Reg.TIME_CFG_SRC, 2), (Reg.TIME_STAT_SERVO, 2)] with time := { State.reset.time with genTaken := true } }
/-- PTP with two ports heard, up and measured, LOCKED. -/
def w_ports : State :=
  { st [(Reg.TIME_CFG_TRANSPORT, 0), (Reg.TIME_STAT_PORT, 0), (Reg.TIME_STAT_SERVO, 2), (Reg.LINK_STAT_UP 0, 1), (Reg.LINK_STAT_UP 1, 1), (Reg.TIME_GM_GM_PORTS, 3)] with
    time := { State.reset.time with announce := [(0, ⟨[1], 1, false, sec 9⟩), (1, ⟨[1], 2, false, sec 9⟩)], delay := [(0, 5), (1, 7)], missed := 3 } }

/-- The head of a multicast message over IEEE 802.3 in the domain of reset, with an interval of 1 s. -/
def h_ptp : PtpHead := ⟨false, false, 0, 0⟩
theorem witness_measure_sync : let e := w_ports.elapseTo 0
    e.timeSrc = 0 ∧ e.coreDown = false ∧ e.ptpOver h_ptp.udp = true ∧ h_ptp.ptpDomain.toNat = e.rd Reg.TIME_CFG_DOMAIN ∧
    (-7 : Int) ≤ (0xF9 : BitVec 8).toInt ∧ e.choosePort.rd Reg.TIME_STAT_PORT = (0 : Fin 6).val ∧
    e.choosePort.rd Reg.TIME_STAT_PORT ≠ (1 : Fin 6).val ∧ e.ptpOver true = false ∧ ¬((0xF8 : BitVec 8).toInt ≥ -7) := by decide
theorem witness_measure_pps : w_pps.timeSrc = 1 ∧ (w_pps.elapseTo 0).ppsUnexpected = false ∧
    (w_pps.elapseTo (BitVec.ofNat 80 (sec 1 / 2))).ppsUnexpected = true := by decide
theorem witness_measure_genlock : w_gen.timeSrc = 2 ∧ w_gen.time.genTaken = true ∧ w_gen.servo = 2 ∧ (State.reset.wr Reg.TIME_CFG_SRC 2).servo = 0 ∧
    ((w_gen.wr Reg.SCAN_STAT_STATE 1).wr Reg.TIME_STAT_SERVO 3).idle = false ∧ w_gen.rdB Reg.TIME_CFG_GENLOCK_EDGE = false := by decide
theorem witness_missing : State.reset.timeSrc = 0 ∧ State.reset.coreDown = false ∧
    State.reset.time.missed + 1 < max 2 (State.reset.rd Reg.TIME_CFG_LOSS_N) := by decide
theorem witness_missing_down : (st [(Reg.SYS_STATE_CORE_DOWN, 1)]).timeSrc = 0 ∧ (st [(Reg.SYS_STATE_CORE_DOWN, 1)]).coreDown = true := by
  decide
theorem witness_missing_port : w_ports.servo = 2 ∧ max 2 (w_ports.rd Reg.TIME_CFG_LOSS_N) ≤ w_ports.time.missed + 1 ∧
    let others (m : BitVec 6) := w_ports.time.announce.filter fun e => (w_ports.linkUp e.1 && decide (w_ports.time.uptime < e.2.until_)) &&
      (bitAt m.toNat e.1 && e.1 != w_ports.rd Reg.TIME_STAT_PORT && w_ports.time.delay.any fun d => d.1 == e.1)
    others 3 ≠ [] ∧ others 1 = [] := by decide
theorem witness_pps_missing : let e := (State.reset.wr Reg.TIME_CFG_SRC 1).elapseTo (BitVec.ofNat 80 (sec 2))
    e.timeSrc = 1 ∧ e.time.ppsFrom + sec 2 ≤ e.time.uptime ∧ e.time.ppsAbsent = false ∧
    (State.reset.elapseTo 0).time.uptime < (State.reset.elapseTo 0).time.ppsFrom + sec 2 := by decide
theorem witness_ptp_messages : w_ports.coreDown = false ∧ w_ports.timeSrc = 0 ∧ h_ptp.ptpDomain.toNat = w_ports.rd Reg.TIME_CFG_DOMAIN ∧
    w_ports.linkUp 1 = true ∧ (w_ports.elapseTo 0).hearsChosen 1 = true ∧ w_ports.time.delayNext = [] ∧
    (w_ports.wr Reg.TIME_CFG_DELAY_MECH 1).rdB Reg.TIME_CFG_DELAY_MECH = true ∧ w_ports.rd Reg.TIME_CFG_TRANSPORT = 0 ∧ w_ports.powered 0 = true ∧
    12 ≤ (w_ports.elapseTo 0).freeCells ∧ (w_ports.elapseTo 0).portCells 1 + 2 ≤ (w_ports.elapseTo 0).qcap ∧ w_ports.portUp 1 = true := by decide
/-- The grandmaster of two ports. -/
def w_gm : State := w_ports.wr Reg.TIME_CFG_SRC 1
theorem witness_gm : w_gm.coreDown = false ∧ w_gm.timeSrc = 1 ∧ bitAt (w_gm.rd Reg.TIME_GM_GM_PORTS) 1 = true ∧ w_gm.linkUp 1 = true ∧
    w_gm.servo = 2 := by decide
/-- LOCKED with PPS_OUT enabled and gated. -/
def w_ppsOut : State := st [(Reg.TIME_CFG_PPS_OUT_EN, 1), (Reg.TIME_CFG_PPS_GATE, 1), (Reg.TIME_STAT_SERVO, 2)]
theorem witness_time_cfg : w_ppsOut.powered 2 = true ∧ w_ppsOut.servo = 2 ∧ (w_ppsOut.elapseTo 0).now % sec 1 = 0 ∧
    w_ppsOut.rdB Reg.TIME_CFG_PPS_OUT_EN = true ∧ (st [(Reg.TIME_CFG_PPS_OUT_EN, 1), (Reg.TIME_CFG_PPS_GATE, 1)]).servo ≤ 1 := by decide

/-! ## Moves and boards -/

/-- Powered, a staged EVENT move at 5 ns. -/
def w_move : State := st [(Reg.MOVE_NEW_ACTION, 9), (Reg.MOVE_NEW_VT_LO, 5), (Reg.MOVE_NEW_ARG, 0x731)]
/-- The same, with VT far beyond the move. -/
def w_moveLate : State := w_move.setVt (sec 5)
/-- Every entry of the move table waits. -/
def w_movesFull : State := { w_move with moves := (List.range 256).map fun i => (i, ⟨7, 9, 0, false⟩) }
/-- One waiting EVENT move, entry 3, named in ARG. -/
def w_moveWaits : State := { st [(Reg.MOVE_NEW_ARG, 0x06010003)] with moves := [(3, ⟨70000, 9, 0x0000AB31, false⟩)] }
/-- One waiting move that a step has passed over. -/
def w_movePassed : State := { w_moveWaits with moves := [(3, ⟨5, 9, 0x0000AB31, true⟩)] }.setVt (sec 5)
/-- Board B FILLING, with a deadline. -/
def w_filling : State := st [] |>.setBoard 1 ⟨some 7, false, false, false, some (3 * nsUnit), some (2 * nsUnit), none, false, false, []⟩
/-- The same under PATCH. -/
def w_fillingPatch : State := w_filling.wr Reg.PIPE_LATE_POLICY_POLICY 1

theorem witness_move_new : w_move.powered 2 = true ∧ 1 ≤ w_move.rd Reg.MOVE_NEW_ACTION ∧ w_move.rd Reg.MOVE_NEW_ACTION ≤ 9 ∧
    (w_move.now : Int) - (w_move.rd Reg.MOVE_NEW_VT_LO + w_move.rd Reg.MOVE_NEW_VT_HI * 2 ^ 32 : Nat) * nsUnit ≤ 0 ∧
    w_move.freeIndex 6 = some 0 ∧ w_move.resolve 6 (w_move.rd Reg.MOVE_NEW_ARG) = none := by decide
theorem witness_move_bad_action : State.reset.powered 2 = true ∧ State.reset.rd Reg.MOVE_NEW_ACTION = 0 := by decide
set_option maxRecDepth 20000 in
theorem witness_move_full : w_movesFull.powered 2 = true ∧ w_movesFull.rd Reg.MOVE_NEW_ACTION = 9 ∧ w_movesFull.now = 0 ∧
    w_movesFull.freeIndex 6 = none := by decide
theorem witness_move_late : w_moveLate.powered 2 = true ∧
    (usec (w_moveLate.rd Reg.MOVE_CFG_LATE_LIMIT) : Int) ≤ (w_moveLate.now : Int) - 5 * nsUnit := by decide
theorem witness_move_cancel : w_moveWaits.movesDue.resolve 6 (w_moveWaits.rd Reg.MOVE_NEW_ARG) = some 3 ∧ w_moveWaits.powered 2 = true ∧
    w_movesFull.resolve 6 0 = none := by decide
theorem witness_move_due : w_moveWaits.moves = [(3, ⟨70000, 9, 0x0000AB31, false⟩)] ∧ w_moveWaits.now ≤ 70000 * nsUnit ∧
    70000 * nsUnit ≤ (w_moveWaits.elapseTo (BitVec.ofNat 80 (sec 1))).now ∧ (w_moveWaits.elapseTo 0).now < 70000 * nsUnit := by decide
theorem witness_move_passed : w_movePassed.moves = [(3, ⟨5, 9, 0x0000AB31, true⟩)] ∧ 5 * nsUnit < w_movePassed.now ∧
    5 * nsUnit + usec (w_movePassed.rd Reg.MOVE_CFG_LATE_LIMIT) ≤ w_movePassed.now := by decide
theorem witness_deadline : (w_filling.board 1).code = 1 ∧ (w_filling.board 1).held = false ∧ w_filling.composing 1 = false ∧
    (w_filling.board 1).deadline = some (2 * nsUnit) ∧ 2 * nsUnit ≤ (w_filling.elapseTo (BitVec.ofNat 80 (sec 1))).now ∧
    (w_filling.elapseTo 0).now < 2 * nsUnit ∧ w_filling.rd Reg.PIPE_LATE_POLICY_POLICY = 0 ∧
    w_fillingPatch.rd Reg.PIPE_LATE_POLICY_POLICY = 1 ∧ (w_fillingPatch.board 1).cov = [] ∧ w_filling.showing = none ∧
    (w_filling.board 0).code ≠ 1 := by decide

/-! ## Sinks and memories -/

/-- The THA source with a good code. -/
def w_tha : State := st [(Reg.SINK_TB_CFG_SRC, 1), (Reg.ADC_DATA_VALID 2, 1), (Reg.ADC_DATA_CODE 2, 700)]
/-- The THA source with a shorted thermistor. -/
def w_thaShort : State := w_tha.wr (Reg.ADC_DATA_CODE 2) 16
/-- The PAWN source. -/
def w_tbPawn : State := st [(Reg.SINK_TB_CFG_SRC, 5)]
/-- A die temperature is known. -/
def w_die : State := st [(Reg.ADC_DATA_VALID 5, 1), (Reg.SINK_DIE_TJ, 400)]
/-- One reported word of the placement table and an armed buffer. -/
def w_rewrite : State :=
  { State.reset with store := { State.reset.store with armed := some [] },
                     rook := { State.reset.rook with rewrite := [(0, 0x27800)] } }
/-- A correctable word was reported just now; scrubbing in BRACE. -/
def w_eccRecent : State := { st [(Reg.SYS_STATE_BRACE, 1)] with rook := { State.reset.rook with lastCorr := some 0, lastUncorr := some 0 } }

theorem witness_tb_die : State.reset.powered 5 = true ∧ State.reset.sink.hold = false ∧ State.reset.tbSrc = 0 ∧
    State.reset.dieTemp = none ∧ w_die.dieTemp = some 1280 ∧ w_die.tbSrc = 0 ∧ w_die.powered 5 = true ∧
    State.reset.rdB Reg.SINK_TB_STAT_FAULT_A = false ∧ State.reset.rdB Reg.SINK_TB_STAT_FAULT_B = false := by decide
theorem witness_tb_tha : w_tha.powered 5 = true ∧ w_tha.sink.hold = false ∧ w_tha.tbSrc = 1 ∧ w_tha.rdB (Reg.ADC_DATA_VALID 2) = true ∧
    16 < w_tha.rd (Reg.ADC_DATA_CODE 2) ∧ w_tha.rd (Reg.ADC_DATA_CODE 2) < 4080 ∧ w_thaShort.rd (Reg.ADC_DATA_CODE 2) ≤ 16 ∧
    w_thaShort.tbSrc = 1 ∧ w_thaShort.rdB (Reg.ADC_DATA_VALID 2) = true := by decide
theorem witness_tb_pawn_stale : let stale (t : Nat) := w_tbPawn.tbSrc = 5 ∧
      w_tbPawn.sink.pawnAt + msec (100 * max 1 (w_tbPawn.rd Reg.SINK_TB_CFG_STALE)) ≤ (w_tbPawn.elapseTo (BitVec.ofNat 80 t)).time.uptime
    stale (sec 2) ∧ ¬stale (sec 2 - 1) := by decide
theorem witness_tb_pawn : w_tbPawn.tbSrc = 5 ∧ w_tbPawn.rdB Reg.SINK_TB_STAT_FAULT_P = false ∧ State.reset.tbSrc ≠ 5 := by decide
theorem witness_ecc_rewrite : w_rewrite.store.armed = some [] ∧ w_rewrite.rook.rewrite = [(0, (0x27800 : BitVec 24).toNat)] ∧
    w_rewrite.coreDown = false ∧ w_rewrite.powered 2 = true ∧ inBank 0 (0x27800 : BitVec 24).toNat = false ∧
    inBank 1 (0x27800 : BitVec 24).toNat = false := by decide
theorem witness_ecc_rate : State.reset.rook.lastCorr = none ∧ State.reset.rook.lastUncorr = none ∧ w_eccRecent.rook.lastCorr = some 0 ∧
    (w_eccRecent.elapseTo 0).time.uptime < 0 + msec 10 ∧ w_eccRecent.rdB Reg.SYS_STATE_BRACE = true := by decide
theorem witness_scrub : (st [(Reg.EVT_ECC_CFG_SCRUB_EN, 1)]).rdB Reg.EVT_ECC_CFG_SCRUB_EN = true ∧
    (st [(Reg.EVT_ECC_CFG_SCRUB_EN, 1)]).rdB Reg.SYS_STATE_BRACE = false := by decide

/-! ## The Rook -/

/-- Dark-safe for the die, with the state ARMED. -/
def w_dark : State := { st [(Reg.SYS_STATE_STATE, 5), (Reg.SYS_STATE_DARK_SAFE, 1), (Reg.SINK_DIE_WARN, 1)] with rook := { State.reset.rook with dark := 1 } }
/-- Dark-safe for the die and EXTEST. -/
def w_dark2 : State := { w_dark with rook := { State.reset.rook with dark := 9 } }
/-- Dark-safe for EXTEST alone. -/
def w_extest : State := { w_dark with rook := { State.reset.rook with dark := 8 } }
/-- Halted, after a DEBUG access. -/
def w_halt : State :=
  { st [(Reg.SYS_DBG_HALTED, 1), (Reg.SYS_STATE_CORE_DOWN, 1)] with
    rook := { State.reset.rook with debugSeen := true, wdogHeld := some 0, downAt := some 0 } }
/-- READY, the watchdog run out, a swap on trial since power-on. -/
def w_trial : State :=
  { st [(Reg.SYS_STATE_STATE, 4), (Reg.SEAL_BOOT_TRIAL, 1), (Reg.SEAL_BOOT_SLOT, 1)] with time := { State.reset.time with uptime := sec 100 } }
/-- ARMED, the watchdog run out. -/
def w_wdog : State := { st [(Reg.SYS_STATE_STATE, 5)] with time := { State.reset.time with uptime := sec 100 } }

theorem witness_die : State.reset.rdB Reg.SINK_DIE_WARN = false ∧ w_dark.rdB Reg.SINK_DIE_WARN = true ∧
    State.reset.darkFor 0 = false ∧ State.reset.rdB Reg.SYS_STATE_DARK_SAFE = false ∧ w_dark.darkFor 0 = true ∧ w_dark.rook.dark = 1 ∧
    w_dark.rdB Reg.SYS_STATE_DARK_SAFE = true ∧ w_dark2.darkFor 0 = true ∧ w_dark2.rook.dark ≠ 1 := by decide
theorem witness_debug : State.reset.powered 4 = true ∧ State.reset.rook.debugSeen = false ∧ State.reset.halted = false ∧
    w_halt.powered 4 = true ∧ w_halt.rook.debugSeen = true ∧ w_halt.halted = true ∧ w_halt.rook.wdogHeld = some 0 ∧
    w_halt.rook.restarting = false ∧ w_halt.powered 1 = true := by decide
theorem witness_jtag : State.reset.powered 4 = true ∧ State.reset.rdB Reg.SYS_STATE_DARK_SAFE = false ∧ w_extest.powered 4 = true ∧
    w_extest.rook.dark = 8 ∧ w_dark.rook.dark &&& 0x37 ≠ 0 := by decide
theorem witness_watchdog : (w_wdog.elapseTo 0).wdogExpired = true ∧ (w_wdog.elapseTo 0).atLimit = false ∧
    w_wdog.rdB Reg.SEAL_BOOT_TRIAL = false ∧ (State.reset.elapseTo 0).wdogExpired = false ∧ (1 : Word) ≠ 0x5A5A ∧
    w_wdog.rook.wdogHeld = none ∧ w_wdog.rd Reg.SYS_ROOK_CFG_WDOG_ACTION = 0 := by decide
theorem witness_trial : w_trial.rdB Reg.SEAL_BOOT_TRIAL = true ∧ w_trial.store.trialAt + msec 400 ≤ (w_trial.elapseTo 0).time.uptime ∧
    State.reset.rdB Reg.SEAL_BOOT_TRIAL = false ∧ (w_trial.wr Reg.SYS_STATE_BRACE 1).brace = true := by decide

/-! ## Power -/

/-- RESET_N low. -/
def w_rstLow : State := { State.reset with pwr := { State.reset.pwr with resetN := true } }
/-- ARMED, in BRACE for VDDC, with a boot record withheld. -/
def w_brace : State :=
  { st [(Reg.SYS_STATE_STATE, 5), (Reg.SYS_STATE_BRACE, 1), (Reg.PWR_SUPV_STAT_BRACE, 1), (Reg.PWR_SUPV_STAT_BELOW, 1)] with
    pwr := { State.reset.pwr with crossed := 1, unrecovered := 1 } }
/-- In BRACE, every rail recovered. -/
def w_braceOver : State := { w_brace with pwr := { w_brace.pwr with unrecovered := 0 } }
/-- VDDC at its guard level. -/
def w_railDown : State := { State.reset with pwr := { State.reset.pwr with resetRail := some (1, true) } }
/-- REF lost. -/
def w_refLost : State := { State.reset with pwr := { State.reset.pwr with refLost := true } }
/-- A SENTRY reply has gone, in READY. -/
def w_sentryDue : State := { st [(Reg.SYS_STATE_STATE, 4)] with pwr := { State.reset.pwr with sentry := 2 } }
/-- In Sentry with every source enabled. -/
def w_sentry : State :=
  { st [(Reg.SYS_STATE_STATE, 0), (Reg.PWR_WAKE_PIN_EN, 1), (Reg.PWR_WAKE_LINK_EN, 1), (Reg.PWR_WAKE_PORT, 2), (Reg.PWR_WAKE_ALARM_EN, 1),
      (Reg.PWR_ALARM_DELAY_S, 1)] with time := { State.reset.time with uptime := sec 3 } }

theorem witness_boot : State.reset.pwr.resetN = false ∧ w_rstLow.pwr.resetN = true ∧ State.reset.store.flash = [] := by decide
theorem witness_rail_warning : State.reset.supervised = true ∧ bitAt (State.reset.rd Reg.PWR_SUPV_STAT_BELOW) 4 = false ∧
    State.reset.brace = false ∧ w_rstLow.supervised = false ∧ bitAt (w_brace.rd Reg.PWR_SUPV_STAT_BELOW) 0 = true := by decide
theorem witness_adc_sample : w_brace.supervised = true ∧ w_brace.brace = true ∧ w_brace.pwr.lowest = [] ∧ w_brace.pwr.crossed = 1 := by decide
theorem witness_brace_end : w_braceOver.brace = true ∧ w_braceOver.pwr.unrecovered = 0 ∧ State.reset.brace = false := by decide
theorem witness_rail_down : w_railDown.pwr.resetRail = some ((1 : Fin 5).val, true) ∧ State.reset.pwr.resetRail = none ∧
    w_refLost.pwr.refLost = true ∧ State.reset.pwr.refLost = false ∧ State.reset.devState ≠ 0 := by decide
theorem witness_domains : State.reset.powered 2 = true ∧ bitAt (0 : Word).toNat 2 = false ∧ State.reset.powered 4 = true ∧
    State.reset.powered 0 = true ∧ w_rstLow.powered 5 = true ∧ (st [(Reg.PWR_DOMAIN_STAT, 0)]).powered 3 = false := by decide
/-- The same with a wake seen while the command waited. -/
def w_sentryWoken : State := { w_sentryDue with pwr := { w_sentryDue.pwr with wakeSeen := 1 } }
/-- A SENTRY reply waits with the wake pin enabled. -/
def w_sentryWaits : State := { w_sentryDue.wr Reg.PWR_WAKE_PIN_EN 1 with pwr := { w_sentryDue.pwr with sentry := 1 } }
theorem witness_sentry_wakes : w_sentryDue.pwr.wakeSeen = 0 ∧ w_sentryWoken.pwr.wakeSeen = 1 ∧ w_sentryWoken.pwr.sentry = 2 ∧ w_sentryWoken.devState = 4 ∧
    w_sentryWaits.devState ≠ 0 ∧ w_sentryWaits.pwr.sentry ≠ 0 ∧ w_sentryWaits.pwr.wakeSeen = 0 ∧ w_sentryWaits.rdB Reg.PWR_WAKE_PIN_EN = true ∧
    w_sentryWaits.rdB Reg.PWR_WAKE_LINK_EN = false ∧ State.reset.pwr.sentry = 0 := by decide
theorem witness_sentry : w_sentryDue.pwr.sentry = 2 ∧ 2 ≤ w_sentryDue.devState ∧ w_sentryDue.devState ≤ 6 ∧ w_sentry.devState = 0 ∧
    w_sentry.rdB Reg.PWR_WAKE_PIN_EN = true ∧ w_sentry.rdB Reg.PWR_WAKE_LINK_EN = true ∧
    (2 : Fin 6).val = w_sentry.rd Reg.PWR_WAKE_PORT ∧ w_sentry.rdB Reg.PWR_WAKE_ALARM_EN = true ∧
    w_sentry.rd Reg.PWR_ALARM_DELAY_S ≠ 0 ∧ w_sentry.rdB Reg.CLK_STAT_ALW_LOST = false ∧
    w_sentry.pwr.sentryAt + sec (w_sentry.rd Reg.PWR_ALARM_DELAY_S) ≤ (w_sentry.elapseTo 0).time.uptime ∧
    State.reset.devState ≠ 0 := by decide

/-! ## Start-up and the Seal -/

/-- Firmware chosen, BOOTSEL 3. -/
def w_fw3 : State := { State.reset with store := { State.reset.store with slotOk := true, bootsel := 3 } }
/-- Firmware chosen, nothing stored. -/
def w_fw0 : State := { State.reset with store := { State.reset.store with slotOk := true } }
/-- A CHECK of an empty staging buffer runs, in READY. -/
def w_check : State := { st [(Reg.SYS_STATE_STATE, 4)] with store := { State.reset.store with run := [⟨false, .poll false⟩] } }
/-- An ARM of an empty staging buffer runs. -/
def w_arm : State := { st [(Reg.SYS_STATE_STATE, 4)] with store := { State.reset.store with run := [⟨true, .poll false⟩] } }
/-- An applied Seal waits for its grid point. -/
def w_armDue : State :=
  { st [(Reg.SYS_STATE_STATE, 4)] with
    store := { State.reset.store with armed := some [], armDue := some ⟨0, []⟩ }, time := { State.reset.time with uptime := sec 1 } }
/-- ARMED with a DISARM waiting. -/
def w_disarm : State := { st [(Reg.SYS_STATE_STATE, 5), (Reg.CENSUS_GRP_STATE 3, 2)] with store := { State.reset.store with disarmDue := true } }
/-- The fallback section is being copied. -/
def w_copying : State := { State.reset with store := { State.reset.store with copying := true } }
/-- ARMED without a stream for 100 s. -/
def w_stream : State := { st [(Reg.SYS_STATE_STATE, 5)] with time := { State.reset.time with uptime := sec 100 } }
/-- STALEMATE with a node address. -/
def w_stale : State := st [(Reg.SYS_STATE_STATE, 3), (Reg.FWD_ADDR_NODE, 5)]
/-- A SEAL_WRITE of an armed image runs. -/
def w_sealWrite : State := { State.reset with store := { State.reset.store with armed := some [1, 2, 3], write := some (.poll false) } }
/-- SUP waits for its contents. -/
def w_restore : State := { State.reset with store := { State.reset.store with armed := some [] }, pwr := { State.reset.pwr with restoreDue := 32 } }
/-- A core restart runs, with an evaluation under way. -/
def w_restart : State :=
  { w_check.wr Reg.SYS_STATE_CORE_DOWN 1 with rook := { State.reset.rook with restarting := true, downAt := some 0 } }

theorem witness_fw : State.reset.devState = 1 ∧ State.reset.pwr.resetN = false ∧ State.reset.pwr.resetRail = none ∧
    State.reset.powered 1 = true ∧ State.reset.store.slotOk = false ∧ w_fw3.store.slotOk = true ∧ w_fw3.pwr.waking = false ∧
    w_fw3.store.bootsel = 3 ∧ w_fw0.store.bootsel ≠ 3 ∧ w_fw0.store.flash = [] ∧ w_fw0.store.slotOk = true ∧ w_fw0.devState = 1 ∧
    w_stale.devState ≠ 1 := by decide
theorem witness_check_arm : w_check.coreDown = false ∧ w_check.store.swapDue = none ∧ w_check.store.run = ⟨false, .poll false⟩ :: [] ∧
    w_arm.coreDown = false ∧ w_arm.store.run = ⟨true, .poll false⟩ :: [] ∧ State.reset.store.run = [] := by decide
theorem witness_armed_entry : w_armDue.store.armDue = some ⟨0, []⟩ ∧ w_armDue.store.armed = some [] ∧ w_armDue.devState = 4 ∧
    0 + msec 1 ≤ (w_armDue.elapseTo 0).time.uptime ∧ (w_armDue.elapseTo 0).atGrid = true ∧ w_armDue.brace = false ∧
    w_armDue.store.swapDue = none ∧ (w_armDue.elapseTo (BitVec.ofNat 80 (msec 3))).atGrid = false ∧ State.reset.store.armDue = none := by
  decide
theorem witness_disarm : w_disarm.store.disarmDue = true ∧ (w_disarm.elapseTo 0).atGrid = true ∧ w_disarm.devState = 5 ∧
    State.reset.store.disarmDue = false := by decide
theorem witness_copy_stream_beacon : w_copying.store.copying = true ∧ w_copying.powered 2 = true ∧ State.reset.store.copying = false ∧
    w_stream.devState = 5 ∧ w_stream.fbActive = false ∧ w_stream.fallback.startDue = 0 ∧
    max w_stream.fallback.timerFrom w_stream.pipe.lastShown + msec (max 100 (w_stream.rd Reg.MOTIF_FB_CFG_TIMEOUT)) ≤
      (w_stream.elapseTo 0).time.uptime ∧ State.reset.devState ≠ 5 ∧ w_stale.devState = 3 ∧ w_stale.powered 0 = true ∧
    w_stale.coreDown = false ∧ w_stale.rd Reg.FWD_ADDR_NODE ≠ 0 := by decide
theorem witness_seal_write : w_sealWrite.store.write = some (.poll false) ∧ w_sealWrite.store.armed = some [1, 2, 3] ∧
    w_sealWrite.brace = false ∧ w_sealWrite.coreDown = false ∧ w_sealWrite.powered 4 = true ∧
    (w_sealWrite.wr Reg.SYS_STATE_BRACE 1).brace = true := by decide
/-- A core restart with an ARM that waits to enter ARMED, and one with a command that waits for its turn. -/
def w_restartArm : State := { w_restart with store := { w_restart.store with run := [], armDue := some ⟨0, [.poll false]⟩ } }
def w_restartParked : State := { w_restart with store := { w_restart.store with run := [] }, cmd := { w_restart.cmd with parked := [⟨.poll false, 3, true, []⟩] } }
theorem witness_restart : w_restart.started = [.poll false] ∧ w_restart.cmd.parked = [] ∧ w_restart.poll.cmds = [] ∧
    w_restartArm.store.armDue.map (·.origins) = some [.poll false] ∧ w_restartArm.started = [.poll false] ∧
    w_restartParked.started = [] ∧ w_restartParked.rook.restarting = true := by decide
theorem witness_restore : w_restore.store.armed = some [] ∧ w_restore.coreDown = false ∧
    bitAt w_restore.pwr.restoreDue.toNat (5 : Fin 6).val = true ∧ bitAt w_restore.pwr.restoreDue.toNat (0 : Fin 6).val = false ∧
    w_restart.rook.restarting = true ∧ w_restart.halted = false ∧ w_restart.powered 1 = true ∧ State.reset.rook.restarting = false := by decide

/-! ## Frame starts, line slots, the census and its groups -/

/-- ARMED in LOCKED mode, blanking, GCK locked, at grid point 0. -/
def w_frame : State :=
  let s := st [(Reg.SYS_STATE_STATE, 5), (Reg.CLK_STAT_GCK_LOCK, 1), (Reg.SCAN_STAT_STATE, 1), (Reg.TIME_GRID_PERIOD_NS, 16666667)]
  { s with scan := { s.scan with inBlank := true, nextKind := .lit } }
/-- A finished composition of board 1. -/
def w_frameNew : State :=
  { w_frame with pipe := { w_frame.pipe with comp := some ⟨some 1, 0, true, true, true, false, 0, false, []⟩,
                                             boards := [(1, ⟨some 7, true, false, false, some 5, some 2, none, false, false, []⟩)] } }
/-- The frame after a class B castle. -/
def w_frameDarkB : State := { w_frame with scan := { w_frame.scan with nextKind := .darkB } }
/-- The scan engine is idle. -/
def w_frameIdle : State := w_frame.wr Reg.SCAN_STAT_STATE 0
/-- READY, blanking, a frame long ago. -/
def w_readyMax : State := { (w_frame.wr Reg.SCAN_MODE_MODE 1) with time := { w_frame.time with vt := BitVec.ofNat 80 (sec 1) } }
/-- A recomposed plane under READY. -/
def w_readyAgain : State := { w_readyMax with pipe := { w_readyMax.pipe with comp := some ⟨none, 0, true, false, false, false, 0, false, []⟩ } }
/-- A frame is scanned; plane 1 (with subframe 0 words) lights some emitters; DRV powered. -/
def w_slot : State :=
  let s := st [(Reg.SYS_STATE_STATE, 5), (Reg.CLK_STAT_GCK_LOCK, 1), (Reg.SCAN_STAT_STATE, 1), (Reg.SCAN_GEOM_LINES, 2),
    (Reg.SINK_CTRL_BANK_EN, 63), (Reg.CENSUS_CFG_EN, 1)]
  let s := s.fillFcm (fcmPlane 0) 64 (fun o => BitVec.ofNat 8 (o * 37))
  { s with scan := { s.scan with nextKind := .lit, dark := false }, census := { s.census with counted := true } }
/-- The last slot of a subframe. -/
def w_slotLast : State := w_slot.wr Reg.SCAN_POS_SLOT 1
/-- A dark slot. -/
def w_slotDark : State := { w_slot with scan := { w_slot.scan with dark := true } }
/-- The probe subframe's first slot: emitter 100 of its line is due a probe. -/
def w_slotProbe : State :=
  let s := ((w_slot.wr Reg.SCAN_POS_SUB w_slot.geom.nSub).wr Reg.CENSUS_CFG_PROBE_SLOT 1).wr Reg.CENSUS_CFG_PROBE_BLACK 1
  { s with census := { s.census with recs := [(s.ord 0 * 384 + 100, ⟨1, 1, 255⟩)] } }
/-- Records and observations that wait; group 3 ARMED on emitters 5 and 6. -/
def w_census : State :=
  let s := st [(Reg.CENSUS_CFG_CONFIRM_N, 2), (Reg.CENSUS_GRP_STATE 3, 2), (Reg.CENSUS_GRP_BASE 3, 10), (Reg.CENSUS_GRP_COUNT 3, 2)]
  let s := (s.setFcm16 (0x139000 + 20) 5).setFcm16 (0x139000 + 22) 6
  let s := s.setMapState 5 1
  { s with census := { s.census with queue := [⟨[(0, true), (64, false), (200, true)], [⟨7, 1, 0, 0, 0, false⟩]⟩], toApply := [⟨5, 2, 0, 0, 0, false⟩, ⟨6, 1, 0, 0, 0, false⟩, ⟨5, 2, 1, 0, 0, false⟩], frameNo := 1,
                                     recs := [(5, ⟨2, 1, 3⟩)] } }
/-- An armable REPORT_ONLY group 1, a DARK_ALL group 2 without slack, TRIPPED group 4 and BLIND group 5. -/
def w_groups : State :=
  st [(Reg.CENSUS_GRP_BASE 1, 10), (Reg.CENSUS_GRP_COUNT 1, 2), (Reg.CENSUS_GRP_POLICY 2, 1), (Reg.CENSUS_GRP_STATE 4, 3),
    (Reg.CENSUS_GRP_STATE 5, 4), (Reg.CENSUS_GRP_POLICY 5, 1), (Reg.SCAN_GEOM_LINES, 8)]

theorem witness_frame_new : (w_frameNew.elapseTo 0).frameDue = true ∧ w_frameNew.scan.nextKind ≠ .darkB ∧ w_frameNew.brace = false ∧
    w_frameNew.scan.braceHold = false ∧ w_frameNew.idle = false ∧ w_frameNew.pipe.comp = some ⟨some 1, 0, true, true, true, false, 0, false, []⟩ := by decide
theorem witness_frame_shows : (w_frameNew.elapseTo 0).pipe.comp.map ((w_frameNew.elapseTo 0).compShows · false) = some true ∧
    (w_readyAgain.elapseTo 0).pipe.comp.map ((w_readyAgain.elapseTo 0).compShows · true) = some true ∧ (w_readyAgain.elapseTo 0).mayStart = true := by decide
theorem witness_frame_repeat : (w_frame.elapseTo 0).frameDue = true ∧ w_frame.pipe.comp = none ∧ w_frame.idle = false ∧
    w_frame.planeFits = true ∧ (w_frame.elapseTo (BitVec.ofNat 80 (msec 1))).frameDue = false := by decide
theorem witness_frame_dark : (w_frameDarkB.elapseTo 0).frameDue = true ∧ w_frameDarkB.scan.nextKind = .darkB ∧
    (w_frameIdle.elapseTo 0).frameDue = true ∧ w_frameIdle.idle = true ∧ w_frameIdle.pipe.comp = none := by decide
theorem witness_frame_max : let e := w_readyMax.elapseTo 0
    e.readyMode = true ∧ e.mayStart = true ∧ e.idle = false ∧ (e.compNew && e.compTimeOk) = false ∧ e.scan.frameStart + e.effMax ≤ e.now ∧
    e.compDone = false ∧ e.planeFits = true ∧ (w_readyAgain.elapseTo 0).compDone = true ∧
    ((w_readyAgain.elapseTo 0).compNew && (w_readyAgain.elapseTo 0).compTimeOk) = false := by decide
theorem witness_slot : w_slot.idle = false ∧ w_slot.scan.inBlank = false ∧ w_slot.slotPos.inFrame w_slot.geom = true ∧ w_slot.slotDark = false ∧
    w_slot.slotPos.idx < w_slot.geom.lines ∧ w_slot.slotPos.sub < w_slot.geom.nSub ∧ (w_slot.slotPos.next w_slot.geom).sub = w_slot.slotPos.sub ∧
    w_slotDark.slotDark = true ∧ w_frame.scan.inBlank = true := by decide
theorem witness_slot_lit : w_slot.pieceOf (w_slot.ord 0 * 384 + 1) 0 ≠ 0 ∧ w_slot.lit (w_slot.ord 0 * 384 + 1) = true ∧
    w_slot.pieceOf (w_slot.ord 0 * 384 + 100) 0 = 0 := by decide
theorem witness_slot_probe : w_slotProbe.slotPos.sub = w_slotProbe.geom.nSub ∧ w_slotProbe.slotPos.inFrame w_slotProbe.geom = true ∧
    w_slotProbe.slotDark = false ∧ w_slotProbe.idle = false ∧ w_slotProbe.due (w_slotProbe.ord 0 * 384 + 100) = true ∧
    w_slotProbe.due (w_slotProbe.ord 0 * 384 + 101) = false := by decide
theorem witness_slot_last : w_slotLast.slotPos.inFrame w_slotLast.geom = true ∧
    (w_slotLast.slotPos.next w_slotLast.geom).sub ≠ w_slotLast.slotPos.sub := by decide
/-- A frame is scanned: its observations of emitters in no group wait for its end. -/
def w_censusRun : State := { w_census.wr Reg.SCAN_STAT_STATE 1 with census := { w_census.census with toApply := [⟨9, 2, 1, 0, 0, false⟩, ⟨5, 2, 0, 0, 0, false⟩] } }
/-- The last observation of its frame, the second OPEN in a row. -/
def w_censusLast : State := { w_census with census := { w_census.census with toApply := [⟨5, 2, 0, 0, 0, false⟩], queue := [] } }
theorem witness_census_apply : w_census.mayApply ⟨5, 2, 0, 0, 0, false⟩ = true ∧ w_censusRun.mayApply ⟨9, 2, 1, 0, 0, false⟩ = false ∧
    w_censusRun.mayApply ⟨5, 2, 0, 0, 0, false⟩ = true ∧ w_census.allMade 0 = true ∧ w_census.grpState 3 = 2 ∧ 5 ∈ w_census.members 3 ∧
    (w_census.grp 3).armed ≤ 0 ∧ w_census.census.newFaults = [] ∧ w_census.mapState 5 ≠ 2 ∧
    w_censusLast.census.toApply.eraseIdx 0 ++ w_censusLast.census.queue.flatMap (·.observed) ++ w_censusLast.census.subRec.observed = [] ∧
    w_censusLast.grpState 3 = 2 := by decide +kernel
theorem witness_census : w_census.census.toApply[0]? = some ⟨5, 2, 0, 0, 0, false⟩ ∧ w_census.census.toApply[9]? = none ∧
    w_census.census.queue = [⟨[(0, true), (64, false), (200, true)], [⟨7, 1, 0, 0, 0, false⟩]⟩] ∧ State.reset.census.queue = [] ∧
    max 1 (w_census.rd Reg.CENSUS_CFG_CONFIRM_N) = 2 ∧ w_census.cRec 5 = ⟨2, 1, 3⟩ := by decide +kernel
set_option maxRecDepth 4000 in
theorem witness_groups : w_groups.powered 3 = true ∧ w_groups.grpState 1 = 0 ∧ w_groups.armSlack 1 = true ∧ w_groups.armParams 1 = true ∧
    w_groups.grpState 2 = 0 ∧ w_groups.armSlack 2 = false ∧ w_groups.armSlack 3 = true ∧ w_groups.armParams 3 = false ∧
    w_groups.grpState 4 = 3 ∧ w_groups.grpState 5 = 4 ∧ w_groups.darkAll 5 = true ∧ w_groups.darkAll 4 = false ∧
    (w_groups.wr ⟨Reg.PWR_DOMAIN_STAT.addr, 11, 1⟩ 0).powered 3 = false := by decide
/-! ## Castling, GCK and composition -/

/-- A running frame with new SINK and SCAN values in the shadows, and a pending GREY group. -/
def w_run : State :=
  let s := st [(Reg.SYS_STATE_STATE, 5), (Reg.CLK_STAT_GCK_LOCK, 1), (Reg.SCAN_STAT_STATE, 1), (Reg.TIME_GRID_PERIOD_NS, 16666667),
    (Reg.SYS_CASTLE_STAT_PENDING, 4)]
  let s := ((s.wrSh Reg.SINK_CTRL_BANK_EN 63).wrSh Reg.SCAN_GEOM_LINES 16).wrSh Reg.GREY_MINPULSE_MIN_PULSE 5
  { s with scan := { s.scan with nextKind := .lit } }
/-- Within the blanking. -/
def w_runBlank : State := { w_run with scan := { w_run.scan with inBlank := true, capturedMask := 16 } }
/-- SINK and SCAN captured. -/
def w_runTaken : State :=
  { w_run with scan := { w_run.scan with setupDone := true, capturedMask := 24, taken := 24, captured := w_run.shadow } }
/-- The same in BRACE. -/
def w_runBrace : State := w_runTaken.wr Reg.SYS_STATE_BRACE 1
/-- GCK_CFG captured with another frequency. -/
def w_runC : State :=
  let s := w_run.wrSh Reg.CLK_GCK_CFG_FREQ_KHZ 99000
  { s with scan := { s.scan with setupDone := true, capturedMask := 8, taken := 8, captured := s.shadow } }
/-- The engine is idle, with shadows to apply. -/
def w_idle : State := w_run.wr Reg.SCAN_STAT_STATE 0
/-- RELOCK without GCK. -/
def w_relock : State :=
  let s := (w_run.wr Reg.SCAN_STAT_STATE 3).wr Reg.CLK_STAT_GCK_LOCK 0
  { s with scan := { s.scan with relockFrom := some 0 } }
/-- Blanking with two READY boards that qualify. -/
def w_compose : State :=
  { w_frame.setVt (16666600 * nsUnit) with
    pipe := { w_frame.pipe with boards := [(0, ⟨some 7, true, false, false, some 5, some 2, none, false, false, []⟩),
                                           (1, ⟨some 8, true, false, false, some 9, some 2, none, false, false, []⟩),
                                           (2, ⟨some 6, false, true, false, some 1, some 0, none, false, false, []⟩)] } }
/-- Blanking with none. -/
def w_composeNone : State := { w_compose with pipe := { w_compose.pipe with boards := [] } }
/-- A composition in progress. -/
def w_composing : State := { w_compose with pipe := { w_compose.pipe with comp := some ⟨some 1, 0, false, true, true, false, 0, false, []⟩ } }

theorem witness_commit : w_run.idle = false ∧ (w_run.scan.setupDone || w_run.scan.inBlank) = false ∧
    (w_runBlank.scan.setupDone || w_runBlank.scan.inBlank) = true ∧ w_idle.idle = true ∧ ((3 : BitVec 9) ≠ 0 ∧ (3 : BitVec 9).toNat < 256) := by decide
theorem witness_commit_idle : ((w_idle.wr Reg.SYS_CASTLE_STAT_PENDING (4 ||| 16)).castleSetup).scan.taken ≠ 0 := by decide +kernel
theorem witness_castle : let e := w_run.elapseTo (BitVec.ofNat 80 (sec 1))
    w_run.idle = false ∧ w_run.scan.inBlank = false ∧ w_run.scan.setupDone = false ∧ e.castlingAt ≤ e.now + gclkTime e e.geom.tSlot ∧
    (let b := w_runTaken.elapseTo (BitVec.ofNat 80 (sec 1)); b.castlingAt ≤ b.now) ∧ w_runTaken.brace = false ∧ w_runTaken.time.stepDue = none ∧
    w_runTaken.time.epochDue = none ∧ w_runTaken.time.followDue = none ∧ w_runTaken.scan.taken ≠ 0 ∧ w_runBrace.brace = true := by decide +kernel
theorem witness_castle_resume : w_idle.idle = true ∧ (w_idle.elapseTo 0).resumeDue = true ∧ (w_idle.elapseTo (BitVec.ofNat 80 (msec 1))).resumeDue = false ∧
    w_idle.rd Reg.SYS_CASTLE_STAT_PENDING % 256 ≠ 0 ∧ (w_idle.wr Reg.SYS_CASTLE_STAT_PENDING 0).rd Reg.SYS_CASTLE_STAT_PENDING % 256 = 0 ∧
    w_idle.time.stepDue = none ∧ w_idle.time.epochDue = none ∧ w_idle.time.followDue = none := by decide
theorem witness_castle_before : let e := w_run.elapseTo 0
    ¬(e.castlingAt ≤ e.now + gclkTime e e.geom.tSlot) ∧ ¬(e.castlingAt ≤ e.now) := by decide
theorem witness_gck : w_run.rdB Reg.CLK_STAT_GCK_LOCK = true ∧ w_relock.rdB Reg.CLK_STAT_GCK_LOCK = false ∧ w_relock.powered 2 = true ∧
    w_relock.devState = 5 ∧ w_relock.rd Reg.SCAN_STAT_STATE = 3 ∧ w_relock.scan.relockFrom = some 0 ∧
    0 + msec 5 ≤ (w_relock.elapseTo (BitVec.ofNat 80 (sec 1))).now ∧ (w_relock.elapseTo 0).now < 0 + msec 5 := by decide
theorem witness_compose_unshown : (w_composing.elapseTo 0).pipe.comp.map ((w_composing.elapseTo 0).compShows · false) = some false := by decide
theorem witness_compose : (w_compose.elapseTo 0).mayCompose = true ∧ w_compose.pipe.flips = [] ∧
    (w_compose.elapseTo 0).qualifying (w_compose.elapseTo 0).composeTarget ≠ [] ∧ (w_composeNone.elapseTo 0).mayCompose = true ∧
    (w_composeNone.elapseTo 0).qualifying (w_composeNone.elapseTo 0).composeTarget = [] ∧ (State.reset.elapseTo 0).mayCompose = false := by decide
/-! ## Pawns -/

/-- READY with IOX on; pawn 0 runs words 0 to 9, pawn 1 is stopped and valid, pawn 2 has a bad range; word 0 of pawn 0 holds `w`. -/
def pawnAt (w : Nat) : State :=
  let s := st [(Reg.SYS_STATE_STATE, 4), (Reg.PAWN_PROG_END 0, 9), (Reg.PAWN_PROG_END 1, 3), (Reg.PAWN_PROG_ENTRY 1, 2), (Reg.PAWN_PINS_WIDTH 0, 4),
    (Reg.PAWN_PROG_START 2, 5), (Reg.PAWN_CFG_STALL_LIM 0, 1), (Reg.PAWN_STORE_WORD 0, w), (Reg.PAWN_PX_OUT_LEVEL, 0x35)]
  s.setPawn 0 { s.pawn 0 with run := true, emr := 0xA5A5, smr := 0x1234, cntA := 2, tx := [7, 8], rx := [9], level := 3, dir := 15, fromEntry := false }
def w_pDrive : State := pawnAt 0x01205
def w_pEmit : State := pawnAt 0x10045
def w_pSample : State := pawnAt 0x21005
def w_pLoad : State := pawnAt 0x30000
def w_pLoadEmpty : State := let s := pawnAt 0x30000
  s.setPawn 0 { s.pawn 0 with tx := [], wait := 1 }
def w_pStore : State := pawnAt 0x40000
def w_pStoreFull : State := let s := pawnAt 0x40000
  s.setPawn 0 { s.pawn 0 with tx := [1, 2, 3, 4], rx := [1, 2, 3, 4] }
def w_pAwait : State := pawnAt 0x50000
def w_pAwaitSync : State := let s := pawnAt 0x50800
  s.setPawn 0 { s.pawn 0 with sync := true }
def w_pBranch : State := pawnAt 0x60205
def w_pLoop : State := pawnAt 0x71005
def w_pCount : State := pawnAt 0x80C07
def w_pSignal : State := pawnAt 0x90003
def w_pSignalEv : State := pawnAt 0x90855
def w_pBadOp : State := pawnAt 0xA0000
def w_pBadOperand : State := pawnAt 0x00300
def w_pBadTarget : State := pawnAt 0x6003F

theorem witness_pawn_config : w_pDrive.powered 4 = true ∧ (w_pDrive.pawn 0).run = true ∧ (w_pDrive.pawn 1).run = false := by decide
theorem witness_pawn_fifo : (w_pDrive.pawn 0).tx.length < 4 ∧ 4 ≤ (w_pStoreFull.pawn 0).tx.length ∧ (w_pDrive.pawn 1).rx = [] ∧
    (w_pDrive.pawn 0).rx = [9] ∧ w_pDrive.storeBusy 9 = true ∧ w_pDrive.storeBusy 10 = false ∧ (st [(⟨Reg.PWR_DOMAIN_STAT.addr, 12, 1⟩, 0)]).powered 4 = false := by decide
theorem witness_pawn_go : w_pDrive.pawnsMayRun = true ∧ State.reset.pawnsMayRun = false ∧ w_pDrive.pawnConfigOk 1 = true ∧
    w_pDrive.pawnConfigOk 2 = false ∧ (w_pLoadEmpty.pawn 0).wait = 1 ∧ (w_pLoadEmpty.pawn 0).stalled = false ∧ w_pLoadEmpty.rd (Reg.PAWN_CFG_STALL_LIM 0) ≠ 0 := by decide
theorem witness_pawn_instr : w_pDrive.AtInstr 0 0 ∧ w_pEmit.AtInstr 0 1 ∧ w_pSample.AtInstr 0 2 ∧ w_pBranch.AtInstr 0 6 ∧
    w_pLoop.AtInstr 0 7 ∧ w_pCount.AtInstr 0 8 := by
  refine ⟨?_, ?_, ?_, ?_, ?_, ?_⟩ <;> exact ⟨by decide, by decide, by decide, by decide, by decide, by decide, by decide⟩
theorem witness_pawn_wait : w_pLoad.AtInstr 0 3 ∧ w_pStore.AtInstr 0 4 ∧ w_pAwait.AtInstr 0 5 ∧ w_pSignal.AtInstr 0 9 ∧ w_pSignalEv.AtInstr 0 9 := by
  refine ⟨?_, ?_, ?_, ?_, ?_⟩ <;> exact ⟨by decide, by decide, by decide, by decide, by decide, by decide, by decide⟩
theorem witness_pawn_wait_clauses : (w_pLoad.pawn 0).tx = [7, 8] ∧ (w_pLoadEmpty.pawn 0).tx = [] ∧ (w_pStore.pawn 0).rx.length < 4 ∧
    4 ≤ (w_pStoreFull.pawn 0).rx.length ∧ w_pAwait.awaitHolds 0 (w_pAwait.pawnWord 0 % 4096) (w_pAwait.pxLevels ⟨0, 0⟩) 0 0 = true ∧
    w_pAwait.awaitHolds 0 (w_pAwait.pawnWord 0 % 4096) (w_pAwait.pxLevels ⟨0, 1⟩) 0 0 = false ∧
    w_pAwaitSync.awaitHolds 0 (w_pAwaitSync.pawnWord 0 % 4096) 0 0 0 = true ∧ w_pDrive.pawnFrozen = false := by decide
theorem witness_pawn_fault : (w_pDrive.pawn 0).pc ∉ w_pDrive.rook.storeBad ∧
    ({ w_pDrive with rook := { w_pDrive.rook with storeBad := [0] } } : State).rook.storeBad = [(w_pDrive.pawn 0).pc] ∧ 10 ≤ w_pBadOp.pawnWord 0 / 65536 ∧ pawnOperandOk 0 (w_pBadOperand.pawnWord 0 % 4096) = false ∧
    w_pBadTarget.pawnTargetOk 0 6 (w_pBadTarget.pawnWord 0 % 4096) = false ∧ pawnOperandOk 6 (w_pBadTarget.pawnWord 0 % 4096) = true := by decide
/-! ## Registers -/

/-- A calibration check of bank 1 runs. -/
def w_cal : State := { st [(Reg.PIPE_CAL_CHK_BUSY, 1)] with rook := { State.reset.rook with calCheck := some 1 } }
/-- The look is shown by command, with an engine enabled. -/
def w_look : State := st [(Reg.SYS_STATE_STATE, 6), (Reg.MOTIF_FB_STAT_ACTIVE, 1), (Reg.MOTIF_FB_STAT_CAUSE, 2), (Reg.MOTIF_ENG_EN 3, 1)]
/-- The look is shown for stream loss. -/
def w_lookLost : State := st [(Reg.SYS_STATE_STATE, 6), (Reg.MOTIF_FB_STAT_ACTIVE, 1), (Reg.MOTIF_FB_STAT_CAUSE, 1)]
/-- ARMED with some events raised. -/
def w_armedPlain : State := st [(Reg.SYS_STATE_STATE, 5), (Reg.EVT_RAW_RAW 0, 0xFF00FF), (Reg.EVT_MASK_MASK 0, 0xFFFF)]

theorem witness_unoccupied : blockOf (0x000900F0 : Word).toNat ≠ none ∧ blockOf (0x000900F0 : Word).toNat ≠ some .fcm ∧
    regDefAt (0x000900F0 : Word).toNat = none ∧ let c := (State.reset.elapseTo 0).commandsFirst
    c.powered 4 = true ∧ c.blockOn (0x000900F0 : Word).toNat = true ∧ (∀ n ∈ List.range 8, c.cvuOn n 7 0 = false) := by decide
theorem witness_fcm_planes : State.reset.powered 2 = true ∧ 4 * (5 : Fin 393216).val < fcmBoard 3 ∧ 4 * 73727 < fcmBoard 3 ∧
    fcmPlane 0 ≤ 4 * (178176 : Fin 393216).val ∧ 4 * (178176 : Fin 393216).val < fcmPlane 0 + fcmPlaneSize := by decide
theorem witness_register_write : (regDefAt (0x00090000 : Word).toNat).isSome = true ∧ blockOf (0x00090000 : Word).toNat = some .scan ∧
    (State.reset.elapseTo 0).movesDue.blockOn (0x00090000 : Word).toNat = true ∧
    (State.reset.elapseTo 0).movesDue.locked (0x00090000 : Word).toNat 7 = false ∧
    ((st [(⟨Reg.PWR_DOMAIN_STAT.addr, 10, 1⟩, 0)]).elapseTo 0).movesDue.blockOn (0x00090000 : Word).toNat = false := by decide
theorem witness_cal_look : w_cal.rook.calCheck = some (1 : Fin 2).val ∧ w_cal.rd Reg.PIPE_CAL_CHK_BUSY = 1 ∧ State.reset.rd Reg.PIPE_CAL_CHK_BUSY = 0 ∧
    w_look.fbActive = true ∧ w_look.rd Reg.MOTIF_FB_STAT_CAUSE = 2 ∧ w_lookLost.rd Reg.MOTIF_FB_STAT_CAUSE ≠ 2 ∧ w_armedPlain.devState = 5 ∧
    w_armedPlain.fbActive = false ∧ (st [(⟨Reg.PWR_DOMAIN_STAT.addr, 10, 1⟩, 0)]).powered 2 = false := by decide

/-! ## SPWM units -/

/-- Unit 1 runs, CENTRE, BOUNDARY, with an armed valid set; SPW runs; loop 0 is due. -/
def w_sw : State :=
  let s := st [(Reg.SPWM_GSTAT_CLK_RUN, 1), (Reg.SPWM_CTRL_EN 1, 1), (Reg.SPWM_CTRL_ALIGN 1, 1), (Reg.SPWM_STAT_RUN 1, 1), (Reg.SPWM_STAT_PENDING 1, 1),
    (Reg.SPWM_PERIOD_P 1, 1000), (Reg.SPWM_DUTY_D 1, 300), (Reg.SPWM_DUTY_FRAC 1, 9), (Reg.SPWM_LIMITS_MIN_PULSE_A 1, 20), (Reg.SPWM_TRIP_MAP 1, 5),
    (Reg.LOOP_EN 0, 1), (Reg.SPWM_PERIOD_P 0, 800), (Reg.LOOP_RATIO 0, 800), (Reg.LOOP_V_SET 0, 3000), (Reg.LOOP_V_OV 0, 4000), (Reg.LOOP_KP 0, 40), (Reg.LOOP_KI 0, 7)]
  let s := ((s.setShReg (swAddr 1 0) 900).setShReg (swAddr 1 1) 0x50190).setShReg (swAddr 1 3) 0
  let s := s.setSw 1 { s.sw 1 with edges := { (s.sw 1).edges with riseA := 350, fallA := 650 }, carryA := 3 }
  { s with sink := { s.sink with loops := [(0, ⟨5, 16, 0, 0⟩)] } }
/-- The same in MIDPOINT mode. -/
def w_swMid : State := w_sw.wr (Reg.SPWM_CTRL_UPD 1) 1
/-- The same with a set that does not fit. -/
def w_swBad : State := w_swMid.setShReg (swAddr 1 0) 17
/-- The same, tripped under LATCH by no input any more. -/
def w_swTripped : State := w_sw.wr (Reg.SPWM_STAT_TRIPPED 1) 1
/-- Loop 0 has met three samples above V_OV. -/
def w_loopOv : State := { w_sw with sink := { w_sw.sink with loops := [(0, ⟨5, 16, 0, 3⟩)] } }
/-- Loop 0 is held at overvoltage. -/
def w_loopHeld : State := w_sw.wr (Reg.LOOP_OV 0) 1
/-- The first pin-lock write has been made. -/
def w_pinStep : State := w_sw.wr Reg.SPWM_PIN_LOCK_STEP1 1

theorem witness_spwm_boundary : w_sw.swRuns 1 = true ∧ w_sw.swHalted = false ∧ (w_sw.sw 1).castleDue = none ∧ (w_sw.sw 1).periodDue = none ∧
    (w_sw.sw 1).soft = none ∧ State.reset.swRuns 1 = false ∧ w_sw.swAsserted 1 = 0 := by decide
theorem witness_spwm_midpoint : w_swMid.swRuns 1 = true ∧ w_swMid.swAsserted 1 = 0 ∧ w_swMid.swCentre 1 = true ∧ w_swMid.swUpd 1 = 1 ∧
    w_swMid.swSetOk 1 (w_swMid.shReg (swAddr 1 0)) (w_swMid.shReg (swAddr 1 3)) = true ∧
    (w_swBad.wr (Reg.SPWM_LIMITS_MIN_PULSE_A 1) 200).swSetOk 1 (w_swBad.shReg (swAddr 1 0)) 0 = false := by decide
theorem witness_loop_sample : w_sw.supOn = true ∧ w_sw.sink.hold = false ∧ w_sw.rdB (Reg.LOOP_EN 0) = true ∧ w_sw.loopsStopped = false ∧
    w_sw.rd (Reg.LOOP_DIV 0) < (tabGet loopReset w_sw.sink.loops 0).count ∧ w_sw.rd (Reg.LOOP_RATIO 0) ≠ 0 ∧
    ¬4000 * 1048576 < 3000 * 1500 * 800 ∧ 4000 * 1048576 < 4000 * 1500 * 800 ∧ (tabGet loopReset w_loopOv.sink.loops 0).ovRun = 3 ∧
    w_loopHeld.rdB (Reg.LOOP_OV 0) = true := by decide
theorem witness_spwm_writes : w_sw.swWritable 1 = true ∧ w_sw.swLoopOwned 0 = true ∧ w_sw.swLoopOwned 1 = false ∧ w_sw.rdB (Reg.SPWM_CTRL_EN 1) = true ∧
    w_sw.rdB (Reg.SPWM_CTRL_EN 2) = false ∧ ({ w_sw with pwr := { w_sw.pwr with strapped := 1 } } : State).swWritable 6 = false := by decide
theorem witness_spwm_trips : w_swTripped.rdB (Reg.SPWM_STAT_TRIPPED 1) = true ∧ w_swTripped.swCycle 1 = false ∧ w_swTripped.swAsserted 1 = 0 ∧
    ({ w_sw with pwr := { w_sw.pwr with tripPins := 4 } } : State).swAsserted 1 ≠ 0 := by decide
theorem witness_pin_lock : w_sw.rdB Reg.SPWM_PIN_LOCK_STEP1 = false ∧ w_pinStep.rdB Reg.SPWM_PIN_LOCK_STEP1 = true ∧
    (0xA5000003 : Word) >>> 24 = 0xA5 ∧ w_pinStep.powered 5 = true := by decide
theorem witness_spw_clock : (List.range 8).any (fun n => w_sw.rdB (Reg.SPWM_CTRL_EN n)) = true ∧ w_sw.rdB Reg.SPWM_GSTAT_CLK_RUN = true ∧
    State.reset.rdB Reg.SPWM_GSTAT_CLK_RUN = false := by decide

/-! ## Check-value units and the mirror port -/

/-- Unit 2 is enabled on SVC_WR in RUN mode with an open window and a comparison; unit 3 could be enabled. -/
def w_cvu : State := st [(Reg.CVU_CTRL_EN 2, 1), (Reg.CVU_CTRL_PRESET 2, 2), (Reg.CVU_CTRL_MODE 2, 2), (Reg.CVU_TAP_SRC 2, 6), (Reg.CVU_STAT_OPEN 2, 1),
  (Reg.CVU_VALUE_VALUE 2, 0x12345678), (Reg.CVU_CTRL_CMP_EN 2, 1), (Reg.CVU_EXPECT_EXPECT 2, 7), (Reg.CVU_CTRL_PRESET 3, 1), (Reg.CVU_CTRL_MODE 3, 2),
  (Reg.CVU_TAP_SRC 3, 3)]
/-- The same unit with what it expects. -/
def w_cvuMatch : State := w_cvu.wr (Reg.CVU_EXPECT_EXPECT 2) (crcResult (w_cvu.cvuParams 2) (0x12345678, []))
/-- IOX has no power. -/
def w_ioxOff : State := w_cvu.wr ⟨Reg.PWR_DOMAIN_STAT.addr, 12, 1⟩ 0

theorem witness_cvu : w_cvu.powered 4 = true ∧ w_ioxOff.powered 4 = false ∧ w_cvu.rd (Reg.CVU_CTRL_CLOSE 2) = 0 ∧ w_cvu.rdB (Reg.CVU_CTRL_EN 2) = true ∧
    w_cvu.rdB (Reg.CVU_STAT_OPEN 2) = true ∧ w_cvu.rd (Reg.CVU_CTRL_MODE 2) = 2 ∧ w_cvu.rd (Reg.CVU_WIN_LEN_BYTES 2) = 0 ∧
    w_cvu.rdB (Reg.CVU_CTRL_EN 3) = false ∧ w_cvu.cvuEnableOk 3 = true ∧ w_cvu.cvuEnableOk 4 = false ∧ w_cvu.cvuTrailer 2 = false := by decide

/-- Every pad that has a given level is at it. -/
def w_pads : MirPads := State.reset.mir.pads
/-- READY, the mirror enabled in VIDEO mode, 5 porch lines passed, a request set, MIR committed with a window of 4 × 2. -/
def w_mir : State :=
  let s := st [(Reg.SYS_STATE_STATE, 4), (Reg.MIR_CTRL_EN, 1), (Reg.MIR_VBLANK_MIN, 5), (Reg.MIR_VBLANK_MAX, 9), (Reg.MIR_VTIM_VSW, 2), (Reg.MIR_VTIM_VBP, 3),
    (Reg.MIR_SRC_SRC, 2), (Reg.MIR_WIN_SIZE_W, 4), (Reg.MIR_WIN_SIZE_H, 2), (Reg.SCAN_GEOM_LINES, 8), (⟨Reg.SYS_CASTLE_STAT_PENDING.addr, 8, 1⟩, 1)]
  let s := ((s.wrSh Reg.MIR_SRC_SRC 1).wrSh Reg.MIR_WIN_SIZE_W 3).wrSh Reg.MIR_WIN_SIZE_H 1
  { s with mir := ⟨true, 0, 20, some 5, none, false, false, false, [], [], none, false, false, w_pads⟩ }
/-- The same with a window that does not fit. -/
def w_mirBad : State := w_mir.wrSh Reg.MIR_WIN_SIZE_W 500
/-- No request, MAX lines passed. -/
def w_mirSelf : State := { w_mir with mir := ⟨false, 0, 20, some 9, none, false, false, false, [], [], none, false, false, w_pads⟩ }
/-- In the fifth line of a frame: the next is active. -/
def w_mirActive : State := { w_mir with mir := ⟨false, 0, 4, none, none, false, false, false, [], [], none, false, false, w_pads⟩ }
/-- COMMAND mode with a request, without and with TE. -/
def w_mirCmd : State := { (w_mir.wr Reg.MIR_CTRL_MODE 1).wr Reg.MIR_CMD_PREFIX_N 2 with mir := ⟨true, 3, 0, some 0, none, false, false, false, [], [], none, false, false, w_pads⟩ }
def w_mirTe : State := w_mirCmd.wr Reg.MIR_CMD_TE_EN 1
/-- A COMMAND frame is being written. -/
def w_mirWriting : State := { w_mirCmd with mir := ⟨false, 0, 0, none, some 1, false, false, true, [], [], none, false, false, w_pads⟩ }

theorem witness_mirror : w_mir.mirRuns = true ∧ State.reset.mirRuns = false ∧ w_mir.mirCommand = false ∧ w_mir.mir.request = true ∧ w_mir.mir.porch = some 5 ∧
    w_mir.rd Reg.MIR_VBLANK_MIN = 5 ∧ mirWindowOk w_mir.rdSh w_mir.rd = true ∧ mirWindowOk w_mirBad.rdSh w_mirBad.rd = false ∧
    w_mirSelf.mir.porch = some 9 ∧ max 5 (w_mirSelf.rd Reg.MIR_VBLANK_MAX) = 9 := by decide
theorem witness_mirror_lines : w_mirActive.mir.porch = none ∧ w_mirActive.mirT2 = 5 ∧ w_mirActive.mirActive = (4, 2) ∧ w_mirCmd.mirCommand = true ∧
    w_mirCmd.mirRuns = true ∧ w_mirTe.rdB Reg.MIR_CMD_TE_EN = true ∧ w_mirTe.rdB Reg.MIR_STAT_TE_MISSING = false ∧ 3 ≤ w_mirTe.mir.waited ∧
    w_mirWriting.mir.writing = true ∧ w_mirWriting.powered 4 = true := by decide

/-! ## Links and forwarding -/

/-- A frame of 64 bytes to a unicast address, of a stated EtherType; its FCS is good. -/
def w_eth (type : Nat) : List Byte := let b := beBytes 6 0x0250C2000007 ++ beBytes 6 0x0250C2000009 ++ beBytes 2 type ++ List.replicate 46 0x5A
  b ++ fcsOf b
/-- T0 and B0 up in 10GBASE-KR and SGMII; T1 DISABLED mode 2 but down; EEE on T0. -/
def w_net : State := st [(Reg.LINK_MODE_MODE 0, 2), (Reg.LINK_STAT_UP 0, 1), (Reg.LINK_MODE_MODE 1, 2), (Reg.LINK_MODE_MODE 2, 6), (Reg.LINK_STAT_UP 2, 1),
  (Reg.LINK_EEE_EN 0, 1), (Reg.LINK_EEE_TW 0, 4), (Reg.LINK_EEE_WIN_WIN_LEN 0, 4000), (Reg.FWD_CFG_OTHER, 1), (Reg.FWD_BRANCH_EN 0, 1)]
/-- T0 is paused since 0, with an own PAUSE frame waiting; LPI on B0. -/
def w_netPaused : State := (w_net.setPort 0 ⟨none, none, [7], some (3, some 0), 0, some 0, none, 0⟩).wr (Reg.LINK_STAT_LPI_TX 2) 1
/-- Two frames wait at B0 and T0: the second is of a higher class; T0 sends a third; the parser holds a fourth. -/
def w_netQueued : State :=
  let s := w_net.setPort 0 ⟨some ⟨0, some 2, false⟩, some ⟨some 2, 0, 0, none⟩, [], some (9, none), 0, some 0, none, 0⟩
  { s with net := { s.net with nextId := 9, flow := true, pkb := [⟨0, w_eth 0x1234, true, some (2, 0), 3, [2, 0], [], 0⟩,
      ⟨1, w_eth 0x1235, true, some (0, 0), 1, [2], [], 0⟩, ⟨2, w_eth 0x1236, true, some (2, 0), 3, [], [0], 0⟩, ⟨3, w_eth 0x1236, true, none, 3, [], [], 1⟩] } }
/-- T0 receives frame 2, which goes on to B0; it is not whole yet. -/
def w_netRx : State :=
  let s := w_net.setPort 0 ⟨some ⟨0, some 2, false⟩, none, [], none, 0, none, none, 0⟩
  { s with net := { s.net with nextId := 3, pkb := [⟨2, (w_eth 0x1234).take 64, false, some (0, 0), 3, [2], [], 0⟩] } }
/-- T0 receives a frame that was not stored. -/
def w_netRxNone : State := w_net.setPort 0 ⟨some ⟨0, none, false⟩, none, [], none, 0, none, none, 0⟩
/-- All but two cells are in use. -/
def w_netFull : State := w_net.wr Reg.FWD_CFG_RESERVE 255 |> fun s => { s with net := { s.net with nextId := 1, pkb := [⟨0, List.replicate 9000 0, true, none, 3, [2], [], 0⟩] } }

theorem witness_lpi : let e := w_net.elapseTo 0
    w_net.rd (Reg.LINK_EEE_TW 0) ≠ 0 ∧ (w_net.port 0).tx.isNone = true ∧ (w_net.port 0).ownPause = [] ∧ w_net.net.pkb = [] ∧
    e.scheduledWithin 0 (usec 1000) = false ∧ (∃ stop ∈ e.lpiWindow 0, e.now + usec (w_net.rd (Reg.LINK_EEE_TW 0) + w_net.rd (Reg.LINK_EEE_GUARD 0)) ≤ stop) ∧
    ({ e with moves := [(0, ⟨5, 9, 0, false⟩)] } : State).scheduledWithin 0 (usec 1) = true := by decide
theorem witness_links : w_net.powered 0 = true ∧ w_net.linkMode 1 = 2 ∧ w_net.rdB (Reg.LINK_STAT_UP 1) = false ∧ w_net.portUp 0 = true ∧ w_net.portUp 2 = true ∧
    w_net.portReady 0 = true ∧ w_net.eeeAct 0 = true ∧ (w_net.lpiWindow 0).isSome = true ∧ w_netPaused.rdB (Reg.LINK_STAT_LPI_TX 2) = true ∧
    (w_netPaused.port 0).ownPause = [7] ∧ (w_netPaused.port 0).pause = some (3, some 0) := by decide
set_option maxRecDepth 8000 in
theorem witness_tx : w_netQueued.portReady 2 = true ∧ (w_netQueued.port 2).ownPause = [] ∧ w_netQueued.isPaused 2 = false ∧
    (w_netQueued.net.pkb.any fun k => k.egress.contains 2 && w_netQueued.mayCut k 2 && decide (k.prio ≤ 3)) = true ∧
    (w_netQueued.port 0).tx = some ⟨some 2, 0, 0, none⟩ ∧ ((w_netQueued.pkt 2).map (·.whole)) = some true ∧
    (∀ n : Nat, n < 8 → w_netQueued.cvuOn n 2 0 = false) ∧ w_netQueued.net.flow = true := by decide
set_option maxRecDepth 8000 in
theorem witness_release : (w_netQueued.net.pkb.find? fun k => k.holder == 1).map (·.id) = some 3 ∧
    (∀ k ∈ w_netQueued.net.pkb, k.holder ≠ 2) := by decide
set_option maxRecDepth 8000 in
theorem witness_reception : w_netRx.portUp 0 = true ∧ ((w_netRx.port 0).rx.bind (·.pkt)) = some 2 ∧ (w_netRx.pkt 2).isSome = true ∧
    fcsKind (w_eth 0x1234) = .good ∧ fcsKind ((w_eth 0x1234).take 60 ++ [0, 0, 0, 0]) = .wrong ∧
    fcsKind ((w_eth 0x1234).take 60 ++ stompedFcs ((w_eth 0x1234).take 60)) = .stomped ∧ 64 ≤ (w_eth 0x1234).length ∧
    (w_eth 0x1234).length ≤ w_netRx.mtu ∧ (w_netRx.frameClass 0 (w_eth 0x1234)).row = 10 ∧ ((w_netRxNone.port 0).rx.map (·.pkt)) = some none := by decide +kernel
theorem witness_levels : w_net.rd Reg.FWD_CFG_RESERVE < bitsOf 0x00500100 0 12 ∧ bitsOf (0x00500100 : Word) 0 12 < bitsOf (0x00500100 : Word) 12 12 ∧
    (w_net.lockedCells + w_net.queuedCells ≤ 2048) ∧ w_net.rd Reg.FWD_CFG_RESERVE < w_net.freeCells := by decide

/-! ## Kystan Link Protocol -/

/-- Map 1 of 4 × 2 RGB888 pixels at slot 100, board A fills with frame 7, board B is EMPTY. -/
def w_pix : State :=
  let s := st [(Reg.PIPE_MAP_EN 1, 1), (Reg.PIPE_MAP_EXPECT 1, 1), (Reg.PIPE_MAP_W 1, 4), (Reg.PIPE_MAP_H 1, 2), (Reg.PIPE_MAP_BOARD_BASE 1, 100),
    (Reg.PIPE_MAP_HANDLE 1, 0x02010001), (Reg.TIME_STAT_SERVO, 2)]
  s.setBoard 0 { boardEmpty with frame := some 7, target := some (sec 100), deadline := some (sec 99) }
/-- A packet of two pixels from pixel 3 on for that map. -/
def w_pixels : List Byte := beBytes 4 0x02010001 ++ beBytes 4 3 ++ beBytes 2 2 ++ [BitVec.ofNat 8 (w_pix.rd (Reg.PIPE_MAP_FORMAT 1)), 0] ++
  [1, 2, 3, 4, 5, 6, 7, 8, 9, 10, 11, 12].take (2 * bytesPer (w_pix.rd (Reg.PIPE_MAP_FORMAT 1)))
/-- Board A is SHOWING frame 7. -/
def w_pixShown : State := w_pix.setBoard 0 { w_pix.board 0 with showing := true, ready := true }
/-- Board A is being composed. -/
def w_pixComposing : State := { w_pix with pipe := { w_pix.pipe with comp := some ⟨some 0, 0, false, true, true, false, 0, false, []⟩ } }

theorem witness_pixel : w_pix.powered 0 = true ∧ w_pix.powered 2 = true ∧ 12 ≤ w_pixels.length ∧ beAt w_pixels 0 4 = w_pix.rd (Reg.PIPE_MAP_HANDLE 1) ∧
    (w_pix.mapDesc 1).usable = true ∧ byteAt w_pixels 10 = (w_pix.mapDesc 1).format ∧ w_pixels.length = 12 + 2 * bytesPer (w_pix.mapDesc 1).format ∧
    beAt w_pixels 4 4 + beAt w_pixels 8 2 ≤ (w_pix.mapDesc 1).w * (w_pix.mapDesc 1).h ∧ w_pix.deadlinesDue = w_pix ∧ (w_pix.board 0).frame = some 7 ∧
    w_pix.composing 0 = false ∧ w_pixComposing.composing 0 = true ∧ w_pixShown.showing = some 0 ∧ (w_pix.board 1).code = 0 ∧
    w_pix.isLate (some (sec 200)) = false := by decide

/-- READY with node 5; session 2 open with caps, a subscription with a record, two waiting answers; FOLLOW of that session. -/
def w_ses : State :=
  let s := st [(Reg.SYS_STATE_STATE, 4), (Reg.FWD_ADDR_NODE, 5), (Reg.SCAN_MODE_MODE, 2), (Reg.LINK_MODE_MODE 0, 1), (Reg.LINK_STAT_UP 0, 1), (Reg.FWD_KLP_CFG_SES_TMO, 30)]
  let h := s.handle 1 2
  let peer : ReplyTo := ⟨9, 0x0250C2000009, none⟩
  { s with
    time := { s.time with followHandle := h }
    klp := { s.klp with
      sessions := [(2, ⟨9, 3, 1, none, 0, 0x0F, peer, 8, 7, 1, 0, none, 4, 2, 0, 3⟩)]
      subs := [(4, ⟨h, 0xFFFFFFFF, 1, false, [⟨3, false, false, 0, 77, 5⟩]⟩), (6, ⟨0, 1, 0, false, []⟩)]
      out := [⟨some h, 3, 1, 3, h, 11, 0, .ok, replyBody 0x0101 .ok [], peer, true, .nothing⟩, ⟨none, 3, 1, 7, 0, 12, 0, .eBusy, [], peer, false, .nothing⟩] }
    census := { s.census with sweepReport := false, changes := [⟨5, 1, 2, 40, 4⟩, ⟨6, 1, 2, 40, 4⟩, ⟨7, 1, 3, 41, 4⟩], frameNo := 42 } }
/-- The same at Floor 3. -/
def w_sesFloor3 : State := { w_ses.wr Reg.CLK_STAT_GCK_LOCK 1 with time := { w_ses.time with floor := 3 } }
/-- The same with the control core down. -/
def w_sesDown : State := w_ses.wr Reg.SYS_STATE_CORE_DOWN 1
/-- The same with only that session's answer waiting, IDLE_S past the limit. -/
def w_sesSilent : State := { w_ses with time := { w_ses.time with uptime := sec 31 } }
/-- A HELLO request for versions 2.0 to 3.1, any index, 8 credits, all capabilities. -/
def w_hello : List Byte := [1, 0xFF, 0, 0, 2, 0, 3, 1, 0xFF, 0xFF, 0, 8] ++ List.replicate 4 0 ++ beBytes 8 0x3F ++ List.replicate 16 0
/-- A FOLLOW announcement. -/
def w_announce : List Byte := [1, 0, 0, 9] ++ beBytes 8 5000000000 ++ beBytes 4 8000000 ++ [0, 3, 0, 0]

theorem witness_session : w_ses.devState = 4 ∧ w_ses.coreDown = false ∧ w_sesDown.coreDown = true ∧ (tabFind w_ses.klp.sessions 2).isSome = true ∧
    (w_ses.sessionAt (w_ses.handle 1 2)).isSome = true ∧ sec 30 ≤ w_sesSilent.idleNow ∧ w_ses.freeIndex 1 = some 0 ∧ w_ses.granted = 8 ∧
    w_ses.canSend ⟨9, 0x0250C2000009, none⟩ = true ∧ (tabFind w_ses.klp.subs 4).map (·.queue.length) = some 1 ∧ w_ses.klp.out.length = 2 := by decide
theorem witness_census_report : (w_sesFloor3.elapseTo 0).floor = 3 ∧ ((w_sesFloor3.elapseTo 0).changedFrame.map (·.frame)) = some 40 ∧
    (w_ses.elapseTo 0).floor = 0 ∧ State.reset.changedFrame = none := by decide
theorem witness_hello : 40 ≤ w_hello.length ∧ byteAt w_hello 0 = 1 ∧ beAt w_hello 8 2 = 0xFFFF ∧ helloVersion (byteAt w_hello 4, byteAt w_hello 5) (byteAt w_hello 6, byteAt w_hello 7) = some (3, 1) ∧
    helloVersion (4, 0) (5, 0) = none ∧ w_ses.helloKey 0xFF (3, 1) = none ∧ w_ses.rdB Reg.FWD_KLP_CFG_AUTH_REQ = false ∧ w_ses.heldByOther 2 7 = true := by decide
theorem witness_follow_limits : w_ses.powered 2 = true ∧ w_ses.effMin ≤ beAt w_announce 12 4 * nsUnit + beAt w_announce 16 2 ∧
    beAt w_announce 12 4 * nsUnit + beAt w_announce 16 2 ≤ w_ses.effMax ∧ w_ses.castlingNext + w_ses.tVbMin ≤ beAt w_announce 4 8 * nsUnit + beAt w_announce 2 2 ∧
    (7900000 * nsUnit) < w_ses.effMin := by decide
theorem witness_follow : byteAt w_announce 0 = 1 ∧ 20 ≤ w_announce.length ∧ w_ses.rd Reg.SCAN_MODE_MODE = 2 ∧
    w_ses.time.followHandle = w_ses.handle 1 2 ∧ ((w_ses.sessionAt (w_ses.handle 1 2)).map fun x => bitAt x.caps 2) = some true := by decide

/-! ## Poll bus -/

/-- READY at node 5 with the poll bus enabled: two replies ready, one of them with a DOMAIN change, one event pending, a command queued. -/
def w_poll : State :=
  let s := st [(Reg.SYS_STATE_STATE, 4), (Reg.FWD_ADDR_NODE, 5), (Reg.PB_CFG_EN, 1), (Reg.PB_CFG_EV_EN, 1), (Reg.PB_CNT0_FRAMING, 255)]
  { s with poll := { s.poll with
      replies := [⟨.ok, replyBody 0x0101 .ok [1, 2], .nothing, 0⟩, ⟨.ok, replyBody 0x0703 .ok [], .domains 4 0, sec 1⟩]
      events := [⟨3, false, false, 0, 77, 5⟩], cmds := [([1, 1, 0, 0], false)], lastPoll := some 7, lastCmd := some 3, clean := true } }
/-- It has just answered and drives the bus. -/
def w_pollDriving : State := { w_poll with poll := { w_poll.poll with sent := [0xC9, 6], answer := some [0xC9, 6], driving := true } }
/-- That answer was abandoned. -/
def w_pollAbandoned : State := { w_poll with poll := { w_poll.poll with sent := [0xC9, 6], answer := some [0xC9, 6], abandoned := [[0xC9, 6], [0xC9, 7]], clean := false } }
/-- No reply is ready, four commands wait. -/
def w_pollFull : State := { w_poll with poll := { w_poll.poll with replies := [], cmds := List.replicate 4 ([1, 1, 0, 0], true) } }
/-- Nothing is ready. -/
def w_pollQuiet : State := { w_poll with poll := { w_poll.poll with replies := [], events := [] } }
/-- The control core is down. -/
def w_pollDown : State := w_poll.wr Reg.SYS_STATE_CORE_DOWN 1
/-- SENTRY. -/
def w_pollSentry : State := w_poll.wr Reg.SYS_STATE_STATE 0

/-- NET is off; IOX answers to the address it kept. -/
def w_pollNetOff : State := { w_poll.wr ⟨Reg.PWR_DOMAIN_STAT.addr, 8, 1⟩ 0 with poll := { w_poll.poll with node := 5 } }
/-- A token is held to 3 s. -/
def w_pollToken : State := { w_poll.wr Reg.PB_STAT_TOKEN 1 with poll := { w_poll.poll with tokenEnd := sec 3 } }
theorem witness_poll_node : w_poll.pwr.restoreDue = 0 ∧ w_pollNetOff.powered 0 = false ∧ w_pollNetOff.powered 4 = true ∧ w_pollNetOff.pollNode = 5 ∧
    w_poll.pollNode = 5 ∧ w_pollAbandoned.poll.abandoned = [0xC9, 6] :: [[0xC9, 7]] ∧ w_pollAbandoned.poll.lastPoll ≠ some 8 ∧
    w_pollDriving.poll.driving = true ∧ w_pollToken.poll.tokenEnd ≤ (w_pollToken.elapseTo (BitVec.ofNat 80 (sec 3))).time.uptime ∧
    (w_pollToken.elapseTo 0).time.uptime < w_pollToken.poll.tokenEnd ∧ (st [(Reg.PB_CFG_EN, 1)]).pollNode = 0 := by decide
theorem witness_poll : w_poll.powered 4 = true ∧ w_poll.powered 0 = true ∧ w_poll.rd Reg.PB_CFG_EN = 1 ∧ w_poll.rd Reg.FWD_ADDR_NODE = 5 ∧ w_poll.poll.answer = none ∧
    w_poll.devState = 4 ∧ w_poll.coreDown = false ∧ w_pollDown.coreDown = true ∧ w_pollDown.devState = 4 ∧ w_pollSentry.devState = 0 ∧
    w_pollFull.poll.cmds.length = 4 ∧ w_pollFull.poll.events ≠ [] ∧ w_pollQuiet.poll.events = [] ∧ w_poll.uid < 2 ^ 64 ∧
    (w_poll.poll.replies.find? fun x => x.after != .nothing).isSome = true := by decide

/-! ## Service port and mailbox -/

/-- READY; the inbound buffer holds CAPS. -/
def w_svc : State :=
  let s := st [(Reg.SYS_STATE_STATE, 4), (Reg.SVC_CFG_DUMMY, 8)]
  { s with cmd := { s.cmd with mboxIn := [(1, 3)], mboxOut := [(0, 9), (1023, 7)] } }
/-- A reply is ready and a second one waits. -/
def w_svcRdy : State :=
  let s := w_svc.wr Reg.SVC_MBOX_RDY 1
  { s with cmd := { s.cmd with mboxNext := [(.ok, [1, 2, 3, 4, 5])] } }
/-- A reply is ready and none waits. -/
def w_svcLast : State := w_svc.wr Reg.SVC_MBOX_RDY 1
/-- The control core is down. -/
def w_svcDown : State := w_svc.wr Reg.SYS_STATE_CORE_DOWN 1
/-- SENTRY, PIX off. -/
def w_svcSentry : State := (w_svc.wr Reg.SYS_STATE_STATE 0).wr ⟨Reg.PWR_DOMAIN_STAT.addr, 10, 1⟩ 0
/-- IOX is off. -/
def w_svcOff : State := w_svc.wr ⟨Reg.PWR_DOMAIN_STAT.addr, 12, 1⟩ 0

/-- A CHECK that came through the mailbox runs. -/
def w_svcBusy : State := { w_svc with store := { w_svc.store with run := [⟨false, .mbox true⟩] } }
theorem witness_service_turn : w_svc.mustWait (.mbox true) 3 = false ∧ w_svcBusy.mustWait (.mbox true) 3 = true ∧ w_svcBusy.mustWait (.poll false) 3 = false ∧
    w_svcBusy.mustWait (.mbox true) 0x0401 = false ∧ (w_svc.elapseTo 0).commandsFirst.powered 4 = true ∧ (w_svcOff.elapseTo 0).commandsFirst.powered 4 = false := by
  decide
theorem witness_service : w_svc.powered 4 = true ∧ w_svc.devState = 4 ∧ w_svc.coreDown = false ∧ w_svcDown.coreDown = true ∧ w_svc.rd Reg.SVC_MBOX_RDY = 0 ∧
    w_svc.rd Reg.SVC_MBOX_BUSY = 0 ∧ w_svcRdy.rd Reg.SVC_MBOX_RDY = 1 ∧ w_svcLast.cmd.mboxNext = [] ∧ w_svcSentry.devState = 0 ∧
    w_svcSentry.powered 4 = true ∧ w_svcSentry.blockOn 0x70000 = false ∧ w_svc.blockOn 0x1000000 = true ∧ blockOf 0x1000000 = some .fcm ∧
    w_svc.rd Reg.SVC_CFG_DUMMY < 16 ∧ w_svcOff.powered 4 = false := by decide

/-! ## Commands -/

/-- READY with session 2 of version 3.1 that has every capability and one credit left, one timed command pending. -/
def w_cmd : State :=
  let s := st [(Reg.SYS_STATE_STATE, 4), (Reg.MOVE_CFG_LATE_LIMIT, 500)]
  let h := s.handle 1 2
  let peer : ReplyTo := ⟨9, 0x0250C2000009, none⟩
  { s with
    time := { s.time with vt := BitVec.ofNat 80 (sec 2) }
    klp := { s.klp with
      sessions := [(2, ⟨9, 3, 1, none, 0, 0x0F, peer, 8, 1, 1, 0, none, 4, 2, 0, 3⟩)]
      timed := [⟨.klp h 7 false false peer, 0x0003, [], 1999999000, false⟩] } }
/-- The session has no credit left. -/
def w_cmdPoor : State := { w_cmd with klp := { w_cmd.klp with sessions := w_cmd.klp.sessions.map fun e => (e.1, { e.2 with avail := 0 }) } }
/-- It was opened as 2.0 without capabilities. -/
def w_cmdOld : State := { w_cmd with klp := { w_cmd.klp with sessions := w_cmd.klp.sessions.map fun e => (e.1, { e.2 with verMaj := 2, verMin := 0, caps := 0 }) } }
/-- Its capabilities do not include timed commands. -/
def w_cmdUntimed : State := { w_cmd with klp := { w_cmd.klp with sessions := w_cmd.klp.sessions.map fun e => (e.1, { e.2 with caps := 0 }) } }
/-- The control core is down. -/
def w_cmdDown : State := w_cmd.wr Reg.SYS_STATE_CORE_DOWN 1
/-- BOOT. -/
def w_cmdBoot : State := w_cmd.wr Reg.SYS_STATE_STATE 1
/-- The mailbox holds a reply. -/
def w_cmdRdy : State := w_cmd.wr Reg.SVC_MBOX_RDY 1
/-- 64 timed commands wait, none due. -/
def w_cmdFull : State := { w_cmd with klp := { w_cmd.klp with timed := List.replicate 64 ⟨.mbox false, 0x0003, [], 9000000000, false⟩ } }
/-- Two are due, the younger one first by its instant. -/
def w_cmdTwo : State := { w_cmd with klp := { w_cmd.klp with timed := w_cmd.klp.timed ++ [⟨.klp (w_cmd.handle 1 2) 8 false false ⟨9, 0x0250C2000009, none⟩, 0x0803, [], 1999000000, false⟩] } }
/-- One was held back by a restart and is late. -/
def w_cmdHeld : State := { w_cmd with klp := { w_cmd.klp with timed := [⟨.klp (w_cmd.handle 1 2) 8 false false ⟨9, 0x0250C2000009, none⟩, 0x0803, [], 1000000000, true⟩] } }

theorem witness_command_tests : commandRows.length = 45 ∧ w_cmd.devState = 4 ∧ w_cmd.coreDown = false ∧ w_cmdDown.coreDown = true ∧ w_cmdBoot.devState = 1 ∧
    w_cmd.powered 0 = true ∧ w_cmd.powered 4 = true ∧ (w_cmd.takenIn .poll (cmdPayload 0x0003 [])).isSome = true ∧
    (w_cmd.takenIn .mbox (cmdPayload 0x0003 [])).isSome = true ∧ (w_cmd.takenIn (.session 2 5 false 0) (cmdPayload 0x0003 [])).isSome = true ∧
    w_cmdRdy.rd Reg.SVC_MBOX_RDY = 1 ∧ w_cmdFull.klp.timed.length = 64 ∧ 1999999000 * nsUnit ≤ w_cmd.now := by decide
theorem witness_timed : ((tabFind w_cmd.klp.sessions 2).map fun x => (x.verMaj, bitAt x.caps 0, x.avail)) = some (3, true, 1) ∧
    ((tabFind w_cmdPoor.klp.sessions 2).map (·.avail)) = some 0 ∧ ((tabFind w_cmdUntimed.klp.sessions 2).map fun x => bitAt x.caps 0) = some false ∧
    w_cmdTwo.klp.timed.length = 2 ∧ (w_cmdHeld.klp.timed.map (·.held)) = [true] ∧ usec (w_cmdHeld.rd Reg.MOVE_CFG_LATE_LIMIT) ≤ w_cmdHeld.now - 1000000000 * nsUnit := by decide
/-! ## Commands that are served -/

/-- READY with objects of every class, in session 2 of version 3.1 with a key. -/
def w_obj : State :=
  let s := st [(Reg.SYS_STATE_STATE, 4), (Reg.CVU_CTRL_PRESET 2, 2), (Reg.CENSUS_GRP_BASE 3, 10), (Reg.CENSUS_GRP_COUNT 3, 2)]
  let s := ((s.wr (Reg.PIPE_MAP_HANDLE 1) (s.handle 2 1)).wr (Reg.MOTIF_DEF_HANDLE_HANDLE 2) (s.handle 3 2)).wr (Reg.CENSUS_GRP_HANDLE 3) (s.handle 4 3)
  { s with
    moves := [(3, ⟨70000, 9, 0, false⟩)]
    cmd := { s.cmd with progs := [(1, (40, 4))], ctxs := [(2, ⟨2, List.replicate 9 0, 7⟩)] }
    klp := { s.klp with sessions := [(2, ⟨9, 3, 1, some 1, 0, 0x0F, ⟨9, 0x0250C2000009, none⟩, 8, 4, 0, 0, none, 4, 2, 0, 3⟩)],
                        subs := [(4, ⟨s.handle 1 2, 0xFFFFFFFF, 1, false, []⟩)] } }
/-- ARMED with that Seal, the look shown by command, group 3 IDLE and group 4 TRIPPED. -/
def w_objArmed : State :=
  let s := ((w_obj.wr Reg.SYS_STATE_STATE 5).wr Reg.MOTIF_FB_STAT_ACTIVE 1).wr Reg.MOTIF_FB_STAT_CAUSE 2
  let s := ((s.wr (Reg.CENSUS_GRP_HANDLE 4) (s.handle 4 4)).wr (Reg.CENSUS_GRP_STATE 4) 3).wr Reg.SCAN_GEOM_LINES 8
  { s with store := { s.store with armed := some (List.replicate 100 7) } }
/-- Through the session, with a reply, at once. -/
def inSes : Via := .session 2 5 false 0
/-- The opcodes of a list that a state does not serve with the parameters given. -/
def unserved (s : State) (via : Via) (l : List (Nat × List Byte)) : List Nat := (l.filter fun x => (s.served x.1 via x.2).isNone).map (·.1)
/-- The parameters of REG_RD, REG_WR, REG_RMW, CREATE of each class, GRID_SET and PROG_LOAD. -/
def p_rd (n : Nat) : List Byte := beBytes 4 0x30000 ++ beBytes 2 n ++ [0, 0]
def p_rmw (mask : Nat) : List Byte := beBytes 4 0x30000 ++ leBytes 4 mask ++ leBytes 4 7
def p_create : List (List Byte) :=
  [[2, 0, 0, 5] ++ List.replicate 20 0, [3, 0, 0xFF, 0xFF, 0, 0, 0, 0, 0xE8, 3, 0, 0] ++ List.replicate 504 0, [4, 0, 0, 7, 0, 0, 0, 0, 0, 1, 0, 0],
   [7, 0, 0xFF, 0xFF, 2, 0, 0, 0], [8, 0, 0xFF, 0xFF] ++ beBytes 8 7]
def p_grid (flag : Byte) : List Byte := beBytes 8 5000000000 ++ [0, 0, 0, flag] ++ beBytes 4 16666667 ++ [0, 0, 0, 0]
def p_prog : List Byte := [0, 2, 0, 0] ++ beBytes 4 0x01205 ++ beBytes 4 0x60000

theorem witness_served_sessions : unserved w_obj inSes [(2, []), (3, []), (4, [0, 32]), (5, []), (0x101, p_rd 252), (0x102, p_rd 1 ++ leBytes 4 7), (0x103, p_rmw 0),
      (0x204, [8, 0, 0, 0]), (0x601, p_prog), (0x602, [3, 0, 0, 0]), (0x603, [3, 0, 0, 0]), (0x604, [0, 1, 0, 0, 0, 0, 0, 9]), (0x605, [0, 4, 0, 0]),
      (0x301, p_grid 1), (0x304, beBytes 8 7000000000), (0x302, beBytes 8 70000 ++ [9, 0, 0, 0, 0, 0, 0, 0]), (0x303, beBytes 4 (w_obj.handle 6 3))] = [] ∧
    unserved w_obj .mbox [(1, w_hello), (3, []), (0x101, p_rd 1), (0x205, beBytes 4 (w_obj.handle 7 2) ++ [3, 0, 0, 0])] = [] ∧
    unserved w_obj .poll [(1, w_hello), (3, []), (0x101, p_rd 1), (0x204, [8, 0, 0, 0])] = [] := by decide +kernel
theorem witness_register_commands : w_obj.rangeOk 0x30000 252 = true ∧ w_obj.locked 0x30000 7 = false ∧ w_obj.granted = 8 ∧ w_obj.freeIndex 5 = some 0 ∧
    w_obj.storeBusy 1 = false ∧ rangesMeet (40, 4) (0, 2) = false ∧ w_obj.tbPawnSource 0 = false ∧ w_obj.rdB (Reg.CVU_CTRL_EN 3) = false ∧
    periodInRange (beAt (p_grid 1) 12 4 * nsUnit) = true ∧ fitsRd w_obj.rdSh (beAt (p_grid 1) 12 4 * nsUnit) = true ∧ w_obj.powered 2 = true := by
  decide +kernel
theorem witness_objects : (p_create.map fun p => (unserved w_obj inSes [(0x201, p)], w_obj.createOk (byteAt p 0) p)) = List.replicate 5 ([], true) ∧
    w_obj.mapOccupied 5 = false ∧ w_obj.objExists 3 0 = false ∧ w_obj.objExists 4 7 = false ∧ w_obj.objExists 7 0 = false ∧ w_obj.objExists 8 0 = false := by
  decide +kernel
theorem witness_named : ([(2, 1), (3, 2), (4, 3), (5, 1), (6, 3), (7, 2), (8, 4)].map fun x => let p := beBytes 4 (w_obj.handle x.1 x.2)
      ((w_obj.served 0x202 inSes p).bind fun y => y.2.named y.1 (beAt p 0 4), unserved w_obj inSes [(0x203, p)])) =
    [(some (2, 1), []), (some (3, 2), []), (some (4, 3), []), (some (5, 1), []), (some (6, 3), []), (some (7, 2), []), (some (8, 4), [])] ∧
    w_obj.grpState 3 = 0 ∧ w_obj.progBusy (40, 4) = false ∧ (List.range 8).all (fun k => !((w_obj.hostEng k).en && (w_obj.hostEng k).defn == 2)) = true := by
  decide +kernel
theorem witness_served_seal : unserved w_obj inSes [(0x401, beBytes 4 0 ++ [0, 2, 0, 0, 5, 6]), (0x402, []), (0x403, []), (0x501, []), (0x502, [3, 0, 0, 0]), (0x503, [0, 0, 0, 252]),
      (0x504, beBytes 4 (w_obj.handle 4 3) ++ [0, 1, 0, 1, 0, 9]), (0x505, beBytes 4 (w_obj.handle 4 3)), (0x506, beBytes 4 (w_obj.handle 4 3)), (0x701, []),
      (0x702, [7, 5, 0, 0, 0, 0, 0, 9]), (0x703, [32, 0, 0, 0]), (0x801, [1, 0, 0, 1] ++ beBytes 4 (slotSize - 1) ++ [9]), (0x802, [1, 0, 0, 0]), (0x803, []),
      (0x903, [255, 0, 0, 0]), (0x904, [])] = [] ∧
    unserved w_objArmed .poll [(0x404, []), (0x405, []), (0x406, beBytes 4 99 ++ [0, 2, 0, 0]), (0x507, beBytes 4 (w_objArmed.handle 4 4)), (0x901, []), (0x902, [])] = [] ∧
    unserved w_objArmed .mbox [(0x507, beBytes 4 (w_objArmed.handle 4 4)), (0x505, beBytes 4 (w_objArmed.handle 4 3))] = [] := by decide +kernel
theorem witness_seal_census : w_obj.evaluating = false ∧ w_objArmed.brace = false ∧ w_objArmed.store.write = none ∧ w_objArmed.store.armed ≠ none ∧
    w_obj.powered 3 = true ∧ w_obj.resolve 4 (w_obj.handle 4 3) = some 3 ∧ 1 + 1 ≤ w_obj.rd (Reg.CENSUS_GRP_COUNT 3) ∧ w_objArmed.armSlack 3 = true ∧
    w_objArmed.armParams 3 = true ∧ w_objArmed.grpState 4 = 3 ∧ w_objArmed.fbActive = true ∧ w_objArmed.rd Reg.MOTIF_FB_STAT_CAUSE = 2 ∧
    w_obj.rd Reg.SEAL_BOOT_SLOT ≠ 1 ∧ w_obj.inRecovery = false ∧ (w_obj.wr Reg.SYS_STATE_STATE 7).inRecovery = true ∧ w_obj.powered 4 = true ∧
    ({ w_obj with store := { w_obj.store with run := [⟨false, .poll false⟩] } } : State).evaluating = true := by decide

/-! ## Further witnesses -/

/-- After a restart of venue time: GENLOCK locked and not, and the grandmaster with a second loaded. -/
def w_gen1 : State := w_gen.wr Reg.TIME_STAT_SERVO 1
def w_gen3 : State := w_gen.wr Reg.TIME_STAT_SERVO 3
def w_ppsTod : State := { w_pps with time := { w_pps.time with todDue := some 7 } }
def w_ppsRef : State := { w_pps with time := { w_pps.time with todRef := some (sec 7, 0) } }

theorem witness_idle : State.reset.pending = [] ∧ State.reset.cmd.mboxDue = false ∧ State.reset.poll.cmds = [] ∧ State.reset.cmd.parked = [] ∧
    State.reset.tripLevel = 0 ∧ State.reset.rd Reg.SPWM_PIN_LOCK_STEP1 = 0 ∧ State.reset.vtRuns = true ∧ State.reset.time.freq = 0 ∧
    ({ State.reset with pwr := { State.reset.pwr with refLost := true } } : State).vtRuns = false := by decide
/-- How far the edge of an instant lies from its predicted point. -/
def genOff (s : State) (t : Nat) : Int :=
  let e := s.elapseTo (BitVec.ofNat 80 t)
  let point : Int := e.now + signed 24 (e.rd Reg.TIME_GENLOCK_OFFSET) * nsUnit
  let base := e.time.epochDue.getD (gridEpoch e)
  point - gridPoint base (gridPeriod e) (gridIndexAtOrAfter base (gridPeriod e) (point - gridPeriod e / 2))
theorem witness_genlock_edges : gridPeriod w_gen < (genOff w_gen (usec 100)).natAbs * 1000 ∧ ¬(gridPeriod w_gen < (genOff w_gen 0).natAbs * 1000) ∧
    w_gen1.servo = 1 ∧ w_gen1.timeSrc = 2 ∧ w_gen3.servo = 3 ∧ w_gen3.timeSrc = 2 ∧ (w_gen3.elapseTo 0).idle = true ∧
    ({ w_gen1 with time := { w_gen1.time with genTaken := false } } : State).time.genTaken = false := by decide
theorem witness_pps_second : (w_ppsTod.elapseTo 0).time.todDue = some 7 ∧ (w_ppsTod.elapseTo 0).ppsUnexpected = false ∧
    (w_ppsRef.elapseTo 0).time.todRef = some (sec 7, 0) ∧ (w_ppsRef.elapseTo 0).ppsUnexpected = false ∧ w_ppsRef.timeSrc = 1 := by decide
theorem witness_delay_heard : ((w_ports.elapseTo 0).heardPorts.find? (fun x => x.1 == 1)).map (·.2.udp) = some false ∧
    (w_ports.elapseTo 0).ptpOver false = true ∧ 24 ≤ (w_gm.elapseTo 0).freeCells ∧ (w_gm.elapseTo 0).portCells 1 + 4 ≤ (w_gm.elapseTo 0).qcap ∧
    w_gm.portUp 1 = true ∧ ((w_ports.wr Reg.TIME_CFG_TRANSPORT 2).wr Reg.FWD_IP_ADDR 9).ptpOver true = true := by decide
theorem witness_time_cfg_write : (w_gm.movesDue.blockOn Reg.TIME_CFG_SRC.addr = true ∧ w_gm.movesDue.locked Reg.TIME_CFG_SRC.addr 3 = false) ∧ w_gm.movesDue.timeSrc = 1 ∧ w_gm.movesDue.servo = 2 ∧
    (w_gm.movesDue.reg Reg.TIME_CFG_SRC.addr).toNat % 4 = 1 := by decide
theorem witness_todset : unserved (w_obj.wr Reg.TIME_CFG_SRC 1) inSes [(0x304, beBytes 8 7000000000)] = [] ∧ (w_obj.wr Reg.TIME_CFG_SRC 1).timeSrc = 1 ∧
    beAt (beBytes 8 7000000000) 0 8 % 1000000000 = 0 ∧ w_obj.timeSrc = 0 ∧ (w_obj.wr Reg.TIME_CFG_SRC 3).timeSrc = 3 ∧
    unserved (w_obj.wr Reg.TIME_CFG_SRC 3) inSes [(0x304, beBytes 8 7)] = [] ∧ w_obj.powered 2 = true := by decide +kernel

/-! ## More moves, boards and sinks -/

/-- Four moves: two of one cycle, a PIN_CLEAR and a later PIN_SET of that cycle, one still to come. -/
def w_moves : State :=
  { st [] with moves := [(0, ⟨70002, 7, 1, false⟩), (1, ⟨70002, 9, 5, false⟩), (2, ⟨70001, 6, 1, false⟩), (3, ⟨9000000000, 9, 5, false⟩)] }
/-- One waiting move of an action with an argument. -/
def moveAt (s : State) (act : Byte) (arg : Word) : State := { s with moves := [(3, ⟨70000, act, arg, false⟩)] }
/-- The instant after it. -/
def at1 : Vt := BitVec.ofNat 80 (msec 1)
/-- A frame of which a packet came before the FLIP, which no board holds, and one that board A holds. -/
def w_flipKnown : State := { moveAt (st []) 1 7 with pipe := { State.reset.pipe with known := [(7, ⟨none, none, true⟩)] } }
def w_flipHeld : State := (moveAt (st []) 1 7).setBoard 0 ⟨some 7, true, false, true, none, none, none, false, false, []⟩
/-- The line interface runs, the setup instant past and not. -/
def w_castleMove : State := moveAt w_run 2 3
def w_castleMoveLate : State := moveAt w_runTaken 2 3
/-- READY with IOX on, no pawn runs. -/
def w_pinMove : State := moveAt (st [(Reg.SYS_STATE_STATE, 4)]) 6 0x35
/-- A FILLING board whose deadline comes in BRACE, a READY one, a patched one, and one that has met its deadline. -/
def w_deadlines : State := ((w_filling.wr Reg.SYS_STATE_BRACE 1).setBoard 0 ⟨some 6, true, false, false, some (3 * nsUnit), some (2 * nsUnit), none, false, false, []⟩).setBoard 2
    ⟨some 9, false, false, false, some (3 * nsUnit), some (2 * nsUnit), none, false, true, []⟩
/-- THA and THB under MAX, with both, one and none good. -/
def w_tbMax (a b : Nat) : State :=
  st [(Reg.SINK_TB_CFG_SRC, 3), (Reg.ADC_DATA_VALID 2, 1), (Reg.ADC_DATA_CODE 2, a), (Reg.ADC_DATA_VALID 3, 1), (Reg.ADC_DATA_CODE 3, b)]
def w_tbFaultP : State := w_tbPawn.wr Reg.SINK_TB_STAT_FAULT_P 1
def w_tbWord : State := { w_tbPawn with sink := { w_tbPawn.sink with tP := some 320 } }
/-- A TCM and a census word that the scrubber has reported. -/
def w_scrubbed : State := { State.reset with rook := { State.reset.rook with scrubbed := [(2, 9), (4, 7)] } }

theorem witness_move_admits : w_move.commandsFirst.movesDue.admits Reg.MOVE_NEW_ADD.addr 1 ∧ w_moveWaits.movesDue.admits Reg.MOVE_NEW_ADD.addr 2 :=
  ⟨⟨by decide, by decide⟩, ⟨by decide, by decide⟩⟩
theorem witness_move_add : let s := w_obj.setVt (sec 2)
    let p (ns : Nat) := beBytes 8 ns ++ [9, 0, 0, 0, 0, 0, 5, 7]
    unserved s inSes [(0x302, p 3000000000)] = [] ∧ s.powered 2 = true ∧ byteAt (p 3000000000) 8 = 9 ∧ beAt (p 3000000000) 9 3 = 0 ∧
    (s.now : Int) - beAt (p 3000000000) 0 8 * nsUnit ≤ 0 ∧ s.freeIndex 6 = some 0 ∧ (0 : Int) < (s.now : Int) - beAt (p 1000000000) 0 8 * nsUnit ∧
    (usec (s.rd Reg.MOVE_CFG_LATE_LIMIT) : Int) ≤ (s.now : Int) - beAt (p 1000000000) 0 8 * nsUnit := by decide +kernel
theorem witness_moves_in_order : let e := w_moves.elapseTo at1
    (∀ x ∈ w_moves.moves, x.2.passed = false) ∧
    (w_moves.moves.filter fun x => cycleAt (x.2.inst * nsUnit) ≤ e.now).length = 3 ∧
    (let key := fun (x : Nat × Move) => [(cycleAt (x.2.inst * nsUnit) + sysCycle - 1) / sysCycle, if x.2.action = 7 then 1 else 0, x.2.inst, x.1];
      [(2, ⟨70001, 6, 1, false⟩), (1, ⟨70002, 9, 5, false⟩), (0, ⟨70002, 7, 1, false⟩)].Pairwise fun x y => listLt (key x) (key y) = true) := by
  decide
theorem witness_move_flip : (w_flipKnown.elapseTo at1).knownFrame 7 = some ⟨none, none, true⟩ ∧
    (∀ k : Fin 3, ((w_flipKnown.elapseTo at1).board k.val).frame ≠ some 7) ∧ 70000 * nsUnit ≤ (w_flipKnown.elapseTo at1).now ∧
    ((w_flipHeld.elapseTo at1).board 0).frame = some 7 ∧ ((w_flipHeld.elapseTo at1).board 0).showing = false ∧
    (w_flipHeld.elapseTo at1).composing 0 = false := by decide
theorem witness_move_castle : w_castleMove.moves = [(3, ⟨70000, 2, 3, false⟩)] ∧ (w_castleMove.elapseTo (BitVec.ofNat 80 (sec 1))).slotBoundary (70000 * nsUnit) ≤
      (w_castleMove.elapseTo (BitVec.ofNat 80 (sec 1))).now ∧ w_castleMove.idle = false ∧ w_castleMove.scan.setupDone = false ∧
    w_castleMove.scan.inBlank = false ∧ w_castleMoveLate.scan.setupDone = true ∧ w_castleMoveLate.idle = false := by decide
theorem witness_move_pins : let e := w_pinMove.elapseTo at1
    e.pxSafe = false ∧ e.powered 4 = true ∧ e.runningPawns = [] ∧ Reg.PAWN_PX_OUT_LEVEL.addr ∉ e.cycle.written ∧
    Reg.PAWN_PX_OE_OE.addr ∉ e.cycle.written ∧ e.cycle.pinsClr &&& 0x35 = 0 ∧ (w_moves.elapseTo at1).pxSafe = true := by decide
theorem witness_deadline_kinds : let e := w_deadlines.elapseTo (BitVec.ofNat 80 (sec 1))
    let due := fun i : Nat => (e.board i).deadline.any (fun dl => decide (dl ≤ e.now)) && !(e.board i).held && !(e.board i).met &&
      !(e.board i).patched && !(e.board i).showing && !e.composing i
    due 0 = true ∧ (e.board 0).ready = true ∧ due 1 = true ∧ (e.board 1).ready = false ∧ e.brace = true ∧ due 2 = false ∧ (e.board 2).met = true := by
  decide
theorem witness_flush : w_deadlines.movesDue.admits Reg.PIPE_CTRL_FLUSH.addr 1 := ⟨by decide, by decide⟩
theorem witness_tb_sources : (w_tbMax 700 800).tbSrc = 3 ∧ 4080 ≤ (w_tbMax 700 4080).rd (Reg.ADC_DATA_CODE 3) ∧ (w_tbMax 16 800).rd (Reg.ADC_DATA_CODE 2) ≤ 16 ∧
    (w_tbMax 16 4080).tbSrc = 3 ∧ ((w_tbMax 700 800).wr Reg.SINK_TB_CFG_SRC 4).tbSrc = 4 ∧ ((w_tbMax 700 800).wr (Reg.ADC_DATA_VALID 3) 0).rdB (Reg.ADC_DATA_VALID 3) = false ∧
    w_tbFaultP.rd Reg.SINK_TB_STAT_FAULT_P = 1 ∧ w_tbWord.sink.tP = some 320 ∧ w_tbPawn.sink.tP = none ∧ (w_tbMax 700 800).powered 5 = true := by decide
theorem witness_ecc_kinds : (4, 7) ∈ w_scrubbed.rook.scrubbed ∧ (4, 8) ∉ w_scrubbed.rook.scrubbed ∧ (w_scrubbed.elapseTo 0).atLimit = false ∧
    ¬(fcmCensus ≤ 4 * 9 ∧ 4 * 9 < memberAt) := by decide
theorem witness_extest_pins : let s : State := { State.reset with rook := { State.reset.rook with boundary := [(.swA 1, true), (.swA 1, false), (.swB 2, true)] } }
    s.rook.boundary = [(.swA 1, true)] ++ (.swA 1, false) :: [(.swB 2, true)] ∧ ∀ x ∈ [((.swB 2 : BsPin), true)], x.1 ≠ .swA 1 := by decide
theorem witness_kick_comes : let s : State := { w_wdog with pending := [.watchdogKick 0 0x5A5A] }
    (s.elapseTo 0).wdogExpired = true ∧ (s.elapseTo 0).kickComing = true ∧ (w_wdog.elapseTo 0).kickComing = false := by decide
theorem witness_supplies : State.reset.supplyHeld = false ∧ ({ State.reset with pwr := { State.reset.pwr with aoDown := true } } : State).supplyHeld = true ∧
    (27 : BitVec 5) ≠ 31 ∧ (State.reset.elapseTo 0).resetComing 0 4 = false ∧
    ({ State.reset with pending := [.railReset 0 4] } : State).resetComing 0 4 = true ∧
    (let s : State := { w_railDown with pwr := { w_railDown.pwr with down := 2 } };
      s.pwr.resetRail = some (1, true) ∧ s.pwr.down &&& ~~~(2 : BitVec 5) = 0 ∧ s.pwr.aoDown = false ∧ s.pwr.resetN = false ∧ s.pwr.orderHold = false ∧
      s.pwr.down &&& ~~~(4 : BitVec 5) ≠ 0 ∧ bitAt s.pwr.down.toNat 1 = true) ∧
    (let s : State := { State.reset with pwr := { State.reset.pwr with orderHold := true } };
      s.pwr.resetRail = none ∧ s.pwr.orderHold = true ∧ s.pwr.down &&& ~~~(31 : BitVec 5) = 0) := by decide
theorem witness_domain_write : (State.reset.wr ⟨Reg.PWR_DOMAIN_STAT.addr, 10, 1⟩ 0).powered 2 = false ∧ (w_railDown.heldDomain 2 = true ∨ State.reset.heldDomain 2 = false) ∧
    State.reset.powered 1 = true ∧ (State.reset.elapseTo 0).atLimit = false := by decide
theorem witness_alarm : w_sentry.pwr.alwLost = none ∧ w_sentryWaits.pwr.wakeSeen = 0 ∧ w_sentryWaits.rdB Reg.PWR_WAKE_PIN_EN = true ∧ (w_sentryDue.wr Reg.PWR_WAKE_PIN_EN 0).rdB Reg.PWR_WAKE_PIN_EN = false ∧
    ({ w_sentryWoken with pwr := { w_sentryWoken.pwr with wakeSeen := 2 } } : State).pwr.wakeSeen = 2 := by decide

/-! ## More start-up, frames, groups and castles -/

/-- Firmware chosen and a wake whose retained copy is good. -/
def w_fwWarm : State :=
  { w_fw0 with pwr := { w_fw0.pwr with waking := true, retained := some ([1, 2], crcOf crc32c [1, 2]) } }
/-- BRACE with a FLIP that is due. -/
def w_frameBrace : State := { w_frame.wr Reg.SYS_STATE_BRACE 1 with pipe := { w_frame.pipe with flips := [(7, 0)] } }
/-- A slot that the Rook had to give up, and one blanked by bracing. -/
def w_slotBraced : State := w_slot.wr Reg.PWR_SUPV_STAT_BLANKED 1
/-- The armed Seal locks the group's words. -/
def w_groupsLocked : State := { w_groups.wr Reg.SYS_STATE_STATE 5 with store := { State.reset.store with locks := [(Reg.CENSUS_GRP_POLICY 1).addr, (Reg.CENSUS_GRP_BASE 1).addr, (Reg.CENSUS_GRP_ACK 1).addr, Reg.SYS_CASTLE_COMMIT.addr, Reg.CENSUS_CTRL_SWEEP.addr] } }

theorem witness_fw_warm : w_fwWarm.warmCopy = some [1, 2] ∧ w_fwWarm.store.bootsel ≠ 3 ∧ w_fw0.warmCopy = none ∧ w_fw0.storedBest = none ∧
    w_fw0.storedMagic = none ∧ w_fw0.supplyHeld = false := by decide +kernel
theorem witness_copy_taps : ∀ n : Fin 8, w_copying.cvuOn n.val 5 0 = false := by decide
theorem witness_restart_origins : (let s : State := { w_restart with store := { w_restart.store with run := [], write := some (.poll false) } };
      s.started = [.poll false] ∧ s.cmd.parked = [] ∧ s.poll.cmds = []) ∧
    (let s : State := { w_restart with store := { w_restart.store with run := [], swapDue := some (1, .poll false) } };
      s.started = [.poll false] ∧ s.store.swapDue = some (1, .poll false)) ∧
    (let s : State := { w_restart with store := { w_restart.store with run := [] } }; s.started = [] ∧ s.cmd.parked = []) := by decide
theorem witness_frame_brace : (w_frameBrace.elapseTo 0).frameDue = true ∧ w_frameBrace.brace = true ∧ w_frameBrace.idle = false ∧
    w_frameBrace.planeFits = true ∧ (7, 0) ∈ w_frameBrace.pipe.flips ∧ w_frameBrace.scan.nextKind ≠ .darkB := by decide
theorem witness_slot_braced : w_slotBraced.rdB Reg.PWR_SUPV_STAT_BLANKED = true ∧ w_slotBraced.scan.dark = false ∧ w_slotBraced.idle = false ∧
    w_slotBraced.slotPos.inFrame w_slotBraced.geom = true ∧ w_slotBraced.slotPos.idx < w_slotBraced.geom.lines := by decide
theorem witness_group_writes : w_groups.movesDue.admits (Reg.CENSUS_GRP_POLICY 1).addr 1 ∧ w_groups.movesDue.admits (Reg.CENSUS_GRP_POLICY 4).addr 0 ∧
    w_groups.movesDue.admits (Reg.CENSUS_GRP_ACK 4).addr 0x10 ∧ w_groups.movesDue.admits (Reg.CENSUS_GRP_BASE 1).addr 7 ∧
    w_groups.movesDue.admits (Reg.CENSUS_GRP_POLICY 5).addr (withBits 2 0 1 1) ∧ w_groups.movesDue.admits Reg.CENSUS_CTRL_SWEEP.addr 1 ∧
    w_groups.movesDue.admits Reg.CENSUS_CTRL_SWEEP.addr 2 ∧ w_run.movesDue.admits Reg.SYS_CASTLE_COMMIT.addr 3 ∧ w_mir.movesDue.admits Reg.SYS_CASTLE_COMMIT.addr 256 := by
  refine ⟨?_, ?_, ?_, ?_, ?_, ?_, ?_, ?_, ?_⟩ <;> exact ⟨by decide, by decide⟩
theorem witness_group_locked : let d := w_groupsLocked.movesDue
    d.locked (Reg.CENSUS_GRP_POLICY 1).addr 1 = true ∧ d.locked (Reg.CENSUS_GRP_ACK 1).addr 0x10 = true ∧ d.locked (Reg.CENSUS_GRP_BASE 1).addr 7 = true ∧
    d.locked Reg.SYS_CASTLE_COMMIT.addr 3 = true ∧ d.locked Reg.CENSUS_CTRL_SWEEP.addr 1 = true ∧ w_mir.movesDue.mirRuns = true := by decide
theorem witness_lock_timeout : w_relock.scan.relockFrom = some 0 ∧ 0 + msec 5 ≤ (w_relock.elapseTo (BitVec.ofNat 80 (sec 1))).time.uptime ∧
    (w_relock.elapseTo 0).time.uptime < 0 + msec 5 := by decide
theorem witness_compose_slots : (3, 1536 * 1 + 320 / 32) ∈ ({ w_compose with rook := { w_compose.rook with scrubbed := [(3, 1546)] } } : State).rook.scrubbed ∧
    w_compose.slotGood 1 320 = false ∧ w_compose.showing = some 2 ∧ (w_compose.setBoard 1 { w_compose.board 1 with cov := [(320, true)] }).slotGood 1 320 = true := by
  decide

/-! ## More pawns -/

/-- A GO of a stopped pawn with a bad window that stands in its program. -/
def w_pBad : State := w_pDrive.setPawn 2 { w_pDrive.pawn 2 with pc := 7, fromEntry := false }
/-- Pawn 0 waits in LOAD since 0 and 1 ms have passed. -/
def w_pStalled : State := { w_pLoadEmpty with time := { w_pLoadEmpty.time with uptime := msec 1 } }
/-- Shared flag 3 has been cleared in this cycle, and the flags written. -/
def w_pSignalClr : State := { w_pSignal with cycle := { w_pSignal.cycle with flagsClr := 8 } }
def w_pSignalWritten : State := { w_pSignal with cycle := { w_pSignal.cycle with written := [Reg.PAWN_FLAGS_FLAG.addr] } }
/-- An AWAIT of flag 3 with CLR. -/
def w_pAwaitClr : State := (pawnAt 0x50E23).wr Reg.PAWN_FLAGS_FLAG 8
/-- A STORE of a pawn whose word is the board temperature. -/
def w_pStoreTb : State := let s := (pawnAt 0x40000).wr Reg.SINK_TB_CFG_SRC 5
  s.setPawn 0 { s.pawn 0 with smr := 0x10140 }

theorem witness_pawn_admits : w_pDrive.movesDue.admits 0xD0140 7 ∧ w_pDrive.movesDue.admits 0xD0424 7 ∧ w_pDrive.movesDue.admits 0xD0110 7 ∧
    w_pDrive.movesDue.admits Reg.PAWN_GO_GO.addr 7 ∧ w_pDrive.movesDue.admits Reg.PAWN_CTRL_FLUSH.addr (7 <<< 16) := by
  refine ⟨?_, ?_, ?_, ?_, ?_⟩ <;> exact ⟨by decide, by decide⟩
theorem witness_pawn_not_admitted : (st [(⟨Reg.PWR_DOMAIN_STAT.addr, 12, 1⟩, 0)]).movesDue.blockOn 0xD0100 = false ∧ State.reset.movesDue.pawnsMayRun = false ∧
    State.reset.movesDue.blockOn Reg.PAWN_GO_GO.addr = true ∧ State.reset.movesDue.locked Reg.PAWN_GO_GO.addr 3 = false := by decide
theorem witness_pawn_bad_start : w_pBad.movesDue.pawnConfigOk 2 = false ∧ (w_pBad.movesDue.pawn 2).fromEntry = false ∧ (w_pBad.movesDue.pawn 2).run = false ∧
    (w_pDrive.movesDue.pawn 2).fromEntry = true ∧ w_pBad.pawnsMayRun = true := by decide
theorem witness_pawn_stall : let p := w_pStalled.pawn 0
    p.run = true ∧ p.wait = 1 ∧ p.stalled = false ∧ w_pStalled.rd (Reg.PAWN_CFG_STALL_LIM 0) = 1 ∧
    p.waitAt + msec 1 ≤ (w_pStalled.elapseTo 0).time.uptime ∧ (w_pLoadEmpty.elapseTo 0).time.uptime < p.waitAt + msec 1 := by decide
theorem witness_pawn_flags : bitAt w_pSignalClr.cycle.flagsClr.toNat 3 = true ∧ Reg.PAWN_FLAGS_FLAG.addr ∉ w_pSignal.cycle.written ∧
    Reg.PAWN_FLAGS_FLAG.addr ∈ w_pSignalWritten.cycle.written ∧ w_pSignal.pawnWord 0 % 4096 / 1024 = 0 ∧ w_pSignalEv.pawnWord 0 % 4096 / 1024 = 2 ∧
    w_pAwaitClr.pawnWord 0 % 4096 / 512 = 7 ∧ bitAt (w_pAwaitClr.pawnWord 0 % 4096) 5 = true ∧
    (w_pAwaitClr.elapseTo (BitVec.ofNat 80 sysCycle)).awaitHolds 0 (w_pAwaitClr.pawnWord 0 % 4096) 0 0 0 = true ∧ (w_pSignal.elapseTo 0).cycle.flagsClr = 0 := by decide
theorem witness_pawn_store_tb : w_pStoreTb.tbPawnSource 0 = true ∧ bitAt (w_pStoreTb.pawn 0).smr.toNat 16 = true ∧ w_pStore.tbPawnSource 0 = false ∧
    ∀ u ∈ List.range 8, w_pStore.cvuOn u 4 0 = false := by decide

/-! ## More registers and SPWM -/

/-- A counter written in a cycle in which it has counted. -/
def w_counted : State := State.reset.bump Reg.PIPE_CNT1_REPEAT
/-- Unit 1 in a period that began at 0, and its midpoint. -/
def w_swRun : State := w_sw.setSw 1 { w_sw.sw 1 with boundaryAt := some 0 }
def w_swRunMid : State := w_swMid.setSw 1 { w_swMid.sw 1 with boundaryAt := some 0 }
/-- The end of that period of P ticks, and half of it. -/
def swEnd (s : State) : Vt := BitVec.ofNat 80 (s.swP 1 * spwTick)
def swHalf (s : State) : Vt := BitVec.ofNat 80 (s.swP 1 / 2 * spwTick)
/-- TRIP2 asserted; SUP off; a pin-lock sequence begun 64 SYS cycles ago. -/
def w_swTripPin : State := { w_sw with pwr := { w_sw.pwr with tripPins := 4 } }
def w_supOff : State := w_sw.wr ⟨Reg.PWR_DOMAIN_STAT.addr, 13, 1⟩ 0
def w_pinLate : State := { w_pinStep with time := { w_pinStep.time with uptime := 65 * sysCycle } }

theorem witness_register_rows : (let d := (w_counted.elapseTo 0).movesDue; d.admits Reg.PIPE_CNT1_REPEAT.addr 9) ∧ (let d := w_pix.movesDue; d.admits (0x1000000 + 4 * 5) 9) ∧
    (let d := (w_armedPlain.elapseTo 0).movesDue; d.admits 0x30000 3) ∧ State.reset.movesDue.admits Reg.PIPE_CAL_CHK_START.addr (BitVec.ofNat 32 3) ∧
    State.reset.movesDue.admits Reg.MOTIF_CTRL_STEP.addr (BitVec.setWidth 32 (5 : BitVec 8)) ∧ w_look.movesDue.admits Reg.MOTIF_CTRL_STEP.addr 0x100 ∧
    w_look.movesDue.admits Reg.MOTIF_CTRL_STEP.addr 0x200 := by
  refine ⟨?_, ?_, ?_, ?_, ?_, ?_, ?_⟩ <;> exact ⟨by decide, by decide⟩
theorem witness_counters : counterFlds Reg.SCAN_CNT_STALL.addr ≠ [] ∧ counterFlds 0x90000 = [] ∧ (w_counted.rd Reg.PIPE_CNT1_REPEAT - w_counted.atStart.rd Reg.PIPE_CNT1_REPEAT) = 1 ∧
    State.reset.movesDue.setNow 0x30000 = 0 ∧ (w_armedPlain.raise Ev.FRAME_REPEAT 0).movesDue.setNow 0x30000 ≠ 0 := by decide
theorem witness_swap_period : (∀ b ∈ (w_swRun.sw 1).boundaryAt, b + w_swRun.swP 1 * spwTick ≤ (w_swRun.elapseTo (swEnd w_swRun)).time.uptime) ∧
    (w_swRun.elapseTo (swHalf w_swRun)).time.uptime < 0 + w_swRun.swP 1 * spwTick ∧ (w_swRun.elapseTo (swHalf w_swRun)).swTrips 1 = false ∧
    (w_swRunMid.sw 1).boundaryAt = some 0 ∧ (w_swRunMid.sw 1).midDone = false ∧
    0 + w_swRunMid.swP 1 / 2 * spwTick ≤ (w_swRunMid.elapseTo (swHalf w_swRunMid)).time.uptime ∧
    (w_swRunMid.elapseTo (swHalf w_swRunMid)).time.uptime < 0 + w_swRunMid.swP 1 * spwTick ∧ w_swRunMid.swRuns 1 = true ∧ w_swRunMid.swHalted = false ∧
    w_swRunMid.swCentre 1 = true ∧ w_swRunMid.swUpd 1 = 1 ∧ w_swRunMid.rdB (Reg.SPWM_STAT_PENDING 1) = true ∧ (w_swRunMid.sw 1).loopArmed = false := by decide
theorem witness_spwm_admits : w_sw.movesDue.admits (swAddr 1 1) 7 ∧ w_sw.movesDue.admits (Reg.SPWM_CTRL_EN 1).addr 0 ∧ w_sw.movesDue.admits (Reg.SPWM_CTRL_EN 2).addr 1 ∧
    w_swTripped.movesDue.admits (Reg.SPWM_TRIP_CLR 1).addr 0x100 ∧ w_sw.movesDue.admits Reg.SPWM_PIN_LOCK_PIN.addr 0x5A000000 ∧
    w_pinStep.movesDue.admits Reg.SPWM_PIN_LOCK_PIN.addr 0xA5000003 := by
  refine ⟨?_, ?_, ?_, ?_, ?_, ?_⟩ <;> exact ⟨by decide, by decide⟩
theorem witness_pin_open : w_pinStep.movesDue.pinOpen = true ∧ w_pinLate.movesDue.pinOpen = false ∧ w_pinLate.movesDue.rdB Reg.SPWM_PIN_LOCK_STEP1 = true ∧
    w_supOff.movesDue.blockOn (swAddr 1 1) = false ∧ w_supOff.powered 5 = false := by decide

/-! ## More check-value units and mirror -/

/-- Unit 3 with RESUME, a bad FCM window, and a snap of this cycle in unit 2. -/
def w_cvuResume : State := w_cvu.wr (Reg.CVU_CTRL_RESUME 3) 1
def w_cvuSnapped : State := { w_cvu with cycle := { w_cvu.cycle with cvuSnapped := 4 } }
/-- A line boundary of the mirror at 0, its next one, and a COMMAND frame whose last line has begun. -/
def w_mirOn (s : State) : State := { s with mir := { s.mir with lineAt := some 0 } }
def w_mirAt (n : Nat) : Vt := BitVec.ofNat 80 (n * w_mir.mirClock)
def w_mirLast : State := w_mirOn { w_mirWriting with mir := { w_mirWriting.mir with line := 2 } }

theorem witness_cvu_rows : w_cvu.movesDue.admits (Reg.CVU_CTRL_EN 3).addr ((w_cvu.movesDue.reg (Reg.CVU_CTRL_EN 3).addr &&& 0x03FFFFFA) ||| 1) ∧
    w_cvu.movesDue.admits (Reg.CVU_CTRL_EN 2).addr (w_cvu.movesDue.reg (Reg.CVU_CTRL_EN 2).addr &&& 0x03FFFFFA) ∧ w_cvu.movesDue.admits (Reg.CVU_CTRL_EN 2).addr 0 ∧
    w_cvu.movesDue.admits (0xF00C0 + cvuCfgOffset 0) 9 := by
  refine ⟨?_, ?_, ?_, ?_⟩ <;> exact ⟨by decide, by decide⟩
theorem witness_cvu_kinds : w_ioxOff.movesDue.blockOn (Reg.CVU_CTRL_EN 2).addr = false ∧ w_cvuResume.rdB (Reg.CVU_CTRL_RESUME 3) = true ∧ w_cvuResume.rdB (Reg.CVU_CTRL_EN 3) = false ∧
    w_cvuResume.cvuEnableOk 3 = true ∧ w_cvuResume.rd (Reg.CVU_CTRL_MODE 3) = 2 ∧ (w_cvu.wr (Reg.CVU_CTRL_PRESET 3) 7).cvuEnableOk 3 = false ∧
    w_cvuSnapped.movesDue.cycle.cvuSnapped.getLsbD 2 = true ∧ w_cvu.movesDue.cycle.cvuSnapped.getLsbD 2 = false ∧ w_cvuMatch.rdB (Reg.CVU_CTRL_CMP_EN 2) = true ∧
    (w_cvu.wr (Reg.CVU_CTRL_CMP_SRC 2) 1).cvuTrailer 2 = true ∧ (w_cvu.wr (Reg.CVU_STAT_OPEN 2) 0).rdB (Reg.CVU_STAT_OPEN 2) = false := by decide
theorem witness_mirror_time : (w_mirOn w_mir).mir.lineAt = some ((w_mirOn w_mir).elapseTo 0).time.uptime ∧ (w_mirOn w_mir).mir.clockHeld = false ∧
    0 + (w_mirOn w_mirActive).mirLineClocks * (w_mirOn w_mirActive).mirClock ≤ ((w_mirOn w_mirActive).elapseTo (w_mirAt w_mirActive.mirLineClocks)).time.uptime ∧
    ¬(0 + (w_mirOn w_mirActive).mirLineClocks * (w_mirOn w_mirActive).mirClock ≤ ((w_mirOn w_mirActive).elapseTo 0).time.uptime) ∧
    w_mirLast.mirActive.2 ≤ w_mirLast.mir.line ∧ (w_mirLast.mir.lineAt = some 0 ∧
    0 + w_mirLast.mirWriteClocks * w_mirLast.mirClock ≤ (w_mirLast.elapseTo (w_mirAt w_mirLast.mirWriteClocks)).time.uptime) ∧
    w_mirWriting.mir.line < w_mirWriting.mirActive.2 ∧ w_mirWriting.mir.retimeDue = false ∧ w_mirWriting.mirRuns = true ∧ w_mirCmd.mir.writing = false := by decide
theorem witness_mirror_lines_kinds : (w_mirOn w_mir).mir.porch = some 5 ∧ w_mirActive.mirT2 ≤ 5 ∧ ({ w_mirActive with mir := { w_mirActive.mir with line := 6 } } : State).mirT2 + 2 ≤ 7 ∧
    ({ w_mirActive with mir := { w_mirActive.mir with line := 1 } } : State).mirT2 > 2 ∧ w_mirTe.mir.request = true ∧ w_mirTe.mirCommand = true := by decide
theorem witness_mirror_writes : w_mir.movesDue.admits Reg.MIR_CTRL_EN.addr 0 ∧ w_mir.movesDue.admits 0x100020 7 ∧ State.reset.movesDue.admits Reg.MIR_CTRL_EN.addr 1 := by
  refine ⟨?_, ?_, ?_⟩ <;> exact ⟨by decide, by decide⟩

/-! ## More links and forwarding -/

/-- Flow control is in force with PAUSE on B0, in LPI and not. -/
def w_flow (lpi : Nat) : State := { ((w_net.wr (Reg.LINK_PAUSE_TX 2) 1).wr (Reg.LINK_STAT_LPI_TX 2) lpi) with net := { w_net.net with flow := true } }
/-- An event message of PTP waits at B0. -/
def w_ptpFrame : List Byte := let b := beBytes 6 0x0250C2000007 ++ beBytes 6 0x0250C2000009 ++ beBytes 2 0x88F7 ++ List.replicate 46 0
  b ++ fcsOf b
def w_netPtp : State := { w_net with net := { w_net.net with nextId := 1, pkb := [⟨0, w_ptpFrame, true, none, 0, [2], [], 0⟩] } }
/-- A link down in the middle of a frame that a check-value unit sees. -/
def w_netTap : State := ((w_netRx.wr (Reg.CVU_CTRL_EN 4) 1).wr (Reg.CVU_TAP_SRC 4) 1).wr (Reg.CVU_TAP_SEL 4) 0
/-- A frame that grows at a port that sends it, with the port's queue full. -/
def w_netGrows : State :=
  let s := w_net.wr Reg.FWD_MTU_QCAP 64
  let s := s.setPort 0 ⟨some ⟨0, some 2, false⟩, none, [], none, 0, none, none, 0⟩
  { s with net := { s.net with nextId := 3, pkb := [⟨1, List.replicate 9000 0, true, none, 3, [2], [], 0⟩, ⟨0, List.replicate 7000 0, true, none, 3, [2], [], 0⟩,
    ⟨2, (w_eth 0x1234).take 64, false, some (0, 0), 3, [], [2], 0⟩] } }
def w_bad300 : List Byte := w_eth 0x1234 ++ List.replicate 300 0

theorem witness_link_rows : w_net.movesDue.admits (0x50000 + 0x1000 * 0) 2 ∧ (State.reset.wr ⟨Reg.PWR_DOMAIN_STAT.addr, 8, 1⟩ 0).movesDue.blockOn 0x50000 = false :=
  ⟨⟨by decide, by decide⟩, by decide⟩
theorem witness_pause_resend : (w_flow 1).net.flow = true ∧ (w_flow 1).rdB (Reg.LINK_PAUSE_TX 2) = true ∧ (w_flow 1).portUp 2 = true ∧
    (w_flow 1).rdB (Reg.LINK_STAT_LPI_TX 2) = true ∧ (w_flow 0).rdB (Reg.LINK_STAT_LPI_TX 2) = false ∧ w_net.net.flow = false := by decide
set_option maxRecDepth 8000 in
theorem witness_tx_event : w_netPtp.portReady 2 = true ∧ (w_netPtp.port 2).ownPause = [] ∧ w_netPtp.isPaused 2 = false ∧
    (w_netPtp.net.pkb.any fun k => k.egress.contains 2 && w_netPtp.mayCut k 2 && decide (k.prio ≤ 3)) = true ∧
    ((ptpAt w_ptpFrame).map fun x => decide (byteAt w_ptpFrame x.1 % 16 ≤ 3)) = some true ∧ ptpAt (w_eth 0x1234) = none ∧
    (∀ n : Nat, n < 8 → w_netPtp.cvuOn n 2 0 = false) := by decide +kernel
theorem witness_tapped : w_netTap.cvuOn 4 1 0 = true ∧ (w_netTap.port 0).rx.isSome = true ∧ (∀ n : Fin 8, w_net.cvuOn n.val 1 0 = false) := by decide
set_option maxRecDepth 8000 in
theorem witness_growth : fcsKind w_bad300 ≠ .good ∧ w_bad300.length ≤ w_netGrows.mtu ∧ w_netGrows.qcap < w_netGrows.portCells 2 + 1 ∧
    ((w_netGrows.pkt 2).map (·.sending)) = some [2] ∧ (w_netRx.portCells 2 + 1 ≤ w_netRx.qcap) := by decide +kernel

/-! ## More KLP -/

/-- Three boards that hold frames 1 to 3; the second fills with the earliest target. -/
def w_boardsFull : State :=
  ((w_pix.setBoard 0 { boardEmpty with frame := some 1, target := some (sec 100), deadline := some (sec 99), ready := true }).setBoard 1
    { boardEmpty with frame := some 2, target := some (sec 90), deadline := some (sec 89) }).setBoard 2
    { boardEmpty with frame := some 3, target := some (sec 95), deadline := some (sec 94) }
/-- A frame whose FLIP waits, and one whose first packet was discarded. -/
def w_pixKnown : State := { w_boardsFull with pipe := { w_boardsFull.pipe with flips := [(8, sec 50)], known := [(9, ⟨some (sec 92), some 92000000000, false⟩)] } }
/-- A stream that an answer outside a session has begun. -/
def w_sesStream : State := { w_ses with klp := { w_ses.klp with streams := [((5, 7, 0), 41)] } }

theorem witness_pixel_frames : (w_boardsFull.elapseTo 0).deadlinesDue = w_boardsFull ∧ (∀ i : Fin 3, (w_boardsFull.board i.val).frame ≠ some 7) ∧
    (∀ i : Fin 3, (w_boardsFull.board i.val).code ≠ 0) ∧ w_boardsFull.evictable (some (sec 92)) = some 1 ∧ w_boardsFull.evictable (some (sec 80)) = none ∧
    w_boardsFull.isStale (some (sec 92)) = false ∧ w_boardsFull.isLate (some (sec 92)) = false ∧ (w_pix.board 1).code = 0 ∧
    w_pix.isLate (some 0) = true ∧ w_pix.isStale (some 0) = false ∧ ({ w_pixShown with pipe := { w_pixShown.pipe with shownTarget := sec 9 } } : State).isStale (some (sec 8)) = true ∧
    w_pixKnown.knownFrame 9 = some ⟨some (sec 92), some 92000000000, false⟩ ∧ w_pixKnown.pipe.flips.find? (fun x => x.1 == 8) = some (8, sec 50) := by decide
theorem witness_streams : (w_sesStream.klp.out.drop 1).head?.map (fun m => (m.session, m.cls, m.handle)) = some (none, 7, 0) ∧
    w_sesStream.klp.streams.lookup (5, 7, 0) = some 41 ∧ w_ses.klp.streams.lookup (5, 7, 0) = none ∧ w_sesStream.rd Reg.FWD_ADDR_NODE = 5 := by decide
theorem witness_event_delivery : (tabFind w_ses.klp.subs 4).map (fun b => (b.session, b.queue.length)) = some (w_ses.handle 1 2, 1) ∧
    (w_ses.sessionAt (w_ses.handle 1 2)).map (fun x => w_ses.canSend x.peer) = some true ∧ w_ses.powered 0 = true := by decide

/-! ## More poll bus, service port and commands -/

/-- Three commands in the queue and one that waits for its turn. -/
def w_pollTurn : State := { w_poll with poll := { w_poll.poll with cmds := List.replicate 3 ([1, 1, 0, 0], false) }, cmd := { w_poll.cmd with parked := [⟨.poll false, 3, true, []⟩] } }
/-- NET is on again, its contents not restored. -/
def w_pollRestore : State := { w_poll with pwr := { w_poll.pwr with restoreDue := 1 }, poll := { w_poll.poll with node := 9 } }
/-- DUMMY is 20. -/
def w_svcSlow : State := w_svc.wr Reg.SVC_CFG_DUMMY 20
/-- An evaluation runs and a swap waits for it. -/
def w_swapWaits : State := { w_obj with store := { w_obj.store with run := [⟨false, .poll false⟩], swapDue := some (1, .poll false) } }
/-- A move of the table that is due. -/
def w_objDue : State := w_obj.setVt (70001 * nsUnit)
/-- VDDC holds NET, PIX and CTL off. -/
def w_objHeld : State := { w_obj with pwr := { w_obj.pwr with down := 1 } }

theorem witness_poll_replies : (w_poll.poll.replies.find? fun x => x.after != .nothing && decide (x.ready + msec 10 ≤ (w_poll.elapseTo (BitVec.ofNat 80 (sec 2))).time.uptime)).map (fun r => (r.after, r.ready)) =
      some (.domains 4 0, sec 1) ∧
    (∀ r ∈ w_poll.poll.replies, r.after = .nothing ∨ (w_poll.elapseTo 0).time.uptime < r.ready + msec 10) := by decide
theorem witness_poll_waiting : w_pollTurn.pollWaiting = 4 ∧ w_pollTurn.poll.cmds.length = 3 ∧ w_poll.pollWaiting < 4 ∧ 4 ≤ w_pollFull.pollWaiting ∧
    bitAt w_pollRestore.pwr.restoreDue.toNat 0 = true ∧ w_pollRestore.powered 0 = true ∧ w_pollRestore.pollNode = 9 ∧
    (w_pollAbandoned.poll.abandoned.erase [0xC9, 6]) = [[0xC9, 7]] ∧ w_poll.poll.abandoned = [] := by decide
theorem witness_service_words : (w_svc.elapseTo 0).commandsFirst.blockOn 0x70000 = true ∧ (w_svcSentry.elapseTo 0).commandsFirst.blockOn 0x70000 = false ∧
    w_svc.rd Reg.SVC_CFG_DUMMY < 16 ∧ ¬(w_svcSlow.rd Reg.SVC_CFG_DUMMY < 16) ∧ w_svc.movesDue.locked 0x70000 7 = false ∧ w_svc.cmd.mboxDue = false := by decide
theorem witness_destroy_move : unserved w_objDue inSes [(0x202, beBytes 4 (w_obj.handle 6 3))] = [] ∧
    ((w_objDue.served 0x202 inSes (beBytes 4 (w_obj.handle 6 3))).map fun x => (x.2.named x.1 (w_obj.handle 6 3), x.2.movesDue.named x.1 (w_obj.handle 6 3))) = some (some (6, 3), none) ∧
    ((w_obj.served 0x202 inSes (beBytes 4 (w_obj.handle 6 3))).map fun x => x.2.movesDue.named x.1 (w_obj.handle 6 3)) = some (some (6, 3)) := by decide +kernel
theorem witness_swap_domain : w_swapWaits.evaluating = true ∧ w_swapWaits.store.swapDue ≠ none ∧ w_objHeld.heldDomain 2 = true ∧ w_obj.heldDomain 2 = false ∧
    bitAt 4 1 = false ∧ w_obj.devState = 4 ∧ w_obj.brace = false := by decide
theorem witness_timed_trial : let x := { w_cmd with klp := { w_cmd.klp with timed := [] } }.perform (.klp (w_cmd.handle 1 2) 7 false true ⟨9, 0x0250C2000009, none⟩) 0x0003 true []
    (∃ e ∈ x.1, e.1 ∈ [Status.ok, .doneLater, .partially]) ∧
    (∀ e ∈ ({ w_cmd with moves := [] }.perform (.klp (w_cmd.handle 1 2) 7 false true ⟨9, 0x0250C2000009, none⟩) 0x0303 true [0, 0, 0, 1]).1,
      e.1 ∉ [Status.ok, .doneLater, .partially]) := by decide +kernel

/-! ## Witnesses of the wider clauses -/

/-- EV_ECC_CORR was raised at 5 ms, EV_ECC_UNCORR at 14 ms. -/
def w_eccPast : State := { State.reset with rook := { State.reset.rook with lastCorr := some (msec 5), lastUncorr := some (msec 14) } }
theorem witness_ecc_limits : let e (t : Nat) := w_eccPast.elapseTo (BitVec.ofNat 80 t)
    w_eccPast.rook.lastCorr = some (msec 5) ∧ msec 5 + msec 10 ≤ (e (msec 15)).time.uptime ∧ (e (msec 15 - 1)).time.uptime < msec 5 + msec 10 ∧
    w_eccPast.rook.lastUncorr = some (msec 14) ∧ msec 14 + msec 1 ≤ (e (msec 15)).time.uptime ∧ (e (msec 15 - 1)).time.uptime < msec 14 + msec 1 ∧
    (0, 9) ∉ w_eccPast.rook.scrubbed ∧ (e (msec 15)).atLimit = false ∧ (e (msec 15)).countedNow = false ∧ (e (msec 15)).restartedNow = false := by decide

/-- A restart has been counted at this instant, and one has begun uncounted in this SYS cycle. -/
def w_wdogCounted : State := { w_wdog with rook := { w_wdog.rook with counted := [sec 100] }, cycle := { w_wdog.cycle with start := w_wdog.toChip } }
def w_wdogBegun : State := { w_wdog with rook := { w_wdog.rook with restarting := true }, cycle := { w_wdog.cycle with start := w_wdog.toChip } }
/-- The limit is reached with the next restart. -/
def w_wdogLimit : State := { w_wdog with rook := { w_wdog.rook with counted := (List.range 9).map fun _ => sec 99 }, cycle := { w_wdog.cycle with start := w_wdog.toChip } }
theorem witness_watchdog_cycle : (w_wdogCounted.elapseTo 0).wdogExpired = true ∧ (w_wdogCounted.elapseTo 0).kickComing = false ∧
    (w_wdogCounted.elapseTo 0).countedNow = true ∧ (w_wdogBegun.elapseTo 0).wdogExpired = true ∧ (w_wdogBegun.elapseTo 0).countedNow = false ∧
    (w_wdogBegun.elapseTo 0).restartedNow = true ∧ (w_wdogBegun.elapseTo 0).atLimit = false ∧ (w_wdogLimit.elapseTo 0).wdogExpired = true ∧
    (w_wdogLimit.elapseTo 0).atLimit = true ∧ (w_wdogLimit.elapseTo 0).countedNow = false ∧ w_wdogLimit.supplyHeld = false ∧
    w_wdogLimit.pwr.resetN = false ∧ (w_wdog.elapseTo 0).restartedNow = false := by decide

/-- In BRACE with a reading kept; two rails have crossed by as much, and none has. -/
def w_braceKept : State := { w_brace with pwr := { w_brace.pwr with lowest := [(0, 5), (2, 9000)], crossed := 3 } }
def w_braceNone : State := { w_brace with pwr := { w_brace.pwr with crossed := 0 } }
theorem witness_adc_samples : w_braceKept.supervised = true ∧ w_braceKept.brace = true ∧ tabFind w_braceKept.pwr.lowest 0 = some 5 ∧
    tabFind w_braceKept.pwr.lowest 1 = none ∧ bitAt w_braceKept.pwr.crossed.toNat 1 = true ∧ bitAt w_braceKept.pwr.crossed.toNat 2 = false ∧
    w_braceNone.pwr.crossed = 0 ∧ w_rstLow.supervised = false ∧ State.reset.brace = false := by decide
theorem witness_ref_held : let s : State := { w_refLost with pwr := { w_refLost.pwr with down := 2, resetRail := some (1, true) } }
    s.pwr.refLost = true ∧ s.supplyHeld = true ∧ ({ w_refLost with pwr := { w_refLost.pwr with resetN := true } } : State).pwr.resetN = true ∧
    w_refLost.supplyHeld = false ∧ w_refLost.pwr.resetN = false := by decide
theorem witness_domain_lost : State.reset.powered 1 = true ∧ (State.reset.elapseTo 0).atLimit = false ∧ (State.reset.elapseTo 0).countedNow = false ∧
    (State.reset.elapseTo 0).restartedNow = false ∧ w_sentry.supplyHeld = false ∧ w_sentry.pwr.resetN = false ∧ w_sentryDue.pwr.aoDown = false ∧
    w_sentryDue.pwr.orderHold = false ∧ w_sentryDue.pwr.resetN = false := by decide
theorem witness_arm_left : w_arm.devState = 4 ∧ (w_arm.wr Reg.SYS_STATE_STATE 5).devState = 5 ∧ (w_arm.wr Reg.SYS_STATE_STATE 5).store.run = [⟨true, .poll false⟩] ∧
    ({ w_stale with poll := { w_stale.poll with assigned := true } } : State).poll.assigned = true ∧ w_stale.poll.assigned = false := by decide

/-- A Seal with the group 3 (DARK_ALL, armed) and a PAWN section that starts pawn 0 and names one program. -/
def w_groupEntry : List Byte := [3, 1, 1, 0] ++ leBytes 2 10 ++ leBytes 2 2
def w_pawnData : List Byte := [1, 0, 0, 0] ++ leBytes 4 5 ++ leBytes 4 7 ++ leBytes 4 0x00000100 ++ List.replicate 284 0 ++ [1, 0, 4]
def w_seal : List Byte :=
  let body := leBytes 4 5 ++ leBytes 4 8 ++ w_groupEntry ++ leBytes 4 7 ++ leBytes 4 303 ++ w_pawnData ++ [0]
  leBytes 4 0x49165EA1 ++ [1, 0, 0, 0] ++ leBytes 4 (32 + body.length) ++ List.replicate 20 0 ++ body
/-- ARMED under it: DRV, IOX and PIX wait for their contents; a group was lost with DRV. -/
def w_domains : State :=
  { st [(Reg.SYS_STATE_STATE, 5)] with store := { State.reset.store with armed := some w_seal },
                                       pwr := { State.reset.pwr with restoreDue := 28, groupsLost := [(7, 0, 20, 3, true)] } }
theorem witness_domain_contents : w_domains.store.armed = some w_seal ∧ w_domains.coreDown = false ∧ w_domains.devState = 5 ∧ w_domains.powered 4 = true ∧
    bitAt w_domains.pwr.restoreDue.toNat 2 = true ∧ bitAt w_domains.pwr.restoreDue.toNat 3 = true ∧ bitAt w_domains.pwr.restoreDue.toNat 4 = true ∧
    w_domains.objExists 4 7 = false ∧ ((sealGroups (secsOf w_seal)).map (·.idx)) = [3] ∧ secData (secsOf w_seal) 7 ≠ [] ∧
    (sealProgs (secData (secsOf w_seal) 7)) = [(0, 4)] ∧ bitAt (byteAt (secData (secsOf w_seal) 7) 0) 0 = true ∧
    w_domains.rdB Reg.SYS_STATE_DARK_SAFE = false := by decide +kernel
/-- A restart with a started command of every kind. -/
def w_restartAll : State :=
  { w_restart with
    store := { w_restart.store with armDue := some ⟨0, [.mbox false]⟩, run := [⟨false, .poll false⟩, ⟨true, .mbox false⟩], write := some (.poll false), swapDue := some (1, .poll false) }
    poll := { w_restart.poll with cmds := [([0, 3, 0, 0], false)] }, cmd := { w_restart.cmd with parked := [⟨.poll false, 3, true, []⟩] } }
theorem witness_restart_all : w_restartAll.rook.restarting = true ∧ w_restartAll.started.length = 5 ∧ w_restartAll.poll.cmds.length = 1 ∧
    w_restartAll.cmd.parked.length = 1 ∧ (w_restartAll.store.armDue.map (·.origins)).getD [] = [.mbox false] := by decide

/-- A finished composition chosen with a FLIP that is due; BRACE has come since. -/
def w_flipComposed : State :=
  { w_frame.wr Reg.SYS_STATE_BRACE 1 with pipe := { w_frame.pipe with comp := some ⟨some 1, 0, true, true, true, false, 0, false, [(7, 0)]⟩ } }
theorem witness_flip_composed : (w_flipComposed.elapseTo 0).frameDue = true ∧ w_flipComposed.brace = true ∧ w_flipComposed.idle = false ∧
    w_flipComposed.planeFits = true ∧ w_flipComposed.pipe.comp.map (·.flips) = some [(7, 0)] ∧ w_flipComposed.scan.nextKind ≠ .darkB ∧
    (∀ f ∈ w_flipComposed.pipe.flips ++ [((7 : Word), 0)], f.2 ≤ (w_flipComposed.elapseTo 0).now) := by decide
theorem witness_setup_units : let s := w_run.wr Reg.SYS_CASTLE_STAT_PENDING 64
    let u := (s.wr (Reg.SPWM_CTRL_UPD 1) 4).wr (Reg.SPWM_STAT_PENDING 1) 1
    bitAt (s.rd Reg.SYS_CASTLE_STAT_PENDING) 6 = true ∧ u.swUpd 1 = 4 ∧ u.rdB (Reg.SPWM_STAT_PENDING 1) = true ∧ u.swUpd 2 ≠ 4 := by decide
theorem witness_composed_late : let s : State := { w_composing with cycle := { w_composing.cycle with written := [Reg.GREY_PERF_MAX.addr] } }
    Reg.GREY_PERF_MAX.addr ∈ (s.elapseTo 0).cycle.written ∧ (s.elapseTo 0).pipe.comp.map (·.done) = some false ∧
    Reg.GREY_PERF_MAX.addr ∉ (w_composing.elapseTo 0).cycle.written := by decide

/-- Software has written word 2 earlier in the SYS cycle; pawn 1, stopped, has it in its range. -/
def w_pStored : State := { w_pDrive with cycle := { w_pDrive.cycle with stored := [(2, 0x12345, true)] } }
theorem witness_pawn_stored : let d := w_pStored.movesDue
    d.admits Reg.PAWN_GO_GO.addr (BitVec.setWidth 32 (2 : BitVec 8)) ∧ d.pawnsMayRun = true ∧ (d.pawn 1).run = false ∧ d.pawnConfigOk 1 = true ∧
    d.rd (Reg.PAWN_PROG_START 1) ≤ 2 ∧ 2 ≤ d.rd (Reg.PAWN_PROG_END 1) ∧ d.cycle.stored = [(2, 0x12345, true)] ∧ w_pDrive.movesDue.cycle.stored = [] :=
  ⟨⟨by decide, by decide⟩, by decide, by decide, by decide, by decide, by decide, by decide, by decide⟩
theorem witness_unoccupied_commands : let p : List Byte := beBytes 4 0xE01A8 ++ [0, 1, 0, 0]
    regDefAt 0xE01A8 = none ∧ blockOf 0xE01A8 = some .spwm ∧ unserved w_obj inSes [(0x101, p), (0x102, p ++ leBytes 4 7)] = [] ∧ w_obj.blockOn 0xE01A8 = true ∧
    beAt p 0 4 = 0xE01A8 ∧ beAt p 4 2 = 1 ∧ beAt p 6 2 = 0 ∧ 12 ≤ (p ++ leBytes 4 7).length ∧ 0xE01A8 ∉ w_obj.store.locks := by decide +kernel

/-- Unit 1 clamps; LATCH with AUTO_REARM after its trip; a boundary with moves that act before it. -/
def w_swClamp : State := (w_sw.setShReg (swAddr 1 1) 0x00384).wr (Reg.SPWM_STAT_PENDING 1) 1
def w_swRearm : State := (w_swTripped.wr (Reg.SPWM_CTRL_AUTO_REARM 1) 1)
theorem witness_spwm_moves : let e := ({ w_sw with moves := [(3, ⟨70000, 5, 2, false⟩)] } : State).elapseTo at1
    let d := e.movesDue
    d.swRuns 1 = true ∧ (∀ b ∈ (d.sw 1).boundaryAt, b + d.swP 1 * spwTick ≤ d.time.uptime) ∧ d.powered 5 = true ∧ d.swHalted = false ∧
    (w_sw.sw 1).castleDue = none ∧ (w_swRearm.rdB (Reg.SPWM_CTRL_AUTO_REARM 1) && w_swRearm.rdB (Reg.SPWM_STAT_TRIPPED 1)) = true ∧
    ((w_swRunMid.setSw 1 { w_swRunMid.sw 1 with waiting := false }).sw 1).waiting = false := by decide
/-- A debug halt with unit 6 pinned, unit 7 running unpinned. -/
def w_pinHalt : State :=
  { ((w_pinStep.wr (Reg.SPWM_CTRL_EN 6) 1).wr (Reg.SPWM_STAT_RUN 6) 1).wr Reg.SYS_DBG_HALTED 1 with pwr := { w_pinStep.pwr with pinned := 1 } }
theorem witness_pin_halt : w_pinHalt.movesDue.admits Reg.SPWM_PIN_LOCK_PIN.addr 0xA5000000 ∧ w_pinHalt.movesDue.pinOpen = true ∧
    w_pinHalt.movesDue.swHalted = true ∧ (0xA5000000 : Word) >>> 24 = 0xA5 ∧ w_pinStep.movesDue.swHalted = false :=
  ⟨⟨by decide, by decide⟩, by decide, by decide, by decide, by decide⟩
/-- A RESULT read has latched RINFO of unit 2. -/
def w_cvuHeld : State := w_cvu.setCvu 2 { w_cvu.cvuAt 2 with infoHeld := true }
theorem witness_cvu_held : (w_cvuHeld.cvuAt 2).infoHeld = true ∧ (w_cvu.cvuAt 2).infoHeld = false ∧ w_cvuHeld.rdB (Reg.CVU_STAT_OPEN 2) = true := by decide

/-- Port 0 carried a good frame of the ring 1 ms ago, port 1 never one. -/
def w_ring : State := (w_net.setPort 0 { w_net.port 0 with lastGood := some 0 }).wr Reg.FWD_RING_TMO 3
theorem witness_ring : w_ring.portUp 0 = true ∧ (w_ring.port 0).lastGood = some 0 ∧ (w_ring.elapseTo at1).time.uptime < 0 + msec (max 1 (w_ring.rd Reg.FWD_RING_TMO)) ∧
    (w_ring.port 1).lastGood = none := by decide
set_option maxRecDepth 8000 in
theorem witness_tx_first : let waits (k : Pkt) := k.egress.contains 2 && w_netQueued.mayCut k 2
    w_netQueued.portReady 2 = true ∧ (w_netQueued.port 2).ownPause = [] ∧ w_netQueued.isPaused 2 = false ∧
    (w_netQueued.net.pkb.map fun k => (k.id, waits k, k.prio)) = [(0, true, 3), (1, true, 1), (2, false, 3), (3, false, 3)] := by decide
/-- Two frames of the highest class wait at B0, and one of a lower class before them. -/
def w_netSame : State := { w_netQueued with net := { w_netQueued.net with pkb := w_netQueued.net.pkb ++ [⟨8, w_eth 0x1235, true, some (0, 0), 1, [2], [], 0⟩] } }
set_option maxRecDepth 8000 in
theorem witness_tx_same : let waits (k : Pkt) := k.egress.contains 2 && w_netSame.mayCut k 2
    (w_netSame.net.pkb.filter waits).map (fun k => (k.id, k.prio)) = [(0, 3), (1, 1), (8, 1)] := by decide

theorem witness_follow_written : let s : State := { w_ses with cycle := { w_ses.cycle with written := [Reg.TIME_GRID_PERIOD_NS.addr] } }
    Reg.TIME_GRID_PERIOD_NS.addr ∈ s.cycle.written ∧ Reg.TIME_GRID_EPOCH_EPOCH_HI.addr ∉ s.cycle.written := by decide
/-- A REPLY outside sessions that names the open session. -/
def w_sesReply : State := { w_ses with klp := { w_ses.klp with out := [⟨none, 3, 1, 3, w_ses.handle 1 2, 11, 0, .eHandle, [], ⟨10, 0x0250C200000A, none⟩, false, .nothing⟩] } }
theorem witness_reply_outside : (w_sesReply.klp.out.map fun m => (m.session, m.cls, w_sesReply.canSend m.peer, (w_sesReply.sessionAt m.handle).isSome)) =
    [(none, 3, true, true)] := by decide
theorem witness_assign_kept : let s : State := { w_poll with cycle := { w_poll.cycle with written := [Reg.FWD_ADDR_NODE.addr] } }
    Reg.FWD_ADDR_NODE.addr ∈ (s.elapseTo 0).cycle.written ∧ s.powered 0 = true ∧ bitAt s.pwr.restoreDue.toNat 0 = false ∧
    Reg.FWD_ADDR_NODE.addr ∉ (w_poll.elapseTo 0).cycle.written := by decide
/-- The due timed commands of `w_cmdTwo` in their order. -/
theorem witness_timed_order : let e := w_cmdTwo.elapseTo 0
    let l := w_cmdTwo.klp.timed.reverse
    (l.map (·.inst)) = [1999000000, 1999999000] ∧ (∀ t ∈ l, t.inst * nsUnit ≤ e.now) ∧ w_cmdTwo.coreDown = false ∧ 2 ≤ w_cmdTwo.devState := by decide

/-! ## Witnesses of the refusals -/

/-- BRACE, an armed Seal locks a SCAN register, a pawn runs program 1, unit 3 is enabled, engine 5 uses definition 2, group 3 is ARMED. -/
def w_objBusy : State :=
  let s := ((((w_objArmed.wr Reg.SYS_STATE_BRACE 1).wr (Reg.CVU_CTRL_EN 3) 1).wr (Reg.MOTIF_ENG_EN 5) 1).wr (Reg.MOTIF_ENG_DEF 5) 2).wr (Reg.CENSUS_GRP_STATE 3) 2
  let s := ((s.wr (Reg.PAWN_PROG_START 0) 40).wr (Reg.PAWN_PROG_END 0) 43).wr Reg.SINK_TB_CFG_SRC 5
  { s.setPawn 0 { s.pawn 0 with run := true } with store := { s.store with locks := [0x90000], run := [⟨false, .poll false⟩] } }
theorem witness_refused_kinds : let h (c i : Nat) := beBytes 4 (w_objBusy.handle c i)
    w_objBusy.locked 0x90000 7 = true ∧ w_objBusy.brace = true ∧ w_objBusy.evaluating = true ∧ w_objBusy.rdB (Reg.CVU_CTRL_EN 3) = true ∧
    (w_objBusy.hostEng 5).en = true ∧ (w_objBusy.hostEng 5).defn = 2 ∧ w_objBusy.grpState 3 = 2 ∧ w_objBusy.progBusy (40, 4) = true ∧
    w_objBusy.tbPawnSource 0 = true ∧ w_objBusy.mapOccupied 1 = true ∧ w_objBusy.objExists 8 4 = true ∧ helloVersion (4, 0) (5, 0) = none ∧
    unserved w_objBusy inSes [(0x101, beBytes 4 0x90002 ++ [0, 1, 0, 0]), (0x102, beBytes 4 0x90000 ++ [0, 1, 0, 0] ++ leBytes 4 7), (0x103, beBytes 4 0x90000 ++ leBytes 4 1 ++ leBytes 4 7),
      (0x201, [5, 0, 0, 0]), (0x201, [8, 0, 0, 4] ++ beBytes 8 7), (0x202, h 3 2), (0x202, h 4 3), (0x202, h 5 1), (0x202, h 1 2), (0x203, [0, 0, 0, 0]),
      (0x204, [9, 0, 0, 0]), (0x205, h 7 2 ++ [3, 0, 0, 0]), (0x205, h 7 3 ++ [4, 0, 0, 0]), (0x301, p_grid 2), (0x302, beBytes 8 7 ++ [0, 0, 0, 0, 0, 0, 0, 0]), (0x401, beBytes 4 0 ++ [0, 1, 0, 0, 5]),
      (0x4, [0, 0]), (0x502, [4, 0, 0, 0]), (0x503, [0, 0, 0, 0]), (0x504, h 4 3 ++ [0, 2, 0, 1, 0, 9]), (0x504, h 4 9 ++ [0, 1, 0, 1, 0, 9]), (0x601, [38, 4, 0, 0] ++ List.replicate 16 0),
      (0x602, [1, 1, 0, 0]), (0x603, [1, 0, 0, 1]), (0x604, [8, 1, 0, 0, 0, 0, 0, 9]), (0x605, [0, 1, 0, 0]), (0x903, [1, 1, 0, 0])] = [] ∧
    unserved w_objBusy .mbox [(0x0001, w_hello), (0x505, h 4 3), (0x507, h 4 3)] = [] ∧
    unserved { w_objBusy with store := { w_objBusy.store with run := [] } } .poll [(0x405, []), (0x703, [4, 0, 0, 0]), (0x703, [2, 0, 0, 0]), (0x702, [8, 0, 0, 0, 0, 0, 0, 0]), (0x801, [1, 0, 0, 1, 0, 0, 0, 0, 9]), (0x801, [0, 0, 0, 1, 0, 0, 0, 0, 9]),
      (0x802, [1, 0, 0, 0])] = [] := by decide +kernel
/-- The counterparts that leave one cause alone: no slack, bad parameters, no armed Seal, another cause of the look, domains off. -/
theorem witness_refused_more : (w_obj.wr (Reg.CENSUS_GRP_COUNT 3) 0).armParams 3 = false ∧ w_objArmed.armSlack 3 = true ∧
    (w_objArmed.wr (Reg.CENSUS_GRP_POLICY 3) 1).armSlack 3 = false ∧ w_objArmed.grpState 3 = 0 ∧ w_obj.store.armed = none ∧ w_obj.fbActive = false ∧
    (w_obj.wr ⟨Reg.PWR_DOMAIN_STAT.addr, 10, 1⟩ 0).powered 2 = false ∧ (w_obj.wr ⟨Reg.PWR_DOMAIN_STAT.addr, 11, 1⟩ 0).powered 3 = false ∧
    (w_obj.wr ⟨Reg.PWR_DOMAIN_STAT.addr, 12, 1⟩ 0).powered 4 = false ∧ w_obj.slotReason 1 ≠ 0 ∧ w_obj.rd Reg.SEAL_BOOT_SLOT = 0 ∧
    rangesMeet (40, 4) (38, 4) = true ∧ ({ w_obj with cmd := { w_obj.cmd with progs := (List.range 16).map fun k => (k, (k, 1)) } } : State).freeIndex 5 = none ∧
    ({ w_obj with klp := { w_obj.klp with sessions := w_obj.klp.sessions.map fun e => (e.1, { e.2 with key := none, caps := 0 }) } } : State).klp.sessions.length = 1 := by decide +kernel

end Sys2Proof.Tests
end

section
/-! PROOFS. Words of a block's range that no register occupies (R5): a read finds 0 there, and a write nothing to change. -/
namespace Sys2Proof.Machine

/-! ## Where registers stand -/

/-- A word that a register occupies is another one. -/
theorem ne_of_unoccupied {a b : Nat} (h : regDefAt a = none) (hb : (regDefAt b).isSome = true) : a ≠ b := by
  rintro rfl
  simp [h] at hb

/-- Units of one layout stand `stride` bytes apart: a word at an offset of a unit at which each unit has a register holds one. -/
theorem occupied_of_unit {base stride count : Nat} {offs : List Nat}
    (hrow : ∀ k < count, ∀ o ∈ offs, (regDefAt (base + stride * k + o)).isSome = true) {a : Nat} (h0 : base ≤ a)
    (h1 : a - base < stride * count) (ho : (a - base) % stride ∈ offs) : (regDefAt a).isSome = true := by
  have e : a = base + stride * ((a - base) / stride) + (a - base) % stride := by
    rw [Nat.add_assoc, Nat.div_add_mod, Nat.add_sub_cancel' h0]
  rw [e]
  exact hrow _ (Nat.div_lt_of_lt_mul h1) _ ho

/-- LINK_STAT and LINK_PAUSE of the six ports. -/
theorem occupied_link : ∀ p < 6, ∀ o ∈ [4, 0x10], (regDefAt (0x50000 + 0x1000 * p + o)).isSome = true := by decide

/-- FWD_SES_s. -/
theorem occupied_session : ∀ s < 32, ∀ o ∈ [0, 4, 8, 12], (regDefAt (0x60200 + 16 * s + o)).isSome = true := by decide

/-- PIPE_BOARD_FRAME. -/
theorem occupied_boardFrame : ∀ b < 3, ∀ o ∈ [0], (regDefAt (0x7000C + 4 * b + o)).isSome = true := by decide

/-- PAWN_n_STATE, RX, EMR, SMR, CNTA and CNTB. -/
theorem occupied_pawn : ∀ n < 8, ∀ o ∈ [0x0C, 0x14, 0x18, 0x1C, 0x20, 0x24], (regDefAt (0xD0100 + 0x40 * n + o)).isSome = true := by
  decide

/-- SPWM_n_PERIOD, DUTY, DUTY_B, DT and STAT. -/
theorem occupied_spwm : ∀ n < 8, ∀ o ∈ [4, 8, 12, 16, 0x1C], (regDefAt (0xE0000 + 0x40 * n + o)).isSome = true := by decide

/-- CVU_n_RESULT. -/
theorem occupied_cvuResult : ∀ n < 8, ∀ o ∈ [0x2C], (regDefAt (0xF0000 + 0x40 * n + o)).isSome = true := by decide

/-- The words of NET begin with those of LINK. -/
theorem le_of_domainOf_net {a : Nat} (h : domainOf a = some 0) : 0x50000 ≤ a := by
  refine Nat.le_of_not_lt fun hlt => ?_
  rw [domainOf, blockOf, if_pos (by omega)] at h
  have hk : a / 0x10000 = 0 ∨ a / 0x10000 = 1 ∨ a / 0x10000 = 2 ∨ a / 0x10000 = 3 ∨ a / 0x10000 = 4 := by omega
  rcases hk with hk | hk | hk | hk | hk <;> simp [hk] at h

/-- The words of SUP are those of SPWM. -/
theorem le_of_domainOf_sup {a : Nat} (h : domainOf a = some 5) : 0xE0000 ≤ a := by
  refine Nat.le_of_not_lt fun hlt => ?_
  by_cases hp : a / 0x10000 = 5
  · by_cases hl : a < 0x56000 <;> simp [domainOf, blockOf, hp, hl, show a < 0x120000 by omega] at h
  · rw [domainOf, blockOf, if_pos (by omega)] at h
    have hk : a / 0x10000 = 0 ∨ a / 0x10000 = 1 ∨ a / 0x10000 = 2 ∨ a / 0x10000 = 3 ∨ a / 0x10000 = 4 ∨ a / 0x10000 = 6 ∨
        a / 0x10000 = 7 ∨ a / 0x10000 = 8 ∨ a / 0x10000 = 9 ∨ a / 0x10000 = 10 ∨ a / 0x10000 = 11 ∨ a / 0x10000 = 12 ∨
        a / 0x10000 = 13 := by omega
    rcases hk with hk | hk | hk | hk | hk | hk | hk | hk | hk | hk | hk | hk | hk <;> simp [hk] at h

section
variable {a : Nat} (h : regDefAt a = none) (h4 : a % 4 = 0)

include h in
/-- A word outside the units' registers, by the layout of the units. -/
theorem unoccupied_not_unit {base stride count : Nat} {offs : List Nat}
    (hrow : ∀ k < count, ∀ o ∈ offs, (regDefAt (base + stride * k + o)).isSome = true) (h0 : base ≤ a)
    (h1 : a - base < stride * count) : (a - base) % stride ∉ offs := fun ho =>
  ne_of_unoccupied h (occupied_of_unit hrow h0 h1 ho) rfl

/-! ## Reads -/

include h in
/-- No word is stored. -/
theorem State.storedWord_unoccupied (s : State) : s.storedWord a = 0 := by
  have hs : spwmShadowed a = false := by
    refine Bool.eq_false_iff.2 fun hs => ?_
    simp only [spwmShadowed, Bool.and_eq_true, Bool.or_eq_true, decide_eq_true_eq, beq_iff_eq] at hs
    obtain ⟨⟨h0, h1⟩, hm⟩ := hs
    refine unoccupied_not_unit h occupied_spwm h0 (by omega) ?_
    simp only [List.mem_cons]
    omega
  simp [State.storedWord, hs, h]

include h in
theorem State.viewAon_unoccupied (s : State) (w : Word) : s.viewAon a w = w := by
  simp (disch := decide) only [State.viewAon, ne_of_unoccupied h, if_false]

include h h4 in
theorem State.viewNet_unoccupied (s : State) (w : Word) (hd : domainOf a = some 0) : s.viewNet a w = w := by
  have h0 := le_of_domainOf_net hd
  simp (disch := decide) only [State.viewNet, ne_of_unoccupied h, if_false]
  split
  · next h1 =>
    have hp := unoccupied_not_unit h occupied_link h0 (by omega)
    simp only [List.mem_cons, List.not_mem_nil, or_false, not_or] at hp
    rw [if_neg (by omega), if_neg (by omega)]
  · split
    · next h2 =>
      have hs := unoccupied_not_unit h occupied_session h2.1 (by omega)
      simp only [List.mem_cons, List.not_mem_nil, or_false, not_or] at hs
      omega
    · rfl

include h h4 in
theorem State.viewPix_unoccupied (s : State) (w : Word) : s.viewPix a w = w := by
  simp (disch := decide) only [State.viewPix, ne_of_unoccupied h, if_false]
  refine if_neg fun hb => unoccupied_not_unit h occupied_boardFrame hb.1 (by omega) ?_
  simp only [List.mem_singleton]
  omega

include h in
theorem State.viewIox_unoccupied (s : State) (w : Word) : s.viewIox a w = w := by
  simp (disch := decide) only [State.viewIox, ne_of_unoccupied h, if_false]
  split
  · next hr =>
    have hp := unoccupied_not_unit h occupied_pawn hr.1 (by omega)
    simp only [List.mem_cons, List.not_mem_nil, or_false, not_or] at hp
    have e : (a - 0xD0100) % 0x40 = a % 0x40 := by omega
    rw [e] at hp
    obtain ⟨hState, -, hEmr, hSmr, hA, hB⟩ := hp
    unfold State.pawnRegWord
    split
    · next e => exact absurd e hState
    · next e => exact absurd e hEmr
    · next e => exact absurd e hSmr
    · next e => exact absurd e hA
    · next e => exact absurd e hB
    · rfl
  · rfl

include h in
theorem State.viewSup_unoccupied (s : State) (w : Word) (hd : domainOf a = some 5) : s.viewSup a w = w := by
  have h0 := le_of_domainOf_sup hd
  simp (disch := decide) only [State.viewSup, ne_of_unoccupied h, if_false]
  refine if_neg fun hm => unoccupied_not_unit h occupied_spwm h0 (by omega) ?_
  simp only [List.mem_cons]
  omega

variable (hf : blockOf a ≠ some .fcm)

include h h4 hf in
/-- R5: a read without side effects returns 0. -/
theorem State.viewWord_unoccupied (s : State) : s.viewWord a = 0 := by
  unfold State.viewWord
  rw [State.storedWord_unoccupied h]
  dsimp only
  split
  · exact State.viewAon_unoccupied h s 0
  · next hd => exact State.viewNet_unoccupied h h4 s 0 hd
  · rw [if_neg hf]
    exact State.viewPix_unoccupied h h4 s 0
  · exact State.viewIox_unoccupied h s 0
  · next hd => exact State.viewSup_unoccupied h s 0 hd
  · rfl

include h h4 hf in
theorem State.seenWord_unoccupied (s : State) : s.seenWord a = 0 := by
  simp [State.seenWord, hf, State.viewWord_unoccupied h h4 hf]

include h h4 hf in
/-- R5: a read returns 0 and has no effect. -/
theorem State.readWord_unoccupied (s : State) : s.readWord a = (0, s) := by
  have hrx : ¬(0xD0100 ≤ a ∧ a < 0xD0300 ∧ a % 0x40 = 0x14) := by
    rintro ⟨h0, h1, hm⟩
    refine unoccupied_not_unit h occupied_pawn h0 (by omega) ?_
    simp only [List.mem_cons]
    omega
  have hres : ¬(0xF0000 ≤ a ∧ a < 0xF0200 ∧ a % 0x40 = 0x2C) := by
    rintro ⟨h0, h1, hm⟩
    refine unoccupied_not_unit h occupied_cvuResult h0 (by omega) ?_
    simp only [List.mem_singleton]
    omega
  simp (disch := decide) only [State.readWord, ne_of_unoccupied h, if_false, if_neg hrx, if_neg hres,
    State.seenWord_unoccupied h h4 hf]

/-! ## Writes -/

include h hf in
/-- R5: a write to a powered block changes nothing. -/
theorem State.writeWord_unoccupied (s : State) (w : Word) : s.writeWord a w = s := by
  have ho : occupied a = false := by simp [occupied, h, hf]
  simp [State.writeWord, ho]

include h hf in
/-- R5, R64: a write that firmware or the service port makes lets the moves act that are due, whether the block is on or off. -/
theorem State.tryWrite_unoccupied (s : State) (w : Word) : s.tryWrite a w = { s.movesDue with cycle := (s.tryWrite a w).cycle } := by
  unfold State.tryWrite State.softWrite
  dsimp only
  split
  · rw [State.writeWord_unoccupied h hf]
    rfl
  · rfl

include h in
/-- R400, R446: of the locks only an entry of the armed Seal can name the word. -/
theorem State.locked_unoccupied (s : State) (w : Word) (hl : a ∉ s.store.locks) : s.locked a w = false := by
  have ho : otpMirrored a = false := by
    have hs : ∀ j < 6, a ≠ (Reg.SPWM_STRAP_EN (j / 3)).addr + 4 * (j % 3) := fun j hj =>
      ne_of_unoccupied h ((by decide : ∀ j < 6, (regDefAt ((Reg.SPWM_STRAP_EN (j / 3)).addr + 4 * (j % 3))).isSome = true) j hj)
    simpa (disch := decide) [otpMirrored, ne_of_unoccupied h] using hs
  have ht : (a == Reg.SPWM_TRIP_POL_POL.addr) = false := beq_eq_false_iff_ne.2 (ne_of_unoccupied h (by decide))
  simp [State.locked, State.strapLocked, State.sealLocked, ho, ht, h, hl]

end

end Sys2Proof.Machine
end

section
/-! PROOFS. What a word presented on a pawn or service tap leaves alone (R405 to R417): the check-value units work on their own records,
their registers and events, so that everything else of the state, and every register below EVT, stays. -/
namespace Sys2Proof.Machine

/-- From `s` to `t` only registers from EVT on, records of events, notes of the SYS cycle and check-value units may have changed. -/
def State.CvuWork (s t : State) : Prop := t = { s.withRecords t with cvu := t.cvu } ∧ ∀ a < 0x30000, t.reg a = s.reg a

theorem State.CvuWork.refl (s : State) : State.CvuWork s s := ⟨rfl, fun _ _ => rfl⟩

theorem State.CvuWork.trans {s t u : State} (h : State.CvuWork s t) (h' : State.CvuWork t u) : State.CvuWork s u := by
  obtain ⟨e, r⟩ := h
  obtain ⟨e', r'⟩ := h'
  refine ⟨?_, fun a ha => (r' a ha).trans (r a ha)⟩
  rw [e] at e'
  exact e'

section
variable {s t : State} (h : State.CvuWork s t)
include h

/-! ## Operations on the state -/

theorem State.CvuWork.setCycle (c : CycleSt) : State.CvuWork s { t with cycle := c } := h.trans ⟨rfl, fun _ _ => rfl⟩

theorem State.CvuWork.setCvu (n : Nat) (c : CvuSt) : State.CvuWork s (t.setCvu n c) := h.trans ⟨rfl, fun _ _ => rfl⟩

theorem State.CvuWork.wr (f : Fld) (v : Nat) (hf : 0x30000 ≤ f.addr) : State.CvuWork s (t.wr f v) :=
  h.trans ⟨rfl, fun a ha => State.reg_wr_other t f v a (by omega)⟩

theorem State.CvuWork.wrB (f : Fld) (b : Bool) (hf : 0x30000 ≤ f.addr) : State.CvuWork s (t.wrB f b) := h.wr f _ hf

theorem State.CvuWork.bump (f : Fld) (hf : 0x30000 ≤ f.addr) : State.CvuWork s (t.bump f) := (h.wr f _ hf).setCycle _

theorem State.CvuWork.setW1c (f : Fld) (hf : 0x30000 ≤ f.addr) : State.CvuWork s (t.setW1c f) := (h.wr f 1 hf).setCycle _

theorem State.CvuWork.raise (n d : Nat) : State.CvuWork s (t.raise n d) := by
  refine h.trans ⟨?_, fun a ha => State.raise_reg t n d a ?_ ?_ ?_⟩
  · have e := State.raise_withRecords t n d
    rw [e]
    rfl
  · simp only [Reg.EVT_RAW_RAW]; omega
  · simp only [Reg.EVT_DATA_DATA]; omega
  · simp only [Reg.PB_CNT1_EV_LOST]; omega

omit h in
/-- The registers of a unit lie behind EVT. -/
theorem le_cvu_addr (k n : Nat) (hk : 0xF0000 ≤ k := by decide) : 0x30000 ≤ k + 0x40 * n := by omega

/-! ## The units -/

theorem State.CvuWork.cvuInfo (n : Nat) (c : CvuSt) : State.CvuWork s (t.cvuInfo n c) :=
  ((h.wr _ _ (le_cvu_addr 0xF0030 n)).wrB _ _ (le_cvu_addr 0xF0030 n)).wrB _ _ (le_cvu_addr 0xF0030 n)

theorem State.CvuWork.setInfo (n : Nat) (c : CvuSt) : State.CvuWork s (t.setInfo n c) := by
  unfold State.setInfo
  split
  · exact h.setCvu n c
  · exact (h.setCvu n c).cvuInfo n c

theorem State.CvuWork.cvuMisEvent (n : Nat) : State.CvuWork s (t.cvuMisEvent n) := by
  unfold State.cvuMisEvent
  extract_lets c free
  split
  · exact (h.raise _ _).setCvu _ _
  · exact h

theorem State.CvuWork.cvuDoneEvent (n : Nat) : State.CvuWork s (t.cvuDoneEvent n) := by
  unfold State.cvuDoneEvent
  extract_lets c c' free
  split
  · exact (h.raise _ _).setCvu _ _
  · exact h.setCvu _ _

theorem State.CvuWork.cvuCompare (n r e : Nat) : State.CvuWork s (t.cvuCompare n r e) := by
  unfold State.cvuCompare
  split
  · exact h
  · exact (((h.setInfo n _).setW1c _ (le_cvu_addr 0xF0038 n)).bump _ (le_cvu_addr 0xF003C n)).cvuMisEvent n

theorem State.CvuWork.cvuCycleClose (n r : Nat) : State.CvuWork s (t.cvuCycleClose n r) := by
  unfold State.cvuCycleClose
  dsimp only
  split
  · exact (h.setCycle _).wr _ _ (le_cvu_addr 0xF0034 n)
  · exact h.setCycle _

theorem State.CvuWork.cvuClose (n : Nat) (st : Nat × List Byte) (short : Bool) (follow : Option (List Byte)) :
    State.CvuWork s (t.cvuClose n st short follow) := by
  unfold State.cvuClose
  dsimp only
  refine State.CvuWork.cvuDoneEvent ?_ n
  have hc := fun c r v o p => ((((((h.setInfo n c).wr (Reg.CVU_RESULT_RESULT n) r (le_cvu_addr 0xF002C n)).wr (Reg.CVU_VALUE_VALUE n) v
    (le_cvu_addr 0xF0028 n)).wr (Reg.CVU_STAT_OPEN n) o (le_cvu_addr 0xF0038 n)).wr (Reg.CVU_STAT_PART n) p
    (le_cvu_addr 0xF0038 n)).cvuCycleClose n r).bump (Reg.CVU_CNT_WINDOWS n) (le_cvu_addr 0xF003C n)
  split
  · exact hc ..
  · split
    · split
      · split
        · exact (hc ..).cvuCompare ..
        · exact (hc ..).setInfo ..
      · exact (hc ..).setCvu ..
    · exact (hc ..).cvuCompare ..

theorem State.CvuWork.cvuTrail (n r : Nat) (l : List Byte) : State.CvuWork s (t.cvuTrail n r l) := by
  unfold State.cvuTrail
  split
  · exact h.setCvu _ _
  · exact (h.setCvu _ _).cvuCompare ..

theorem State.CvuWork.cvuHold (n : Nat) (st : Nat × List Byte) (done : Nat) : State.CvuWork s (t.cvuHold n st done) :=
  (((h.setCvu _ _).wr _ _ (le_cvu_addr 0xF0028 n)).wr _ _ (le_cvu_addr 0xF0038 n)).wr _ _ (le_cvu_addr 0xF0038 n)

theorem State.CvuWork.cvuLate (n : Nat) (k : CloseSt) (b : Byte) : State.CvuWork s (t.cvuLate n k b) := by
  unfold State.cvuLate
  dsimp only
  have hc := fun c r v => (((h.setCycle c).wr (Reg.CVU_RESULT_RESULT n) r (le_cvu_addr 0xF002C n)).wr (Reg.CVU_VALUE_VALUE n) v
    (le_cvu_addr 0xF0028 n)).cvuCycleClose n r
  split
  · exact (hc ..).setCvu ..
  · split
    · exact hc ..
    · split
      · exact (hc ..).cvuCompare ..
      · exact (((hc ..).setInfo ..).wrB _ _ (le_cvu_addr 0xF0038 n)).wr _ _ (le_cvu_addr 0xF003C n)

theorem State.CvuWork.cvuRunByte (n : Nat) (b : Byte) : State.CvuWork s (State.cvuRunByte n t b) := by
  unfold State.cvuRunByte
  dsimp only
  split
  · exact h.cvuLate ..
  · exact h.cvuTrail ..
  · split
    · exact h
    · split
      · exact h.setCvu ..
      · split
        · exact ((h.cvuHold ..).setCvu ..).cvuClose ..
        · exact h.cvuHold ..

theorem State.CvuWork.cvuWordWindow (n : Nat) (w : Word) : State.CvuWork s (t.cvuWordWindow n w) := by
  unfold State.cvuWordWindow
  dsimp only
  split
  · exact h
  · exact (h.cvuHold ..).cvuClose ..

omit h in
/-- What each step of a fold leaves alone, the fold leaves alone. -/
theorem State.CvuWork.foldl {α : Type} {f : State → α → State} (hf : ∀ s t a, State.CvuWork s t → State.CvuWork s (f t a)) (s : State)
    (l : List α) {t : State} (h : State.CvuWork s t) : State.CvuWork s (l.foldl f t) := by
  induction l generalizing t with
  | nil => exact h
  | cons a l ih => exact ih (hf s t a h)

omit h in
/-- R405: a word on a pawn or service tap. -/
theorem State.CvuWork.cvuTapWord (s : State) (src sel : Nat) (w : Word) : State.CvuWork s (s.cvuTapWord src sel w) := by
  refine State.CvuWork.foldl (fun s t n h => ?_) s _ (State.CvuWork.refl s)
  split
  · exact h
  · split
    · exact h.cvuWordWindow n w
    · exact State.CvuWork.foldl (fun _ _ b h => h.cvuRunByte n b) s _ h

end

/-! ## What follows -/

section
variable {s t : State} (h : State.CvuWork s t)
include h

theorem State.CvuWork.cmd : t.cmd = s.cmd := by
  rw [h.1]
  rfl

theorem State.CvuWork.rd (f : Fld) (hf : f.addr < 0x30000) : t.rd f = s.rd f := State.rd_of_reg (h.2 _ hf)

theorem State.CvuWork.powered (d : Nat) : t.powered d = s.powered d := State.rdB_of_reg (h.2 _ (by decide : (0x10000 : Nat) < 0x30000))

end

/-- R405: a service tap that no unit listens on changes nothing. -/
theorem State.cvuTapWord_of_off (s : State) (src sel : Nat) (w : Word) (h : ∀ n ∈ List.range 8, s.cvuOn n src sel = false) :
    s.cvuTapWord src sel w = s := by
  unfold State.cvuTapWord
  generalize List.range 8 = l at h
  induction l with
  | nil => rfl
  | cons n l ih =>
    rw [List.foldl_cons, if_pos (by simp [h n (List.mem_cons_self ..)])]
    exact ih fun m hm => h m (List.mem_cons_of_mem _ hm)

end Sys2Proof.Machine
end

section
/-! PROOFS. A command that `served` names runs at once: over each transport of chapter 11 the block takes it in as `takenIn` says, and its
opcode runs on the parameters (R275, R303 to R309, R322, R347). -/
namespace Sys2Proof.Machine

/-! ## The COMMAND payload (R305) -/

theorem beBytes_two (v : Nat) : beBytes 2 v = [BitVec.ofNat 8 (v / 256), BitVec.ofNat 8 v] := by
  simp [beBytes, List.range_succ]

/-- A field of two bytes reads back modulo 2^16. -/
theorem beNat_beBytes_two (v : Nat) : beNat (beBytes 2 v) = v % 65536 := by
  simp only [beBytes_two, beNat, List.foldl_cons, List.foldl_nil, BitVec.toNat_ofNat]
  omega

theorem beBytes_two_length (v : Nat) : (beBytes 2 v).length = 2 := by
  rw [beBytes_two]
  rfl

theorem cmdPayload_length (op : Nat) (p : List Byte) : (cmdPayload op p).length = p.length + 4 := by
  rw [cmdPayload, List.length_append, List.length_append, beBytes_two_length, beBytes_two_length]
  omega

theorem cmdOpcode_cmdPayload (op : Nat) (p : List Byte) (h : op < 65536) : cmdOpcode (cmdPayload op p) = op := by
  have hs : slice (cmdPayload op p) 0 2 = beBytes 2 op := by
    rw [cmdPayload, beBytes_two, beBytes_two]
    rfl
  rw [cmdOpcode, cmdPayload_length, if_neg (by omega), beAt, hs, beNat_beBytes_two, Nat.mod_eq_of_lt h]

theorem cmdPlenOk_cmdPayload (op : Nat) (p : List Byte) (h : p.length < 65536) : cmdPlenOk (cmdPayload op p) = true := by
  have hs : slice (cmdPayload op p) 2 2 = beBytes 2 p.length := by
    rw [cmdPayload, beBytes_two, beBytes_two]
    rfl
  have hn : beAt (cmdPayload op p) 2 2 = p.length := by rw [beAt, hs, beNat_beBytes_two, Nat.mod_eq_of_lt h]
  rw [cmdPlenOk, cmdPayload_length, hn, Nat.add_sub_cancel]
  simp

theorem cmdParams_cmdPayload (op : Nat) (p : List Byte) : cmdParams (cmdPayload op p) = p := by
  rw [cmdParams, cmdPayload, beBytes_two, beBytes_two]
  rfl

/-! ## Commands in order -/

/-- R306: a command that nothing keeps waiting runs. -/
theorem State.takeCommand_now (s : State) (o : Origin) (op : Nat) (ok : Bool) (p : List Byte) (hc : s.coreDown = false)
    (hw : s.mustWait o op = false) : s.takeCommand o op ok p = s.runCommand o op ok p := by
  simp [State.takeCommand, hc, hw]

theorem State.coreDown_of_regs {s t : State} (h : t.reg 4 = s.reg 4) : t.coreDown = s.coreDown := State.rdB_of_reg h

theorem State.devState_of_regs {s t : State} (h : t.reg 4 = s.reg 4) : t.devState = s.devState := State.rd_of_reg h

theorem State.hearPartner_regs (s : State) (n : Nat) : (s.hearPartner n).regs = s.regs := rfl

theorem State.updSession_regs (s : State) (h : Nat) (f : Session → Session) : (s.updSession h f).regs = s.regs := by
  unfold State.updSession
  split <;> rfl

/-! ## In a session -/

/-- The state in which a command of a session runs: its partner has been heard, and one credit taken (R303, R309). -/
def State.creditTaken (s : State) (h : Nat) (x : Session) (noReply : Bool) : State :=
  if noReply then s.hearPartner x.partner else (s.hearPartner x.partner).updSession h Session.take

theorem State.creditTaken_regs (s : State) (h : Nat) (x : Session) (noReply : Bool) : (s.creditTaken h x noReply).regs = s.regs := by
  unfold State.creditTaken
  split
  · rfl
  · exact State.updSession_regs ..

theorem State.takenIn_session {s u : State} {i : Fin 32} {tag : Word} {noReply : Bool} {when_ : BitVec 64} {b : List Byte} {o : Origin}
    (h : s.takenIn (.session i tag noReply when_) b = some (o, u)) :
    s.coreDown = false ∧ 2 ≤ s.devState ∧ b.length ≤ 9600 ∧ s.powered 0 = true ∧
      ∃ x, tabFind s.klp.sessions i.val = some x ∧ (noReply = true ∨ x.avail ≠ 0) ∧ (x.verMaj = 3 → when_ = 0) ∧
        o = .klp (s.handle 1 i.val) tag.toNat noReply (!noReply) x.peer ∧ u = s.creditTaken (s.handle 1 i.val) x noReply := by
  unfold State.takenIn at h
  dsimp only at h
  split at h
  · cases h
  · next hs =>
    split at h
    · next x hx =>
      split at h
      · next hc =>
        obtain ⟨hp, ha, hw, hl⟩ := hc
        cases h
        simp only [not_or, Bool.not_eq_true, Nat.not_lt] at hs
        exact ⟨hs.1, hs.2, hl, hp, x, hx, ha, hw, rfl, rfl⟩
      · cases h
    · cases h

theorem State.commandVia_session {s u : State} {i : Fin 32} {tag : Word} {noReply : Bool} {when_ : BitVec 64} {op : Nat} {p : List Byte}
    {o : Origin} (hop : op < 65536) (h : s.takenIn (.session i tag noReply when_) (cmdPayload op p) = some (o, u))
    (hw : u.mustWait o op = false) : s.commandVia (.session i tag noReply when_) op p = u.runCommand o op true p := by
  obtain ⟨hc, hd, hl, hp, x, hx, ha, hv, rfl, rfl⟩ := State.takenIn_session h
  rw [cmdPayload_length] at hl
  have hr := State.creditTaken_regs s (s.handle 1 i.val) x noReply
  have hcu : (s.creditTaken (s.handle 1 i.val) x noReply).coreDown = false :=
    (State.coreDown_of_regs (State.reg_congr hr 4)).trans hc
  have hch : (s.hearPartner x.partner).coreDown = false := (State.coreDown_of_regs (State.reg_congr (State.hearPartner_regs ..) 4)).trans hc
  have hcr : (!noReply && x.avail == 0) = false := by
    rcases ha with rfl | ha
    · rfl
    · simp [ha]
  have hvt : ¬(x.verMaj = 3 ∧ when_.toNat ≠ 0) := by
    rintro ⟨h3, h0⟩
    exact h0 (by rw [hv h3]; rfl)
  have hd' : ¬s.devState < 2 := by omega
  simp only [State.commandVia, hx, hp, State.acceptCommand, hcr, hch, hvt, hd', decide_false, Bool.not_true, Bool.or_self, if_false,
    cmdOpcode_cmdPayload op p hop, cmdPlenOk_cmdPayload op p (by omega), cmdParams_cmdPayload, Bool.false_eq_true]
  exact State.takeCommand_now _ _ _ _ _ hcu hw

/-! ## On the poll bus -/

theorem State.takenIn_poll {s u : State} {b : List Byte} {o : Origin} (h : s.takenIn .poll b = some (o, u)) :
    s.coreDown = false ∧ 2 ≤ s.devState ∧ b.length ≤ 1024 ∧ s.powered 4 = true ∧
      ((∃ f rest, s.poll.cmds = (b, f) :: rest ∧ o = .poll f ∧ u = { s with poll := { s.poll with cmds := rest } }) ∨
        ((∀ e ∈ s.poll.cmds.head?, e.1 ≠ b) ∧ s.pollWaiting < 4 ∧ o = .poll false ∧ u = s)) := by
  unfold State.takenIn at h
  dsimp only at h
  split at h
  · cases h
  · next hs =>
    simp only [not_or, Bool.not_eq_true, Nat.not_lt] at hs
    split at h
    · next hp =>
      refine ⟨hs.1, hs.2, hp.2, hp.1, ?_⟩
      cases hq : s.poll.cmds with
      | nil =>
        simp only [hq, List.head?_nil, Option.map_none, reduceCtorEq, if_false] at h
        split at h
        · next hn =>
          cases h
          exact .inr ⟨by simp, hn, rfl, rfl⟩
        · cases h
      | cons e rest =>
        obtain ⟨c, f⟩ := e
        simp only [hq, List.head?_cons, Option.map_some, Option.some.injEq, Option.getD_some, List.tail_cons] at h
        split at h
        · next hb =>
          cases h
          exact .inl ⟨f, rest, by rw [hb], rfl, rfl⟩
        · next hb =>
          split at h
          · next hn =>
            cases h
            exact .inr ⟨by simpa using hb, hn, rfl, rfl⟩
          · cases h
    · cases h

theorem State.commandVia_poll {s u : State} {op : Nat} {p : List Byte} {o : Origin} (hop : op < 65536)
    (h : s.takenIn .poll (cmdPayload op p) = some (o, u)) (hw : u.mustWait o op = false) :
    s.commandVia .poll op p = u.runCommand o op true p := by
  obtain ⟨hc, hd, hl, hp, hq⟩ := State.takenIn_poll h
  rw [cmdPayload_length] at hl
  have hd' : ¬s.devState < 2 := by omega
  have run : ∀ (t : State) (f : Bool), t.coreDown = false → t.mustWait (.poll f) op = false →
      t.pollRun (cmdPayload op p) f = t.runCommand (.poll f) op true p := by
    intro t f htc htw
    unfold State.pollRun
    rw [cmdOpcode_cmdPayload op p hop, cmdPlenOk_cmdPayload op p (by omega), cmdParams_cmdPayload]
    exact State.takeCommand_now _ _ _ _ _ htc htw
  simp only [State.commandVia, hc, hp, hd', decide_false, Bool.not_true, Bool.or_self, if_false, Bool.false_eq_true]
  rcases hq with ⟨f, rest, hq, rfl, rfl⟩ | ⟨hne, hn, rfl, hu⟩
  · rw [hq]
    dsimp only
    rw [if_pos rfl]
    exact run _ f hc hw
  · subst hu
    have hn' : ¬4 ≤ u.pollWaiting := by omega
    cases hq : u.poll.cmds with
    | nil => simpa only [hn', if_false] using run u false hc hw
    | cons e rest =>
      obtain ⟨c, f⟩ := e
      have hcb : c ≠ cmdPayload op p := hne (c, f) (by simp [hq])
      simpa only [hn', hcb, if_false] using run u false hc hw

/-! ## Through the mailbox -/

/-- Entries above an address leave it unlisted. -/
theorem SMap.get_of_above {α : Type} (d : Nat → α) (m : List (Nat × α)) (a : Nat) (h : ∀ e ∈ m, a < e.1) : SMap.get d m a = d a := by
  cases m with
  | nil => rfl
  | cons e m => exact if_pos (h e (List.mem_cons_self ..))

/-- A block of cells in front of entries beyond it reads back what was written. -/
theorem SMap.get_cells_append {α : Type} [DecidableEq α] (d f : Nat → α) (n : Nat) : ∀ (lo i : Nat) (m : List (Nat × α)), lo ≤ i →
    i < lo + n → (∀ e ∈ m, lo + n ≤ e.1) → SMap.get d (SMap.cells d f lo n ++ m) i = f i := by
  induction n with
  | zero => intro lo i m h0 h1; omega
  | succ n ih =>
    intro lo i m h0 h1 hm
    have hm' : ∀ e ∈ m, lo + 1 + n ≤ e.1 := fun e he => by have := hm e he; omega
    unfold SMap.cells
    rcases Nat.eq_or_lt_of_le h0 with rfl | hlt
    · split
      · next hf =>
        rw [hf]
        refine SMap.get_of_above d _ lo fun e he => ?_
        rcases List.mem_append.1 he with he | he
        · have := (SMap.cells_wf d f n (lo + 1)).2 e he; omega
        · have := hm e he; omega
      · rw [List.cons_append, SMap.get, if_neg (Nat.lt_irrefl _), if_pos rfl]
    · have rest := ih (lo + 1) i m (by omega) (by omega) hm'
      split
      · exact rest
      · rw [List.cons_append, SMap.get, if_neg (by omega), if_neg (by omega), rest]

/-- A range reads back what was written to it. -/
theorem SMap.get_setRange {α : Type} [DecidableEq α] (d : Nat → α) (m : List (Nat × α)) (lo n : Nat) (f : Nat → α) (i : Nat)
    (h0 : lo ≤ i) (h1 : i < lo + n) : SMap.get d (SMap.setRange d m lo n f) i = f i := by
  unfold SMap.setRange
  induction m with
  | nil => simpa [SMap.splice] using SMap.get_cells_append d f n lo i [] h0 h1 (by simp)
  | cons e m ih =>
    obtain ⟨k, v⟩ := e
    unfold SMap.splice
    split
    · rw [SMap.get, if_neg (by omega), if_neg (by omega), ih]
    · refine SMap.get_cells_append d f n lo i _ h0 h1 fun e he => ?_
      simpa using (List.mem_filter.1 he).2

/-- The state with other command records. -/
def State.setCmd (s : State) (c : CmdSt) : State := { s with cmd := c }

theorem State.wr_setCmd (s : State) (f : Fld) (v : Nat) (c : CmdSt) : (s.wr f v).setCmd c = (s.setCmd c).wr f v := rfl

theorem State.setCmd_regs (s : State) (c : CmdSt) : (s.setCmd c).regs = s.regs := rfl

/-- The command records with a command's bytes in the inbound buffer; `due`: it waits to be served. -/
def CmdSt.mailIn (c : CmdSt) (b : List Byte) (due : Bool) : CmdSt :=
  { c with mboxIn := SMap.setRange (fun _ => (0 : Byte)) c.mboxIn 0 b.length fun a => b.getD a 0, mboxDue := due }

/-- A command has come through the mailbox: its bytes stand in the inbound buffer, LEN covers them, and BUSY is 1 (R347). -/
def State.mailIn (t : State) (b : List Byte) (due : Bool) : State :=
  ((t.setCmd (t.cmd.mailIn b due)).wr Reg.SVC_MBOX_LEN b.length).wr Reg.SVC_MBOX_BUSY 1

theorem State.mailIn_reg (t : State) (b : List Byte) (due : Bool) (a : Nat) (h : a ≠ Reg.SVC_MBOX_LEN.addr) :
    (t.mailIn b due).reg a = t.reg a := by
  unfold State.mailIn
  rw [State.reg_wr_other _ Reg.SVC_MBOX_BUSY _ _ h, State.reg_wr_other _ Reg.SVC_MBOX_LEN _ _ h]
  exact State.reg_congr (State.setCmd_regs ..) a

theorem State.mailIn_len (t : State) (b : List Byte) (due : Bool) (h : b.length ≤ 1024) :
    (t.mailIn b due).rd Reg.SVC_MBOX_LEN = b.length := by
  unfold State.mailIn
  rw [State.rd_wr_apart _ Reg.SVC_MBOX_BUSY Reg.SVC_MBOX_LEN _ (by decide) (by decide), State.rd_wr_same _ _ _ (by decide)]
  exact Nat.mod_eq_of_lt (by show b.length < 2 ^ 11; omega)

/-- The command that LEN covers is the one that has come. -/
theorem State.mboxCommand_mailIn (t : State) (b : List Byte) (due : Bool) (h : b.length ≤ 1024) :
    (t.mailIn b due).mboxCommand = b := by
  unfold State.mboxCommand
  rw [State.mailIn_len t b due h, Nat.min_eq_right h]
  refine List.ext_getElem (by simp) fun i h1 h2 => ?_
  simp only [List.getElem_map, List.getElem_range]
  refine (SMap.get_setRange _ _ _ _ _ i (Nat.zero_le i) (by omega)).trans ?_
  rw [List.getD_eq_getElem?_getD, List.getElem?_eq_getElem h2, Option.getD_some]

/-- The mailbox command no longer waits to be served. -/
theorem State.mailIn_served (t : State) (b : List Byte) :
    (t.mailIn b true).setCmd { (t.mailIn b true).cmd with mboxDue := false } = t.mailIn b false := by
  unfold State.mailIn
  rw [State.wr_setCmd, State.wr_setCmd]
  rfl

/-- R347: with the control core up, a mailbox command of a right length is taken. -/
theorem State.mboxRun_up (s : State) (b : List Byte) (hc : s.coreDown = false) (hs : s.rd Reg.SVC_MBOX_LEN = b.length)
    (h0 : 4 ≤ b.length) (h1 : b.length ≤ 1024) : s.mboxRun b =
      (s.setCmd { s.cmd with mboxDue := false }).takeCommand (.mbox true) (cmdOpcode b) (cmdPlenOk b) (cmdParams b) := by
  have hc' : ¬(s.setCmd { s.cmd with mboxDue := false }).coreDown = true := fun h => Bool.false_ne_true (hc.symm.trans h)
  have hl : ¬((s.setCmd { s.cmd with mboxDue := false }).rd Reg.SVC_MBOX_LEN < 4 ∨
      1024 < (s.setCmd { s.cmd with mboxDue := false }).rd Reg.SVC_MBOX_LEN) := by
    rw [State.rd_congr (State.setCmd_regs ..), hs]
    omega
  exact (if_neg hc').trans (if_neg hl)

/-- The mailbox command that waits runs, in the state in which it no longer waits. -/
theorem State.mboxServe_mailIn (t : State) (op : Nat) (p : List Byte) (hop : op < 65536) (hl : (cmdPayload op p).length ≤ 1024)
    (h4 : t.powered 4 = true) (hd : 2 ≤ t.devState) (hc : t.coreDown = false)
    (hw : (t.mailIn (cmdPayload op p) false).mustWait (.mbox true) op = false) :
    (t.mailIn (cmdPayload op p) true).mboxServe = (t.mailIn (cmdPayload op p) false).runCommand (.mbox true) op true p := by
  have reg4 := fun due => State.mailIn_reg t (cmdPayload op p) due 4 (by decide)
  have hp : (t.mailIn (cmdPayload op p) true).powered 4 = true :=
    (State.rdB_of_reg (State.mailIn_reg _ _ _ _ (by decide))).trans h4
  have hd' : 2 ≤ (t.mailIn (cmdPayload op p) true).devState := (State.devState_of_regs (reg4 true)).symm ▸ hd
  have hc' := fun due => (State.coreDown_of_regs (reg4 due)).trans hc
  have hdue : (t.mailIn (cmdPayload op p) true).cmd.mboxDue = true := rfl
  have h0 := cmdPayload_length op p
  unfold State.mboxServe
  rw [if_pos (by simp [hp, hd', hdue]), State.mboxCommand_mailIn t _ true hl,
    State.mboxRun_up _ _ (hc' true) (State.mailIn_len t _ true hl) (by omega) hl, State.mailIn_served,
    cmdOpcode_cmdPayload op p hop, cmdPlenOk_cmdPayload op p (by omega), cmdParams_cmdPayload]
  exact State.takeCommand_now _ _ _ _ _ (hc' false) hw

/-- A command sent, whose word with SEND a tap has seen (R347, R405). -/
def State.mailed (s : State) (b : List Byte) (due : Bool) : State :=
  (s.cvuTapWord 6 0 (BitVec.ofNat 32 (b.length + 2 ^ 16))).mailIn b due

theorem State.takenIn_mbox {s u : State} {b : List Byte} {o : Origin} (h : s.takenIn .mbox b = some (o, u)) :
    s.coreDown = false ∧ 2 ≤ s.devState ∧ b.length ≤ 1024 ∧ s.powered 4 = true ∧ s.rd Reg.SVC_MBOX_BUSY = 0 ∧
      s.rd Reg.SVC_MBOX_RDY = 0 ∧ o = .mbox true ∧ u = s.mailed b false := by
  unfold State.takenIn at h
  dsimp only at h
  split at h
  · cases h
  · next hs =>
    split at h
    · next hc =>
      obtain ⟨hp, hb, hr, hl⟩ := hc
      simp only [not_or, Bool.not_eq_true, Nat.not_lt] at hs
      simp only [Option.some.injEq, Prod.mk.injEq] at h
      refine ⟨hs.1, hs.2, hl, hp, hb, hr, h.1.symm, h.2.symm.trans ?_⟩
      unfold State.mailed State.mailIn
      rw [← State.wr_setCmd, ← State.wr_setCmd, (State.CvuWork.cvuTapWord ..).cmd]
      rfl
    · cases h

/-- R347: with neither BUSY nor RDY set, a command sent fills the buffer and waits to be served. -/
theorem State.mboxSubmit_free (s : State) (b : List Byte) (hl : b.length ≤ 1024) (hb : s.rd Reg.SVC_MBOX_BUSY = 0)
    (hr : s.rd Reg.SVC_MBOX_RDY = 0) : s.mboxSubmit b = (s.mailed b true).mboxServe := by
  have tap := State.CvuWork.cvuTapWord s 6 0 (BitVec.ofNat 32 (b.length + 2 ^ 16))
  have hb' := (tap.rd Reg.SVC_MBOX_BUSY (by decide)).trans hb
  have hr' := (tap.rd Reg.SVC_MBOX_RDY (by decide)).trans hr
  unfold State.mboxSubmit State.mailed
  rw [Nat.mod_eq_of_lt (by omega : b.length < 2048)]
  generalize s.cvuTapWord 6 0 (BitVec.ofNat 32 (b.length + 2 ^ 16)) = t at hb' hr' ⊢
  simp only [State.rdB, hb', hr', bne_self_eq_false, Bool.or_self, if_false, Bool.false_eq_true, Nat.min_eq_right hl]
  rfl

theorem State.commandVia_mbox {s u : State} {op : Nat} {p : List Byte} {o : Origin} (hop : op < 65536)
    (h : s.takenIn .mbox (cmdPayload op p) = some (o, u)) (hw : u.mustWait o op = false) :
    s.commandVia .mbox op p = u.runCommand o op true p := by
  obtain ⟨hc, hd, hl, hp, hb, hr, rfl, rfl⟩ := State.takenIn_mbox h
  have tap := State.CvuWork.cvuTapWord s 6 0 (BitVec.ofNat 32 ((cmdPayload op p).length + 2 ^ 16))
  have reg4 := tap.2 4 (by decide)
  unfold State.commandVia
  dsimp only
  rw [if_pos hp, State.mboxSubmit_free s _ hl hb hr]
  exact State.mboxServe_mailIn _ op p hop hl ((tap.powered 4).trans hp) ((State.devState_of_regs reg4).symm ▸ hd)
    ((State.coreDown_of_regs reg4).trans hc) hw

/-! ## Over any transport -/

/-- A command taken in runs, in the state that `takenIn` names. -/
theorem State.commandVia_takenIn {s u : State} {via : Via} {op : Nat} {p : List Byte} {o : Origin} (hop : op < 65536)
    (h : s.takenIn via (cmdPayload op p) = some (o, u)) (hw : u.mustWait o op = false) :
    s.commandVia via op p = u.runCommand o op true p := by
  cases via with
  | session i tag noReply when_ => exact State.commandVia_session hop h hw
  | poll => exact State.commandVia_poll hop h hw
  | mbox => exact State.commandVia_mbox hop h hw

/-- Taking a command in leaves SYS_STATE. -/
theorem State.takenIn_devState {s u : State} {via : Via} {b : List Byte} {o : Origin} (h : s.takenIn via b = some (o, u)) :
    u.devState = s.devState := by
  refine State.devState_of_regs ?_
  cases via with
  | session i tag noReply when_ =>
    obtain ⟨-, -, -, -, x, -, -, -, -, rfl⟩ := State.takenIn_session h
    exact State.reg_congr (State.creditTaken_regs ..) 4
  | poll =>
    obtain ⟨-, -, -, -, ⟨f, rest, -, -, rfl⟩ | ⟨-, -, -, rfl⟩⟩ := State.takenIn_poll h
    · rfl
    · rfl
  | mbox =>
    obtain ⟨-, -, -, -, -, -, -, rfl⟩ := State.takenIn_mbox h
    exact (State.mailIn_reg _ _ _ 4 (by decide)).trans ((State.CvuWork.cvuTapWord ..).2 4 (by decide))

/-- R322: each row of the tables is the one by which the block tests its opcode; KLP carries every opcode but HELLO (R327). -/
theorem opRow_of_commandRow : ∀ r ∈ commandRows,
    r.op < 65536 ∧ opRow r.op = some ⟨r.states, r.len, r.poll, r.mbox⟩ ∧ (r.klp = true → r.op ≠ 1) := by decide

/-- A transport that has the row carries its opcode. -/
theorem OpRow.carried_takenIn {s u : State} {via : Via} {b : List Byte} {o : Origin} (h : s.takenIn via b = some (o, u)) {r : CommandRow}
    (hr : r ∈ commandRows) (hon : r.on via = true) : OpRow.carried ⟨r.states, r.len, r.poll, r.mbox⟩ r.op o = true := by
  cases via with
  | session i tag noReply when_ =>
    obtain ⟨-, -, -, -, x, -, -, -, rfl, -⟩ := State.takenIn_session h
    obtain ⟨-, -, hk⟩ := opRow_of_commandRow r hr
    simpa [OpRow.carried] using hk hon
  | poll =>
    obtain ⟨-, -, -, -, ⟨f, rest, -, rfl, -⟩ | ⟨-, -, rfl, -⟩⟩ := State.takenIn_poll h
    · exact hon
    · exact hon
  | mbox =>
    obtain ⟨-, -, -, -, -, -, rfl, -⟩ := State.takenIn_mbox h
    exact hon

/-- A command that is served runs its opcode on its parameters, and what that answers becomes the reply. -/
theorem State.commandVia_served {s u : State} {op : Nat} {via : Via} {p : List Byte} {o : Origin} (h : s.served op via p = some (o, u)) :
    s.commandVia via op p = State.settle o op (u.runOp o op p) := by
  unfold State.served at h
  split at h
  · next row hrow =>
    split at h
    · next hc =>
      obtain ⟨hon, hst, hlen⟩ := hc
      obtain ⟨ht, hw⟩ := Option.filter_eq_some_iff.1 h
      have hop : row.op = op := by simpa using List.find?_some hrow
      subst hop
      have hmem := List.mem_of_find?_eq_some hrow
      obtain ⟨hlt, hr, -⟩ := opRow_of_commandRow row hmem
      rw [State.commandVia_takenIn hlt ht (by simpa using hw)]
      have hd := State.takenIn_devState ht
      have hcar := OpRow.carried_takenIn ht hmem hon
      unfold State.runCommand State.perform
      rw [hr]
      have hst' : row.states.contains u.devState = true := by simpa [hd] using hst
      have hlen' : ¬p.length < row.len := by omega
      simp only [hcar, hst', hlen', decide_false, Bool.not_true, Bool.or_self, if_false, Bool.false_eq_true]
    · cases h
  · cases h

end Sys2Proof.Machine
end

section
/-! PROOFS. An offset of a block that no register occupies reads 0, ignores writes and raises no event (R5), over each path by which
software reaches a register. -/
namespace Sys2Proof.Machine

theorem svcAddr_aligned (a : Word) (h4 : a.toNat % 4 = 0) : svcAddr a 0 = a.toNat := by
  have := a.isLt
  unfold svcAddr
  omega

theorem State.runOp_regRd (s : State) (o : Origin) (p : List Byte) : s.runOp o 0x0101 p = s.cmdRegRd p := rfl

theorem State.runOp_regWr (s : State) (o : Origin) (p : List Byte) : s.runOp o 0x0102 p = s.cmdRegWr p := rfl

/-- R329: one aligned word of a powered block is a range that a command may name. -/
theorem State.rangeOk_one {s : State} {a : Nat} (ha : a < 2 ^ 32) (h4 : a % 4 = 0) (hb : blockOf a ≠ none) (hon : s.blockOn a = true) :
    s.rangeOk a 1 = true := by
  have hm : a % 4294967296 = a := Nat.mod_eq_of_lt ha
  simp [State.rangeOk, h4, hm, hon, Option.isSome_iff_ne_none, hb]

section
variable {a : Word} (h4 : a.toNat % 4 = 0) (hb : blockOf a.toNat ≠ none) (hf : blockOf a.toNat ≠ some .fcm) (hn : regDefAt a.toNat = none)
include h4 hf hn

/-- R3, R64: a register write lets time pass and the moves act. -/
theorem execRegisterWrite_unoccupied (at_ : Vt) (w : Word) (s : State) :
    Answers (exec (.registerWrite at_ a w) s) fun t => t = { (s.elapseTo at_).movesDue with cycle := t.cycle } := by
  have ha : a.toNat / 4 * 4 = a.toNat := by omega
  refine ⟨(s.elapseTo at_).tryWrite a.toNat w, ?_, State.tryWrite_unoccupied hn hf _ w⟩
  show execRegisterWrite at_ a w s = _
  unfold execRegisterWrite
  rw [ha]

/-- R345: a service read of the word, with no unit on its tap, gives four bytes of 0. -/
theorem State.svcReads_unoccupied (c : State) (hon : c.blockOn a.toNat = true) (htap : ∀ n ∈ List.range 8, c.cvuOn n 7 0 = false) :
    c.svcReads a 1 [] = ([0, 0, 0, 0], c) := by
  have hr : c.svcRead a.toNat false = (0, c) := by
    simp [State.svcRead, hon, State.readWord_unoccupied hn h4 hf]
  simp only [State.svcReads, List.range_one, List.foldl_cons, List.foldl_nil, svcAddr_aligned a h4, List.contains_nil, hr,
    State.cvuTapWord_of_off c 7 0 0 htap]
  rfl

theorem execSvcRegisterRead_unoccupied (at_ : Vt) (s : State) (h4on : (s.elapseTo at_).commandsFirst.powered 4 = true)
    (hon : (s.elapseTo at_).commandsFirst.blockOn a.toNat = true)
    (htap : ∀ n ∈ List.range 8, (s.elapseTo at_).commandsFirst.cvuOn n 7 0 = false) :
    exec (.svcRegisterRead at_ a 1 []) s = .next ((s.elapseTo at_).commandsFirst.readGave [0, 0, 0, 0]) := by
  show execSvcRegisterRead at_ a 1 [] s = _
  unfold execSvcRegisterRead
  dsimp only
  rw [if_pos h4on, show (1 : BitVec 16).toNat = 1 from rfl, State.svcReads_unoccupied h4 hf hn _ hon htap]

include hb

/-- R328: REG_RD of the word answers 0 and leaves the state. -/
theorem State.cmdRegRd_unoccupied (u : State) (p : List Byte) (ha : beAt p 0 4 = a.toNat) (hc : beAt p 4 2 = 1) (hr : beAt p 6 2 = 0)
    (hon : u.blockOn a.toNat = true) : u.cmdRegRd p = u.answer [0, 0, 0, 0] := by
  have hw : u.readWords a.toNat 1 = ([0, 0, 0, 0], u) := by
    simp only [State.readWords, List.range_one, List.foldl_cons, List.foldl_nil, Nat.mul_zero, Nat.add_zero, Nat.mod_eq_of_lt a.isLt,
      State.readWord_unoccupied hn h4 hf]
    rfl
  simp [State.cmdRegRd, ha, hc, reserved, hr, State.rangeOk_one a.isLt h4 hb hon, hw]

/-- R329: REG_WR of the word, which no entry of the armed Seal locks, is done, and lets the moves act that are due. -/
theorem State.cmdRegWr_unoccupied (u : State) (p : List Byte) (ha : beAt p 0 4 = a.toNat) (hc : beAt p 4 2 = 1) (hr : beAt p 6 2 = 0)
    (hon : u.blockOn a.toNat = true) (hl : 12 ≤ p.length) (hk : a.toNat ∉ u.store.locks) :
    ∃ v : State, v = { u.movesDue with cycle := v.cycle } ∧ u.cmdRegWr p = v.done := by
  have hws : regWrites p = [(a.toNat, BitVec.ofNat 32 (leNat (slice p 8 4)))] := by
    simp [regWrites, hc, ha, Nat.mod_eq_of_lt a.isLt]
  refine ⟨u.tryWrite a.toNat _, State.tryWrite_unoccupied hn hf u (BitVec.ofNat 32 (leNat (slice p 8 4))), ?_⟩
  have hl' : ¬p.length < 8 + 4 := by omega
  simp [State.cmdRegWr, ha, hc, reserved, hr, State.rangeOk_one a.isLt h4 hb hon, hws, hl', State.locked_unoccupied hn u _ hk]

end

/-- Settles O44: no row of the register index covers the word, so that what each path reads there is 0 (`readWord_unoccupied`), what it writes
there changes nothing (`tryWrite_unoccupied`), and a served opcode runs on its parameters whatever its transport (`commandVia_served`). -/
theorem unoccupiedOffsetsReadZeroAndIgnoreWrites : Obligations.UnoccupiedOffsetsReadZeroAndIgnoreWrites := by
  unfold Obligations.UnoccupiedOffsetsReadZeroAndIgnoreWrites
  intro s at_ a w e h4 hb hf hn c
  refine ⟨execRegisterWrite_unoccupied h4 hf hn at_ w s, fun h4on hon htap => execSvcRegisterRead_unoccupied h4 hf hn at_ s h4on hon htap,
    fun via p o u ha hc hr hon => ⟨fun hs => ?_, fun hs hl hk => ?_⟩⟩
  · show Host.Outcome.next (s.commandVia via 0x0101 p) = _
    rw [State.commandVia_served hs, State.runOp_regRd, State.cmdRegRd_unoccupied h4 hb hf hn u p ha hc hr hon]
    rfl
  · obtain ⟨v, hv, hdone⟩ := State.cmdRegWr_unoccupied h4 hb hf hn u p ha hc hr hon hl hk
    refine ⟨v, hv, ?_⟩
    show Host.Outcome.next (s.commandVia via 0x0102 p) = _
    rw [State.commandVia_served hs, State.runOp_regWr, hdone]
    rfl

end Sys2Proof.Machine
end
